-- ==== Sys2Proof/Word.lean ====
section
/-! DEFINITION. The word types of the manual: the 32-bit register word (R4), the byte, and the
bounded numbers of the grid (R7, R8, R9). Plain types only. -/
namespace Sys2Proof

/-- One register word of the fabric configuration space (R506). -/
abbrev Word32 := BitVec 32

/-- One byte-symbol of the queue store, or one payload byte (R3, R296). -/
abbrev Byte := BitVec 8

/-- A stop number s = 16·y + x (R7). -/
abbrev StopNo := Fin 192

/-- An agent port of a stop: 0 primary, 1 secondary (R9). -/
abbrev PortNo := Fin 2

/-- A directional ring index (R8). -/
abbrev RingNo := Fin 112

/-- A die-to-die port number DP0–DP7 (Table 1.3). -/
abbrev DpNo := Fin 8

/-- A hardware queue of one stop (R251). -/
abbrev QueueNo := Fin 256

/-- A switched fabric domain: NG0–NG47 as 0 to 47, DP0–DP7 as 48 to 55 (R349). -/
abbrev DomNo := Fin 56

end Sys2Proof
end

