-- ==== Sys2Proof/Syntax.lean ====
section
/-! DEFINITION. The commands of the block: one constructor of `Instr` per row of
spec/opcode_table.json, and the plain data their operands carry. Operands from outside the die
(an agent's beats, a link's flits, a flash read, a measured margin) are data of a command; what
the block does with them is the command's effect. -/
namespace Sys2Proof

/-- A slot of 768 bits by its four parts (R25, Table 2.1). -/
structure Slot where
  hdr : BitVec 160
  pay : BitVec 512
  ext : BitVec 64
  crc : Word32
  deriving DecidableEq, Repr

/-- A packet as the list of its slots in ascending PSEQ order (R48). -/
abbrev Pkt := List Slot

/-- A change of bits met by a slot on the link into a stop: ring, receiving position, the header
bits flipped and the other bits flipped (R33, R52). -/
structure Upset where
  ring : RingNo
  pos  : Nat
  hdr  : BitVec 160
  pay  : BitVec 512
  ext  : BitVec 64
  crc  : Word32
  deriving DecidableEq, Repr

/-- What the receiver of one link samples of a CAL transfer, bit n on lane n (R445, R446): the main samplers, and the
upper and lower auxiliary samplers at P = 1, 2, … steps, in this order. A link without an entry, and a distance past
the list's end, samples every lane as sent. -/
structure CalObs where
  ring : RingNo
  pos  : Nat
  main : BitVec 768
  aux  : List (BitVec 768 × BitVec 768)
  deriving DecidableEq, Repr

/-- The identity of a packet at its target: SDIE, SSTOP, SPORT and TAG (R51). -/
structure Src where
  die  : Nat
  stop : Nat
  port : Nat
  tag  : Nat
  deriving DecidableEq, Repr

/-- One dat, rsp or msg beat (Tables 6.5 to 6.7): data, byte enables, last, poison and parity. -/
structure Beat where
  data : BitVec 512
  be   : BitVec 64
  last : Bool
  pois : Bool
  par  : BitVec 73
  deriving DecidableEq, Repr

/-- The inbound channels with a handshake timer, and the outbound ones (R165). -/
inductive Chan where
  | req | dat | msg | rsp | oreq | odat | orsp | omsg | ntf
  deriving DecidableEq, Repr

/-- The outside happenings of one ring-clock cycle. In it every agent takes the beat that each outward channel
offers, but on the channels in `stall`, whose ready it holds low; `again` are the ports whose notification failed its
parity check (R160), and `early` the dat beats that transfer ahead of their header (R145). -/
structure RcIn where
  upsets : List Upset
  cal    : List CalObs
  stall  : List (StopNo × PortNo × Chan)
  again  : List (StopNo × PortNo)
  early  : List (StopNo × PortNo × Beat)
  deriving DecidableEq, Repr

/-- The fields an agent drives on req (Table 6.3), with its parity. -/
structure AgentReq where
  opc   : Nat
  tag   : Nat
  addr  : Nat
  len   : Nat
  priv  : Bool
  sec   : Bool
  ord   : Bool
  spec  : Bool
  walk  : Bool
  lock  : Bool
  part  : Nat
  pctag : Nat
  sub   : Nat
  par   : BitVec 21
  deriving DecidableEq, Repr

/-- A request header with the dat beats captured for it (R145, R163). `stable` is false when valid
was lowered or the payload changed before the transfer (R163). -/
structure ReqIn where
  req    : AgentReq
  beats  : List Beat
  stable : Bool
  deriving DecidableEq, Repr

/-- The fields an agent drives on msg (Table 6.7) with the message's beats; each beat's parity
covers the header fields and that beat's data. -/
structure MsgIn where
  opc    : Nat
  tag    : Nat
  qaddr  : Nat
  len    : Nat
  part   : Nat
  beats  : List Beat
  stable : Bool
  deriving DecidableEq, Repr

/-- The fields an agent drives on rsp (Table 6.6). -/
structure RspIn where
  tag    : Nat
  status : Nat
  sub    : Nat
  beats  : List Beat
  /-- The response carries data; the manual gives rsp no signal that says so (log entry 6). -/
  hasData : Bool
  stable : Bool
  deriving DecidableEq, Repr

/-- A packet that an agent sends on an inbound channel. -/
inductive InPkt where
  | req (r : ReqIn)
  | msg (m : MsgIn)
  | rsp (r : RspIn)
  deriving DecidableEq, Repr

/-- The asynchronous inputs of a port that the glitch filters watch (R164). -/
inductive AsyncIn where
  | rstN
  | stopReq
  | bellowsAck
  deriving DecidableEq, Repr

/-- What had come of an inbound packet when its handshake timer expired (R165): the header of a request
or message, dat beats without a header, or the tag of a response. -/
inductive HsPart where
  | req (r : AgentReq)
  | dat
  | msg (m : MsgIn)
  | rsp (r : RspIn)
  deriving DecidableEq, Repr

/-- The operand of a clear: `v` holds the bits written, `ev` marks the bits that an event also sets, or the counters that
also count, in the same rc (R6, R61). -/
structure ClrIn (w : Nat) where
  v  : BitVec w
  ev : BitVec w
  deriving DecidableEq, Repr

/-- A port whose counters are cleared, `ev` marking those that also count in the same rc (R61). -/
structure PortClr (w : Nat) where
  k  : PortNo
  ev : BitVec w
  deriving DecidableEq, Repr

/-- A stop whose ABS_CNT is cleared, `ev` telling whether it also counts in the same rc (R61). -/
structure StopClr where
  st : StopNo
  ev : Bool
  deriving DecidableEq, Repr

/-- A sweep of a stop's retry records (R187): `errs` are the records in which the memory's code finds an error, with
whether it is corrected (R188). -/
structure SweepIn where
  st   : StopNo
  errs : List (Fin 3072 × Bool)
  deriving DecidableEq, Repr

/-- A record to be raised: the fields of Tables 18.3 and 18.5. -/
structure RecIn where
  port  : Nat
  sev   : Nat
  cause : Nat
  part  : Option Nat
  unver : Bool
  spec  : BitVec 256
  deriving DecidableEq, Repr

/-- A fence set (R351, R398, R440): an agent power domain of the die, an NG domain, a die-to-die port,
or the destinations and dies a Kind B change names. -/
inductive FSet where
  | apd (n : Nat)
  | ng (k : Nat)
  | dp (p : Nat)
  | dests (l : List (Nat × Nat × Nat))
  | dies (l : List Nat)
  deriving DecidableEq, Repr

/-- What Hearth does at its memory (Table 11.7). -/
inductive HOp where
  | fetch
  | load
  | store
  deriving DecidableEq, Repr

/-- One access of Hearth's to its memory: the byte address in Hearth's space, the data and byte enables of a store, and
the bits of the word that the array has lost since it was last written (R320, R321). -/
structure HAcc where
  op   : HOp
  addr : BitVec 19
  data : BitVec 64
  mask : BitVec 8
  bits : BitVec 88
  deriving DecidableEq, Repr

/-- What the array returns otherwise than it was written, at a word that a command reads (R296, R305):
the physical row (1,024 and up are spares), the bits that differ at the read, and at the re-read after a
write-back. -/
structure MemFlt where
  bank : Nat
  row  : Nat
  bits : BitVec 288
  again : BitVec 288
  deriving DecidableEq, Repr

/-- What the protected memories of a queue engine show at an operation: faults of the store's array, the
verdict on the microcode, the queue-table entry and the segment entry (0 clean, 1 corrected, 2
uncorrectable, R259, R269, R274), and a QTLB entry that fails parity (R279). -/
structure QIn where
  flts : List MemFlt
  uc   : Fin 3
  qt   : Fin 3
  seg  : Fin 3
  tlbBad : Bool
  deriving DecidableEq, Repr


/-- Who acknowledges a FENCE (R357, R398): a stop of the die, or another die. -/
inductive AckFrom where
  | stop (st : StopNo) (set : FSet)
  | die (d : Fin 16)
  deriving DecidableEq, Repr

/-- A flit pair (Table 14.3): pair bytes 0 to 3, PCRC, and the slot images. An image that the list does not
give is zero. -/
structure PairIn where
  w0     : Word32
  pcrc   : Word32
  images : List (BitVec 736)
  deriving DecidableEq, Repr

/-- What one module's adapter reports at training (R520): link active, the streaming protocol, the 256-byte
standard flit format, and its data rate in GT/s. -/
structure ModRep where
  active : Bool
  stream : Bool
  flit   : Bool
  rate   : Fin 33
  deriving DecidableEq, Repr

/-- One section of an image copy (Table 15.5): its 48-byte header and its body, padded to whole words. -/
structure ImgSect where
  hdr  : BitVec 384
  body : List Word32
  deriving DecidableEq, Repr

/-- What the PREPARE of the root carries to another die (R433): T, the scope, FRAME and LIST, the root's
FLEN48_NXT, and the register list. -/
structure PrepMsg where
  t     : BitVec 64
  scope : BitVec 8
  frame : Bool
  list  : Bool
  flen  : BitVec 8
  items : List (BitVec 64)
  deriving DecidableEq, Repr

/-- Who acknowledges a PREPARE (R433): a stop of the die, or another die with its first failure, if any, as
stop and table. -/
inductive PrepFrom where
  | stop (st : StopNo)
  | die (d : Fin 16) (fail : Option (StopNo × Fin 16))
  deriving DecidableEq, Repr

/-- The straps as they stand at the deassertion of `fab_rst_n` (R374, R375, R482, R531): fab_root,
dp<p>_present, fab_fcs_base, the ports with `p<k>_dbg_tie` high, and fab_test_mode. -/
structure Straps where
  root    : Bool
  present : BitVec 8
  fcsBase : BitVec 22
  dbg     : List (StopNo × PortNo)
  test    : Bool
  deriving DecidableEq, Repr

/-- A receiver lane as the initial calibration trimmed it: ring, receiving position, lane, and TRIM as a 6-bit
two's complement number (R417, R445). -/
structure TrimIn where
  ring : RingNo
  pos  : Fin 16
  lane : Fin 768
  trim : BitVec 6
  deriving DecidableEq, Repr

/-- Shares of transit credit (R385): what ingress port `ing` holds for egress port `eg` and credit class `cls`. -/
structure ShareIn where
  ing : DpNo
  eg  : DpNo
  cls : Fin 6
  n   : Fin 65
  deriving DecidableEq, Repr

/-- A flash operation that NVM_CMD starts. -/
inductive NvmOp where
  | read | program | erase
  deriving DecidableEq, Repr

/-- What the SFDP of the flash lists: whether it has SFDP with a right signature, quad and octal reads, 4-byte
addressing, and log2 of the size in bytes (R409). -/
structure Sfdp where
  valid  : Bool
  quad   : Bool
  octal  : Bool
  addr4  : Bool
  dens   : BitVec 8
  deriving DecidableEq, Repr

/-- What carries a register write (R505, R507): a request packet at port 3 of a stop, or one word over the test
access path, which counts as privileged and secure. -/
inductive RegAcc where
  | packet (st : StopNo) (p : Pkt)
  | test (a : BitVec 26) (v : Word32)
  deriving DecidableEq, Repr

/-- What an operation that a register write starts finds outside the registers: faults of the store's array, F of
the ring clock in femtoseconds per rc for a commit, and the outcome of the detour conditions over every die (R390).
`same` marks what a hardware event falls on in the cycle of the write: W1C bits of the word, and of a word that clears
counters by a mask or by CLR, the counters in the order of the word (R6). -/
structure RegEnv where
  fs     : List MemFlt
  period : Nat
  detour : Bool
  same   : Word32
  deriving DecidableEq, Repr

/-- The commands of the block, one constructor per row of the opcode table (R-numbers beside each). -/
inductive Instr where
  /-- RING_CYCLE (R42). -/
  | ringCycle (inp : RcIn)
  /-- FRAME_START_STROBE (R84). -/
  | frameStartStrobe
  /-- FRAME_BOUNDARY (R83). -/
  | frameBoundary (late : List (Fin 8 × StopNo))
  /-- EPOCH_BOUNDARY (R71). -/
  | epochBoundary
  /-- STARVATION (R70). -/
  | starvation (st : StopNo) (d : Fin 4)
  /-- REASM_DROP (R51). -/
  | reasmDrop (st : StopNo) (src : Src)
  /-- INJ_QUEUE_ADMIT (R113). -/
  | injQueueAdmit (st : StopNo) (p : Fin 4)
  /-- REQUEST_CAPTURE (R163). -/
  | requestCapture (st : StopNo) (k : PortNo) (r : ReqIn)
  /-- MSG_CAPTURE (R249). -/
  | msgCapture (st : StopNo) (k : PortNo) (m : MsgIn)
  /-- AGENT_RESPONSE (R152). -/
  | agentResponse (st : StopNo) (k : PortNo) (r : RspIn)
  /-- OREQ_DELIVER (R152). -/
  | oreqDeliver (st : StopNo) (k : PortNo)
  /-- OMSG_DELIVER (R147). -/
  | omsgDeliver (st : StopNo) (k : PortNo)
  /-- NTF_DELIVER (R158). -/
  | ntfDeliver (st : StopNo) (k : PortNo)
  /-- COMPLETION_DELIVER (R176). -/
  | completionDeliver (st : StopNo) (p : Fin 4) (tag : Fin 4096)
  /-- SAMPLE_INDEX_ALLOC (R499). -/
  | sampleIndexAlloc
  /-- PARTITION_CHANGE (R156). -/
  | partitionChange (st : StopNo) (k : PortNo) (part : Fin 4096) (par : Fin 4)
  /-- PCHG_SWAP (R156). -/
  | pchgSwap (st : StopNo) (k : PortNo)
  /-- GLITCH (R164). -/
  | glitch (st : StopNo) (k : PortNo) (which : AsyncIn)
  /-- HS_TIMEOUT_IN (R165). -/
  | hsTimeoutIn (st : StopNo) (k : PortNo) (part : HsPart)
  /-- HS_TIMEOUT_OUT (R165). -/
  | hsTimeoutOut (st : StopNo) (k : PortNo) (c : Chan)
  /-- PORT_RESET_ASSERT (R168), at the port of the stop in column x, row y. -/
  | portResetAssert (x : Fin 16) (y : Fin 12) (k : PortNo)
  /-- PORT_RESET_DEASSERT (R335). -/
  | portResetDeassert (st : StopNo) (k : PortNo)
  /-- RESYNC_DONE (R335), at the port of the stop in column x, row y. -/
  | resyncDone (x : Fin 16) (y : Fin 12) (k : PortNo)
  /-- RS_TIMEOUT (R335). -/
  | rsTimeout (st : StopNo) (k : PortNo)
  /-- CDC_PTR (R330). -/
  | cdcPtr (st : StopNo) (k : PortNo) (c : Chan) (ptr : Fin 32)
  /-- RECOVER (R338), at the port of the stop in column x, row y. -/
  | recover (x : Fin 16) (y : Fin 12) (k : PortNo)
  /-- STOP_REQ (R340). -/
  | stopReq (st : StopNo) (k : PortNo)
  /-- PORT_STOPPED (R340). -/
  | portStopped (st : StopNo) (k : PortNo)
  /-- STOP_RELEASE (R340). -/
  | stopRelease (st : StopNo) (k : PortNo)
  /-- BELLOWS_REQ (R343). -/
  | bellowsReq (st : StopNo) (k : PortNo)
  /-- BELLOWS_ACK (R343). -/
  | bellowsAck (st : StopNo) (k : PortNo)
  /-- STOPPED (R342). -/
  | stopped (st : StopNo) (k : PortNo)
  /-- REQUEST_RELEASE (R175). -/
  | requestRelease (st : StopNo) (p : Fin 4) (tag : Fin 4096)
  /-- RETRY_RECEIVE (R183). -/
  | retryReceive (st : StopNo) (p : Pkt)
  /-- GRANT_ISSUE (R184). -/
  | grantIssue (st : StopNo)
  /-- GRANT_RECEIVE (R185). -/
  | grantReceive (st : StopNo) (p : Pkt)
  /-- RESEND (R68). -/
  | resend (st : StopNo) (die : Fin 16) (stop : StopNo)
  /-- GRELEASE_RECEIVE (R186). -/
  | greleaseReceive (st : StopNo) (p : Pkt)
  /-- GRANT_TO (R184). -/
  | grantTo (st : StopNo) (rcd : Fin 3072)
  /-- RETRY_SWEEP (R187). -/
  | retrySweep (sw : SweepIn)
  /-- COMPLETION_RECEIVE (R193). -/
  | completionReceive (st : StopNo) (p : Pkt)
  /-- PWACK_RECEIVE (R174). -/
  | pwackReceive (st : StopNo) (p : Pkt)
  /-- CTO (R192). -/
  | cto (st : StopNo) (p : Fin 4) (tag : Fin 4096) (held : Bool)
  /-- LOCK_BREAK (R198). -/
  | lockBreak (st : StopNo) (k : PortNo)
  /-- ADDR_MAP_APPLY (R217). -/
  | addrMapApply
  /-- REMAP_WRITE (R213). -/
  | remapWrite (v : Word32)
  /-- ACU_ENTRY_WRITE (R239). -/
  | acuEntryWrite (st : StopNo) (sel : Word32)
  /-- ACU_SHADOW_CHECK (R226). -/
  | acuShadowCheck (st : StopNo) (a : Fin 3)
  /-- ACU_SWAP (R227). -/
  | acuSwap (st : StopNo) (a : Fin 3)
  /-- ENQ (R256). -/
  | enq (st : StopNo) (p : Pkt) (inp : QIn)
  /-- DEQ (R256). -/
  | deq (st : StopNo) (p : Pkt) (inp : QIn)
  /-- PEEK (R256). -/
  | peek (st : StopNo) (p : Pkt) (inp : QIn)
  /-- STEAL (R258). -/
  | steal (st : StopNo) (p : Pkt) (inp : QIn)
  /-- QSTAT (R262). -/
  | qstat (st : StopNo) (p : Pkt) (inp : QIn)
  /-- DBELL (R263). -/
  | dbell (st : StopNo) (p : Pkt) (inp : QIn)
  /-- NOTIFY (R265). -/
  | notify (st : StopNo) (k : PortNo)
  /-- DELETE (R267). -/
  | delete (st : StopNo) (q : QueueNo)
  /-- FORCE_DELETE (R267). -/
  | forceDelete (st : StopNo) (q : QueueNo)
  /-- CLEAR_FAULT (R269). -/
  | clearFault (st : StopNo) (q : QueueNo)
  /-- ARM (R264). -/
  | arm (st : StopNo) (q : QueueNo)
  /-- QUEUE_DELETE_DONE (R289), at the stop in column x, row y. -/
  | queueDeleteDone (x : Fin 16) (y : Fin 12) (q : QueueNo)
  /-- QT_ENTRY_WRITE (R271). -/
  | qtEntryWrite (st : StopNo) (sel : Word32)
  /-- WALK_COMPLETE (R278). -/
  | walkComplete (st : StopNo) (tag : Fin 1024) (fs : List MemFlt)
  /-- PAGE_MOVE_COMPLETE (R282). -/
  | pageMoveComplete (st : StopNo) (frame : Fin 128) (fs : List MemFlt)
  /-- DEV_ACCESS_COMPLETE (R280). -/
  | devAccessComplete (st : StopNo) (tag : Fin 1024) (fs : List MemFlt)
  /-- SEG_ENTRY_WRITE (R275). -/
  | segEntryWrite (st : StopNo) (sel : Word32)
  /-- QTLB_INV_ALL (R287). -/
  | qtlbInvAll (st : StopNo) (flush : Bool) (fs : List MemFlt)
  /-- QTLB_INV_QUEUE (R287). -/
  | qtlbInvQueue (st : StopNo) (q : QueueNo) (flush : Bool) (fs : List MemFlt)
  /-- QTLB_INV_PAGE (R287). -/
  | qtlbInvPage (st : StopNo) (q : QueueNo) (page : Fin 1024) (flush : Bool) (fs : List MemFlt)
  /-- QTLB_INV_DONE (R287). -/
  | qtlbInvDone (st : StopNo) (fs : List MemFlt)
  /-- POOL_WRITE (R293). -/
  | poolWrite (st : StopNo) (j : Fin 4) (v : Word32) (fs : List MemFlt)
  /-- POOL_FRAME_LEAVE (R293). -/
  | poolFrameLeave (st : StopNo) (f : Fin 128) (fs : List MemFlt)
  /-- SCRUB_STEP (R310). -/
  | scrubStep (st : StopNo) (fs : List MemFlt)
  /-- MERGE_DRAIN (R307). -/
  | mergeDrain (st : StopNo) (b : Fin 4) (row : Fin 1024) (fs : List MemFlt)
  /-- RAW_WINDOW_READ (R314). -/
  | rawWindowRead (st : StopNo) (p : Pkt) (fs : List MemFlt)
  /-- RAW_WINDOW_WRITE (R307). -/
  | rawWindowWrite (st : StopNo) (p : Pkt) (fs : List MemFlt)
  /-- RAW_MODE_ENABLE (R316). -/
  | rawModeEnable (st : StopNo) (en : Bool)
  /-- QS_REMAP_ADD (R313). -/
  | qsRemapAdd (st : StopNo) (b : Fin 4) (row : Fin 1024) (fs : List MemFlt)
  /-- QS_FILL (R308). -/
  | qsFill (k : Fin 48)
  /-- FILL_DONE (R308). -/
  | fillDone (k : Fin 48)
  /-- HEARTH_SCRUB_STEP (R322): the bits of the data symbols and of the check symbols that have changed in the array. -/
  | hearthScrubStep (data : BitVec 64) (chk : BitVec 24)
  /-- HEARTH_TRAP (R423). -/
  | hearthTrap (x : HAcc)
  /-- RING_CLOCK_CHANGE (R344). -/
  | ringClockChange
  /-- RCLK_DONE (R344). -/
  | rclkDone
  /-- TICK_LOST (R333). -/
  | tickLost (st : StopNo) (n : Nat)
  /-- POWER_OFF_REQUEST (R355). -/
  | powerOffRequest (d : Fin 512)
  /-- POWER_ON_REQUEST (R366). -/
  | powerOnRequest (d : Fin 512)
  /-- FENCE_RECEIVE (R356). -/
  | fenceReceive (st : StopNo) (set : FSet) (far : Bool)
  /-- FENCE_ACK (R357). -/
  | fenceAck (who : AckFrom)
  /-- FENCE_SETTLE_DONE (R355). -/
  | fenceSettleDone
  /-- DRAIN_COMPLETE (R358). -/
  | drainComplete
  /-- DRAIN_TO (R362). -/
  | drainTo
  /-- UNFENCE_RECEIVE (R365). -/
  | unfenceReceive (st : StopNo) (set : FSet) (far : Bool)
  /-- PGOOD_RISE (R366). -/
  | pgoodRise (f : DomNo) (restore : Bool)
  /-- PWR_PG_FAIL (R366). -/
  | pwrPgFail (f : DomNo)
  /-- WAKE_REQUEST (R363). -/
  | wakeRequest
  /-- FENCE (R371). -/
  | fence (d : Fin 512)
  /-- UNFENCE (R371). -/
  | unfence (d : Fin 512)
  /-- FLIT_PAIR_SEND (R378). -/
  | flitPairSend (p : DpNo)
  /-- FLIT_PAIR_RECEIVE (R380). -/
  | flitPairReceive (p : DpNo) (x : PairIn)
  /-- D2D_INGRESS_INJECT (R386). -/
  | d2dIngressInject (p : DpNo) (c : Fin 9)
  /-- D2D_RSV_EXPIRE (R383). -/
  | d2dRsvExpire (p : DpNo) (eg : Bool) (src : Src)
  /-- D2D_LINK (R400). -/
  | d2dLink (p : DpNo)
  /-- RETRAIN (R401). -/
  | retrain (p : DpNo)
  /-- LINK_TRAINED (R520). -/
  | linkTrained (p : DpNo) (ms : List ModRep)
  /-- HELLO (R391). -/
  | hello (p : DpNo) (peer : Fin 8) (root : Bool) (die : Option (Fin 16))
  /-- ASSIGN (R392). -/
  | assign (p : DpNo) (dx : Int) (dy : Int)
  /-- DISCOVERY_REPORT (R392). -/
  | discoveryReport (dx : Int) (dy : Int) (up : BitVec 8)
  /-- DISCOVERY_FINISH (R392). -/
  | discoveryFinish
  /-- FINAL (R392). -/
  | final (ox : Int) (oy : Int) (map : BitVec 16)
  /-- DISC_TO (R393). -/
  | discTo
  /-- SYNC (R395). -/
  | sync (p : DpNo) (t2 : BitVec 64) (t3 : BitVec 64) (ofs : Option Int)
  /-- ECHO (R395). -/
  | echo (p : DpNo) (t1 : BitVec 64) (t2 : BitVec 64) (t3 : BitVec 64) (t4 : BitVec 64)
  /-- DETOUR_APPLY (R390). -/
  | detourApply (pass : Bool)
  /-- D2D_WINDOW_DUE (R453). -/
  | d2dWindowDue (p : DpNo) (more : Nat)
  /-- WIN (R455). -/
  | win (p : DpNo) (m : Fin 4) (tw : BitVec 64)
  /-- ROTATE (R454). -/
  | rotate (p : DpNo) (set : Fin 16)
  /-- MODULE_RECAL_DONE (R455). -/
  | moduleRecalDone (p : DpNo) (usable : Bool)
  /-- D2D_WIN_CANCEL (R455). -/
  | d2dWinCancel (p : DpNo)
  /-- D2D_WIN_OVER (R455). -/
  | d2dWinOver (p : DpNo)
  /-- FAB_RESET_ASSERT (R524). -/
  | fabResetAssert
  /-- FAB_RESET_DEASSERT (R405). -/
  | fabResetDeassert (x : Straps)
  /-- FUSE_ACK (R521). -/
  | fuseAck (w : Word32)
  /-- FUSE_TIMEOUT (R521). -/
  | fuseTimeout
  /-- FUSE_READ_DONE (R407). -/
  | fuseReadDone
  /-- NVM_READY (R409). -/
  | nvmReady (f : Sfdp)
  /-- HEADERS_READ (R412). -/
  | headersRead (a : Option (BitVec 2048)) (b : Option (BitVec 2048))
  /-- COPY_READ_DONE (R412). -/
  | copyReadDone (es : List ImgSect) (err : Bool) (detours : Bool)
  /-- SIGNATURE_DONE (R412). -/
  | signatureDone (ok : Bool) (sig : BitVec 768)
  /-- INITIAL_CALIBRATION_DONE (R417). -/
  | initialCalibrationDone (bad : List RingNo) (trims : List TrimIn)
  /-- DIE_SPECIFIC_READ_DONE (R414). -/
  | dieSpecificReadDone (again : List ImgSect) (err : Bool)
  /-- ACTIVATION (R416). -/
  | activation (shares : List ShareIn) (far : List (BitVec 14))
  /-- MINIMAL_CONFIGURATION (R421). -/
  | minimalConfiguration
  /-- PORTS_OPEN (R419). -/
  | portsOpen
  /-- OPEN_GO (R419). -/
  | openGo
  /-- RESTORE_GO (R424). -/
  | restoreGo
  /-- RESTORE_WRITE_DONE (R424). -/
  | restoreWriteDone
  /-- NVM_READ (R410). -/
  | nvmRead (len : BitVec 8)
  /-- NVM_PROGRAM (R410). -/
  | nvmProgram (len : BitVec 8)
  /-- NVM_ERASE (R410). -/
  | nvmErase (blk : Bool)
  /-- NVM_CMD_DONE (R410). -/
  | nvmCmdDone (ok : Bool) (data : List (BitVec 8))
  /-- COMMIT_GO (R428). -/
  | commitGo (w : Word32) (fs : Nat)
  /-- COMMIT_HOST_ABORT (R434). -/
  | commitHostAbort
  /-- PREPARE (R433). -/
  | prepare (st : StopNo) (msg : Option PrepMsg) (fs : Nat)
  /-- PREPARE_ACK (R433). -/
  | prepareAck (frm : PrepFrom)
  /-- COMMIT_DECIDE (R434). -/
  | commitDecide
  /-- COMMIT_ABORT (R434). -/
  | commitAbort
  /-- COMMIT (R435). -/
  | commit
  /-- COMMIT_SWAP (R436). -/
  | commitSwap
  /-- IN_DOUBT (R437). -/
  | inDoubt
  /-- COMMIT_LATE (R437). -/
  | commitLate
  /-- SWEEP_END (R449). -/
  | sweepEnd (r : RingNo)
  /-- TEMPER_BLK_WRITE (R451). -/
  | temperBlkWrite (j : Fin 4) (c : ClrIn 32)
  /-- TS_MARK (R464). -/
  | tsMark
  /-- TS_CORRECTION (R464). -/
  | tsCorrection (st : StopNo)
  /-- TS_SET (R467). -/
  | tsSet
  /-- TS_NOW_READ (R467). -/
  | tsNowRead (p : Option Pkt)
  /-- RECORD_RAISE (R472). -/
  | recordRaise (st : StopNo) (r : RecIn)
  /-- RECORD_COLLECT (R473). -/
  | recordCollect
  /-- LOG_WRITE_DONE (R473): of the entry, under the TAG of its write. -/
  | logWriteDone (index tag : Nat)
  /-- PERR_ENQ_DONE (R479): of the ENQ of that TAG. -/
  | perrEnqDone (tag : Nat)
  /-- LOG_ENABLE (R473). -/
  | logEnable (size : Nat)
  /-- MGMT_BAD (R483). -/
  | mgmtBad (st : StopNo) (p : Pkt)
  /-- REGISTER_WRITE (R505). -/
  | registerWrite (acc : RegAcc) (x : RegEnv)
  /-- DEFL_CTRL_WRITE (R79). -/
  | deflCtrlWrite (v : Word32)
  /-- PMAP_ENTRY_WRITE (R135). -/
  | pmapEntryWrite (st : StopNo) (v : Word32)
  /-- PMC_LOAD (R491). -/
  | pmcLoad (st : StopNo) (n : Fin 16) (v : Word32)
  /-- PMC_READ (R491). -/
  | pmcRead (st : StopNo) (n : Fin 16) (p : Option Pkt)
  /-- SAMPLE_ENABLE (R495). -/
  | sampleEnable (st : StopNo) (v : Word32)
  /-- SAMPLE_BUF_CONFIG (R502). -/
  | sampleBufConfig (base : Bool) (v : Word32)
  /-- RING_CNT_CLEAR (R58). -/
  | ringCntClear (st : StopNo) (c : ClrIn 9)
  /-- DEFL_CNT_CLEAR (R80). -/
  | deflCntClear (st : StopNo) (c : ClrIn 9)
  /-- GUAR_CNT_CLEAR (R103). -/
  | guarCntClear (st : StopNo) (c : ClrIn 3)
  /-- INJQ_HWM_CLEAR (R136). -/
  | injqHwmClear (st : StopNo) (q : Fin 512)
  /-- INJ_STORE_HWM_CLEAR (R136). -/
  | injStoreHwmClear (st : StopNo)
  /-- PORT_CNT2_CLEAR (R170). -/
  | portCnt2Clear (st : StopNo) (k : PortClr 2)
  /-- PORT_CDC_CNT_CLEAR (R347). -/
  | portCdcCntClear (st : StopNo) (k : PortClr 3)
  /-- TXN_CNT_CLEAR (R196). -/
  | txnCntClear (st : StopNo) (c : ClrIn 11)
  /-- DEC_CNT_CLEAR (R241). -/
  | decCntClear (st : StopNo) (c : ClrIn 4)
  /-- QE_CNT_CLEAR (R272). -/
  | qeCntClear (st : StopNo) (c : ClrIn 8)
  /-- PG_CNT_CLEAR (R295). -/
  | pgCntClear (st : StopNo) (c : ClrIn 8)
  /-- QS_CNT_CLEAR (R323). -/
  | qsCntClear (st : StopNo) (c : ClrIn 8)
  /-- ABS_CNT_CLEAR (R372). -/
  | absCntClear (st : StopClr)
  /-- DP_CNT_CLEAR (R404). -/
  | dpCntClear (p : DpNo) (c : ClrIn 8)
  /-- D2D_MODULE (R399). -/
  | d2dModule (p : DpNo) (m : Fin 4)
  /-- DECISION_REQUEST (R437). -/
  | decisionRequest (d : Fin 16)
  /-- STROBE_TIME (R418). -/
  | strobeTime (t : BitVec 64)
  /-- WIN_ACK (R455). -/
  | winAck (p : DpNo)
  /-- AON_POWER_ON (R517). -/
  | aonPowerOn
  /-- MEMORY_TEST (R532). -/
  | memoryTest (m : Fin 1842)
  /-- MEMORY_TEST_DONE (R532). -/
  | memoryTestDone (m : Fin 1842) (bad : List (Fin 65536))
  /-- WRAPPER_INSTRUCTION (R522). -/
  | wrapperInstruction (w : Fin 3)
  deriving DecidableEq, Repr

end Sys2Proof
end

