-- ==== Sys2Proof/Decode.lean ====
section
/-! DEFINITION. The command that a word spells. The opcode table gives no row of this block any bits, so no word
spells a command. -/
namespace Sys2Proof

/-- The command that the `nbits` bits of `w` spell: none, since no row has bits. -/
def decodeTableWord (_nbits _w : Nat) : Option Instr := none

end Sys2Proof
end

