-- ==== Sys2Proof/Config.lean ====
section
/-! DEFINITION. What the manual leaves open: values that nothing in the model fixes. Each is an
opaque constant without a body, so a statement that holds here holds for every value. -/
namespace Sys2Proof

/-- A value the manual leaves open, by the number of its taking (State.free). -/
opaque Config.freeNat : Nat → Nat

end Sys2Proof
end

