-- ==== Sys2Proof/Machine/Codes.lean ====
section
/-! DEFINITION. The manual's code points: classes (Table 2.3), slot types (Table 2.2), opcodes
(Table 7.1), status codes (Table 18.8), cause codes (Table 18.4) and severities (Table 18.2), with
what an opcode alone fixes (R171). -/
namespace Sys2Proof.Machine

def clsRSP : Nat := 0
def clsSNP : Nat := 1
def clsREQ : Nat := 2
def clsIO : Nat := 3
def clsMSG : Nat := 4
def clsBULK : Nat := 5
def clsGUAR : Nat := 6
def clsMGMT : Nat := 7

def stBE : Nat := 0
def stGUAR : Nat := 1
def stESC : Nat := 2
def stCAL : Nat := 3
def stMGMT : Nat := 4

def opRD : Nat := 0x00
def opRD_NC : Nat := 0x01
def opWR : Nat := 0x02
def opWR_NC : Nat := 0x03
def opWR_P : Nat := 0x04
def opCREQ : Nat := 0x05
def opCREQ_D : Nat := 0x06
def opATOM : Nat := 0x07
def opSNP : Nat := 0x08
def opUNLOCK : Nat := 0x0E
def opGWR : Nat := 0x10
def opCMP : Nat := 0x20
def opCMP_D : Nat := 0x21
def opPWACK : Nat := 0x22
def opGRANT : Nat := 0x23
def opGRELEASE : Nat := 0x24
def opBRD : Nat := 0x28
def opBWR : Nat := 0x29
def opBWR_P : Nat := 0x2A
def opENQ : Nat := 0x30
def opDEQ : Nat := 0x31
def opPEEK : Nat := 0x32
def opQSTAT : Nat := 0x33
def opDBELL : Nat := 0x34
def opNOTIFY : Nat := 0x35
def opSTEAL : Nat := 0x36
def opMG_LAP : Nat := 0x3C
def opMG_UNI : Nat := 0x3D
def opMG_ACK : Nat := 0x3E

/-- The opcodes a req channel may carry on a port of generation `gen` (Table 7.1, R171). UNLOCK is
a GLP-2 opcode and ATOM a GLP-4 one; GWR is judged apart (Table 6.2). -/
def reqOpcode (gen opc : Nat) : Bool :=
  [opRD, opRD_NC, opWR, opWR_NC, opWR_P, opCREQ, opCREQ_D, opSNP].contains opc
    || (opc == opATOM && gen == 3) || (opc == opUNLOCK && gen == 1)

/-- The CLASS an opcode fixes (Table 7.1). -/
def opClass (opc : Nat) : Nat :=
  if [opRD, opWR, opCREQ, opCREQ_D, opATOM].contains opc then clsREQ
  else if [opRD_NC, opWR_NC, opWR_P, opUNLOCK].contains opc then clsIO
  else if opc = opSNP then clsSNP
  else if opc = opGWR then clsGUAR
  else if 0x20 ≤ opc ∧ opc ≤ 0x24 then clsRSP
  else if 0x28 ≤ opc ∧ opc ≤ 0x2A then clsBULK
  else if 0x30 ≤ opc ∧ opc ≤ 0x37 then clsMSG
  else clsMGMT

/-- The opcodes of the BE extension format (Table 7.1). -/
def opBE (opc : Nat) : Bool :=
  [opWR, opWR_NC, opWR_P, opGWR, opBWR, opBWR_P].contains opc

/-- A posted write, which the notices of R231 are about. -/
def opPostedWr (opc : Nat) : Bool := opc == opWR_P || opc == opBWR_P

/-- A request ended by PWACK: a posted write, acknowledged at release (R174), and NOTIFY (R265). -/
def opPosted (opc : Nat) : Bool := opc == opWR_P || opc == opBWR_P || opc == opNOTIFY

/-- An opcode that writes, for the SPEC and WALK check of Table 6.13 and the ACU (Table 8.4). -/
def opWrites (opc : Nat) : Bool :=
  [opWR, opWR_NC, opWR_P, opCREQ_D, opATOM, opGWR, opBWR, opBWR_P].contains opc

/-- An opcode that reads, for the ACU (Table 8.4). -/
def opReads (opc : Nat) : Bool :=
  [opRD, opRD_NC, opCREQ, opBRD, opATOM].contains opc

/-- A request opcode that carries data in dat beats (Table 7.1). -/
def opCarriesData (opc : Nat) : Bool :=
  [opWR, opWR_NC, opWR_P, opCREQ_D, opATOM, opGWR, opBWR, opBWR_P, opCMP_D].contains opc

/-- The completion carries the request's PLEN (Table 7.1: RD, RD_NC, CREQ, BRD). A CREQ that is
answered by CMP frees the rest of its reservation with its completion. -/
def opCmpdPlen (opc : Nat) : Bool := [opRD, opRD_NC, opCREQ, opBRD].contains opc

def stOK : Nat := 0x0
def stRETRY : Nat := 0x1
def stEMPTY : Nat := 0x2
def stQFULL : Nat := 0x3
def stDECERR : Nat := 0x4
def stACCERR : Nat := 0x5
def stTIMEOUT : Nat := 0x6
def stFENCED : Nat := 0x7
def stLOCKED : Nat := 0x8
def stPOISON : Nat := 0x9
def stSPECREF : Nat := 0xA
def stWALKERR_BUS : Nat := 0xB
def stWALKERR_DEV : Nat := 0xC
def stMSGSIZE : Nat := 0xD
def stPROTERR : Nat := 0xE
def stSLVERR : Nat := 0xF

def sevCORRECTED : Nat := 0
def sevDEFERRED : Nat := 1
def sevCONTAINED : Nat := 2
def sevFATAL : Nat := 3

def caRING_CRC : Nat := 0x01
def caRING_HYGIENE : Nat := 0x02
def caSTAMP_MISS : Nat := 0x03
def caREASM : Nat := 0x04
def caPROTERR : Nat := 0x05
def caESC_GAP : Nat := 0x06
def caESC_CONFLICT : Nat := 0x07
def caMGMT_ROUTE : Nat := 0x08
def caFRAME_OVERRUN : Nat := 0x10
def caGUAR_NOFLOW : Nat := 0x11
def caGUAR_ALIGN : Nat := 0x12
def caGUAR_OVERRUN : Nat := 0x13
def caGATE_OVERSIZE : Nat := 0x14
def caPORT_PARITY : Nat := 0x20
def caPORT_PROTO : Nat := 0x21
def caPORT_RANGE : Nat := 0x22
def caTAG_DUP : Nat := 0x23
def caSTRAY_RSP : Nat := 0x24
def caGLITCH : Nat := 0x25
def caHS_TIMEOUT : Nat := 0x26
def caPOISON_DROP : Nat := 0x27
def caGRNT_STRAY : Nat := 0x30
def caGRANT_TO : Nat := 0x31
def caRTY_REC_UE : Nat := 0x32
def caCTO : Nat := 0x33
def caLATE_RSP : Nat := 0x34
def caLOCK_BREAK : Nat := 0x35
def caTGT_RESET : Nat := 0x36
def caDEC_MISS : Nat := 0x40
def caDEC_MULTI : Nat := 0x41
def caDEC_SEC : Nat := 0x42
def caACU_FAULT : Nat := 0x43
def caPOSTED_ERR : Nat := 0x44
def caQDEC : Nat := 0x50
def caQPROTO : Nat := 0x51
def caQACC : Nat := 0x52
def caQE_HALT : Nat := 0x53
def caQFAULT : Nat := 0x54
def caQDISCARD : Nat := 0x55
def caQS_CE : Nat := 0x60
def caQS_UE : Nat := 0x61
def caQS_REMAP : Nat := 0x62
def caQS_SPARE_FULL : Nat := 0x63
def caHEARTH_UE : Nat := 0x64
def caCDC_PTR : Nat := 0x70
def caCDC_RS_TIMEOUT : Nat := 0x71
def caCDC_DISCARD : Nat := 0x72
def caSTOPPED : Nat := 0x73
def caTICK_LOST : Nat := 0x74
def caFENCE_HOLD : Nat := 0x80
def caDRAIN_TO : Nat := 0x81
def caPWR_PG_FAIL : Nat := 0x82
def caRESTORE_FAIL : Nat := 0x83
def caD2D_PCRC : Nat := 0x90
def caD2D_CREDIT : Nat := 0x91
def caD2D_WIRING : Nat := 0x92
def caD2D_DISC : Nat := 0x93
def caD2D_MODULE : Nat := 0x94
def caD2D_LINK : Nat := 0x95
def caD2D_WIN_CANCEL : Nat := 0x96
def caBOOT_DIESET : Nat := 0xA0
def caCOMMIT_ABORT : Nat := 0xA1
def caCOMMIT_LATE : Nat := 0xA2
def caTRK_MARGIN : Nat := 0xB0
def caTRK_RETIRE_REQ : Nat := 0xB1
def caTRK_BLOCK : Nat := 0xB2
def caTS_STEP : Nat := 0xC0
def caREG_RANGE : Nat := 0xC1
def caMGMT_BAD : Nat := 0xC2
def caLOG_WERR : Nat := 0xC3

end Sys2Proof.Machine
end

