-- ==== Sys2Proof/Machine/Tab.lean ====
section
/-! DEFINITION. Bit fields of words, and the one table form every sparse store of the model uses:
a list of key and value pairs in strictly rising key order that lists no entry equal to what an
unlisted key reads as. -/
namespace Sys2Proof.Machine

/-- The value of the `w` bits of `v` from bit `lo` up, as a number (the manual's v[lo+w-1:lo]). -/
def fieldOf {n : Nat} (v : BitVec n) (lo w : Nat) : Nat :=
  (v.toNat >>> lo) % 2 ^ w

/-- One bit of a word, as a truth value. -/
def bitOf {n : Nat} (v : BitVec n) (i : Nat) : Bool := fieldOf v i 1 == 1

/-- `v` with the `w` bits from bit `lo` up replaced by the low bits of `x`. -/
def withField {n : Nat} (v : BitVec n) (lo w x : Nat) : BitVec n :=
  BitVec.ofNat n (v.toNat - fieldOf v lo w * 2 ^ lo + (x % 2 ^ w) * 2 ^ lo)

/-- Fields packed from bit 0 upward: each pair is a value and its width. -/
def packFields : List (Nat × Nat) → Nat
  | [] => 0
  | (x, w) :: rest => x % 2 ^ w + packFields rest * 2 ^ w

/-- A truth value as a one-bit number. -/
def boolNat (b : Bool) : Nat := if b then 1 else 0

/-- A sparse table. -/
abbrev Tab (α : Type) := List (Nat × α)

/-- What key `k` reads as; an unlisted key reads as `d k`. -/
def Tab.get {α : Type} (d : Nat → α) : Tab α → Nat → α
  | [], k => d k
  | (j, v) :: rest, k => if j = k then v else Tab.get d rest k

/-- `k` bound to `v`, kept in rising key order. -/
def Tab.insert {α : Type} : Tab α → Nat → α → Tab α
  | [], k, v => [(k, v)]
  | (j, u) :: rest, k, v =>
    if k < j then (k, v) :: (j, u) :: rest
    else if k = j then (k, v) :: rest
    else (j, u) :: Tab.insert rest k v

/-- The table without any entry for `k`. -/
def Tab.erase {α : Type} : Tab α → Nat → Tab α
  | [], _ => []
  | (j, u) :: rest, k => if j = k then Tab.erase rest k else (j, u) :: Tab.erase rest k

/-- A write: the value an unlisted key reads as is stored by removing the entry. -/
def Tab.set {α : Type} [DecidableEq α] (d : Nat → α) (t : Tab α) (k : Nat) (v : α) : Tab α :=
  if v = d k then Tab.erase t k else Tab.insert t k v

/-- Every key of the table is above `b`. -/
def Tab.above {α : Type} (b : Nat) : Tab α → Bool
  | [] => true
  | (j, _) :: rest => decide (b < j) && Tab.above b rest

/-- The canonical form: keys strictly rising, and no entry equal to its default. -/
def Tab.wf {α : Type} [DecidableEq α] (d : Nat → α) : Tab α → Bool
  | [] => true
  | (j, v) :: rest => Tab.above j rest && decide (v ≠ d j) && Tab.wf d rest

/-- Apply `f` to each index below `n`, in rising order. -/
def forUpTo {σ : Type} (n : Nat) (f : Nat → σ → σ) (s : σ) : σ :=
  (List.range n).foldl (fun acc i => f i acc) s

/-- Least index below `n` that satisfies `p`. -/
def firstBelow (n : Nat) (p : Nat → Bool) : Option Nat := (List.range n).find? p

/-- Saturating addition: the sum, held at the largest value of a `w`-bit counter. -/
def satAdd (w a b : Nat) : Nat := if a + b < 2 ^ w then a + b else 2 ^ w - 1

end Sys2Proof.Machine
end

