-- ==== Sys2Proof/Machine/Geom.lean ====
section
/-! DEFINITION. The grid (R7, R8, R13, R15), ports and their generations (Table 1.2), rings and the
order in which they visit stops (R36, R37), and routes within a die (R39, R40). -/
namespace Sys2Proof.Machine

def nStops : Nat := 192
def nRings : Nat := 112

/-- The stop in column x and row y (R7). -/
def stopXY (x : Fin 16) (y : Fin 12) : StopNo :=
  ⟨16 * y.val + x.val, by omega⟩

/-- The column of a stop (R7). -/
def stopCol (st : StopNo) : Fin 16 := ⟨st.val % 16, Nat.mod_lt _ (by decide)⟩

/-- The row of a stop (R7). -/
def stopRow (st : StopNo) : Fin 12 := ⟨st.val / 16, by omega⟩

/-- A stop is the one at its column and row. -/
theorem stopXY_col_row (st : StopNo) : stopXY (stopCol st) (stopRow st) = st := by
  ext; simp only [stopXY, stopCol, stopRow]; omega

/-- Column of a stop (R7). -/
def stopX (s : Nat) : Nat := s % 16
/-- Row of a stop (R7). -/
def stopY (s : Nat) : Nat := s / 16
def stopAt (x y : Nat) : Nat := 16 * y + x

/-- Tile kind by stop: 0 C, 1 M, 2 I, 3 D, 4 U (Table 1.1, R24). -/
def stopKind (s : Nat) : Nat :=
  let x := stopX s
  let y := stopY s
  if y = 0 ∨ y = 11 then
    if [0, 7, 8, 15].contains x then 4
    else if [4, 11].contains x then 3
    else if [6, 9].contains x then 0
    else 2
  else if x = 0 ∨ x = 15 then (if y = 3 ∨ y = 8 then 3 else 1)
  else 0

/-- Generation of a port: 0 none, 1 GLP-2, 2 GLP-3, 3 GLP-4 (Table 1.2). -/
def portGen (s k : Nat) : Nat :=
  match stopKind s, k with
  | 0, 0 => 3
  | 1, 0 => 2
  | 2, 0 => 2
  | 2, 1 => 1
  | 4, 0 => 1
  | _, _ => 0

/-- Largest number of initiator tags of a generation (R151). -/
def genTags (g : Nat) : Nat := if g = 3 then 1024 else if g = 2 then 512 else 64

/-- The stop of die-to-die port p (Table 8.2). -/
def dpStop (p : Nat) : Nat := ([48, 128, 63, 143, 4, 11, 180, 187].getD p 48)

/-- The die-to-die port at a stop, if its tile is D. -/
def stopDp (s : Nat) : Option Nat := firstBelow 8 (fun p => dpStop p == s)

/-- The stop of memory channel MC k (R15). -/
def mcStop (k : Nat) : Nat :=
  [16, 32, 64, 80, 96, 112, 144, 160, 31, 47, 79, 95, 111, 127, 159, 175].getD k 16

/-- The NG domain of a stop: 4·y + floor(x/4). -/
def ngOf (s : Nat) : Nat := 4 * stopY s + stopX s / 4

/-- Hearth's stop (R17). -/
def hearthStop : Nat := 8

/-- The ring index of local ring `l` at stop `s` (Table 2.6). -/
def ringAt (s l : Nat) : Nat :=
  if l < 4 then 4 * stopY s + l else 48 + 4 * stopX s + (l - 4)

/-- A row ring, by index (R8). -/
def isRow (r : Nat) : Bool := r < 48

/-- Number of stages of a ring (R36). -/
def ringLen (r : Nat) : Nat := if r < 48 then 16 else 12

/-- The track of a ring: 0 A, 1 B. -/
def ringTrack (r : Nat) : Nat := r % 2

/-- The direction of a ring within its pair: 0 E or S (ascending), 1 W or N (descending). -/
def ringDir (r : Nat) : Nat := (r / 2) % 2

/-- The stop of ring `r` at coordinate `p` along it. -/
def ringStop (r p : Nat) : Nat :=
  if r < 48 then stopAt p (r / 4) else stopAt ((r - 48) / 4) p

/-- A stop's coordinate along ring `r`. -/
def ringCoord (r s : Nat) : Nat := if r < 48 then stopX s else stopY s

/-- The coordinate whose register feeds coordinate `p` (R36). -/
def ringPrev (r p : Nat) : Nat :=
  let n := ringLen r
  if ringDir r = 0 then (p + n - 1) % n else (p + 1) % n

/-- The coordinate that coordinate `p` feeds. -/
def ringNext (r p : Nat) : Nat :=
  let n := ringLen r
  if ringDir r = 0 then (p + 1) % n else (p + n - 1) % n

/-- Distance of a coordinate from the ring's origin, counted in the direction of travel (R72). -/
def ringDist (r p : Nat) : Nat :=
  let n := ringLen r
  if ringDir r = 0 then p % n else (n - p % n) % n

/-- The key of a ring stage. -/
def slotKey (r p : Nat) : Nat := r * 16 + p

/-- The origin stop of a ring (R8). -/
def originStop (r : Nat) : Nat := if r < 48 then 16 * (r / 4) else (r - 48) / 4

/-- Row direction from column `xs` to `xt`: 0 E, 1 W (R40). -/
def rowDir (xs xt : Nat) : Nat :=
  let e := (xt + 16 - xs) % 16
  if e < 8 then 0 else if 8 < e then 1 else if xs < xt then 0 else 1

/-- Column direction from row `y` to `yt`: 0 S, 1 N (R40). -/
def colDir (y yt : Nat) : Nat :=
  let d := (yt + 12 - y) % 12
  if d < 6 then 0 else if 6 < d then 1 else if y < yt then 0 else 1

/-- The injection direction at stop `s` for target stop `t`: 0 row E, 1 row W, 2 column S,
3 column N, and 4 for the loop-back at the stop itself (R39). -/
def injDir (s t : Nat) : Nat :=
  if stopX s = stopX t then
    (if stopY s = stopY t then 4 else 2 + colDir (stopY s) (stopY t))
  else rowDir (stopX s) (stopX t)

/-- Local ring of a direction and track (Table 2.6). -/
def dirRing (d track : Nat) : Nat := 2 * d + track

end Sys2Proof.Machine
end

