-- ==== Sys2Proof/Machine/Regs.lean ====
section
/-! DEFINITION. Where every register lies in a die's 64 MiB window of the fabric configuration
space (R12, Tables 8.2, 20.2 to 20.4), by its byte offset, and the value each word has after fabric
reset. -/
namespace Sys2Proof.Machine
open Sys2Proof

/-- FCS offset of a stop-block register (R12). -/
def stopReg (s off : Nat) : Nat := 0x100000 + s * 0x4000 + off
/-- FCS offset of a register of agent port k (chapter 6). -/
def portReg (s k off : Nat) : Nat := stopReg s (0x400 + 0x80 * k + off)
/-- FCS offset of a register of ACU a (R240). -/
def acuReg (s a off : Nat) : Nat := stopReg s (0x1900 + 0x80 * a + off)
/-- FCS offset of a die-to-die port register (Table 20.4). -/
def dpReg (p off : Nat) : Nat := 0x400000 + p * 0x10000 + off
/-- FCS offset of a ring-block register (R87). -/
def ringReg (r off : Nat) : Nat := 0x800000 + r * 0x10000 + off
/-- FCS offset of stamping entry `p` of bank `b` (R87). -/
def stampReg (r b p : Nat) : Nat := ringReg r (b * 0x8000 + 4 * p)

-- global block
def gFAB_ID : Nat := 0x0
def gFAB_VER : Nat := 0x4
def gFAB_GEOM : Nat := 0x8
def gFAB_STATE : Nat := 0xC
def gFRAME_CTRL : Nat := 0x100
def gFRAME_STAT : Nat := 0x104
def gFRAME_POS : Nat := 0x108
def gFRAME_CNT : Nat := 0x10C
def gREMAP_CTRL : Nat := 0x200
def gADDR_MAP_CTRL : Nat := 0x204
def gADDR_MAP_STAT : Nat := 0x208
def gDBG_STAT : Nat := 0x20C
def gDBG_SRC : Nat := 0x280
def gHMEM_STAT : Nat := 0x300
def gHMEM_ADDR : Nat := 0x304
def gRCLK_CTRL : Nat := 0x400
def gRCLK_STAT : Nat := 0x404
def gCDC_GSTAT : Nat := 0x408
def gFENCE_CTRL : Nat := 0x500
def gFENCE_STATUS : Nat := 0x504
def gPWR_CTRL : Nat := 0x508
def gPWR_STAT : Nat := 0x50C
def gPWR_DOMAIN_STATE : Nat := 0x520
def gAPD_SEL : Nat := 0x540
def gAPD_STAT : Nat := 0x544
def gPWR_CYC_SEL : Nat := 0x548
def gPWR_CYC : Nat := 0x54C
def gDIE_COORD : Nat := 0x600
def gDIE_MAP : Nat := 0x604
def gD2D_CTRL : Nat := 0x608
def gDETOUR_CTRL : Nat := 0x60C
def gDETOUR : Nat := 0x620
def gDETOUR_STG : Nat := 0x640
def gDIE_ROUTE : Nat := 0x680
def gBOOT_STAT : Nat := 0x700
def gBOOT_TIME : Nat := 0x704
def gIMG_SEQ : Nat := 0x708
def gIMG_BUILD : Nat := 0x70C
def gNVM_STAT : Nat := 0x710
def gOPEN_CTRL : Nat := 0x714
def gRESTORE_BASE : Nat := 0x718
def gRESTORE_CTRL : Nat := 0x71C
def gRESTORE_STAT : Nat := 0x720
def gNVM_CMD : Nat := 0x740
def gNVM_ADDR : Nat := 0x744
def gNVM_DATA : Nat := 0x800
def gCOMMIT_CTRL : Nat := 0x900
def gCOMMIT_TS_LO : Nat := 0x904
def gCOMMIT_TS_HI : Nat := 0x908
def gCOMMIT_STATUS : Nat := 0x90C
def gCOMMIT_T_LO : Nat := 0x910
def gCOMMIT_T_HI : Nat := 0x914
def gCOMMIT_FRAME : Nat := 0x918
def gCOMMIT_CFG : Nat := 0x91C
def gCOMMIT_GAP : Nat := 0x920
def gCMT_LIST_N : Nat := 0x924
/-- Register-list entry i, low word (R443). -/
def gCMT_LIST (i : Nat) : Nat := if i < 32 then 0xA00 + 8 * i else 0xF00 + 8 * (i - 32)
def gTEMPER_CTRL : Nat := 0xB00
def gTEMPER_THR : Nat := 0xB04
def gTEMPER_STAT : Nat := 0xB08
def gTEMPER_RET : Nat := 0xB10
def gTEMPER_BLK : Nat := 0xB20
def gD2D_CAL_CTRL : Nat := 0xB30
def gD2D_CAL_STAT : Nat := 0xB34
def gTS_NOW_LO : Nat := 0xC00
def gTS_NOW_HI : Nat := 0xC04
def gTS_CTRL : Nat := 0xC08
def gTS_STAT : Nat := 0xC0C
def gTS_SET_LO : Nat := 0xC10
def gTS_SET_HI : Nat := 0xC14
def gTS_SET_CTRL : Nat := 0xC18
def gERR_LOG_BASE : Nat := 0xC20
def gERR_LOG_CTRL : Nat := 0xC24
def gERR_LOG_HEAD : Nat := 0xC28
def gERR_LOG_TAIL : Nat := 0xC2C
def gERR_STAT : Nat := 0xC30
def gERR_IRQ_EN : Nat := 0xC34
def gERR_LOG_LOST : Nat := 0xC38
def gERR_SEQ : Nat := 0xC3C
def gERR_SRC : Nat := 0xC40
def gERR_LOCAL_HEAD : Nat := 0xC58
def gPERR_LOST : Nat := 0xC5C
def gERR_FATAL_REC : Nat := 0xC80
def gPERR_ROUTE : Nat := 0xCC0
def gSAMPLE_BUF_BASE : Nat := 0xE00
def gSAMPLE_BUF_SIZE : Nat := 0xE04
def gSAMPLE_HEAD : Nat := 0xE08
def gSAMPLE_TAIL : Nat := 0xE0C
def gSAMPLE_STAT : Nat := 0xE10
def gSAMPLE_CTRL : Nat := 0xE14
def gSNAP_CTRL : Nat := 0xE18
def gPMU_SRC : Nat := 0xE20
def gSTAGE_MAP : Nat := 0x1000
def gACTIVE_MAP : Nat := 0x1400
def gERR_LOCAL : Nat := 0x4000

-- stop block
def sSTOP_ID : Nat := 0x0
def sSTOP_CMT_STAT : Nat := 0x100
def sSTOP_CMT_CRC : Nat := 0x110
def sSCHED_CTRL : Nat := 0x800
def sSCHED_STAT : Nat := 0x804
def sCLASS_WT : Nat := 0x808
def sPMAP_ACC : Nat := 0x810
def sINJQ_SEL : Nat := 0x814
def sINJQ_OCC : Nat := 0x818
def sINJQ_WAIT : Nat := 0x81C
def sINJ_STORE : Nat := 0x820
def sCTX_CREDIT : Nat := 0x900
def sCTX_PARAM : Nat := 0xA00
def sFLOW_TABLE : Nat := 0xC00
def sGATE_LIST : Nat := 0x1000
def sGL_CFG : Nat := 0x1200
def sGL_START : Nat := 0x1204
def sGL_STAT : Nat := 0x1210
def sGL_MAXWIN : Nat := 0x1220
def sACU_SEL : Nat := 0x1800
def sACU_WDATA : Nat := 0x1804
def sACU_RDATA : Nat := 0x1814
def sDEC_CNT : Nat := 0x1A80
def sDEC_CNT_CLR : Nat := 0x1A84
def sQE_CTRL : Nat := 0x2000
def sQE_STAT : Nat := 0x2004
def sQT_SEL : Nat := 0x2008
def sQCMD : Nat := 0x200C
def sQCMD_STAT : Nat := 0x2010
def sQT_WDATA : Nat := 0x2020
def sQT_RDATA : Nat := 0x2040
def sTXN_CTRL : Nat := 0x3800
def sGRANT_CTRL : Nat := 0x3804
def sCTO_A : Nat := 0x3808
def sCTO_B : Nat := 0x380C
def sRSV_LIM_A : Nat := 0x3810
def sRSV_LIM_B : Nat := 0x3814
def sRSV_STAT : Nat := 0x3818
def sRTY_STAT : Nat := 0x381C
def sRTY_REC_SEL : Nat := 0x3820
def sRTY_REC : Nat := 0x3824
def sRTY_REC_SLOTS : Nat := 0x3828
def sLOCK_STAT : Nat := 0x3830
def sTXN_CNT_CLR : Nat := 0x383C
def sTXN_CNT : Nat := 0x3840
def sORD_STAT : Nat := 0x3870
def sDBG_CTRL : Nat := 0x3874
def sABS_CNT : Nat := 0x3878
def sSTOP_ERR_STAT : Nat := 0x3880
def sRING_CTRL : Nat := 0x3C00
def sRING_ORIGIN : Nat := 0x3C04
def sRING_CNT_CLR : Nat := 0x3C08
def sRING_STAT : Nat := 0x3C0C
def sRING_CNT : Nat := 0x3C20
def sDEFL_CTRL : Nat := 0x3C40
def sDEFL_CNT_CLR : Nat := 0x3C44
def sDEFL_STAT : Nat := 0x3C48
def sDEFL_CNT : Nat := 0x3C50
def sFLOW_STAT : Nat := 0x3C80
def sGUAR_CNT : Nat := 0x3C84

def sPMU_CTRL : Nat := 0x3000
def sPMU_OVF : Nat := 0x3004
def sSMP_CTRL : Nat := 0x3008
def sSMP_STAT : Nat := 0x300C
def sSMP_PERIOD : Nat := 0x3010
def sPMC_CFG : Nat := 0x3040
def sPMC : Nat := 0x3080
def sPMC_SNAP : Nat := 0x3100
def sSNAP_STAT : Nat := 0x3180
def sPMF : Nat := 0x3200
def sCAL_LINK : Nat := 0x3D00
def sCAL_LSEL : Nat := 0x3D20
def sCAL_LDATA : Nat := 0x3D24

-- port block, offsets within portReg
def pCFG : Nat := 0x0
def pSTAT : Nat := 0x4
def pERR : Nat := 0x8
def pERRCNT : Nat := 0xC
def pHSTO : Nat := 0x10
def pCNT2 : Nat := 0x14
def pPART : Nat := 0x18
def pAPD : Nat := 0x1C
def pCDC_CTRL : Nat := 0x20
def pCDC_CMD : Nat := 0x24
def pCDC_STAT : Nat := 0x28
def pCDC_CNT : Nat := 0x2C
def pCDC_LOST : Nat := 0x30

-- queue engine, translation, store
def sQE_CNT_CLR : Nat := 0x207C
def sQE_CNT : Nat := 0x2080
def sSEG_SEL : Nat := 0x2400
def sSEG_WDATA : Nat := 0x2404
def sSEG_RDATA : Nat := 0x2414
def sQTLB_INV : Nat := 0x2440
def sQTLB_INV_STAT : Nat := 0x2444
def sQS_POOL : Nat := 0x2450
def sQTLB_STAT : Nat := 0x2460
def sQS_RES : Nat := 0x2464
def sPG_CNT_CLR : Nat := 0x247C
def sPG_CNT : Nat := 0x2480
def sQS_CTRL : Nat := 0x2800
def sQS_STAT : Nat := 0x2804
def sQS_ERR : Nat := 0x2808
def sQS_SCRUB_POS : Nat := 0x280C
def sQS_CE_CNT : Nat := 0x2810
def sQS_UE_CNT : Nat := 0x2820
def sQS_CE_REC : Nat := 0x2830
def sQS_UE_REC : Nat := 0x2840
def sQS_CNT_CLR : Nat := 0x2850
def sQS_RAW_CTRL : Nat := 0x2860
def sQS_RAW_CHK : Nat := 0x2864
def sQS_RAW_LAST : Nat := 0x2868
def sQS_RAW_STAT : Nat := 0x286C
def sQS_REMAP_ADD : Nat := 0x2870
def sQS_REMAP : Nat := 0x2880

-- die-to-die port block
def dCTRL : Nat := 0x0
def dSTAT : Nat := 0x4
def dERR : Nat := 0x8
def dRSV : Nat := 0xC
def dTSYNC_OFS : Nat := 0x10
def dTSYNC_RTT : Nat := 0x14
def dCNT_CLR : Nat := 0x3C
def dCNT : Nat := 0x40

-- ring block
def rSTAMP_STAT : Nat := 0x7E00
def rSTAMP_GUAR : Nat := 0x7E04
def rTRK_STAT : Nat := 0x7E08

/-- One run of equal registers of a block: first offset, how many, how far apart, the value after
fabric reset, the bits software stores, the bits a written 1 clears, the access class (0 A, 1 P,
2 S), whether it answers in every domain state, and whether an image may set it (R4, R507, R510,
R512, R517). -/
structure RegRow where
  off  : Nat
  n    : Nat
  step : Nat
  rst  : Nat
  rw   : Nat
  w1c  : Nat
  cls  : Nat
  aon  : Bool
  img  : Bool
  deriving DecidableEq, Repr

/-- The row that holds offset `o`, if any. -/
def rowAt (rows : List RegRow) (o : Nat) : Option RegRow :=
  rows.find? fun r => r.off ≤ o && (o - r.off) % r.step == 0 && (o - r.off) / r.step < r.n

/-- Global block, 0x000 to 0x0FF and 0x100 to 0x2FF (R20 to R23, R109 to R111, R236 to R238). -/
def rowsGlobalA : List RegRow :=
  [⟨0x0, 1, 4, 0x16125A15, 0, 0, 0, true, false⟩,
   ⟨0x4, 1, 4, 0x00040103, 0, 0, 0, true, false⟩,
   ⟨0x8, 1, 4, 0x0F08BFBF, 0, 0, 0, true, false⟩,
   ⟨gFAB_STATE, 1, 4, 0x1, 0, 0, 0, true, false⟩,
   ⟨gFRAME_CTRL, 1, 4, 0x00032A2A, 0x3FF00, 0, 1, true, true⟩,
   ⟨gFRAME_STAT, 1, 4, 0, 0, 0x6, 1, true, false⟩,
   ⟨gFRAME_POS, 2, 4, 0, 0, 0, 1, true, false⟩,
   ⟨gREMAP_CTRL, 1, 4, 0xFFFFFFF0, 0xFFFFFFF1, 0, 2, true, false⟩,
   ⟨gADDR_MAP_CTRL, 2, 4, 0, 0, 0, 2, true, false⟩,
   ⟨gDBG_STAT, 1, 4, 0, 0, 0, 1, true, false⟩,
   ⟨gDBG_SRC, 16, 4, 0, 0, 0, 1, true, false⟩,
   ⟨gSTAGE_MAP, 64, 16, 0, 0xFFFFFFFF, 0, 2, true, false⟩,
   ⟨gSTAGE_MAP + 4, 64, 16, 0, 0xFFFF00FF, 0, 2, true, false⟩,
   ⟨gSTAGE_MAP + 8, 64, 16, 0, 0xFFFFFFFF, 0, 2, true, false⟩,
   ⟨gSTAGE_MAP + 12, 64, 16, 0, 0x0FFFFFFF, 0, 2, true, false⟩,
   ⟨gACTIVE_MAP, 256, 4, 0, 0, 0, 2, true, false⟩]

/-- Global block, time and records (R486). -/
def rowsGlobalE : List RegRow :=
  [⟨gTS_NOW_LO, 2, 4, 0, 0, 0, 1, true, false⟩,
   ⟨gTS_CTRL, 1, 4, 0x28, 0xFFFF, 0, 1, true, true⟩,
   ⟨gTS_STAT, 1, 4, 0, 0, 0x30000, 1, true, false⟩,
   ⟨gTS_SET_LO, 2, 4, 0, 0xFFFFFFFF, 0, 2, true, false⟩,
   ⟨gTS_SET_CTRL, 1, 4, 0, 0, 0, 2, true, false⟩,
   ⟨gERR_LOG_BASE, 1, 4, 0, 0xFFFFFFFF, 0, 1, true, false⟩,
   ⟨gERR_LOG_CTRL, 1, 4, 0, 0x1F, 0, 1, true, false⟩,
   ⟨gERR_LOG_HEAD, 1, 4, 0, 0, 0, 1, true, false⟩,
   ⟨gERR_LOG_TAIL, 1, 4, 0, 0xFFFF, 0, 1, true, false⟩,
   ⟨gERR_STAT, 1, 4, 0, 0, 0x1F, 1, true, false⟩,
   ⟨gERR_IRQ_EN, 1, 4, 0xBE, 0xFF, 0, 1, true, true⟩,
   ⟨gERR_LOG_LOST, 2, 4, 0, 0, 0, 1, true, false⟩,
   ⟨gERR_SRC, 6, 4, 0, 0, 0, 1, true, false⟩,
   ⟨gERR_LOCAL_HEAD, 2, 4, 0, 0, 0, 1, true, false⟩,
   ⟨gERR_FATAL_REC, 16, 4, 0, 0, 0, 1, true, false⟩,
   ⟨gPERR_ROUTE, 16, 8, 0, 0x3FFF, 0, 1, true, true⟩,
   ⟨gPERR_ROUTE + 4, 16, 8, 0, 0xFFFFF, 0, 1, true, true⟩,
   ⟨gERR_LOCAL, 1024, 4, 0, 0, 0, 1, true, false⟩]

/-- Stop block: identity, scheduler, flow table, gates, access checks (R24, R97, R132 to R140,
R239 to R242). -/
def rowsStopA : List RegRow :=
  [⟨sSTOP_ID, 1, 4, 0, 0, 0, 0, true, false⟩,
   ⟨sSCHED_CTRL, 1, 4, 0xFC, 0xFFFF, 0, 1, false, true⟩,
   ⟨sSCHED_STAT, 1, 4, 0, 0, 0xE, 1, false, false⟩,
   ⟨sCLASS_WT, 2, 4, 0x01020204, 0xFFFFFFFF, 0, 1, false, false⟩,
   ⟨sPMAP_ACC, 1, 4, 0, 0x1FFF, 0, 1, false, false⟩,
   ⟨sINJQ_SEL, 1, 4, 0, 0x1FF, 0, 1, false, false⟩,
   ⟨sINJQ_OCC, 3, 4, 0, 0, 0, 1, false, false⟩,
   ⟨sCTX_CREDIT, 64, 4, 0, 0, 0, 1, false, false⟩,
   ⟨sCTX_PARAM, 64, 8, 0, 0xFFFFFFFF, 0, 1, false, false⟩,
   ⟨sCTX_PARAM + 4, 64, 8, 0x200 * 1024, 0xFFCFF, 0, 1, false, false⟩,
   ⟨sFLOW_TABLE, 128, 8, 0, 0x3FFFFFFF, 0, 1, false, false⟩,
   ⟨sFLOW_TABLE + 4, 128, 8, 0, 0xFFF3F, 0, 1, false, false⟩,
   ⟨sGATE_LIST, 128, 4, 0x0007E00F, 0x07FFFF0F, 0, 1, false, false⟩,
   ⟨sGL_CFG, 2, 8, 0, 0x3F3F, 0, 1, false, false⟩,
   ⟨sGL_START, 2, 8, 0, 0xFFFFFFFF, 0, 1, false, false⟩,
   ⟨sGL_STAT, 1, 4, 0, 0, 0x6, 1, false, false⟩,
   ⟨sGL_MAXWIN, 4, 4, 0x7E0, 0, 0, 1, false, false⟩,
   ⟨sACU_SEL, 1, 4, 0, 0x1FF, 0, 2, false, false⟩,
   ⟨sACU_WDATA, 4, 4, 0, 0xFFFFFFFF, 0, 2, false, false⟩,
   ⟨sACU_RDATA, 4, 4, 0, 0, 0, 2, false, false⟩,
   ⟨0x1900, 3, 0x80, 0x6, 0x7, 0, 2, false, false⟩,
   ⟨0x1904, 3, 0x80, 0, 0, 0, 2, false, false⟩,
   ⟨0x1908, 3, 0x80, 0x2, 0, 0xFC00, 2, false, false⟩,
   ⟨0x1910, 4, 4, 0, 0, 0, 2, false, false⟩, ⟨0x1920, 6, 4, 0, 0, 0, 2, false, false⟩,
   ⟨0x1990, 4, 4, 0, 0, 0, 2, false, false⟩, ⟨0x19A0, 6, 4, 0, 0, 0, 2, false, false⟩,
   ⟨0x1A10, 4, 4, 0, 0, 0, 2, false, false⟩, ⟨0x1A20, 6, 4, 0, 0, 0, 2, false, false⟩,
   ⟨sDEC_CNT, 2, 4, 0, 0, 0, 1, false, false⟩]

/-- Stop block: agent ports (R169, R170), transactions (Tables 7.7 to 7.22), rings and deflection
(R56 to R60, R79 to R82), flows (R103), errors (R487). -/
def rowsStopB : List RegRow :=
  [⟨0x400, 2, 0x80, 0, 0x3FFFFF3, 0, 1, false, true⟩,
   ⟨0x404, 2, 0x80, 0, 0, 0, 1, false, false⟩,
   ⟨0x408, 2, 0x80, 0, 0, 0x7FF, 1, false, false⟩,
   ⟨0x40C, 2, 0x80, 0, 0, 0, 1, false, false⟩,
   ⟨0x410, 2, 0x80, 0x01000100, 0xFFFFFFFF, 0, 1, false, true⟩,
   ⟨0x414, 2, 0x80, 0, 0, 0, 1, false, false⟩,
   ⟨0x418, 2, 0x80, 0, 0, 0, 1, false, false⟩,
   ⟨sTXN_CTRL, 1, 4, 0x320, 0xFFFF, 0, 1, false, true⟩,
   ⟨sGRANT_CTRL, 1, 4, 0x8000, 0xFFFFF, 0, 1, false, true⟩,
   ⟨sCTO_A, 1, 4, 0x00C80064, 0xFFFFFFFF, 0, 1, false, true⟩,
   ⟨sCTO_B, 1, 4, 0x03E803E8, 0xFFFFFFFF, 0, 1, false, true⟩,
   ⟨sRSV_LIM_A, 2, 4, 0x04000400, 0x07FF07FF, 0, 1, false, true⟩,
   ⟨sRSV_STAT, 1, 4, 0, 0, 0, 1, false, false⟩,
   ⟨sRTY_STAT, 1, 4, 0, 0, 0x3000000, 1, false, false⟩,
   ⟨sRTY_REC_SEL, 1, 4, 0, 0xFFF, 0, 1, false, false⟩,
   ⟨sRTY_REC, 2, 4, 0, 0, 0, 1, false, false⟩,
   ⟨sLOCK_STAT, 2, 4, 0, 0, 0, 1, false, false⟩,
   ⟨sTXN_CNT_CLR, 1, 4, 0, 0, 0, 1, false, false⟩,
   ⟨sTXN_CNT, 11, 4, 0, 0, 0, 1, false, false⟩,
   ⟨sORD_STAT, 1, 4, 0, 0, 0, 1, false, false⟩,
   ⟨sDBG_CTRL, 1, 4, 0, 0x1, 0, 2, false, true⟩,
   ⟨sSTOP_ERR_STAT, 1, 4, 0, 0, 0x10, 1, true, false⟩,
   ⟨sRING_CTRL, 1, 4, 0x4000, 0xFFFFF, 0, 1, true, true⟩,
   ⟨sRING_ORIGIN, 1, 4, 0, 0, 0, 1, true, false⟩,
   ⟨sRING_CNT_CLR, 2, 4, 0, 0, 0, 1, true, false⟩,
   ⟨sRING_CNT, 8, 4, 0, 0, 0, 1, true, false⟩,
   ⟨sDEFL_CTRL, 1, 4, 0x10001002, 0xFFFFFFFF, 0, 1, true, true⟩,
   ⟨sDEFL_CNT_CLR, 1, 4, 0, 0, 0, 1, true, false⟩,
   ⟨sDEFL_STAT, 1, 4, 0, 0, 0x70, 1, true, false⟩,
   ⟨sDEFL_CNT, 8, 4, 0, 0, 0, 1, true, false⟩,
   ⟨sFLOW_STAT, 1, 4, 0, 0, 0x800, 1, false, false⟩,
   ⟨sGUAR_CNT, 3, 4, 0, 0, 0, 1, false, false⟩]

/-- Ring block: both stamping banks, STAMP_STAT, STAMP_GUAR (R87, R91, R92). -/
def rowsRing : List RegRow :=
  [⟨0x0, 8064, 4, 0x3FF0, 0x3FF7, 0, 1, true, false⟩,
   ⟨0x8000, 8064, 4, 0x3FF0, 0x3FF7, 0, 1, true, false⟩,
   ⟨rSTAMP_STAT, 1, 4, 0, 0, 0x2, 1, true, false⟩,
   ⟨rSTAMP_GUAR, 1, 4, 0, 0, 0, 1, true, false⟩,
   ⟨rTRK_STAT, 1, 4, 0, 0, 0, 1, true, false⟩]

/-- Global block, Temper (R457) and sampling (R502). -/
def rowsGlobalT : List RegRow :=
  [⟨gTEMPER_CTRL, 1, 4, 0x60027, 0xFFFFFF, 0, 1, true, true⟩,
   ⟨gTEMPER_THR, 1, 4, 0x10408, 0x1F1F1F, 0, 1, true, true⟩,
   ⟨gTEMPER_STAT, 1, 4, 0, 0, 0x1F0000, 1, true, false⟩,
   ⟨gTEMPER_RET, 3, 4, 0, 0, 0xFFFFFFFF, 1, true, false⟩,
   ⟨gTEMPER_RET + 12, 1, 4, 0, 0, 0xFFFF, 1, true, false⟩,
   ⟨gTEMPER_BLK, 4, 4, 0, 0, 0, 1, true, false⟩,
   ⟨gD2D_CAL_CTRL, 1, 4, 0x6419, 0xFFFFFF, 0, 1, true, true⟩,
   ⟨gD2D_CAL_STAT, 1, 4, 0, 0, 0x30000, 1, true, false⟩,
   ⟨gSAMPLE_BUF_BASE, 1, 4, 0, 0xFFFFFFFF, 0, 1, true, false⟩,
   ⟨gSAMPLE_BUF_SIZE, 1, 4, 0, 0xF, 0, 1, true, false⟩,
   ⟨gSAMPLE_HEAD, 1, 4, 0, 0, 0, 1, true, false⟩,
   ⟨gSAMPLE_TAIL, 1, 4, 0, 0xFFFFF, 0, 1, true, false⟩,
   ⟨gSAMPLE_STAT, 1, 4, 0, 0, 0x1, 1, true, false⟩,
   ⟨gSAMPLE_CTRL, 1, 4, 0x1000, 0x1FFF, 0, 1, true, true⟩,
   ⟨gSNAP_CTRL, 1, 4, 0, 0x1F, 0, 1, true, true⟩,
   ⟨gPMU_SRC, 6, 4, 0, 0, 0, 1, true, false⟩]

/-- Stop block: counters and sampling (R501), Temper's windows (R459). -/
def rowsStopP : List RegRow :=
  [⟨sPMU_CTRL, 1, 4, 0, 0x1, 0, 1, true, false⟩,
   ⟨sPMU_OVF, 1, 4, 0, 0, 0xFFFF, 1, true, false⟩,
   ⟨sSMP_CTRL, 1, 4, 0x2, 0x3FF, 0, 1, true, true⟩,
   ⟨sSMP_STAT, 1, 4, 0, 0, 0, 1, true, false⟩,
   ⟨sSMP_PERIOD, 1, 4, 0xFFF, 0xFFFFF, 0, 1, true, true⟩,
   ⟨sPMC_CFG, 16, 4, 0xFF00, 0x7FFFFF, 0, 1, true, true⟩,
   ⟨sPMC, 32, 4, 0, 0, 0, 1, true, false⟩,
   ⟨sPMC_SNAP, 32, 4, 0, 0, 0, 1, true, false⟩,
   ⟨sSNAP_STAT, 1, 4, 0, 0, 0, 1, true, false⟩,
   ⟨sPMF, 4, 0x20, 0x3FC, 0x7FF, 0, 1, true, true⟩,
   ⟨sPMF + 4, 4, 0x20, 0, 0x3FFF3FFF, 0, 1, true, true⟩,
   ⟨sPMF + 8, 4, 0x20, 0, 0x0FFF0FFF, 0, 1, true, true⟩,
   ⟨sPMF + 0x10, 4, 0x20, 0, 0xFFFFFFFF, 0, 1, true, true⟩,
   ⟨sPMF + 0x14, 4, 0x20, 0, 0xFF, 0, 1, true, true⟩,
   ⟨sPMF + 0x18, 4, 0x20, 0, 0xFFFFFFFF, 0, 1, true, true⟩,
   ⟨sPMF + 0x1C, 4, 0x20, 0, 0xFF, 0, 1, true, true⟩,
   ⟨sCAL_LINK, 8, 4, 0, 0, 0x8000, 1, true, false⟩,
   ⟨sCAL_LSEL, 1, 4, 0, 0x1FFF, 0, 1, true, false⟩,
   ⟨sCAL_LDATA, 1, 4, 0, 0, 0, 1, true, false⟩]


/-- Global block: Hearth's memory (R324), ring clock (R348), power (R371), dies (R403), start-up and
flash (R426), commits (R443). -/
def rowsGlobalB : List RegRow :=
  [⟨gHMEM_STAT, 1, 4, 0, 0, 0x3, 1, true, false⟩,
   ⟨gHMEM_ADDR, 1, 4, 0, 0, 0, 1, true, false⟩,
   ⟨gRCLK_CTRL, 1, 4, 0, 0, 0, 1, true, false⟩,
   ⟨gRCLK_STAT, 1, 4, 0, 0, 0x4, 1, true, false⟩,
   ⟨gCDC_GSTAT, 1, 4, 0, 0, 0x1, 1, true, false⟩,
   ⟨gFENCE_CTRL, 1, 4, 0, 0x3FF, 0, 1, true, false⟩,
   ⟨gFENCE_STATUS, 1, 4, 0, 0, 0, 1, true, false⟩,
   ⟨gPWR_CTRL, 1, 4, 0x107D0, 0x1FFFF, 0, 1, true, true⟩,
   ⟨gPWR_STAT, 1, 4, 0, 0, 0x7, 1, true, false⟩,
   ⟨gPWR_DOMAIN_STATE, 7, 4, 0x44444444, 0, 0, 1, true, false⟩,
   ⟨gAPD_SEL, 1, 4, 0, 0xFF, 0, 1, true, false⟩,
   ⟨gAPD_STAT, 1, 4, 0, 0, 0, 1, true, false⟩,
   ⟨gPWR_CYC_SEL, 1, 4, 0, 0x3F, 0, 1, true, false⟩,
   ⟨gPWR_CYC, 1, 4, 0, 0, 0, 1, true, false⟩,
   ⟨gDIE_COORD, 1, 4, 0, 0, 0x800, 1, true, false⟩,
   ⟨gDIE_MAP, 1, 4, 1, 0, 0, 1, true, false⟩,
   ⟨gD2D_CTRL, 1, 4, 0xA1000, 0xFFFFFF, 0, 1, true, true⟩,
   ⟨gDETOUR_CTRL, 1, 4, 0, 0, 0, 1, true, false⟩,
   ⟨gDETOUR, 8, 4, 0, 0, 0, 1, true, false⟩,
   ⟨gDETOUR_STG, 8, 4, 0, 0x1FF, 0, 1, true, false⟩,
   ⟨gDIE_ROUTE, 16, 4, 0, 0, 0, 1, true, false⟩,
   ⟨gBOOT_STAT, 5, 4, 0, 0, 0, 1, true, false⟩,
   ⟨gOPEN_CTRL, 1, 4, 0, 0, 0, 1, true, false⟩,
   ⟨gRESTORE_BASE, 1, 4, 0, 0xFFFFFFFF, 0, 2, true, false⟩,
   ⟨gRESTORE_CTRL, 1, 4, 0, 0, 0, 2, true, false⟩,
   ⟨gRESTORE_STAT, 1, 4, 0, 0, 0x2, 2, true, false⟩,
   ⟨gNVM_CMD, 1, 4, 0, 0x7FF, 0, 2, true, false⟩,
   ⟨gNVM_ADDR, 1, 4, 0, 0xFFFFFFFF, 0, 2, true, false⟩,
   ⟨gNVM_DATA, 64, 4, 0, 0xFFFFFFFF, 0, 2, true, false⟩,
   ⟨gCOMMIT_CTRL, 1, 4, 0, 0xFFC, 0, 1, true, false⟩,
   ⟨gCOMMIT_TS_LO, 2, 4, 0, 0xFFFFFFFF, 0, 1, true, false⟩,
   ⟨gCOMMIT_STATUS, 1, 4, 0x1E00000, 0, 0x180, 1, true, false⟩,
   ⟨gCOMMIT_T_LO, 3, 4, 0, 0, 0, 1, true, false⟩,
   ⟨gCOMMIT_CFG, 1, 4, 0xA0014, 0xFFFFFFFF, 0, 1, true, true⟩,
   ⟨gCOMMIT_GAP, 1, 4, 0x1000, 0xFFFFF, 0, 1, true, true⟩,
   ⟨gCMT_LIST_N, 1, 4, 0, 0x7F, 0, 1, true, false⟩,
   ⟨0xA00, 64, 4, 0, 0xFFFFFFFF, 0, 1, true, false⟩,
   ⟨0xF00, 64, 4, 0, 0xFFFFFFFF, 0, 1, true, false⟩]

/-- Stop block: commits (R444), the rest of the port blocks (R347, R372), the queue engine (R271,
R272), translation (R291 to R295), the queue store (R323), absent destinations (R372). -/
def rowsStopC : List RegRow :=
  [⟨sSTOP_CMT_STAT, 1, 4, 0x3C, 0, 0x100, 1, true, false⟩,
   ⟨sSTOP_CMT_CRC, 8, 4, 0, 0xFFFFFFFF, 0, 1, true, false⟩,
   ⟨0x41C, 2, 0x80, 0, 0x1FF, 0, 1, false, true⟩,
   ⟨0x420, 2, 0x80, 0x32, 0x1FFFF, 0, 1, false, true⟩,
   ⟨0x424, 2, 0x80, 0, 0, 0, 1, false, false⟩,
   ⟨0x428, 2, 0x80, 0, 0, 0x1E0, 1, false, false⟩,
   ⟨0x42C, 2, 0x80, 0, 0, 0, 1, false, false⟩,
   ⟨0x430, 2, 0x80, 0, 0, 0, 1, false, false⟩,
   ⟨sQE_CTRL, 1, 4, 2, 0x3, 0, 1, false, true⟩,
   ⟨sQE_STAT, 1, 4, 0, 0, 0x7000004, 1, false, false⟩,
   ⟨sQT_SEL, 1, 4, 0, 0x1FF, 0, 1, false, false⟩,
   ⟨sQCMD, 1, 4, 0, 0x7FF, 0, 1, false, false⟩,
   ⟨sQCMD_STAT, 1, 4, 0, 0, 0, 1, false, false⟩,
   ⟨sQT_WDATA, 8, 4, 0, 0xFFFFFFFF, 0, 1, false, false⟩,
   ⟨sQT_RDATA, 8, 4, 0, 0, 0, 1, false, false⟩,
   ⟨sQE_CNT_CLR, 9, 4, 0, 0, 0, 1, false, false⟩,
   ⟨sSEG_SEL, 1, 4, 0, 0xFF, 0, 1, false, false⟩,
   ⟨sSEG_WDATA, 4, 4, 0, 0xFFFFFFFF, 0, 1, false, false⟩,
   ⟨sSEG_RDATA, 4, 4, 0, 0, 0, 1, false, false⟩,
   ⟨sQTLB_INV, 1, 4, 0, 0x3FFFF07, 0, 1, false, false⟩,
   ⟨sQTLB_INV_STAT, 1, 4, 0, 0, 0, 1, false, false⟩,
   ⟨sQS_POOL, 4, 4, 0xFFFFFFFF, 0xFFFFFFFF, 0, 1, false, true⟩,
   ⟨sQTLB_STAT, 1, 4, 0, 0, 0x1780, 1, false, false⟩,
   ⟨sQS_RES, 1, 4, 0, 0, 0, 1, false, false⟩,
   ⟨sPG_CNT_CLR, 9, 4, 0, 0, 0, 1, false, false⟩,
   ⟨sQS_CTRL, 1, 4, 0x101016, 0xFFFF1F, 0, 1, false, true⟩,
   ⟨sQS_STAT, 1, 4, 1, 0, 0, 1, false, false⟩,
   ⟨sQS_ERR, 1, 4, 0, 0, 0x7F, 1, false, false⟩,
   ⟨sQS_SCRUB_POS, 1, 4, 0, 0, 0, 1, false, false⟩,
   ⟨sQS_CE_CNT, 17, 4, 0, 0, 0, 1, false, false⟩,
   ⟨sQS_RAW_CTRL, 1, 4, 0, 0, 0, 2, false, false⟩,
   ⟨sQS_RAW_CHK, 1, 4, 0, 0xFFFFFFFF, 0, 2, false, false⟩,
   ⟨sQS_RAW_LAST, 1, 4, 0, 0, 0, 2, false, false⟩,
   ⟨sQS_RAW_STAT, 1, 4, 0x7FF8, 0, 0, 2, false, false⟩,
   ⟨sQS_REMAP_ADD, 1, 4, 0, 0, 0, 1, false, false⟩,
   ⟨sQS_REMAP, 32, 4, 0, 0, 0, 1, false, false⟩,
   ⟨sABS_CNT, 1, 4, 0, 0, 0, 1, true, false⟩]
/-- Every row of the global block (Table 20.2). -/
def rowsGlobal : List RegRow := rowsGlobalA ++ rowsGlobalB ++ rowsGlobalE ++ rowsGlobalT
/-- Every row of a stop block (Table 20.3). -/
def rowsStop : List RegRow := rowsStopA ++ rowsStopB ++ rowsStopC ++ rowsStopP
/-- Every row of a die-to-die port block (Table 20.4). -/
def rowsDp : List RegRow :=
  [⟨dCTRL, 1, 4, 1, 1, 0, 1, true, true⟩,
   ⟨dSTAT, 1, 4, 1, 0, 0, 1, false, false⟩,
   ⟨dERR, 1, 4, 0, 0, 0x3F, 1, false, false⟩,
   ⟨dRSV, 3, 4, 0, 0, 0, 1, false, false⟩,
   ⟨dCNT_CLR, 9, 4, 0, 0, 0, 1, false, false⟩]

/-- STOP_ID of stop s (Table 1.10). -/
def stopIdWord (s : Nat) : Word32 :=
  BitVec.ofNat 32 (packFields
    [(s, 8), (stopX s, 4), (stopY s, 4), (stopKind s, 3), (0, 1), (portGen s 0, 2), (portGen s 1, 2),
     ((stopDp s).getD 0, 3)])

/-- PORT_CFG of a port: PAR_EN 1 on GLP-4; TGT_MAX_M1 by generation; 0 for an absent port (R169). -/
def portCfgReset (s k : Nat) : Word32 :=
  match portGen s k with
  | 3 => BitVec.ofNat 32 (2 + 0x3FF * 65536)
  | 2 => BitVec.ofNat 32 (0x1FF * 65536)
  | 1 => BitVec.ofNat 32 (0x03F * 65536)
  | _ => 0

/-- Reset value of a stop-block word. -/
def stopReset (s o : Nat) : Word32 :=
  if o = sSTOP_ID then stopIdWord s
  else if o = sRING_ORIGIN then
    BitVec.ofNat 32 ((if stopX s = 0 then 0xF else 0) + (if stopY s = 0 then 0xF0 else 0))
  else if o = 0x400 then portCfgReset s 0
  else if o = 0x480 then portCfgReset s 1
  else if o = 0x404 then BitVec.ofNat 32 (portGen s 0 * 8)
  else if o = 0x484 then BitVec.ofNat 32 (portGen s 1 * 8)
  else if 0x410 ≤ o ∧ o < 0x480 ∧ portGen s 0 = 0 then 0
  else if 0x490 ≤ o ∧ o < 0x500 ∧ portGen s 1 = 0 then 0
  else match rowAt rowsStop o with
    | some r => BitVec.ofNat 32 r.rst
    | none => 0

/-- The value of every word of the die's register space after fabric reset (R517). -/
def regReset0 (a : Nat) : Word32 :=
  if a < 0x100000 then
    match rowAt rowsGlobal a with
    | some r => BitVec.ofNat 32 r.rst
    | none => 0
  else if a < 0x400000 then stopReset ((a - 0x100000) / 0x4000) ((a - 0x100000) % 0x4000)
  else if a < 0x480000 then
    match rowAt rowsDp ((a - 0x400000) % 0x10000) with
    | some r => BitVec.ofNat 32 r.rst
    | none => 0
  else if 0x800000 ≤ a ∧ a < 0xF00000 then
    match rowAt rowsRing ((a - 0x800000) % 0x10000) with
    | some r => BitVec.ofNat 32 r.rst
    | none => 0
  else 0

/-- Words kept beside the register space, such as the second bank of a window (R138), reset as the
window's own words do. -/
def regReset (a : Nat) : Word32 := regReset0 (a % 0x10000000)

end Sys2Proof.Machine
end

