-- ==== Sys2Proof/Machine/Slots.lean ====
section
/-! DEFINITION. The 768-bit slot: header fields (Table 2.2), the empty form (R32, R33), the slot
CRC (R34, R35), and packets built from header fields (R48). -/
namespace Sys2Proof
open Sys2Proof.Machine

/-- One bit of the reflected CRC-32C shift register (R34). -/
def crcBit (c : Nat) : Nat := if c % 2 = 1 then (c / 2) ^^^ 0x82F63B78 else c / 2

/-- One byte of CRC-32C (R34). -/
def crcByte (c b : Nat) : Nat :=
  let x := c ^^^ b
  crcBit (crcBit (crcBit (crcBit (crcBit (crcBit (crcBit (crcBit x)))))))

/-- CRC-32C over `n` bytes of `v`, byte 0 first, from register value `c`, no final XOR. -/
def crcLoop : Nat → Nat → Nat → Nat
  | 0, _, c => c
  | n + 1, v, c => crcLoop n (v / 256) (crcByte c (v % 256))

/-- CRC-32C of `n` bytes of `v` (R34). -/
def crc32c (n v : Nat) : Nat := crcLoop n v 0xFFFFFFFF ^^^ 0xFFFFFFFF

/-- Bits [735:0] of a slot as one number. -/
def Slot.content (s : Slot) : Nat :=
  s.hdr.toNat + s.pay.toNat * 2 ^ 160 + s.ext.toNat * 2 ^ 672

/-- The CRC a slot's content calls for (R34). -/
def Slot.crcNeed (s : Slot) : Word32 := BitVec.ofNat 32 (crc32c 92 s.content)

/-- The slot passes its CRC check (R52). -/
def Slot.crcOk (s : Slot) : Bool := s.crc == s.crcNeed

/-- The slot with its CRC generated (R52, the source NI). -/
def Slot.seal (s : Slot) : Slot := { s with crc := s.crcNeed }

/-- A header change inside an occupied slot: the CRC difference of the changed bits is XORed into
the stored CRC, so an error already present stays detectable (R35). -/
def Slot.rehead (s : Slot) (h : BitVec 160) : Slot :=
  { s with
    hdr := h
    crc := s.crc ^^^ BitVec.ofNat 32 (crcLoop 92 (s.hdr ^^^ h).toNat 0) }

def Slot.stype (s : Slot) : Nat := fieldOf s.hdr 0 3
def Slot.occ (s : Slot) : Bool := bitOf s.hdr 3
def Slot.resid (s : Slot) : Nat := fieldOf s.hdr 4 10
def Slot.ddie (s : Slot) : Nat := fieldOf s.hdr 14 4
def Slot.dstop (s : Slot) : Nat := fieldOf s.hdr 18 8
def Slot.dport (s : Slot) : Nat := fieldOf s.hdr 26 2
def Slot.sdie (s : Slot) : Nat := fieldOf s.hdr 28 4
def Slot.sstop (s : Slot) : Nat := fieldOf s.hdr 32 8
def Slot.sport (s : Slot) : Nat := fieldOf s.hdr 40 2
def Slot.cls (s : Slot) : Nat := fieldOf s.hdr 42 3
def Slot.opc (s : Slot) : Nat := fieldOf s.hdr 45 6
def Slot.tag (s : Slot) : Nat := fieldOf s.hdr 51 12
def Slot.part (s : Slot) : Nat := fieldOf s.hdr 63 12
def Slot.defl (s : Slot) : Nat := fieldOf s.hdr 75 4
def Slot.plen (s : Slot) : Nat := fieldOf s.hdr 79 6
def Slot.pseq (s : Slot) : Nat := fieldOf s.hdr 85 6
def Slot.addr (s : Slot) : Nat := fieldOf s.hdr 91 52
def Slot.attr (s : Slot) : Nat := fieldOf s.hdr 143 8
def Slot.turned (s : Slot) : Bool := bitOf s.hdr 151
def Slot.grnt (s : Slot) : Bool := bitOf s.hdr 152
def Slot.sdefl (s : Slot) : Nat := fieldOf s.hdr 153 4

/-- STATUS of a SEQ-format extension (Table 2.5). -/
def Slot.status (s : Slot) : Nat := fieldOf s.ext 0 4
/-- OSEQ of a SEQ-format extension. -/
def Slot.oseq (s : Slot) : Nat := fieldOf s.ext 4 6
/-- SUB of OPX, slot bits [697:682] (Table 7.2). -/
def Slot.sub (s : Slot) : Nat := fieldOf s.ext 10 16
/-- SSTART of OPX, slot bit [698]. -/
def Slot.sstart (s : Slot) : Bool := bitOf s.ext 26
/-- GNUM of OPX, slot bits [702:699]. -/
def Slot.gnum (s : Slot) : Nat := fieldOf s.ext 27 4
/-- GSZ of OPX, slot bits [704:703]. -/
def Slot.gsz (s : Slot) : Nat := fieldOf s.ext 31 2
/-- RLEN of OPX, slot bits [717:705]. -/
def Slot.rlen (s : Slot) : Nat := fieldOf s.ext 33 13

/-- ATTR bits (Table 2.4), by their place within ATTR. -/
def attrPriv : Nat := 0
def attrSec : Nat := 1
def attrSpec : Nat := 2
def attrWalk : Nat := 3
def attrPois : Nat := 4
def attrLock : Nat := 5
def attrOrd : Nat := 6
def attrSmpl : Nat := 7

/-- One ATTR bit of a slot. -/
def Slot.attrBit (s : Slot) (i : Nat) : Bool := bitOf s.hdr (143 + i)

/-- The source identity a stop gathers slots by (R51). -/
def Slot.src (s : Slot) : Src := { die := s.sdie, stop := s.sstop, port := s.sport, tag := s.tag }

/-- The empty form: zero in every bit except STYPE, RESID and the CRC (R32). -/
def emptySlot (stype resid : Nat) : Slot :=
  Slot.seal { hdr := BitVec.ofNat 160 (stype % 8 + (resid % 1024) * 16), pay := 0, ext := 0, crc := 0 }

/-- The closed slot: STYPE BE with RESID 0x3FF (R46, R53). -/
def closedSlot : Slot := emptySlot 0 0x3FF

/-- The slot emptied in place: STYPE and RESID keep the values they had (R32). -/
def Slot.emptied (s : Slot) : Slot := emptySlot s.stype s.resid

/-- The test of R33: OCC = 0 and header bits [159:14] all zero. -/
def Slot.isEmpty (s : Slot) : Bool := !s.occ && fieldOf s.hdr 14 146 == 0

/-- DEFL raised by 1, saturating at 15 (R62). -/
def Slot.deflected (s : Slot) : Slot :=
  if s.defl = 15 then s else s.rehead (withField s.hdr 75 4 (s.defl + 1))

/-- STYPE and RESID of a slot replaced; the CRC carries the difference (R35). -/
def Slot.stamped (x : Slot) (e : Nat × Nat) : Slot :=
  x.rehead (withField (withField x.hdr 0 3 e.1) 4 10 e.2)

/-- A slot as the link upset it. -/
def Upset.on (u : Upset) (x : Slot) : Slot :=
  { hdr := x.hdr ^^^ u.hdr, pay := x.pay ^^^ u.pay, ext := x.ext ^^^ u.ext, crc := x.crc ^^^ u.crc }

/-- The header fields a source NI writes (Table 2.2, "Set by"). -/
structure HdrIn where
  ddie  : Nat := 0
  dstop : Nat := 0
  dport : Nat := 0
  sdie  : Nat := 0
  sstop : Nat := 0
  sport : Nat := 0
  cls   : Nat := 0
  opc   : Nat := 0
  tag   : Nat := 0
  part  : Nat := 0
  addr  : Nat := 0
  attr  : Nat := 0
  grnt  : Bool := false
  sdefl : Nat := 0
  deriving DecidableEq, Repr

/-- Header bits of slot `pseq` of a packet of `plen + 1` slots: OCC set, DEFL 0, TURNED 0. STYPE
and RESID come from the slot that is filled (R26, R48). -/
def HdrIn.bits (h : HdrIn) (plen pseq : Nat) : BitVec 160 :=
  BitVec.ofNat 160 (packFields
    [(0, 3), (1, 1), (0, 10), (h.ddie, 4), (h.dstop, 8), (h.dport, 2), (h.sdie, 4), (h.sstop, 8),
     (h.sport, 2), (h.cls, 3), (h.opc, 6), (h.tag, 12), (h.part, 12), (0, 4), (plen, 6), (pseq, 6),
     (h.addr, 52), (h.attr, 8), (0, 1), (boolNat h.grnt, 1), (h.sdefl, 4)])

/-- The slots of a packet from its header fields and the payload and extension of each slot. -/
def mkPkt (h : HdrIn) (body : List (BitVec 512 × BitVec 64)) : Pkt :=
  body.zipIdx.map fun (b, i) =>
    Slot.seal { hdr := h.bits (body.length - 1) i, pay := b.1, ext := b.2, crc := 0 }

/-- The first slot of a packet, or the closed slot for the packet without slots. -/
def Pkt.head (p : Pkt) : Slot := p.headD closedSlot

/-- A SEQ-format extension from its fields (Table 2.5, Table 7.2); `opx` is OPX as a number. -/
def seqExt (status oseq opx : Nat) : BitVec 64 :=
  BitVec.ofNat 64 (packFields [(status, 4), (oseq, 6), (opx, 54)])

/-- OPX of a request: SUB, SSTART and RLEN (Table 7.2). -/
def opxReq (sub : Nat) (sstart : Bool) (rlen : Nat) : Nat :=
  packFields [(sub, 16), (boolNat sstart, 1), (0, 6), (rlen, 13)]

/-- OPX of GRANT and GRELEASE: GNUM at [702:699], GSZ at [704:703] (Table 7.2). -/
def opxGrant (gnum gsz : Nat) : Nat :=
  packFields [(0, 17), (gnum, 4), (gsz, 2)]

/-- A packet's slots written into a ring slot: STYPE and RESID are the ring slot's, and the CRC is
generated over the result (R26, R52). -/
def Slot.fill (ring : Slot) (p : Slot) : Slot :=
  Slot.seal { p with hdr := withField (withField p.hdr 0 3 ring.stype) 4 10 ring.resid }

/-- A turning packet written into a column slot with TURNED = 1; STYPE and RESID are the column
slot's, and the CRC carries the difference of the changed bits (R35, R43). -/
def Slot.turnInto (col : Slot) (p : Slot) : Slot :=
  p.rehead (withField (withField (withField p.hdr 0 3 col.stype) 4 10 col.resid) 151 1 1)

/-- A SEQ-format ORD packet: the one that carries OSEQ (R29, R189). -/
def Slot.hasOseq (x : Slot) : Bool := x.attrBit attrOrd && !opBE x.opc && x.cls != clsRSP

/-- CTL: the RSP-class control packets GRANT and GRELEASE (R381). -/
def Slot.isCtl (x : Slot) : Bool :=
  x.cls == clsRSP && (x.opc == opGRANT || x.opc == opGRELEASE)

/-- Credit class of a slot: 8 for RSP other than CTL (Table 14.4). -/
def Slot.ccls (x : Slot) : Nat :=
  if x.cls = clsRSP then (if x.isCtl then 5 else 8)
  else if x.cls ≤ clsBULK then x.cls - 1
  else x.cls

/-- The request a response answers, as a reservation's key (R383). -/
def Slot.reqKey (x : Slot) : Src := { die := x.ddie, stop := x.dstop, port := x.dport, tag := x.tag }

/-- Queue number of a queue operation (Table 9.3). -/
def Slot.qnum (x : Slot) : Nat := fieldOf x.ext 26 8
/-- LEN of a queue operation. -/
def Slot.qlen (x : Slot) : Nat := fieldOf x.ext 34 12
/-- ARM of a queue operation. -/
def Slot.qarm (x : Slot) : Bool := bitOf x.ext 46
/-- CLRDB of QSTAT. -/
def Slot.qclrdb (x : Slot) : Bool := bitOf x.ext 47

end Sys2Proof
end

