-- ==== Sys2Proof/Machine/State.lean ====
section
/-! DEFINITION. The state of one die's fabric block: plain data, holding every piece of state the
manual gives it, with the queue of commands that wait; the two reasons a command can stop; and the
state right after reset. -/
namespace Sys2Proof.Machine
open Sys2Proof

/-- The frame counters every stop of the die holds alike (R71, R83, R111). -/
structure Frame where
  /-- The frame-start strobe has been issued (FRAME_STAT.RUNNING). -/
  running  : Bool
  fpos     : Nat
  sframe   : Nat
  frameCnt : Word32
  /-- FRAME_CTRL.FLEN48: the active F ÷ 48. -/
  flen48   : Nat
  /-- `flen48` of the frame before: slots that passed their origin in it keep its positions (R98, R438). -/
  flenPrev : Nat
  /-- The rc of position F − 1 is over and the boundary has not been taken. -/
  due      : Bool
  /-- Escape epoch count e, 0 to 47. -/
  epoch    : Nat
  /-- rc elapsed in the epoch. -/
  epochPos : Nat
  /-- ESC_EPOCH in force. -/
  epochSel : Nat
  /-- The last rc of the epoch is over and the epoch boundary has not been taken. -/
  epochDue : Bool
  /-- F changed at the last frame boundary (Table 17.2). -/
  fNew     : Bool
  /-- A changed ESC_EPOCH that waits for an epoch boundary (R71). -/
  epochNxt : Option Nat
  /-- A host value of DEFL_CTRL and the FRAME_CNT of the boundary that applies it (R79). -/
  deflNxt  : Option (Word32 × Word32)
  /-- rc elapsed since reset: the model's own count, from which every age in rc is taken. -/
  rcs      : Nat
  /-- RCNT, the 20-bit sample clock (R494). -/
  rcnt     : Nat
  deriving DecidableEq, Repr

/-- One injection direction of one stop: row E, row W, column S, column N as 0 to 3. -/
structure DirSt where
  /-- The track toggle of R41: false names track A. -/
  toggle  : Bool
  /-- The queue whose head is part-way through injection (R49). -/
  hold    : Option Nat
  starve  : Nat
  starved : Bool
  /-- ptr[d] of R118 as a class code, REQ to BULK. -/
  ptr     : Nat
  fresh   : Bool
  /-- The last rc that the starvation counter has counted, one more than its number (R70). -/
  counted : Nat
  deriving DecidableEq, Repr

/-- A slot on its way through the ejection stage (R55): how many rc ago it was captured, the local
ring it came from, and the store that admitted it. -/
structure EjEnt where
  age   : Nat
  lring : Nat
  slot  : Slot
  store : Nat
  deriving DecidableEq, Repr

/-- The rings and the ring side of every stop. -/
structure RingSt where
  /-- Ring registers, key ring: the stages by stop coordinate (R36). -/
  slots   : Tab (List Slot)
  /-- Directions, key stop × 4 + d. -/
  dirs    : Tab DirSt
  /-- rr[d][c], key (stop × 4 + d) × 8 + c (R118). -/
  rr      : Tab Nat
  /-- deficit[d][c], same key. -/
  deficit : Tab Nat
  /-- The ejection stage, key stop (R55). -/
  ejpipe  : Tab (List EjEnt)
  /-- An ESC slot was seen in this epoch, key stop × 2 + column direction (R75). -/
  escSeen : Tab Bool
  deriving DecidableEq, Repr

/-- What an injection queue knows of a packet beside its slots: nothing, the local ring a lap broadcast is placed on
(R105), or the RESID that a GWR named (R99). -/
inductive QMark where
  | plain | lap (lring : Nat) | flow (resid : Nat)
  deriving DecidableEq, Repr

/-- A packet in an injection queue (R112): its slots, the port it came from, the slot to be injected
next, and its marks. -/
structure QPkt where
  slots   : Pkt
  port    : Nat
  next    : Nat
  /-- A re-send under GRANT: not charged (R114). -/
  resend  : Bool
  /-- Demoted by GATE_OVERSIZE (R128). -/
  demoted : Bool
  /-- rc in which it entered its queue (R136). -/
  entered : Nat
  mark    : QMark
  deriving DecidableEq, Repr

/-- A packet that waits for injection-store room in the receive stage of a port (R113). -/
structure Held where
  port   : Nat
  slots  : Pkt
  /-- The GUAR context that its INJ entry names, if it is a GWR. -/
  ctx    : Option Nat
  resend : Bool
  mark   : QMark
  deriving DecidableEq, Repr

/-- A reassembly context (R51): the store it holds entries of (0 response, 1 request, 2 GUAR,
3 management), and the entries allocated. -/
structure Reasm where
  src   : Src
  store : Nat
  ents  : Nat
  plen  : Nat
  slots : List Slot
  /-- rc in which its first slot was admitted. -/
  born  : Nat
  /-- RESID for a GUAR packet. -/
  resid : Nat
  /-- It arrived as a granted re-send (R181). -/
  grnt  : Bool
  /-- It arrived ahead of its turn in OSEQ order (R189). -/
  ahead : Bool
  deriving DecidableEq, Repr

/-- The mark of a GUAR packet that lost a slot (R101). -/
structure GuarMark where
  src  : Src
  seen : Nat
  plen : Nat
  born : Nat
  deriving DecidableEq, Repr

/-- A packet delivered to a destination port and not yet handed on (R51). -/
structure Deliv where
  slots : Pkt
  store : Nat
  ents  : Nat
  resid : Nat
  /-- Held for its turn in OSEQ order (R189). -/
  early : Bool
  /-- RCNT, or TS[21:2], at the write of its last slot (R497). -/
  arr   : Nat
  /-- The µs ticks that its stop had counted when it arrived (R342). -/
  tick  : Nat
  deriving DecidableEq, Repr

/-- One piece of a request: a packet of its own (R207). -/
structure Piece where
  addr  : Nat
  plen  : Nat
  die   : Nat
  stop  : Nat
  port  : Nat
  oseq  : Nat
  sstart : Bool
  released : Bool
  /-- It has been injected as a granted re-send (R178). -/
  resent : Bool
  /-- Slots injected of the copy now in flight. -/
  injected : Nat
  /-- rc in which the last slot injected went in (R68). -/
  lastInj  : Nat
  status : Option Nat
  /-- Blocks of the request before the piece's first. -/
  skip  : Nat
  /-- GATE_OVERSIZE has demoted a copy of it (R128). -/
  demoted : Bool
  /-- The grant its re-send was sent under: die, stop and GNUM (R185). -/
  grantBy : Option (Nat × Nat × Nat)
  deriving DecidableEq, Repr

/-- Where an initiator transaction stands: captured and waiting; released; its completion ready for
delivery; acknowledged and waiting for PWACK; haunting its tag; or of a generation the port's reset
ended, its completion still to be discarded (R175, R174, R194, R200). -/
inductive TxPhase where
  | captured | released | ready | posted | haunt | stale
  deriving DecidableEq, Repr

/-- Tag state of one initiator transaction (R151, R175). -/
structure Txn where
  tag    : Nat
  gen    : Nat
  phase  : TxPhase
  opc    : Nat
  addr   : Nat
  /-- Bytes minus 1 (RLEN). -/
  len    : Nat
  plen   : Nat
  attr   : Nat
  part   : Nat
  sub    : Nat
  pctag  : Nat
  /-- Payload of each slot with its byte enables. -/
  body   : List (BitVec 512 × BitVec 64)
  /-- Empty until decoded (step 2 of R175). -/
  pieces : List Piece
  /-- Response-store entries reserved (R176). -/
  resv   : Nat
  /-- The completion timer runs, and the µs-clock reading at which its limit is reached (R191). -/
  timer  : Bool
  due    : Nat
  /-- Bytes the ACU permits, one mask per slot; empty when every byte is (R223). -/
  permit : List (BitVec 64)
  /-- The completion: status, data, poison. -/
  status : Nat
  data   : List (BitVec 512)
  pois   : Bool
  /-- Place in the order of capture on its port. -/
  order  : Nat
  /-- A posted write's acknowledgement has still to be handed over (R174). -/
  ack    : Bool
  /-- That acknowledgement has been handed over, and the write still has to be injected (R153, R200, R231, R356). -/
  acked  : Bool
  /-- Its tag is haunted once TIMEOUT is delivered (R194). -/
  haunts : Bool
  /-- RCNT, with TS[21:2] above it, at capture, release, first injection and arrival of the completion (R498). -/
  stamps : List Nat
  /-- The last slot of a target's completion, for the sample record (R498). -/
  last   : Option Slot
  retries : Nat
  /-- To be decoded again: the map changed before it was injected (R219). -/
  redec  : Bool
  /-- Active set of the port's access check unit when the request was checked (Table 8.6). -/
  set    : Nat
  deriving DecidableEq, Repr

/-- A target request outstanding at the agent (R152), with what its response needs. -/
structure TTxn where
  ttag  : Nat
  head  : Slot
  /-- GLP-2 bursts still unanswered and the merged status so far (R149). -/
  bursts : Nat
  status : Nat
  data  : List (BitVec 512)
  /-- RCNT, or TS[21:2], at its arrival in the request store (R497). -/
  stamp : Nat
  deriving DecidableEq, Repr

/-- A retry record (R180, Table 7.3). SLOTS is held as a signed number. -/
structure Retry where
  count : Nat
  slots : Int
  sz    : Nat
  gout  : Bool
  gnum  : Nat
  age   : Bool
  /-- Request-store entries reserved by the outstanding GRANT (R184). -/
  resv  : Nat
  /-- rc of the GRANT last sent, its GSZ, and the GRANT_TO in force when its timer started (R184). -/
  sent  : Nat
  gsz   : Nat
  limit : Nat
  deriving DecidableEq, Repr

/-- An entry of a pending list (R183): the port and tag of the refused packet, or a void entry. -/
structure Pend where
  port : Nat
  tag  : Nat
  addr : Nat
  void : Bool
  /-- A GRANT has been received for it, with GNUM, and its re-send waits for the hold (R185, R68). -/
  granted : Option Nat
  deriving DecidableEq, Repr

/-- A beat that the fabric drives on an outward channel, with its parity (Tables 6.4 to 6.8, R158). -/
inductive OutBeat where
  | oreq (opc tag cls addr len attr src part sub : Nat) (par : Nat)
  | odat (data : BitVec 512) (be : BitVec 64) (last pois : Bool) (par : Nat)
  | orsp (tag status : Nat) (data : BitVec 512) (last pois : Bool) (sub : Nat) (par : Nat)
  | omsg (opc src len part : Nat) (data : BitVec 512) (last : Bool) (par : Nat)
  | ntf (qaddr kind : Nat) (par : Nat)
  deriving DecidableEq, Repr

/-- The crossing FIFO of a port's channel (R329). The entries of an inward FIFO are those of the port's `inq`. -/
structure Fifo where
  /-- Entries of an outward FIFO, the oldest first, and the beats of the packet under way that wait for one. -/
  ents : List OutBeat
  send : List OutBeat
  /-- Write and read pointer, and the write pointer that the reading side saw last, as Gray counts. -/
  wptr : BitVec 5
  rptr : BitVec 5
  seen : BitVec 5
  /-- The waiting beat's timeout has been recorded (R165). -/
  late : Bool
  deriving DecidableEq, Repr

/-- A notification in the notify stage (R158, R265): bits [51:0] of its record, its source and its
partition. -/
structure Ntf where
  rcd  : Nat
  src  : Nat
  part : Nat
  deriving DecidableEq, Repr

/-- An agent port (R151 to R170, R335 to R343). -/
structure PortSt where
  /-- Table 6.15. -/
  state  : Nat
  tgen   : Nat
  /-- Filtered rst_n and stop_req: the level in force (R164). -/
  rstLvl : Bool
  stopLvl : Bool
  /-- CUR_PART after a swap (R156). -/
  curPart : Nat
  /-- A partition change waits: the new partition (R156). -/
  pchg   : Option Nat
  pchgAck : Bool
  pchgErr : Bool
  /-- The change's sideband failed its parity check: the swap is refused (R160). -/
  pchgBad : Bool
  /-- Notify stage (R158). -/
  ntf    : List Ntf
  /-- Next GLP-2 tag and issue number (R151). -/
  nextTag : Nat
  nextOrd : Nat
  /-- The lock this port holds as an initiator: die, stop, port (R197). -/
  holdsLock : Option (Nat × Nat × Nat)
  /-- As a target: the owner, the hc tick at which LOCK_TO has passed, and the sources whose lock was broken (R197, R198). -/
  lockedBy : Option Src
  lockDue : Nat
  brokenFor : List Src
  /-- RS_REQ and RS_ACK of the resync handshake, the hc at which its step began, and whether RS_TO has been reported of
  it (R335). -/
  rsReq  : Bool
  rsAck  : Bool
  rsFrom : Nat
  rsLate : Bool
  /-- The µs ticks counted when the port entered STOPPED (R342). -/
  stopFrom : Nat
  /-- `p<k>_bellows_req`, and a wake event merged behind it (R332, R343). -/
  bellows : Bool
  wakePend : Bool
  /-- The crossing FIFOs, key number of the channel; of the sideband, its held value (R328, R329). -/
  fifos  : Tab Fifo
  /-- Packets in the inward FIFOs that the NI has not captured yet. -/
  inq    : List InPkt
  /-- Dat beats ahead of their header (R145). -/
  early  : List Beat
  /-- Port events that have not crossed yet (R333). -/
  evPend : List Nat
  /-- The initiator-tag map of the ac half; on GLP-2 the requests outstanding in issue order (R334). -/
  tagMap : List Nat
  /-- Response-store entries of a completion whose last beat has no FIFO entry yet (R176). -/
  sendResv : Nat
  /-- First slots of the data-carrying requests whose odat beats have not all transferred (R201). -/
  away   : List Slot
  /-- Answers owed to the agent before anything else after a recovery: tag and status (R338). -/
  owed   : List (Nat × Nat)
  deriving DecidableEq, Repr

/-- A merging event crossing: an event is pending, the request and the acknowledgement of its four-phase handshake
(R332). -/
structure Merge where
  pend : Bool
  req  : Bool
  ack  : Bool
  deriving DecidableEq, Repr

/-- The transaction layer of every network interface. -/
structure NiSt where
  /-- Injection queues, key stop × 512 + 8n + c (R112). -/
  injq  : Tab (List QPkt)
  /-- Receive stages, key stop × 4 + port (R113). -/
  held  : Tab (List Held)
  /-- Reassembly contexts, key stop. -/
  reasm : Tab (List Reasm)
  guar  : Tab (List GuarMark)
  /-- Packets delivered and not yet handed on, key stop × 4 + port. -/
  inbox : Tab (List Deliv)
  /-- Response-class packets taken in, key stop (R177). -/
  rspIn : Tab (List Pkt)
  /-- Port 3 management buffers, key stop (R104). -/
  mgmt  : Tab (List Pkt)
  /-- Acknowledgements a row 0 stop has merged so far, key stop: the rows of its column (R105). -/
  merged : Tab (List Nat)
  /-- The arrival notice from each port 3 buffer to Hearth, key stop (R332). -/
  notice : Tab Merge
  /-- The crossing of each stop's error interrupt into hc, and the level it saw last, key stop (R332, R476). -/
  irqs  : Tab (Merge × Bool)
  ports : Tab PortSt
  /-- Initiator tag states, key stop × 4 + port. -/
  txns  : Tab (List Txn)
  /-- Target tag states, key stop × 2 + port. -/
  ttxns : Tab (List TTxn)
  /-- Retry records, key stop × 3072 + 192·die + stop. -/
  retry : Tab Retry
  /-- A sweep has set AGE in every record of the stop that is not listed, key stop (R187). -/
  aged  : Tab Bool
  /-- Record last granted, key stop (R184). -/
  grot  : Tab Nat
  /-- Pending lists, key stop × 3072 + target stop record. -/
  pend  : Tab (List Pend)
  /-- Last GNUM answered, key as `pend`, one more than the number; 0 for none (R185). -/
  lastG : Tab Nat
  /-- OSEQ counters, key (stop × 4 + port) × 3072 + destination record (R189). -/
  oseq  : Tab Nat
  /-- Expected OSEQ, key stop × 12288 + global source port (R189). -/
  oexp  : Tab Nat
  /-- rc of the last retry sweep, key stop (R187). -/
  swept : Tab Nat
  /-- Credit C of every context, key stop × 64 + n, in units of 1/256 byte (R122). -/
  credit : Tab Int
  /-- High-water marks, key stop × 512 + queue: occupancy and wait (R136). -/
  hwm   : Tab (Nat × Nat)
  /-- The gate-frame count k, key stop (R129). -/
  gframe : Tab Nat
  /-- Frames that the gate states in force lie back, key stop: one more for each overrun in a row (R130). -/
  gstale : Tab Nat
  /-- Partition map entries VALID·64 + CTX, key (stop × 2 + bank) × 4096 + PART (R115). -/
  pmap  : Tab Nat
  /-- The regions of the map that is being replaced, and the rc in which the replacement began: every NI takes one new
  region entry per rc (R218). Empty when none is. -/
  mapOld : List (BitVec 128)
  mapFrom : Nat
  deriving DecidableEq, Repr

/-- A stop's local timestamp count (R463, R464). -/
structure LocalTs where
  count : BitVec 64
  /-- hc still to be held, then slewed: the sign and the number of hc. -/
  hold  : Nat
  slew  : Int
  /-- The count latched at the last mark that has had no M yet. -/
  mark  : Option (BitVec 64)
  deriving DecidableEq, Repr

/-- The timestamp unit (R463 to R467). -/
structure TimeSt where
  master : BitVec 64
  hold   : Nat
  slew   : Int
  /-- M latched at the last mark. -/
  latchM : BitVec 64
  /-- A cross-die offset waiting for the next mark (R466). -/
  offset : Option Int
  /-- The superframe in which an offset was last accepted, one more than the count; 0 for none. -/
  synced : Nat
  /-- Local counts, key stop, as differences are not kept: a stop's own count. -/
  locals : Tab LocalTs
  deriving DecidableEq, Repr

/-- A memory-log write on its way: its entry, whether its CMP has returned OK, and its record
(R473). -/
structure LogWr where
  index : Nat
  tag   : Nat
  done  : Bool
  rcd   : BitVec 512
  deriving DecidableEq, Repr

/-- Records: the stops' buffers and Hearth's log (R472 to R479). -/
structure RecSt where
  /-- Record buffers, key stop, oldest first. -/
  bufs   : Tab (List (BitVec 512))
  /-- A record was lost since the last one entered, key stop. -/
  lostAt : Tab Bool
  /-- The last 64 records, key entry. -/
  ring   : Tab (BitVec 512)
  /-- Stop last collected from (R472). -/
  rot    : Nat
  /-- Log writes outstanding, oldest first (R473). -/
  writes : List LogWr
  /-- The next memory-log record carries OVF (R474). -/
  ovf    : Bool
  /-- Records waiting for one of the 8 writes (R473). -/
  logQ   : List (BitVec 512)
  /-- Records routed by PERR_ROUTE whose ENQ is outstanding: queue address and record (R479). -/
  perr   : List Nat
  /-- fab_fatal is high. -/
  fatal  : Bool
  deriving DecidableEq, Repr

/-- Access check units: set regions, key ((stop × 3 + a) × 2 + set) × 32 + i, and default maps,
key (stop × 3 + a) × 4 + i (R221). -/
structure AcuSt where
  /-- Regions, key ((stop × 3 + ACU) × 2 + set) × 32 + region; default maps, key (stop × 3 + ACU) × 4 + entry. -/
  sets : Tab (BitVec 128)
  defs : Tab (BitVec 128)
  deriving DecidableEq, Repr

/-- An occurrence of a counter event at a stop in the current rc (Table 19.1). -/
structure Ev where
  stop  : Nat
  code  : Nat
  lring : Nat
  port  : Nat
  hdr   : BitVec 160
  deriving DecidableEq, Repr

/-- Counters and sampling (R488 to R499). -/
structure PmuSt where
  /-- Events since the last count, oldest first. -/
  evs   : List Ev
  /-- The 48-bit counters, key stop × 16 + n. -/
  pmc   : Tab Nat
  /-- PMC_HI holding registers and read latches, same key. -/
  hold  : Tab Nat
  latch : Tab Nat
  /-- Sampling countdown and LFSR, key stop (R495). -/
  countdown : Tab Nat
  lfsr  : Tab Nat
  /-- Records waiting for an index or for injection, key stop (R499). -/
  recQ  : Tab (List (BitVec 512))
  /-- The next record of the NI carries LOST, key stop. -/
  lostNi : Tab Bool
  /-- The next record of the die's buffer carries LOST. -/
  lostBuf : Bool
  /-- Indexes allocated (SEQ of the records). -/
  alloc : Nat
  /-- Stop last served by the allocator. -/
  rot   : Nat
  deriving DecidableEq, Repr

/-- A ring link at its receiving stop, key ring × 16 + coordinate (R445 to R450). -/
structure LinkSt where
  /-- CAL transfers received since the frame-start strobe. -/
  passes : Nat
  /-- Margin passes taken at the current probe point. -/
  inPoint : Nat
  /-- Current probe point, 1 to 31; 0 between two sweeps. -/
  point  : Nat
  hard   : Nat
  sat    : Bool
  lmargin : Nat
  llane  : Nat
  /-- A sweep of the link has completed; and Temper has not yet read it. -/
  swept  : Bool
  due    : Bool
  /-- PROBE and MWIN as latched at the sweep's start (R457). -/
  probe  : Nat
  mwin   : Nat
  deriving DecidableEq, Repr

/-- One lane of a link, key (ring × 16 + coordinate) × 768 + lane (R445, R447, R448). -/
structure LaneSt where
  trim   : Int
  vote   : Int
  /-- First probe point failed in this sweep; 0 for none. -/
  failed : Nat
  /-- TRIM reached an end of its range in this sweep. -/
  ended  : Bool
  /-- `failed` and `ended` as the last completed sweep left them; its margin follows from them. -/
  prev   : Nat
  prevEnded : Bool
  deriving DecidableEq, Repr

/-- Temper's state at the receivers. -/
structure TemSt where
  links : Tab LinkSt
  lanes : Tab LaneSt
  deriving DecidableEq, Repr

/-- A response-space reservation of a port (R383). -/
structure Rsv where
  src : Src
  n   : Nat
  cls : Nat
  /-- Slots of its completion that have passed the port, and the time of its expiry, in hc of the NIs' µs clock. -/
  passed : Nat
  due : Nat
  deriving DecidableEq, Repr

/-- A slot in a port's egress buffer: its credit class (8 for reserved RSP), the part that holds it,
and the local ring it arrived on (R381, R379). -/
structure EgEnt where
  ccls    : Nat
  transit : Bool
  lring   : Nat
  slot    : Slot
  deriving DecidableEq, Repr

/-- A slot in a port's ingress buffer (R381, R386). -/
structure IgEnt where
  ccls : Nat
  slot : Slot
  deriving DecidableEq, Repr

/-- A module window of a port (R455): the module, T_w, whether the partner has acknowledged, and
whether ROTATE without the module has been sent and received. -/
structure ModWin where
  m     : Nat
  tw    : Nat
  acked : Bool
  sent  : Bool
  rcvd  : Bool
  initiator : Bool
  /-- Hearth's hc count when ROTATE without the module was sent. -/
  sentAt : Nat
  deriving DecidableEq, Repr

/-- A die-to-die port (R376 to R402). -/
structure DpSt where
  egress  : List EgEnt
  ingress : List IgEnt
  /-- Entries allocated in the egress local part whose slots have not arrived: packet, class, slots. -/
  egAlloc : List (Src × Nat × Nat)
  /-- Credits held for sending and credits owed to the partner, by class 0 to 7. -/
  credit  : List Nat
  owed    : List Nat
  /-- Credits the partner still holds toward this port, by class. -/
  granted : List Nat
  /-- Reservations in the ingress RSP region and in the egress RSP region. -/
  rsvIn   : List Rsv
  rsvEg   : List Rsv
  /-- Transit credit held for egress port e and class c, key e × 8 + c (R385). -/
  transit : Tab Nat
  /-- rc of the last slot injected from each class region, by class (R386). -/
  lastInj : List Nat
  /-- Rotation: the class last served and the module last used (R378). -/
  clsRot  : Nat
  modRot  : Nat
  /-- Active modules of the send and the receive direction (R454). -/
  modsTx  : Nat
  modsRx  : Nat
  /-- Retired modules (R399). -/
  modsOut : Nat
  window  : Option ModWin
  /-- The module whose window was the last to run (R453). -/
  winMod  : Option Nat
  /-- Hearth's hc count at the end of the last interval of windows (R453). -/
  winAt   : Nat
  /-- Smallest round trip seen on the link, in units of 0.25 ns (R395). -/
  minRtt  : Option Nat
  /-- A ROTATE waits for the next pair formed: the new set (R454). -/
  rotate  : Option Nat
  /-- The pair last driven on the FDI. -/
  tx      : Option PairIn
  deriving DecidableEq, Repr

/-- What one Hearth tells another (R391 to R398, R428 to R437, R455). The manual gives these messages no
encoding, so they are plain data here. -/
inductive HMsg where
  | hello (port : Nat) (root : Bool) (die : Option Nat)
  | assign (dx dy : Int)
  | report (dx dy : Int) (up : Nat)
  | final (dx dy : Int) (map : Nat)
  | strobe (t : Nat)
  | sync
  | echo (t2 t3 : Nat)
  | win (m tw : Nat)
  | winAck (m : Nat)
  | winEnd (m : Nat) (usable : Bool)
  | prepare (seq frame : Nat)
  | prepAck (ok : Bool)
  | commit (seq frame : Nat)
  | abort (seq : Nat)
  | askDecision (seq : Nat)
  deriving DecidableEq, Repr

/-- The die-to-die state of the die (R373 to R404). -/
structure D2dSt where
  dieId : Nat
  /-- Straps as sampled: fab_root, dp<p>_present, fab_fcs_base, p<k>_dbg_tie (R374, R375, R482). -/
  root  : Bool
  present : Nat
  fcsBase : Nat
  dbgTie  : List (Nat × Nat)
  dps   : Tab DpSt
  /-- Relative coordinates, and the port of the first ASSIGN (R392). -/
  rel     : Option (Int × Int)
  toRoot  : Option Nat
  /-- hc at which step 7 of start-up began, and at which the last report came (R392, R393, R418). -/
  discAt  : Nat
  quietAt : Nat
  /-- Reports the root has had: coordinates and UP ports (R392). -/
  reports : List ((Int × Int) × Nat)
  /-- Ports whose partner's HELLO carried the root flag (R391, R393). -/
  rootAt  : List Nat
  /-- What Hearth sent in the last command that sent anything: the port (or 16 and the die), and the
  message. -/
  sent    : List (Nat × HMsg)
  deriving DecidableEq, Repr

/-- A QTLB entry (R279): queue, base page b, run of 2^n pages, KIND, and the page address of page b, or
for FRAME its frame. -/
structure QtlbEnt where
  q    : Nat
  base : Nat
  n    : Nat
  kind : Nat
  addr : Nat
  deriving DecidableEq, Repr

/-- A resident page (R281, R282): its frame, queue and page, the backing address recorded when it became
resident, whether it was written since, and whether a failed spill keeps it from being a victim. -/
structure Resid where
  frame : Nat
  q     : Nat
  page  : Nat
  addr  : Nat
  dirty : Bool
  stuck : Bool
  deriving DecidableEq, Repr

/-- A walk in progress (R278): the port 2 transaction, queue and page; `pref` for a prefetch, `dropped`
when an invalidation in its scope was written meanwhile (R287), `gone` when the deletion of the queue abandoned it
(R290), `rel` for a read of the release (R289). -/
structure QWalk where
  tag  : Nat
  q    : Nat
  page : Nat
  pref : Bool
  dropped : Bool
  gone : Bool
  rel  : Bool
  deriving DecidableEq, Repr

/-- What a page move is (R281 to R283); a prefetch that the deletion of its queue abandoned is gone (R290). -/
inductive MoveKind where
  | refill | spill | prefetch | gone
  deriving DecidableEq, Repr

/-- A page move in progress: its 16 port 2 transactions by block. -/
structure QMove where
  kind  : MoveKind
  frame : Nat
  q     : Nat
  page  : Nat
  addr  : Nat
  tags  : List Nat
  deriving DecidableEq, Repr

/-- Where a page was found (R280): a frame, a backing address, or a device window. -/
inductive PageLoc where
  | frame (f : Nat) | backed (addr : Nat) | dev (addr : Nat)
  deriving DecidableEq, Repr

/-- An operation the engine has taken and not completed (R243, R244). -/
structure QOp where
  pkt  : Pkt
  /-- Its arrival in the request store (R497). -/
  arr  : Nat
  /-- Its checks have passed, and its place in the order of starts, 0 before. -/
  started : Bool
  seq  : Nat
  /-- Its queue was DRAINING when it was taken (R270). -/
  late : Bool
  /-- What the code finds at the queue-table entry and at the segment entry when it reads them: 0 nothing, 1 a corrected
  and 2 an uncorrectable error (R269, R274). -/
  qt   : Nat
  seg  : Nat
  /-- The entry of its queue, or of the group's leader, at its start (R270). -/
  ent  : BitVec 256
  /-- Translations it found, pages whose miss it has counted, and the frame whose spill it waits for. -/
  tr   : List (Nat × PageLoc)
  miss : List Nat
  vict : Option Nat
  /-- Its device access. -/
  dev  : Option Nat
  deriving DecidableEq, Repr

/-- A release in progress (R289): the queue deleted, the queues whose page tables are still to be read, and the page
being read of the first of them. -/
structure QRel where
  q    : Nat
  todo : List Nat
  page : Nat
  deriving DecidableEq, Repr

/-- An invalidation in progress (R287): its word, the first page and number of pages in its scope, the
packets of the operations that translated through it, and whether a spill failed. -/
structure QInv where
  word : Word32
  lo   : Nat
  num  : Nat
  ops  : List Pkt
  bad  : Bool
  deriving DecidableEq, Repr

/-- The queue engines (R243 to R295). -/
structure QeSt where
  /-- Queue table, key stop × 256 + queue (R251). -/
  table  : Tab (BitVec 256)
  /-- Shadow definitions, same key (R266). -/
  shadow : Tab (BitVec 256)
  /-- Segment table, same key (R274). -/
  segs   : Tab (BitVec 128)
  /-- QTLB, key stop, least recently used first (R279). -/
  qtlb   : Tab (List QtlbEnt)
  /-- Resident pages, key stop, least recently used first (R281). -/
  resid  : Tab (List Resid)
  /-- Operations in progress, key stop, in the order taken. -/
  ops    : Tab (List QOp)
  walks  : Tab (List QWalk)
  moves  : Tab (List QMove)
  /-- Frames removed from the pool that have not left it, key stop (R293). -/
  leaving : Tab (List Nat)
  inv    : Tab (List QInv)
  /-- Queues whose deletion was forced, key stop (R267). -/
  forced : Tab (List Nat)
  /-- A QCMD that waits for a commit to settle, key stop, one more than the word (R439). -/
  cmdWait : Tab Nat
  /-- Queue-table entries with an uncorrectable error, key as `table` (R269). -/
  ue     : Tab Bool
  /-- Releases in progress, key stop (R289). -/
  rel    : Tab (List QRel)
  deriving DecidableEq, Repr

/-- An entry of a merge buffer (R307): row, bytes, the bytes written, the rc of its last write, and the
writes whose completion waits for its drain. -/
structure MergeEnt where
  row  : Nat
  data : BitVec 256
  mask : BitVec 32
  last : Nat
  wait : List Slot
  deriving DecidableEq, Repr

/-- The queue stores, their mergers and scrubbers (R296 to R322). -/
structure StoreSt where
  /-- Merge buffers, key stop × 4 + bank, oldest entry first. -/
  merge : Tab (List MergeEnt)
  /-- A QS_SPARE_FULL record was written since the fill, key stop × 4 + bank (R312). -/
  fullRec : Tab Bool
  /-- Words Hearth's memory scrubber has read (R322). -/
  hscrub : Nat
  /-- Hearth's ROM and SRAM, words of 64 data and 24 check bits: the ROM is words 0 to 32,767, the SRAM the 32,768 after
  it; an unlisted word reads as the codeword of zero (R320, log entry 142). -/
  hmem : Tab (BitVec 88)
  deriving DecidableEq, Repr

structure CdcSt where
  /-- fab_rclk_hold is high and the ring clock has stopped (R344). -/
  hold : Bool
  /-- Filtered `fab_rclk_done` (R344). -/
  done : Bool
  /-- hc for which safe mode goes on after it (R331). -/
  tail : Nat
  /-- µs ticks that have not crossed to the NIs yet, and those that have: the same numbers at each (R333). -/
  ticks : Nat
  us    : Nat
  /-- The same of the hc ticks for LOCK_TO. -/
  hticks : Nat
  hct   : Nat
  /-- FAB_STATE to return to after a ring-clock change. -/
  ret  : Nat
  /-- Stops whose tick crossing has recorded a loss in this hold (R333). -/
  lost : List Nat
  deriving DecidableEq, Repr

/-- What Hearth's power and fence sequencer is doing (R354, R355). -/
inductive PwKind where
  | off | on | fence | unfence | kindB
  deriving DecidableEq, Repr

/-- A Kind B change (R427, R440): the address map, REMAP_CTRL, detours, the fallback of a die-to-die port,
or the ring clock. -/
inductive KbChange where
  | map (es : List (BitVec 128)) | remap (v : Word32) | detour | sibling (p : Nat) | rclk
  deriving DecidableEq, Repr

/-- How far the switching of a fabric domain has come (R360, R366): the weak stage is up, the strong stage is up and
power good awaited, power good has come, the fill and the tables' restore run; and on the way down what comes next:
isolation, the reset, the strong stage, the weak stage. -/
inductive PwStage where
  | weak | strong | good | fill | isolate | hold | sw2 | sw1
  deriving DecidableEq, Repr

/-- The fabric domain being switched (R368): the hc at which its stage is over, whether power good has come and the
restore image read back whole, and the status to be answered once it is OFF. -/
structure PwSeq where
  dom   : Nat
  stage : PwStage
  due   : Nat
  good  : Bool
  whole : Bool
  ans   : Nat
  deriving DecidableEq, Repr

/-- The operation in progress at Hearth (R355, R365, R366, R440): its domain and fence set, PHASE of
FENCE_STATUS, whether UNFENCE is being broadcast, the stops the broadcast has reached, the stops that have
acknowledged, the dies that have not (R398), whether other dies take part, the rc at which the settle
ends, and the hc at which it ended (R362). -/
structure PwOp where
  kind   : PwKind
  dom    : Nat
  set    : FSet
  phase  : Nat
  lift   : Bool
  seen   : List Nat
  acks   : List Nat
  dies   : List Nat
  cross  : Bool
  settle : Nat
  from_  : Nat
  change : Option KbChange
  deriving DecidableEq, Repr

/-- Power, draining and fencing (R349 to R372). -/
structure PwSt where
  /-- Answers of absent-destination handlers waiting for a slot, key stop (R364). -/
  absQ : Tab (List Pkt)
  /-- Fence sets in force at each source NI, key stop (R356, R361). -/
  fences : Tab (List FSet)
  /-- Fence sets a source NI has not yet acknowledged, key stop (R357). -/
  unacked : Tab (List FSet)
  op   : Option PwOp
  /-- Requests accepted and not yet started: domain and ON (R354), FENCE_CTRL words and Kind B
  changes that wait. -/
  reqs : List (Nat × Bool)
  fcs  : List (Nat × Bool)
  kbs  : List KbChange
  /-- Responses given since the last request was accepted: domain and status (R353). -/
  rsps : List (Nat × Nat)
  /-- Domains with a pending wake event, ascending (R363). -/
  wake : List Nat
  /-- State of each APD, key APD: 0 ON, 1 FENCING, 2 DRAINED (Table 13.13). -/
  apds : Tab Nat
  /-- OFF-to-ON cycles since AON power-on, key fabric domain (R368). -/
  cyc  : Tab Nat
  /-- The fabric domain being switched (R360, R366, R368). -/
  seq  : Option PwSeq
  /-- Hearth brings the restore image in memory up to date after a change (R424). -/
  img  : Bool
  /-- fab_fpd_sw1, fab_fpd_sw2 and fab_fpd_iso, key fabric domain. -/
  sw1  : Tab Bool
  sw2  : Tab Bool
  iso  : Tab Bool
  deriving DecidableEq, Repr

/-- Start-up (R405 to R426). -/
structure BootSt where
  /-- Fuse words read so far; `fab_fuse_req` is high; the verdict on the area (R407, R521). -/
  fuses   : List Word32
  fuseReq : Bool
  /-- hc at which the read of the next word was requested (R521). -/
  fuseAt  : Nat
  fuseOk  : Option Bool
  /-- The fabric domain being switched on, from 0 to 56, where 56 says that all are on; 57 before step 3 begins
  (Table 15.8). -/
  dom     : Nat
  /-- The flash has left reset and its mode is set (R409). -/
  nvmUp   : Bool
  /-- The copy headers as read, A and B (R412). -/
  hdrs    : Option (BitVec 2048 × BitVec 2048)
  /-- The copy on trial or accepted: 0 none, 1 A, 2 B; and how far it has come: 1 read and checked, 2 its
  UCODE signature and key passed, 3 accepted, 4 its die-specific sections written,
  5 active. -/
  copy    : Nat
  phase   : Nat
  sects   : List ImgSect
  calDone : Bool
  /-- DEGR_CAUSE of the minimal configuration that is to come; 0 for none (R421). -/
  degr    : Nat
  /-- The current step has been restarted by a trap (R423). -/
  trapped : Bool
  /-- hc since the deassertion. -/
  hcs     : Nat
  deriving DecidableEq, Repr

/-- A commit at the die's Hearth (R428 to R437). -/
structure CmtSt where
  /-- Stops whose checks are done, and dies whose result the root still waits for. -/
  acked : List Nat
  dies  : List Nat
  /-- FRAME and LIST, the FLEN48_NXT of the root, and the register list of the commit. -/
  frame : Bool
  list  : Bool
  flen  : Nat
  items : List (BitVec 64)
  /-- The first failure: die, stop and table. -/
  fail  : Option (Nat × Nat × Nat)
  /-- The last decision the root took: SEQ, whether it was COMMIT, and N_c. -/
  kept  : Option (Nat × Bool × Nat)
  /-- rc of the last swap. -/
  last  : Option Nat
  /-- The FRAME_CNT of the late swap of an in-doubt die (R437). -/
  late  : Option Nat
  /-- When an in-doubt die last asked for the decision, in timestamp units (R437). -/
  asked : Option Nat
  deriving DecidableEq, Repr

/-- Test access (R522, R531, R532). -/
structure TestSt where
  /-- fab_test_mode as sampled. -/
  mode    : Bool
  /-- The wrapper's instruction: 0 WS_BYPASS, 1 WS_EXTEST, 2 WS_INTEST. -/
  wrapper : Nat
  /-- WS_INTEST was selected outside test mode: the block no longer behaves as stated (Table 21.12). -/
  broken  : Bool
  /-- Memory-test controllers that run, and the last result of each: PASS, and the failing addresses. -/
  running : List Nat
  results : Tab (Bool × List Nat)
  deriving DecidableEq, Repr

/-- Hearth. -/
structure HerSt where
  /-- fab_rst_n is low. -/
  rstLow : Bool
  /-- Stops that PREPARE has reached in the commit in progress, and its scope (R433). -/
  prep  : List Nat
  scope : Nat
  cmt   : CmtSt
  boot  : BootSt
  test  : TestSt
  /-- Spare words the fuses name: stop, bank, row (R313, R407). -/
  fuseRemap : List (Nat × Nat × Nat)
  /-- The QREMAP entries of the accepted copy for this die: stop, bank, row (R313). -/
  imgRemap : List (Nat × Nat × Nat)
  /-- `mcause` and `mtval` of Hearth's last trap (R321). -/
  mcause : Nat
  mtval  : Nat
  /-- The strobe time the root has sent (R396, R418). -/
  strobeAt : Option Nat
  deriving DecidableEq, Repr

/-- The whole state of the block. -/
structure State where
  frame : Frame
  time  : TimeSt
  /-- Every stored register word, key FCS byte offset (Tables 20.2 to 20.4); an unlisted one reads
  as its reset value. -/
  regs  : Tab Word32
  /-- Queue-store byte symbols, key ((stop × 4 + bank) × 1032 + row) × 36 + symbol; an unlisted
  symbol reads 0 (log entry 2). -/
  mem   : List Host.Cell
  ring  : RingSt
  ni    : NiSt
  acu   : AcuSt
  recs  : RecSt
  pmu   : PmuSt
  tem   : TemSt
  qe    : QeSt
  store : StoreSt
  cdc   : CdcSt
  pw    : PwSt
  d2d   : D2dSt
  her   : HerSt
  /-- The model's own counter that names the next free value. -/
  free  : Nat
  /-- Commands that wait, first in, first out. -/
  pending : List Instr
  deriving DecidableEq, Repr

/-- Why a command stops with a fault. -/
inductive Fault where
  /-- A command names an agent port that Table 1.2 marks "none": there is no such port, so nothing
  can happen at it. Raised by every command of an agent port but the register writes, which such a port ignores.
  Safe. -/
  | absentPort
  /-- WS_INTEST was selected outside test mode, and the fabric's traffic no longer behaves as the manual states until
  the next fabric reset (Table 21.12). Raised by RING_CYCLE alone. Safe. -/
  | isolated
  deriving DecidableEq, Repr

/-- Why a command is refused. -/
inductive Refusal where
  /-- The command has no meaning in the model yet; raised by Dispatch alone. Safe. -/
  | notModelled (mnemonic : String)
  deriving DecidableEq, Repr

/-- The die while `fab_rst_n` is low, and at its deassertion: every register at its reset value, every buffer
empty, every domain off (R405, R517, R524). FAB_RESET_DEASSERT starts it. -/
def State.reset : State :=
  { frame := { running := false, fpos := 0, sframe := 0, frameCnt := 0, flen48 := 42, flenPrev := 42, due := false, epoch := 0,
               epochPos := 0, epochSel := 0, epochDue := false, fNew := false, epochNxt := none,
               deflNxt := none, rcs := 0, rcnt := 0 }
    time := { master := 0, hold := 0, slew := 0, latchM := 0, offset := none, synced := 0, locals := [] }
    regs := []
    mem := []
    ring := { slots := [], dirs := [], rr := [], deficit := [], ejpipe := [], escSeen := [] }
    ni := { injq := [], held := [], reasm := [], guar := [], inbox := [], rspIn := [], mgmt := [], merged := [], notice := [], irqs := [],
            ports := [], txns := [], ttxns := [], retry := [], aged := [], grot := [], pend := [], lastG := [], oseq := [],
            oexp := [], swept := [], credit := [], hwm := [], gframe := [], gstale := [], pmap := [],
            mapOld := [], mapFrom := 0 }
    acu := { sets := [], defs := [] }
    recs := { bufs := [], lostAt := [], ring := [], rot := 0, writes := [], ovf := false, logQ := [], perr := [],
              fatal := false }
    pmu := { evs := [], pmc := [], hold := [], latch := [], countdown := [], lfsr := [], recQ := [],
             lostNi := [], lostBuf := false, alloc := 0, rot := 0 }
    tem := { links := [], lanes := [] }
    qe := { table := [], shadow := [], segs := [], qtlb := [], resid := [], ops := [], walks := [], moves := [],
            leaving := [], inv := [], forced := [], cmdWait := [], ue := [], rel := [] }
    store := { merge := [], fullRec := [], hscrub := 0, hmem := [] }
    cdc := { hold := false, done := false, tail := 0, ticks := 0, us := 0, hticks := 0, hct := 0, ret := 0, lost := [] }
    pw := { absQ := [], fences := [], unacked := [], op := none, reqs := [], fcs := [], kbs := [], rsps := [],
            wake := [], apds := [], cyc := [], seq := none, img := false, sw1 := [], sw2 := [], iso := [] }
    d2d := { dieId := 0, root := false, present := 0, fcsBase := 0, dbgTie := [], dps := [], rel := none,
             toRoot := none, discAt := 0, quietAt := 0, reports := [], rootAt := [], sent := [] }
    her := { rstLow := true, prep := [], scope := 0
             cmt := { acked := [], dies := [], frame := false, list := false, flen := 0, items := [], fail := none,
                      kept := none, last := none, late := none, asked := none }
             boot := { fuses := [], fuseReq := false, fuseAt := 0, fuseOk := none, dom := 57, nvmUp := false, hdrs := none,
                       copy := 0, phase := 0, sects := [], calDone := false, degr := 0, trapped := false, hcs := 0 }
             test := { mode := false, wrapper := 0, broken := false, running := [], results := [] }
             fuseRemap := [], imgRemap := [], mcause := 0, mtval := 0, strobeAt := none }
    free := 0
    pending := [] }
end Sys2Proof.Machine
end

