-- ==== Sys2Proof/Machine/Ops.lean ====
section
/-! DEFINITION. Reading and writing the parts of the state by name: registers and their fields,
ring stages, directions, queues, ports, tag states; and the raising of a record, which every family
uses (R469 to R472). -/
namespace Sys2Proof.Machine
open Sys2Proof

/-! ### Registers -/

/-- The word of the register at FCS offset `a`. -/
def State.reg (s : State) (a : Nat) : Word32 := Tab.get regReset s.regs a

/-- Store a register word. -/
def State.setReg (s : State) (a : Nat) (v : Word32) : State :=
  { s with regs := Tab.set regReset s.regs a v }

/-- Field [lo+w-1:lo] of a register. -/
def State.fld (s : State) (a lo w : Nat) : Nat := fieldOf (s.reg a) lo w

/-- Store one field of a register. -/
def State.setFld (s : State) (a lo w x : Nat) : State :=
  s.setReg a (withField (s.reg a) lo w x)

/-- One bit of a register. -/
def State.flag (s : State) (a i : Nat) : Bool := s.fld a i 1 == 1

/-- Set one flag bit. -/
def State.raiseFlag (s : State) (a i : Nat) : State := s.setFld a i 1 1

/-- Count in a saturating field. -/
def State.count (s : State) (a lo w n : Nat) : State := s.setFld a lo w (satAdd w (s.fld a lo w) n)

/-- The identity of the die: DIE_ID of DIE_COORD (R10, R403). -/
def State.die (s : State) : Nat := s.d2d.dieId

/-! ### Ring side -/

/-- A ring at reset: every stage closed and empty (log entry 3). -/
def defRing (r : Nat) : List Slot := List.replicate (ringLen r) closedSlot

/-- The register of ring `r` at coordinate `p` (R36). -/
def State.slot (s : State) (r p : Nat) : Slot := (Tab.get defRing s.ring.slots r).getD p closedSlot

def State.setSlot (s : State) (r p : Nat) (v : Slot) : State :=
  { s with ring := { s.ring with
      slots := Tab.set defRing s.ring.slots r ((Tab.get defRing s.ring.slots r).set p v) } }

/-- A direction at reset: toggle on track A, nothing offered (log entry 3). -/
def defDir (_ : Nat) : DirSt :=
  { toggle := false, hold := none, starve := 0, starved := false, ptr := clsREQ, fresh := true, counted := 0 }

def State.dir (s : State) (st d : Nat) : DirSt := Tab.get defDir s.ring.dirs (st * 4 + d)

def State.setDir (s : State) (st d : Nat) (v : DirSt) : State :=
  { s with ring := { s.ring with dirs := Tab.set defDir s.ring.dirs (st * 4 + d) v } }

def State.ej (s : State) (st : Nat) : List EjEnt := Tab.get (fun _ => []) s.ring.ejpipe st

def State.setEj (s : State) (st : Nat) (v : List EjEnt) : State :=
  { s with ring := { s.ring with ejpipe := Tab.set (fun _ => []) s.ring.ejpipe st v } }

def State.rr (s : State) (st d c : Nat) : Nat := Tab.get (fun _ => 63) s.ring.rr ((st * 4 + d) * 8 + c)

def State.setRr (s : State) (st d c n : Nat) : State :=
  { s with ring := { s.ring with rr := Tab.set (fun _ => 63) s.ring.rr ((st * 4 + d) * 8 + c) n } }

def State.deficit (s : State) (st d c : Nat) : Nat :=
  Tab.get (fun _ => 0) s.ring.deficit ((st * 4 + d) * 8 + c)

def State.setDeficit (s : State) (st d c n : Nat) : State :=
  { s with ring := { s.ring with
      deficit := Tab.set (fun _ => 0) s.ring.deficit ((st * 4 + d) * 8 + c) n } }

/-! ### Network-interface side -/

def State.injq (s : State) (st q : Nat) : List QPkt := Tab.get (fun _ => []) s.ni.injq (st * 512 + q)

def State.setInjq (s : State) (st q : Nat) (v : List QPkt) : State :=
  { s with ni := { s.ni with injq := Tab.set (fun _ => []) s.ni.injq (st * 512 + q) v } }

def State.heldAt (s : State) (st p : Nat) : List Held := Tab.get (fun _ => []) s.ni.held (st * 4 + p)

def State.setHeld (s : State) (st p : Nat) (v : List Held) : State :=
  { s with ni := { s.ni with held := Tab.set (fun _ => []) s.ni.held (st * 4 + p) v } }

def State.reasm (s : State) (st : Nat) : List Reasm := Tab.get (fun _ => []) s.ni.reasm st

def State.setReasm (s : State) (st : Nat) (v : List Reasm) : State :=
  { s with ni := { s.ni with reasm := Tab.set (fun _ => []) s.ni.reasm st v } }

def State.guarMarks (s : State) (st : Nat) : List GuarMark := Tab.get (fun _ => []) s.ni.guar st

def State.setGuarMarks (s : State) (st : Nat) (v : List GuarMark) : State :=
  { s with ni := { s.ni with guar := Tab.set (fun _ => []) s.ni.guar st v } }

def State.inbox (s : State) (st p : Nat) : List Deliv := Tab.get (fun _ => []) s.ni.inbox (st * 4 + p)

def State.setInbox (s : State) (st p : Nat) (v : List Deliv) : State :=
  { s with ni := { s.ni with inbox := Tab.set (fun _ => []) s.ni.inbox (st * 4 + p) v } }

def State.rspIn (s : State) (st : Nat) : List Pkt := Tab.get (fun _ => []) s.ni.rspIn st

def State.setRspIn (s : State) (st : Nat) (v : List Pkt) : State :=
  { s with ni := { s.ni with rspIn := Tab.set (fun _ => []) s.ni.rspIn st v } }

def State.mgmt (s : State) (st : Nat) : List Pkt := Tab.get (fun _ => []) s.ni.mgmt st

def State.setMgmt (s : State) (st : Nat) (v : List Pkt) : State :=
  { s with ni := { s.ni with mgmt := Tab.set (fun _ => []) s.ni.mgmt st v } }

def State.merged (s : State) (st : Nat) : List Nat := Tab.get (fun _ => []) s.ni.merged st

def State.setMerged (s : State) (st : Nat) (v : List Nat) : State :=
  { s with ni := { s.ni with merged := Tab.set (fun _ => []) s.ni.merged st v } }

/-- An idle crossing. -/
def idleMerge : Merge := { pend := false, req := false, ack := false }

/-- An event sets the pending bit, whatever the handshake is doing (R332). -/
def Merge.event (m : Merge) : Merge := { m with pend := true }

/-- One phase of the handshake (R332): an idle sender with a pending event clears the bit and raises its request, the
receiver takes one event and raises its acknowledgement, the request falls, the acknowledgement falls. -/
def Merge.phase (m : Merge) : Merge :=
  match m.req, m.ack with
  | false, false => if m.pend then { pend := false, req := true, ack := false } else m
  | true, false => { m with ack := true }
  | true, true => { m with req := false }
  | false, true => { m with ack := false }

/-- A packet has arrived in a port 3 buffer: Hearth is told (R332). -/
def State.noticeUp (s : State) (st : Nat) : State :=
  { s with ni := { s.ni with
      notice := Tab.set (fun _ => idleMerge) s.ni.notice st (Tab.get (fun _ => idleMerge) s.ni.notice st).event } }

/-- A port at reset: CLOSED, generation 0, filters at the level of a held reset (log entry 4). -/
def defPort (_ : Nat) : PortSt :=
  { state := 0, tgen := 0, rstLvl := false, stopLvl := false, curPart := 0,
    pchg := none, pchgAck := false, pchgErr := false, pchgBad := false, ntf := [], nextTag := 0, nextOrd := 0,
    holdsLock := none, lockedBy := none, lockDue := 0, brokenFor := [], rsReq := false, rsAck := false, rsFrom := 0, rsLate := false,
    stopFrom := 0,
    bellows := false, wakePend := false, fifos := [], inq := [], early := [], evPend := [], tagMap := [],
    sendResv := 0, away := [], owed := [] }

def State.port (s : State) (st k : Nat) : PortSt := Tab.get defPort s.ni.ports (st * 2 + k)

def State.setPort (s : State) (st k : Nat) (v : PortSt) : State :=
  { s with ni := { s.ni with ports := Tab.set defPort s.ni.ports (st * 2 + k) v } }

def State.txns (s : State) (st p : Nat) : List Txn := Tab.get (fun _ => []) s.ni.txns (st * 4 + p)

def State.setTxns (s : State) (st p : Nat) (v : List Txn) : State :=
  { s with ni := { s.ni with txns := Tab.set (fun _ => []) s.ni.txns (st * 4 + p) v } }

def State.ttxns (s : State) (st k : Nat) : List TTxn := Tab.get (fun _ => []) s.ni.ttxns (st * 2 + k)

def State.setTtxns (s : State) (st k : Nat) (v : List TTxn) : State :=
  { s with ni := { s.ni with ttxns := Tab.set (fun _ => []) s.ni.ttxns (st * 2 + k) v } }

/-- A record that no refusal has touched since the last sweep of its stop, if there was one (R187). -/
def NiSt.defRetry (v : NiSt) (k : Nat) : Retry :=
  { count := 0, slots := 0, sz := 0, gout := false, gnum := 0, age := Tab.get (fun _ => false) v.aged (k / 3072)
    resv := 0, sent := 0, gsz := 0, limit := 0 }

def State.retry (s : State) (st r : Nat) : Retry := Tab.get s.ni.defRetry s.ni.retry (st * 3072 + r)

def State.setRetry (s : State) (st r : Nat) (v : Retry) : State :=
  { s with ni := { s.ni with retry := Tab.set s.ni.defRetry s.ni.retry (st * 3072 + r) v } }

/-! ### The ticks of the crossings -/

/-- The µs clock of the NIs, in hc: 400 for each tick that has crossed, and what has passed since the last
(R191, R333). -/
def State.usClock (s : State) : Nat := 400 * s.cdc.us + s.her.boot.hcs % 400

def State.pend (s : State) (st r : Nat) : List Pend := Tab.get (fun _ => []) s.ni.pend (st * 3072 + r)

def State.setPend (s : State) (st r : Nat) (v : List Pend) : State :=
  { s with ni := { s.ni with pend := Tab.set (fun _ => []) s.ni.pend (st * 3072 + r) v } }

/-- A partition-map entry as VALID·64 + CTX (R115). -/
def State.pmap (s : State) (st b part : Nat) : Nat :=
  Tab.get (fun _ => 0) s.ni.pmap ((st * 2 + b) * 4096 + part)

def State.setPmap (s : State) (st b part v : Nat) : State :=
  { s with ni := { s.ni with
      pmap := Tab.set (fun _ => 0) s.ni.pmap ((st * 2 + b) * 4096 + part) v } }

def State.credit (s : State) (st n : Nat) : Int := Tab.get (fun _ => 0) s.ni.credit (st * 64 + n)

def State.setCredit (s : State) (st n : Nat) (v : Int) : State :=
  { s with ni := { s.ni with credit := Tab.set (fun _ => 0) s.ni.credit (st * 64 + n) v } }

/-! ### Access check units -/

def State.acuSet (s : State) (st a b i : Nat) : BitVec 128 :=
  Tab.get (fun _ => 0) s.acu.sets (((st * 3 + a) * 2 + b) * 32 + i)

def State.setAcuSet (s : State) (st a b i : Nat) (v : BitVec 128) : State :=
  { s with acu := { s.acu with
      sets := Tab.set (fun _ => 0) s.acu.sets (((st * 3 + a) * 2 + b) * 32 + i) v } }

/-- Default-map entry 0 covers every address with EN, PR and PW after reset; the others are 0
(R221). -/
def defAcuDef (k : Nat) : BitVec 128 :=
  if k % 4 = 0 then
    BitVec.ofNat 128 (packFields [(0, 48), (0, 16), (0xFFFFFFFFFFFF, 48), (1, 1), (0, 2), (1, 1), (1, 1)])
  else 0

def State.acuDef (s : State) (st a i : Nat) : BitVec 128 :=
  Tab.get defAcuDef s.acu.defs ((st * 3 + a) * 4 + i)

def State.setAcuDef (s : State) (st a i : Nat) (v : BitVec 128) : State :=
  { s with acu := { s.acu with
      defs := Tab.set defAcuDef s.acu.defs ((st * 3 + a) * 4 + i) v } }

/-! ### Queue store -/

/-- The fill of a stop's queue store has not completed: QS_STAT.FILL_BUSY. Its ports stay CLOSED and its queue engine
does not start (R308). -/
def State.fillBusy (s : State) (st : Nat) : Bool := s.flag (stopReg st sQS_STAT) 0

/-- A stop's fill may run: it is due and the domain is no longer isolated (R308, R366). -/
def State.filling (s : State) (st : Nat) : Bool := s.fillBusy st && !Tab.get (fun _ => true) s.pw.iso (ngOf st)

/-- Raw mode ends (R316). -/
def State.endRaw (s : State) (st : Nat) : State :=
  (s.setFld (stopReg st sQS_RAW_CTRL) 0 1 0).setFld (stopReg st sQS_STAT) 1 1 0

/-! ### Swaps -/

/-- This frame is the first under tables of kind `t` that a commit swapped (R436, R437). -/
def State.swapFrame (s : State) (t : Nat) : Bool :=
  s.fld gCOMMIT_STATUS 0 3 == 3 && s.her.scope / 2 ^ t % 2 == 1
    && s.frame.frameCnt == BitVec.ofNat 32 (s.her.cmt.late.getD (s.reg gCOMMIT_FRAME).toNat)

/-- A slot that passed its origin `lag` rc ago did so in the frame before this one. -/
def State.before (s : State) (lag : Nat) : Bool := s.frame.running && decide (s.frame.fpos < lag)

/-! ### Free values -/

/-- Take the next free value: the counter of the model's own that names it is read and advanced. -/
def State.freeNext (s : State) : Nat × State := (s.free, { s with free := s.free + 1 })

/-! ### Records -/

/-- A stop's local timestamp count (R463). -/
def defLocal (_ : Nat) : LocalTs := { count := 0, hold := 0, slew := 0, mark := none }

def State.localTs (s : State) (st : Nat) : LocalTs := Tab.get defLocal s.time.locals st

def State.setLocalTs (s : State) (st : Nat) (v : LocalTs) : State :=
  { s with time := { s.time with locals := Tab.set defLocal s.time.locals st v } }

/-- The general cause-specific part (Table 18.5). -/
def specGen (addr opc tag peer index status detail : Nat) : BitVec 256 :=
  BitVec.ofNat 256 (packFields
    [(addr, 52), (opc, 6), (tag, 12), (peer, 14), (index, 16), (status, 4), (detail, 32)])

/-- A received slot header as the cause-specific part (R471). -/
def specHdr (h : BitVec 160) : BitVec 256 := BitVec.ofNat 256 h.toNat

/-- A global source as PEER: die [13:10], stop [9:2], port [1:0] (Table 18.5). -/
def peerOf (die stop port : Nat) : Nat := packFields [(port, 2), (stop, 8), (die, 4)]

/-- The 512 bits of a record before SEQ and RCRC are given (Table 18.3). -/
def recBits (ts die stop : Nat) (r : RecIn) (ovf : Bool) : BitVec 512 :=
  BitVec.ofNat 512 (packFields
    [(ts, 64), (die, 4), (stop, 8), (r.port, 2), (r.sev, 2), (r.cause, 8), (r.part.getD 0, 12),
     (boolNat r.part.isSome, 1), (boolNat r.unver, 1), (boolNat ovf, 1), (0, 1), (0, 24),
     (r.spec.toNat, 256)])

def State.recBuf (s : State) (st : Nat) : List (BitVec 512) := Tab.get (fun _ => []) s.recs.bufs st

def State.setRecBuf (s : State) (st : Nat) (v : List (BitVec 512)) : State :=
  { s with recs := { s.recs with bufs := Tab.set (fun _ => []) s.recs.bufs st v } }

/-- A unit of stop `st` raises a record (R472): it enters the stop's buffer of 8, carrying OVF when
one was lost before it; a record raised while the buffer is full is lost and counted. -/
def State.raise (s : State) (st : Nat) (r : RecIn) : State :=
  if (s.recBuf st).length < 8 then
    let ovf := Tab.get (fun _ => false) s.recs.lostAt st
    let b := recBits (s.localTs st).count.toNat s.die st r ovf
    let s := s.setRecBuf st (s.recBuf st ++ [b])
    { s with recs := { s.recs with lostAt := Tab.set (fun _ => false) s.recs.lostAt st false } }
  else
    let s := (s.raiseFlag (stopReg st sSTOP_ERR_STAT) 4).count (stopReg st sSTOP_ERR_STAT) 8 8 1
    { s with recs := { s.recs with lostAt := Tab.set (fun _ => false) s.recs.lostAt st true } }

/-- A record in the general layout. -/
def recGen (port sev cause : Nat) (part : Option Nat) (spec : BitVec 256) : RecIn :=
  { port := port, sev := sev, cause := cause, part := part, unver := false, spec := spec }

/-- A record of the stop's rings, port 3, that names an INDEX and a DETAIL (R469, R535). -/
def recIdx (sev cause index detail : Nat) : RecIn :=
  recGen 3 sev cause none (specGen 0 0 0 0 index 0 detail)

/-- The same of the packet concerned, whose PART it carries (R469). -/
def recPkt (sev cause part index detail : Nat) : RecIn :=
  recGen 3 sev cause (some part) (specGen 0 0 0 0 index 0 detail)

/-- PORT_PART.CUR_PART: the partition of the last successful swap on GLP-4, DEF_PART otherwise (Table 6.22). -/
def State.curPart (s : State) (st k : Nat) : Nat :=
  if portGen st k = 3 then (s.port st k).curPart else s.fld (portReg st k pCFG) 4 12

/-- A record that carries a received header, marked unverified (R471). -/
def recHdr (port sev cause : Nat) (h : BitVec 160) : RecIn :=
  { port := port, sev := sev, cause := cause, part := none, unver := true, spec := specHdr h }

/-! ### FAB_STATE (Table 15.7) -/

def State.fabState (s : State) : Nat := s.fld gFAB_STATE 0 4
def State.setFab (s : State) (v : Nat) : State := s.setFld gFAB_STATE 0 4 v

def fabINIT : Nat := 1
def fabCALIBRATING : Nat := 2
def fabCONFIGURED : Nat := 3
def fabOPEN : Nat := 4
def fabQUIESCING : Nat := 5
def fabQUIESCED : Nat := 6
def fabDEGRADED : Nat := 7
def fabFAILED : Nat := 8

end Sys2Proof.Machine
end

