-- ==== Sys2Proof/Machine/Records.lean ====
section
/-! DEFINITION. Hearth's collection of records: SEQ, the local ring, the memory log, the FATAL
latch, the per-partition routes (R472 to R479), and the commands of the log. -/
namespace Sys2Proof.Machine
open Sys2Proof

/-- Number of memory-log entries (R473). -/
def State.logSize (s : State) : Nat := 2 ^ (s.fld gERR_LOG_CTRL 1 4 + 6)

/-- The entry the next log write goes to: HEAD plus the writes outstanding (log entry 20). -/
def State.logNext (s : State) : Nat :=
  (s.fld gERR_LOG_HEAD 0 16 + s.recs.writes.length) % s.logSize

/-- The log is full (R474). -/
def State.logFull (s : State) : Bool :=
  (s.logNext + s.logSize - s.fld gERR_LOG_TAIL 0 16 % s.logSize) % s.logSize == s.logSize - 1

/-- RCNT, with TS[21:2] and then the count of rc above it: the times a sample record's fields are taken from (R498). -/
def State.stamp (s : State) (st : Nat) : Nat :=
  s.frame.rcnt + 2 ^ 20 * fieldOf (s.localTs st).count 2 20 + 2 ^ 40 * s.frame.rcs

/-- A transaction of port 3 of Hearth's stop, captured and waiting for release (R473, R479). -/
def hearthTxn (s : State) (tag opc addr len attr part sub : Nat)
    (body : List (BitVec 512 × BitVec 64)) : Txn :=
  { tag := tag, gen := 0, phase := .captured, opc := opc, addr := addr, len := len,
    plen := body.length - 1, attr := attr, part := part, sub := sub, pctag := 0, body := body,
    pieces := [], resv := 0, timer := false, due := 0, permit := [], status := 0, data := [],
    pois := false, order := 0, ack := false, acked := false, haunts := false,
    stamps := [s.stamp hearthStop], last := none, retries := 0, redec := false, set := 0 }

/-- Least tag that no transaction of the port holds. -/
def freeTag (ts : List Txn) (n : Nat) : Nat :=
  (firstBelow n (fun t => !(ts.any (fun x => x.tag == t)))).getD 0

/-- Hearth issues a transaction through port 3 of its stop; its tag. -/
def State.hearthIssue (s : State) (opc addr len attr part sub : Nat)
    (body : List (BitVec 512 × BitVec 64)) : Nat × State :=
  let ts := s.txns hearthStop 3
  let tag := freeTag ts 1024
  (tag, s.setTxns hearthStop 3 (ts ++ [hearthTxn s tag opc addr len attr part sub body]))

/-- A transaction of Hearth's that has its completion, or has met its limit. -/
def State.hearthReady (s : State) (tag : Nat) : Option Txn :=
  (s.txns hearthStop 3).find? (fun t => t.tag == tag && t.phase == .ready)

/-- Hearth consumes the completion of its own transaction. -/
def State.hearthTake (s : State) (tag : Nat) : State :=
  s.setTxns hearthStop 3 ((s.txns hearthStop 3).filter (fun t => !(t.phase == .ready && t.tag == tag)))

/-- Start the next waiting log write, while fewer than 8 are outstanding (R473, R474). -/
def State.logIssue (s : State) : State :=
  match s.recs.logQ with
  | [] => s
  | b :: rest =>
    if 8 ≤ s.recs.writes.length then s
    else if s.logFull then
      let s := (s.count gERR_LOG_LOST 0 32 1).raiseFlag gERR_STAT 1
      { s with recs := { s.recs with logQ := rest, ovf := true } }
    else
      let b := if s.recs.ovf then
        let c := withField b 102 1 1
        withField c 480 32 (crc32c 60 (c.toNat % 2 ^ 480)) else b
      let i := s.logNext
      let (tag, s) := s.hearthIssue opBWR (s.fld gERR_LOG_BASE 0 32 * 2 ^ 20 + 64 * i) 63 1 0 0
        [(b, BitVec.allOnes 64)]
      { s with recs := { s.recs with
        logQ := rest, ovf := false, writes := s.recs.writes ++ [(⟨i, tag, false, b⟩ : LogWr)] } }

/-- The PERR_ROUTE entries whose partition a record matches (R479). -/
def State.perrTargets (s : State) (b : BitVec 512) : List Nat :=
  (List.range 16).filterMap fun i =>
    let a := gPERR_ROUTE + 8 * i
    if bitOf b 100 && s.flag a 12 && s.fld a 0 12 == fieldOf b 88 12
        && (fieldOf b 78 2 == sevDEFERRED || fieldOf b 78 2 == sevCONTAINED
            || (fieldOf b 78 2 == sevCORRECTED && s.flag a 13))
    then some (s.fld (a + 4) 0 20) else none

/-- Route a record to the tenants' queues (R479). The queue address travels in ADDR (R246). -/
def State.perrRoute (s : State) (b : BitVec 512) : State :=
  (s.perrTargets b).foldl (fun s q =>
    let (tag, s) := s.hearthIssue 0x30 q 63 1 (fieldOf b 88 12) 0 [(b, 0)]
    { s with recs := { s.recs with perr := s.recs.perr ++ [tag] } }) s

/-- One record enters Hearth's collection (R473, R474, R476, R477, R479). -/
def State.collect (s : State) (b : BitVec 512) : State :=
  let seq := s.fld gERR_SEQ 0 24
  let b := withField b 104 24 seq
  let b := withField b 480 32 (crc32c 60 (b.toNat % 2 ^ 480))
  let sev := fieldOf b 78 2
  let i := s.fld gERR_LOCAL_HEAD 0 6
  let s := { s with recs := { s.recs with ring := Tab.set (fun _ => 0) s.recs.ring i b } }
  let s := (s.setFld gERR_LOCAL_HEAD 0 6 (i + 1)).setFld gERR_SEQ 0 24 (seq + 1)
  let s := if sev = sevFATAL then
      let s := if s.recs.fatal then s else
        forUpTo 16 (fun j s => s.setReg (gERR_FATAL_REC + 4 * j)
          (BitVec.ofNat 32 (fieldOf b (32 * j) 32))) s
      let s := s.raiseFlag gERR_STAT 3
      { s with recs := { s.recs with fatal := true } }
    else s
  let s := if s.flag gERR_LOG_CTRL 0 then
      ({ s with recs := { s.recs with logQ := s.recs.logQ ++ [b] } } : State).logIssue
    else if s.fld gERR_IRQ_EN 6 2 ≤ sev then s.raiseFlag gERR_STAT 0
    else s
  s.perrRoute b

/-- Hearth raises a record itself: source stop 8, port 3 (R17, R472). -/
def State.raiseHearth (s : State) (sev cause : Nat) (spec : BitVec 256) : State :=
  s.collect (recBits (s.localTs hearthStop).count.toNat s.die hearthStop
    (recGen 3 sev cause none spec) false)

/-- Stops with a record waiting, in rotation after the one last collected from (R472). -/
def State.nextRecStop (s : State) : Option Nat :=
  ((List.range 192).map (fun i => (s.recs.rot + 1 + i) % 192)).find? (fun st => !(s.recBuf st).isEmpty)

/-- The parts of the state that the raising and collection of records may change. -/
def State.keepRec (s t : State) : State :=
  { s with regs := t.regs, recs := t.recs, ni := t.ni }

/-- RECORD_RAISE (R463, R469, R472): a unit of the stop raises the record. -/
def execRecordRaise (st : StopNo) (r : RecIn) (s : State) : Host.Outcome State Fault Refusal :=
  .next (s.keepRec (s.raise st.val r))

/-- RECORD_COLLECT (R472, R473): Hearth takes the oldest record of the next stop in rotation. -/
def execRecordCollect (s : State) : Host.Outcome State Fault Refusal :=
  match s.nextRecStop with
  | none => .next s
  | some st =>
    match s.recBuf st with
    | [] => .next s
    | b :: rest =>
      let t := (s.setRecBuf st rest).collect b
      .next (s.keepRec { t with recs := { t.recs with rot := st } })

/-- Advance HEAD past every leading log write that has returned OK (R473, R477). -/
def logAdvance : List LogWr → State → List LogWr × State
  | [], s => ([], s)
  | w :: rest, s =>
    if w.done then
      let s := s.setFld gERR_LOG_HEAD 0 16 ((w.index + 1) % s.logSize)
      logAdvance rest s
    else (w :: rest, s)

/-- A log write outstanding at an entry, with the status its completion or its limit has given it. -/
def State.logDone (s : State) (index tag : Nat) : Option (LogWr × Nat) :=
  match s.recs.writes.find? (fun w => w.index == index && w.tag == tag && !w.done) with
  | none => none
  | some w => (s.hearthReady w.tag).map (fun t => (w, t.status))

/-- LOG_WRITE_DONE (R473, R474, R477): the CMP of one log write has returned, or its limit has passed. -/
def execLogWriteDone (index tag : Nat) (s : State) : Host.Outcome State Fault Refusal :=
  match s.logDone index tag with
  | none => .next s
  | some (w, status) =>
    let s := s.hearthTake w.tag
    if status = stOK then
      let s1 := if s.fld gERR_IRQ_EN 6 2 ≤ fieldOf w.rcd 78 2 then s.raiseFlag gERR_STAT 0 else s
      let ws := s1.recs.writes.map (fun x => if x.index = index then { x with done := true } else x)
      let (ws, s2) := logAdvance ws s1
      .next (s.keepRec ({ s2 with recs := { s2.recs with writes := ws } } : State).logIssue)
    else
      let s1 := ((s.setFld gERR_LOG_CTRL 0 1 0).raiseFlag gERR_STAT 2)
      let s2 := { s1 with recs := { s1.recs with writes := [], logQ := [] } }
      .next (s.keepRec (s2.raiseHearth sevCONTAINED caLOG_WERR
        (specGen (s.fld gERR_LOG_BASE 0 32 * 2 ^ 20 + 64 * index) opBWR 0 0 0 status 0)))

/-- The status of a routed ENQ that has completed. -/
def State.perrDone (s : State) (tag : Nat) : Option Nat :=
  if s.recs.perr.contains tag then (s.hearthReady tag).map (fun t => t.status) else none

/-- PERR_ENQ_DONE (R479): a routed ENQ completes; any status but OK is counted, none is repeated. -/
def execPerrEnqDone (tag : Nat) (s : State) : Host.Outcome State Fault Refusal :=
  match s.perrDone tag with
  | none => .next s
  | some status =>
    let s1 := { s.hearthTake tag with recs := { s.recs with perr := s.recs.perr.erase tag } }
    .next (s.keepRec (if status = stOK then s1 else s1.count gPERR_LOST 0 32 1))

/-- LOG_ENABLE (R473): host software writes EN from 0 to 1, which sets HEAD and TAIL to 0; SIZE
above 10 is stored as 10. -/
def execLogEnable (size : Nat) (s : State) : Host.Outcome State Fault Refusal :=
  let s1 := s.setFld gERR_LOG_CTRL 1 4 (if 10 < size then 10 else size)
  if s.flag gERR_LOG_CTRL 0 then .next (s.keepRec s1)
  else
    let s2 := ((s1.setFld gERR_LOG_CTRL 0 1 1).setFld gERR_LOG_HEAD 0 16 0).setFld gERR_LOG_TAIL 0 16 0
    .next (s.keepRec s2)

end Sys2Proof.Machine
end

