-- ==== Sys2Proof/Machine/Route.lean ====
section
/-! DEFINITION. The target stop every stop derives from a header (R38), the route of a die
(R388, R389), the domains that are on, and the NI's events for the counters (R489). -/
namespace Sys2Proof.Machine
open Sys2Proof

/-- The ports of a die edge: 1 E, 2 W, 3 S, 4 N (Table 14.12, R388). -/
def edgePorts (e : Nat) : Nat × Nat :=
  match e with
  | 1 => (2, 3)
  | 2 => (0, 1)
  | 3 => (6, 7)
  | _ => (4, 5)

/-- The port by which class RSP (`rsp`) or any other class leaves for die `d`; `key` is DSTOP of a
request and SSTOP of a response (R388). -/
def State.routePort (s : State) (d key : Nat) (rsp : Bool) : Option Nat :=
  let a := gDIE_ROUTE + 4 * d
  let edge := if rsp then s.fld a 3 3 else s.fld a 0 3
  let fix := if rsp then s.flag a 10 else s.flag a 6
  let port := if rsp then s.fld a 11 3 else s.fld a 7 3
  if edge = 0 ∨ edge = 7 then none
  else if fix then some port
  else
    let (ev, od) := edgePorts edge
    let even := if edge ≤ 2 then decide (stopY key < 6) else decide (stopX key < 8)
    some (if even then ev else od)

/-- A die-to-die port is UP: DP_STAT.LSTATE is 4 (Table 14.14). -/
def State.dpUp (s : State) (p : Nat) : Bool := s.fld (dpReg p 4) 0 3 == 4

/-- The sibling of a port on its edge (R388). -/
def dpSibling (p : Nat) : Nat := p ^^^ 1

/-- A die is reachable (R389). -/
def State.reachable (s : State) (d key : Nat) (rsp : Bool) : Bool :=
  if d = s.die then true
  else if !(s.flag gDIE_MAP d) then false
  else match s.routePort d key rsp with
    | none => false
    | some p =>
      let fixd := if rsp then s.flag (gDIE_ROUTE + 4 * d) 10 else s.flag (gDIE_ROUTE + 4 * d) 6
      s.dpUp p || (!fixd && s.dpUp (dpSibling p))

/-- The target stop of an occupied slot (R38). -/
def State.target (s : State) (x : Slot) : Option Nat :=
  if x.ddie = s.die then some x.dstop
  else
    let rsp := x.cls == clsRSP
    (s.routePort x.ddie (if rsp then x.sstop else x.dstop) rsp).map dpStop

/-- A domain's state code; 0 is ON (R371). -/
def State.domState (s : State) (d : Nat) : Nat := s.fld (gPWR_DOMAIN_STATE + 4 * (d / 8)) (4 * (d % 8)) 4

/-- The NG domain of a stop is on. -/
def State.niOn (s : State) (st : Nat) : Bool := s.domState (ngOf st) == 0

/-- An event at a stop in this rc, for the counters (R489). -/
def State.ev (s : State) (st code lring port : Nat) (h : BitVec 160) : State :=
  { s with pmu := { s.pmu with
      evs := s.pmu.evs ++ [{ stop := st, code := code, lring := lring, port := port, hdr := h }] } }

/-- Count a DEFL_CNT event (Table 3.10). -/
def State.deflCnt (s : State) (st k : Nat) : State := s.count (stopReg st (sDEFL_CNT + 4 * k)) 0 32 1

/-- Count a TXN_CNT event (Table 7.21). -/
def State.txnCnt (s : State) (st k : Nat) : State := s.count (stopReg st (sTXN_CNT + 4 * k)) 0 32 1

/-- Keep the largest DEFL seen at a stop (R81). -/
def State.maxDefl (s : State) (st v : Nat) : State :=
  if s.fld (stopReg st sDEFL_STAT) 0 4 < v then s.setFld (stopReg st sDEFL_STAT) 0 4 v else s

end Sys2Proof.Machine
end

