-- ==== Sys2Proof/Machine/Inject.lean ====
section
/-! DEFINITION. Injection queues and their store (R112 to R115), time gates (R125 to R130), the
scheduler's choice (R117 to R119) and the shaper (R121, R122); the commands of the queues. -/
namespace Sys2Proof.Machine
open Sys2Proof

/-! ### The injection store -/

/-- The queues of a stop that hold a packet, with their packets. -/
def State.queuesOf (s : State) (st : Nat) : List (Nat × List QPkt) :=
  (s.ni.injq.filter (fun e => st * 512 ≤ e.1 && e.1 < st * 512 + 512)).map
    (fun e => (e.1 - st * 512, e.2))

/-- Slots a queue's packets occupy (R112). -/
def occOf (q : List QPkt) : Nat := (q.map (fun p => p.slots.length)).sum

/-- Entries of the injection store in use (R113). -/
def State.injUsed (s : State) (st : Nat) : Nat := ((s.queuesOf st).map (fun e => occOf e.2)).sum

/-- Entries held by classes other than RSP (R179). -/
def State.injNonRsp (s : State) (st : Nat) : Nat :=
  (((s.queuesOf st).filter (fun e => e.1 % 8 != clsRSP)).map (fun e => occOf e.2)).sum

/-- Entries that count toward a context's QLIM: every class but RSP, re-sends apart (R113, R114). -/
def State.ctxUsed (s : State) (st n : Nat) : Nat :=
  (((s.queuesOf st).filter (fun e => e.1 / 8 == n && e.1 % 8 != clsRSP)).map
    (fun e => occOf (e.2.filter (fun p => !p.resend)))).sum

/-- Active bank of the map, the parameters and the weights. -/
def State.pactive (s : State) (st : Nat) : Nat := s.fld (stopReg st sSCHED_STAT) 0 1

/-- FCS offset of context n's parameter word in bank b: bank 0 is stored at the window's own
offsets and bank 1 beside it, beyond the block's registers (R138). -/
def paramReg (st b n : Nat) : Nat := stopReg st (sCTX_PARAM + 8 * n) + b * 0x10000000

def State.ctxParam (s : State) (st n lo w : Nat) : Nat :=
  let a := paramReg st (s.pactive st) n
  if lo < 32 then s.fld a lo w else s.fld (a + 4) (lo - 32) w

def State.qlim (s : State) (st n : Nat) : Nat := s.ctxParam st n 42 10

/-- The context of a partition (R115), with the unmapped flag and count. -/
def State.mapCtx (s : State) (st part : Nat) : Nat × State :=
  let e := s.pmap st (s.pactive st) part
  if 64 ≤ e then (e % 64, s)
  else
    let a := stopReg st sSCHED_STAT
    (s.fld (stopReg st sSCHED_CTRL) 2 6, (s.raiseFlag a 2).count a 8 8 1)

/-- A granted re-send waits in some receive stage of the stop (R114). -/
def State.resendWaits (s : State) (st : Nat) : Bool :=
  (List.range 4).any (fun p => (s.heldAt st p).any (fun h => h.resend))

/-- The store admits a packet of `n` slots into context `c`'s queue of class `cls` (R113, R114,
R179). -/
def State.canAdmit (s : State) (st c cls n : Nat) (resend : Bool) : Bool :=
  if s.injUsed st + n ≤ 512 then
    if cls = clsRSP then true
    else decide (s.injNonRsp st + n ≤ 448) &&
      (resend || (decide (s.ctxUsed st c + n ≤ s.qlim st c) && !s.resendWaits st))
  else false

/-- A granted re-send goes ahead of every packet in its queue, but not ahead of one that is
part-way through injection (R49, R114). -/
def queueIn (q : List QPkt) (p : QPkt) : List QPkt :=
  if p.resend then
    match q with
    | [] => [p]
    | h :: t => if h.next > 0 then h :: p :: t else p :: h :: t
  else q ++ [p]

/-- Keep the high-water marks of a queue and the store (R136). -/
def State.hwmUpdate (s : State) (st q : Nat) : State :=
  let (o, w) := Tab.get (fun _ => (0, 0)) s.ni.hwm (st * 512 + q)
  let occ := occOf (s.injq st q)
  let s := { s with ni := { s.ni with
    hwm := Tab.set (fun _ => (0, 0)) s.ni.hwm (st * 512 + q) (max o occ, w) } }
  let a := stopReg st sINJ_STORE
  if s.fld a 16 10 < s.injUsed st then s.setFld a 16 10 (s.injUsed st) else s

/-- A packet enters its injection queue. -/
def State.enterQueue (s : State) (st q port : Nat) (p : Pkt) (resend : Bool) (mark : QMark) : State :=
  let e : QPkt := { slots := p, port := port, next := 0, resend := resend, demoted := false,
                    entered := s.frame.rcs, mark := mark }
  (s.setInjq st q (queueIn (s.injq st q) e)).hwmUpdate st q

/-- The channel a packet of a class came on: rsp, msg or req (R113, Table 6.2). -/
def chanOf (cls : Nat) : Nat := if cls = clsRSP then 0 else if cls = clsMSG then 1 else 2

/-- What a held packet waits behind: its channel, or for a granted re-send the keep store (R113, R114). -/
def Held.lane (h : Held) : Nat := if h.resend then 3 else chanOf (Pkt.head h.slots).cls

/-- A released packet: into its queue when the store admits it and nothing of its channel waits, else
into the port's receive stage (R113). -/
def State.offerOn (s : State) (st port : Nat) (p : Pkt) (ctx : Option Nat) (resend : Bool) (mark : QMark) :
    State :=
  let cls := (Pkt.head p).cls
  let (c, s1) := match ctx with
    | some c => (c, s)
    | none => s.mapCtx st (Pkt.head p).part
  let ahead := (s.heldAt st port).any (fun h => h.lane == chanOf cls) && !resend
  if !ahead && s.canAdmit st c cls p.length resend then
    s1.enterQueue st (8 * c + cls) port p resend mark
  else
    let h : Held := { port := port, slots := p, ctx := ctx, resend := resend, mark := mark }
    s.setHeld st port (if resend then h :: s.heldAt st port else s.heldAt st port ++ [h])

/-- The same for every packet but a lap broadcast or a GWR. -/
def State.offer (s : State) (st port : Nat) (p : Pkt) (ctx : Option Nat) (resend : Bool) : State :=
  s.offerOn st port p ctx resend .plain

/-- A held packet enters its queue if the store and its context admit it. `rest` is what stays held. -/
def State.admitOne (s : State) (st port : Nat) (h : Held) (rest : List Held) : Option State :=
  let cls := (Pkt.head h.slots).cls
  let s0 := s.setHeld st port rest
  let (c, s1) := match h.ctx with
    | some c => (c, s0)
    | none => s0.mapCtx st (Pkt.head h.slots).part
  if s0.canAdmit st c cls h.slots.length h.resend then
    some (s1.enterQueue st (8 * c + cls) port h.slots h.resend h.mark)
  else none

/-- INJ_QUEUE_ADMIT (R112 to R115): the first packet in a port's receive stage that no packet of its own channel
is ahead of, and that the store and its context admit, enters its queue. -/
def State.admitHeld (s : State) (st port : Nat) : State :=
  let hs := s.heldAt st port
  ((hs.zipIdx.findSome? (fun e =>
    if (hs.take e.2).any (fun h => h.lane == e.1.lane) then none
    else s.admitOne st port e.1 (hs.eraseIdx e.2)))).getD s

/-! ### Responses an NI raises -/

/-- ATTR of a response: PRIV, SEC and SMPL of its request, POIS as given (R534). -/
def rspAttr (req : Slot) (pois : Bool) : Nat :=
  packFields [(boolNat (req.attrBit attrPriv), 1), (boolNat (req.attrBit attrSec), 1), (0, 2),
    (boolNat pois, 1), (0, 2), (boolNat (req.attrBit attrSmpl), 1)]

/-- The extension of a response: STATUS, and SUB or the ARR field of a sampled request (R497). -/
def rspExt (req : Slot) (status sub arr : Nat) : BitVec 64 :=
  if req.attrBit attrSmpl then seqExt status 0 (packFields [(sub, 16), (arr, 20)])
  else seqExt status 0 (opxReq sub false 0)

/-- A response to request slot `req`, sent from stop `st`, port `req.dport` (R26, R534). -/
def mkRsp (die st : Nat) (req : Slot) (opc status : Nat) (pois : Bool) (sub arr : Nat)
    (data : List (BitVec 512)) : Pkt :=
  let h : HdrIn :=
    { ddie := req.sdie, dstop := req.sstop, dport := req.sport, sdie := die, sstop := st,
      sport := req.dport, cls := clsRSP, opc := opc, tag := req.tag, part := req.part,
      addr := req.addr, attr := rspAttr req pois, grnt := false,
      sdefl := if req.attrBit attrSmpl then req.defl else 0 }
  mkPkt h (data.map (fun d => (d, rspExt req status sub arr)))

/-- RCNT, or TS[21:2] when the source is on another die (R497). -/
def State.sampleNow (s : State) (st : Nat) (req : Slot) : Nat :=
  if req.sdie = s.die then s.frame.rcnt else fieldOf (s.localTs st).count 2 20

/-- A dataless response enters the RSP queue of its request's partition at the target stop (R114). -/
def State.respond (s : State) (st : Nat) (req : Slot) (opc status : Nat) : State :=
  s.offer st req.dport (mkRsp s.die st req opc status false 0 (s.sampleNow st req) [0]) none false

/-- The refusal of a packet with a status: CMP, PWACK for a posted write, nothing for a packet that
gets no completion (R14, R364). -/
def State.refuseWith (s : State) (st : Nat) (req : Slot) (status : Nat) : State :=
  if opPosted req.opc then s.respond st req opPWACK status
  else if req.cls = clsGUAR ∨ req.cls = clsMGMT ∨ req.cls = clsRSP then s
  else s.respond st req opCMP status

/-- A control packet of port 3 in the RSP queue of local context 0: GRANT and GRELEASE (R184). -/
def State.sendCtl (s : State) (st opc ddie dstop gnum gsz : Nat) : State :=
  let h : HdrIn := { ddie := ddie, dstop := dstop, dport := 3, sdie := s.die, sstop := st, sport := 3,
                     cls := clsRSP, opc := opc }
  s.offer st 3 (mkPkt h [(0, seqExt 0 0 (opxGrant gnum gsz))]) (some 0) false

/-! ### Time gates -/

/-- Active gate-list bank. -/
def State.glBank (s : State) (st : Nat) : Nat := s.fld (stopReg st sGL_STAT) 0 1

def State.glen (s : State) (st : Nat) : Nat := s.fld (stopReg st (sGL_CFG + 8 * s.glBank st)) 0 6 + 1
def State.gcycle (s : State) (st : Nat) : Nat := s.fld (stopReg st (sGL_CFG + 8 * s.glBank st)) 8 6 + 1

/-- Entries of the active gate list as OPEN and INTERVAL. -/
def State.gateList (s : State) (st : Nat) : List (Nat × Nat) :=
  (List.range (s.glen st)).map fun i =>
    let a := stopReg st (sGATE_LIST + 0x100 * s.glBank st + 4 * i)
    (s.fld a 0 4, s.fld a 8 19)

/-- F, the frame length in rc (R83). -/
def State.frameLen (s : State) : Nat := 48 * s.frame.flen48

/-- The list cut or stretched to the cycle of `len` rc: entries that start at or after the cycle's
end are skipped, and the last entry governs what is left (R125). -/
def gateFit : Nat → List (Nat × Nat) → List (Nat × Nat)
  | _, [] => []
  | len, [(o, _)] => if len = 0 then [] else [(o, len)]
  | len, (o, n) :: rest =>
    if len = 0 then [] else if len ≤ n then [(o, len)] else (o, n) :: gateFit (len - n) rest

/-- Bit of a gated class in OPEN: REQ 0, IO 1, MSG 2, BULK 3 (Table 5.15). -/
def gateBit (cls : Nat) : Nat := cls - clsREQ

/-- rc left, from cycle position `p` on, in the run of positions in which class `cls` is open; 0 when
it is closed at `p`. The list is walked at most once round from `p`. -/
def gateRun (cls : Nat) : Nat → List (Nat × Nat) → Nat
  | _, [] => 0
  | p, (o, n) :: rest =>
    if n ≤ p then gateRun cls (p - n) rest
    else if (o >>> gateBit cls) % 2 = 1 then (n - p) + gateRun cls 0 rest else 0

/-- Frame k within the gate cycle whose states are in force; an overrun keeps those of the ended frame for one
more frame (R129, R130; two overruns in a row: log entry 148). -/
def State.gateFrame (s : State) (st : Nat) : Nat :=
  let k := Tab.get (fun _ => 0) s.ni.gframe st
  let g := s.gcycle st
  (k + g - Tab.get (fun _ => 0) s.ni.gstale st % g) % g

/-- The open window w of R126 at the stop for a gated class. -/
def State.gateWindow (s : State) (st cls : Nat) : Nat :=
  let len := s.gcycle st * s.frameLen
  let l := gateFit len (s.gateList st)
  gateRun cls (s.gateFrame st * s.frameLen + s.frame.fpos) (l ++ l)

/-- MAXWIN: the longest open window of the class in the cycle, a window across the cycle boundary
counted as one (R128). -/
def gateMax (cls : Nat) : Nat → List (Nat × Nat) → Nat
  | _, [] => 0
  | run, (o, n) :: rest =>
    if (o >>> gateBit cls) % 2 = 1 then max (run + n) (gateMax cls (run + n) rest)
    else gateMax cls 0 rest

/-- MAXWIN over a whole list; a class open throughout has the cycle's length. -/
def gateMaxWin (cls len : Nat) (l : List (Nat × Nat)) : Nat :=
  min (gateMax cls 0 (l ++ l)) len

/-- A class is one the gate list may hold: REQ, IO, MSG or BULK. -/
def gatedClass (cls : Nat) : Bool := clsREQ ≤ cls && cls ≤ clsBULK

/-- The gate test of R126. -/
def State.gatePass (s : State) (st cls n : Nat) : Bool :=
  n + s.fld (stopReg st sSCHED_CTRL) 8 8 ≤ s.gateWindow st cls && 0 < s.gateWindow st cls

/-- A queue head is oversize under the active list (R128). -/
def State.oversize (s : State) (st n : Nat) (p : QPkt) : Bool :=
  let cls := (Pkt.head p.slots).cls
  s.ctxParam st n 33 1 == 1 && gatedClass cls && p.next == 0 &&
    s.fld (stopReg st (sGL_MAXWIN + 4 * gateBit cls)) 0 20
      < p.slots.length + s.fld (stopReg st sSCHED_CTRL) 8 8

/-- What becomes of the piece that a queued packet of a port carries. -/
def State.mapPiece (s : State) (st : Nat) (p : QPkt) (f : Piece → Piece) : State :=
  let h := Pkt.head p.slots
  s.setTxns st p.port ((s.txns st p.port).map fun t =>
    if t.tag = h.tag then
      { t with pieces := t.pieces.map fun c =>
          if c.addr = h.addr ∧ c.die = h.ddie ∧ c.stop = h.dstop then f c else c }
    else t)

/-- The piece that a queued packet carries, if its transaction is still there. -/
def State.pieceOf (s : State) (st : Nat) (p : QPkt) : Option Piece :=
  let h := Pkt.head p.slots
  (s.txns st p.port).findSome? fun t =>
    if t.tag = h.tag then
      t.pieces.find? (fun c => c.addr == h.addr && c.die == h.ddie && c.stop == h.dstop)
    else none

/-- A granted re-send that will not be injected gives its grant back (R185, R186). -/
def State.backGrant (s : State) (st : Nat) (c : Piece) : State :=
  match c.grantBy with
  | some (die, stop, g) => if c.resent && c.injected == 0 then s.sendCtl st opGRELEASE die stop g 0 else s
  | none => s

/-- GATE_OVERSIZE at one queue's head: demote or drop, flag, count and record (R128). A re-send of a packet
demoted before is demoted again without a new record. DETAIL holds the class in [2:0] and PLEN in [13:8],
INDEX the context (log entry 145). -/
def State.oversizeAt (s : State) (st q : Nat) : State :=
  match s.injq st q with
  | [] => s
  | p :: rest =>
    if p.demoted || !s.oversize st (q / 8) p then s
    else
      let hd := Pkt.head p.slots
      let a := stopReg st sSCHED_STAT
      let rep (s : State) : State :=
        ((s.raiseFlag a 3).count a 16 16 1).raise st
          (recGen p.port sevCONTAINED caGATE_OVERSIZE (some hd.part)
            (specGen 0 0 0 0 (q / 8) 0 (hd.cls + 256 * hd.plen)))
      let piece := s.pieceOf st p
      if s.flag (stopReg st sSCHED_CTRL) 0 then
        let s1 := rep (s.setInjq st q rest)
        let s1 := match piece with
          | some c => s1.backGrant st c
          | none => s1
        if opPosted hd.opc then s1
        else
          s1.setRspIn st (s1.rspIn st ++ [mkRsp s.die hd.dstop hd opCMP stMSGSIZE false 0 0 [0]])
      else
        let s1 := (s.setInjq st q ({ p with demoted := true } :: rest)).mapPiece st p
          (fun c => { c with demoted := true })
        if p.resend && (match piece with | some c => c.demoted | none => false) then
          (s1.raiseFlag a 3).count a 16 16 1
        else rep s1

/-! ### The scheduler -/

/-- Class of a head in the scheduler's turns: BULK for a demoted packet (R118). -/
def QPkt.turn (p : QPkt) : Nat := if p.demoted then clsBULK else (Pkt.head p.slots).cls

/-- The injection direction of a packet at stop `st` (R39, R40); 5 when it has no route. -/
def State.dirOf (s : State) (st : Nat) (p : Pkt) : Nat :=
  match s.target (Pkt.head p) with
  | none => 5
  | some t => injDir st t

/-- SHAPE_MASK of context n includes class c. -/
def State.shaped (s : State) (st n c : Nat) : Bool :=
  c ≤ clsBULK && bitOf (BitVec.ofNat 6 (s.ctxParam st n 34 6)) c

/-- GRANT and GRELEASE are never charged and never wait (R184). -/
def isGrantPkt (p : Pkt) : Bool := (Pkt.head p).opc == opGRANT || (Pkt.head p).opc == opGRELEASE

/-- Eligibility of a queue head for direction d; `cr` gives each context's credit at the start of the rc (R117). -/
def State.eligible (s : State) (cr : Nat → Int) (st d q : Nat) (p : QPkt) : Bool :=
  let cls := (Pkt.head p.slots).cls
  s.dirOf st p.slots == d &&
    (isGrantPkt p.slots ||
      ((!s.shaped st (q / 8) cls || decide (0 ≤ cr (q / 8))) &&
        (!(s.ctxParam st (q / 8) 33 1 == 1 && gatedClass cls) || p.demoted
          || s.gatePass st cls p.slots.length)))

/-- Heads of the scheduler's classes, eligible for direction d: queue and packet. -/
def State.heads (s : State) (cr : Nat → Int) (st d : Nat) : List (Nat × QPkt) :=
  (s.queuesOf st).filterMap fun e =>
    match e.2 with
    | [] => none
    | p :: _ => if e.1 % 8 ≤ clsBULK && s.eligible cr st d e.1 p then some (e.1, p) else none

/-- Distance of context n in the rotation that starts after `r`. -/
def rotDist (r n : Nat) : Nat := (n + 64 - (r + 1) % 64) % 64

/-- First eligible head of class c, searching contexts in rotation from rr + 1. Where a context has two in the BULK
turn, a demoted head and its BULK head, the lower queue number goes first (log entry 146). -/
def pickHead (r c : Nat) (hs : List (Nat × QPkt)) : Option (Nat × QPkt) :=
  (hs.filter (fun e => e.2.turn == c)).foldl (fun best e =>
    match best with
    | none => some e
    | some b => if rotDist r (e.1 / 8) < rotDist r (b.1 / 8) then some e else some b) none

/-- The class after c in the weighted turn: REQ, IO, MSG, BULK, REQ (R118). -/
def nextTurn (c : Nat) : Nat := if c = clsBULK then clsREQ else c + 1

/-- Weight of a class in the active bank (R120). -/
def State.weight (s : State) (st c : Nat) : Nat :=
  s.fld (stopReg st (sCLASS_WT + 4 * s.pactive st)) (8 * gateBit c) 8

/-- weighted(d) of R118, with `fuel` visits left. -/
def weighted (st d : Nat) (hs : List (Nat × QPkt)) : Nat → State → Option (Nat × QPkt) × State
  | 0, s => (none, s)
  | fuel + 1, s =>
    let dir := s.dir st d
    let c := dir.ptr
    match pickHead (s.rr st d c) c hs with
    | none =>
      let s := (s.setDeficit st d c 0).setDir st d { dir with ptr := nextTurn c, fresh := true }
      weighted st d hs fuel s
    | some (q, p) =>
      let s := if dir.fresh then
          (s.setDeficit st d c (s.deficit st d c + 64 * s.weight st c)).setDir st d
            { dir with fresh := false }
        else s
      if p.slots.length ≤ s.deficit st d c then (some (q, p), s)
      else
        weighted st d hs fuel (s.setDir st d { s.dir st d with ptr := nextTurn c, fresh := true })

/-- select(d) of R118: the packet offered in this rc, if any. A packet part-way through injection
goes on (R49). -/
def State.select (s : State) (cr : Nat → Int) (st d : Nat) : Option (Nat × QPkt) × State :=
  match (s.dir st d).hold with
  | some q =>
    match s.injq st q with
    | [] => (none, s)
    | p :: _ => (some (q, p), s)
  | none =>
    let hs := s.heads cr st d
    match pickHead (s.rr st d clsRSP) clsRSP hs with
    | some e => (some e, s)
    | none =>
      match pickHead (s.rr st d clsSNP) clsSNP hs with
      | some e => (some e, s)
      | none => weighted st d hs 4 s

/-- An opcode that carries data (Tables 7.1 and 9.2). -/
def opHasData (opc : Nat) : Bool := opCarriesData opc || opc == opENQ || opc == opDBELL

/-- The charged length L of a packet (R121). -/
def State.chargeLen (s : State) (st n : Nat) (p : Pkt) : Nat :=
  (if opHasData (Pkt.head p).opc then 64 * p.length else 0)
    + (if s.ctxParam st n 32 1 = 1 then s.ctxParam st n 24 8 else 0)

/-- Step 1 of R122 and the wait mark of R136, when a packet's first slot goes in. -/
def State.chargeFirst (s : State) (st q : Nat) (p : QPkt) : State :=
  let n := q / 8
  let s := if s.shaped st n (Pkt.head p.slots).cls && !p.resend && !isGrantPkt p.slots then
      s.setCredit st n (s.credit st n - (256 * s.chargeLen st n p.slots : Nat)) else s
  let (o, w) := Tab.get (fun _ => (0, 0)) s.ni.hwm (st * 512 + q)
  let wait := min (s.frame.rcs - p.entered) 0xFFFFFF
  { s with ni := { s.ni with
      hwm := Tab.set (fun _ => (0, 0)) s.ni.hwm (st * 512 + q) (o, max w wait) } }

/-- The effects of a packet's first slot going into a ring slot (R119, R122, R136). -/
def State.firstIn (s : State) (st d q : Nat) (p : QPkt) : State :=
  let s := s.setRr st d p.turn (q / 8)
  let s := if gatedClass p.turn then
      s.setDeficit st d p.turn (s.deficit st d p.turn - p.slots.length) else s
  s.chargeFirst st q p

/-! ### The shaper -/

/-- The context is backlogged: a queue of a class in its SHAPE_MASK holds a packet (R122). -/
def State.shapeHeads (s : State) (st n : Nat) : List (Nat × List QPkt) :=
  (s.queuesOf st).filter (fun e => e.1 / 8 == n && s.shaped st n (e.1 % 8) && !e.2.isEmpty)

/-- Every such packet sits at the head of a queue whose gate is closed (R122). -/
def State.frozen (s : State) (st n : Nat) : Bool :=
  (s.shapeHeads st n).all fun e =>
    match e.2 with
    | [p] => s.ctxParam st n 33 1 == 1 && gatedClass (e.1 % 8) && !p.demoted
        && s.gateWindow st (e.1 % 8) == 0
    | _ => false

/-- Steps 2 and 3 of R122 for one context. -/
def State.shapeCtx (s : State) (st n : Nat) : State :=
  let c := s.credit st n
  let back := !(s.shapeHeads st n).isEmpty
  let cap : Int := (256 * 64 * s.ctxParam st n 16 8 : Nat)
  let c1 := if c < 0 || (back && !s.frozen st n) then
      min (c + (s.ctxParam st n 0 16 : Nat)) (max cap c) else c
  s.setCredit st n (if !back && 0 < c1 then 0 else c1)

/-- The contexts whose credit can change: those with a credit or parameters of their own. -/
def State.shaperKeys (s : State) : List Nat :=
  let own := s.ni.credit.map (·.1)
  let par := s.regs.filterMap fun e =>
    let a := e.1 % 0x10000000
    if 0x100000 ≤ a && a < 0x400000 && sCTX_PARAM ≤ (a - 0x100000) % 0x4000
        && (a - 0x100000) % 0x4000 < 0xC00
    then some ((a - 0x100000) / 0x4000 * 64 + ((a - 0x100000) % 0x4000 - sCTX_PARAM) / 8)
    else none
  (own ++ par).eraseDups

/-- SHAPER_UPDATE (R122): the credit sweep of the rc over every context. -/
def State.shaperUpdate (s : State) : State :=
  s.shaperKeys.foldl (fun s k => s.shapeCtx (k / 64) (k % 64)) s

end Sys2Proof.Machine
end

