-- ==== Sys2Proof/Machine/Eject.lean ====
section
/-! DEFINITION. What a target does with a slot that arrives for it: admission (Tables 3.1 and 14.5,
R50, R181, R189, R198), hand-off and absorption (R66, R67), guaranteed slots (R101), absent
destinations (R14, R364), the ejection stage (R55), reassembly (R51). -/
namespace Sys2Proof.Machine
open Sys2Proof

/-- What becomes of an arriving slot at its target: it is taken into a store, it is emptied without
being kept, or it is refused and is handed off or passes on deflected (R65). -/
inductive EjRes where
  | take (store : Nat)
  | absorb
  | handoff
  | deflect
  deriving DecidableEq, Repr

/-- The record number of a global source stop (R180). -/
def recNo (die stop : Nat) : Nat := 192 * die + stop

/-- A retry record is active (R180). -/
def Retry.active (r : Retry) : Bool := r.count != 0 || r.slots != 0 || r.gout

/-- The retry records of a stop that are listed, with their numbers. -/
def State.retriesOf (s : State) (st : Nat) : List (Nat × Retry) :=
  (s.ni.retry.filter (fun e => st * 3072 ≤ e.1 && e.1 < st * 3072 + 3072)).map
    (fun e => (e.1 - st * 3072, e.2))

/-- Request-store entries in use or reserved (R50, R184). -/
def State.reqUsed (s : State) (st : Nat) : Nat :=
  (((s.reasm st).filter (fun r => r.store == 1)).map (·.ents)).sum
    + ((List.range 4).map (fun p =>
        (((s.inbox st p).filter (fun d => d.store == 1)).map (·.ents)).sum)).sum
    + ((s.retriesOf st).map (fun e => e.2.resv)).sum

/-- Entries held by ORD packets that arrived ahead of their turn, whole or in reassembly (R189,
ORD_STAT.OOS_USED). -/
def State.oosUsed (s : State) (st : Nat) : Nat :=
  (((s.reasm st).filter (fun r => r.store == 1 && r.ahead)).map (·.ents)).sum
    + ((List.range 4).map (fun p => (((s.inbox st p).filter (·.early)).map (·.ents)).sum)).sum

/-- Size class of a packet (GSZ): 0 is 1 slot, 1 is 4, 2 is 16, 3 is 64. -/
def sizeClass (plen : Nat) : Nat :=
  if plen < 1 then 0 else if plen < 4 then 1 else if plen < 16 then 2 else 3

/-- Slots of a size class. -/
def classSlots (z : Nat) : Nat := 4 ^ z

/-- A refused slot is entered in its source stop's record; RETRY goes out on PSEQ 0 (R181). -/
def State.refused (s : State) (st : Nat) (x : Slot) : State :=
  let n := recNo x.sdie x.sstop
  let r := s.retry st n
  let r := { r with
    sz := if r.count = 0 then sizeClass x.plen else max r.sz (sizeClass x.plen), age := false }
  if x.pseq = 0 then
    let s := s.setRetry st n { r with count := r.count + 1, slots := r.slots + (x.plen : Int) }
    ((s.respond st x opCMP stRETRY).txnCnt st 0).ev st 0x13 8 0 x.hdr
  else s.setRetry st n { r with slots := r.slots - 1 }

/-- Key of the expected OSEQ of a source port (R189). -/
def oexpKey (st : Nat) (x : Slot) : Nat := st * 12288 + 4 * recNo x.sdie x.sstop + x.sport

/-- The packet arrives ahead of its turn (R189). -/
def State.aheadOfTurn (s : State) (st : Nat) (x : Slot) : Bool :=
  x.hasOseq && !x.sstart && Tab.get (fun _ => 0) s.ni.oexp (oexpKey st x) != x.oseq

/-- The target port is locked for a source other than the slot's (R198), a debug read let through
under R233 apart. -/
def State.lockRefuses (s : State) (st : Nat) (x : Slot) : Bool :=
  if x.dport < 2 then
    match (s.port st x.dport).lockedBy with
    | none => false
    | some o =>
      let own := o.die == x.sdie && o.stop == x.sstop && o.port == x.sport
      let listed := (List.range 16).any (fun i =>
        s.flag (gDBG_SRC + 4 * i) 14 && s.fld (gDBG_SRC + 4 * i) 0 14 == peerOf x.sdie x.sstop x.sport)
      let dbg := s.flag (stopReg st sDBG_CTRL) 0 && (x.opc == opRD || x.opc == opRD_NC) && listed
      !own && !dbg
  else false

/-- Some active record of the stop waits for a grant (R184): freed entries are kept for it. -/
def State.grantWaits (s : State) (st : Nat) : Bool :=
  (s.retriesOf st).any (fun e => decide (0 < e.2.count) && !e.2.gout)

/-- Allocate request-store entries for a packet's first slot. A posted write to an agent port of the
die is answered with PWACK as its first slot is admitted (R174), and a packet with SSTART sets the expected OSEQ of
its source port (R189). -/
def State.allocReq (s : State) (st : Nat) (x : Slot) (grnt : Bool) : State :=
  let s : State := if x.hasOseq && x.sstart then
    { s with ni := { s.ni with oexp := Tab.set (fun _ => 0) s.ni.oexp (oexpKey st x) x.oseq } } else s
  let s := if opPosted x.opc ∧ x.opc ≠ opNOTIFY ∧ x.dport < 2 ∧ x.ddie = s.die then s.respond st x opPWACK stOK else s
  s.setReasm st (s.reasm st ++
    [{ src := x.src, store := 1, ents := x.plen + 1, plen := x.plen, slots := [],
       born := s.frame.rcs, resid := 0, grnt := grnt, ahead := s.aheadOfTurn st x }])

/-- A request-store slot at its target, by the first rule of R181 that matches. `free` is what the
store held free at the start of the rc (R69); what is left of it is returned. `again` says that a slot of the same
packet was handed off in this rc: so is this one (R66). A slot with PSEQ > PLEN takes no entries: reassembly discards
it (R51). -/
def State.ejectReq (s : State) (st : Nat) (x : Slot) (free : Nat) (portStop again : Bool) :
    EjRes × Nat × State :=
  if (s.reasm st).any (fun r => r.store == 1 && r.src == x.src) || decide (x.plen < x.pseq) then (.take 1, free, s)
  else
    let n := recNo x.sdie x.sstop
    let r := s.retry st n
    if x.grnt && r.gout then
      let s := s.setRetry st n { r with count := r.count - 1, gout := false, resv := 0 }
      (.take 1, free, s.allocReq st x true)
    else
      let s := if x.grnt && !portStop then
          s.raise st (recGen 3 sevCONTAINED caGRNT_STRAY (some x.part)
            (specGen x.addr x.opc x.tag (peerOf x.sdie x.sstop x.sport) 0 0 0)) else s
      if r.active then
        (if again then (.handoff, free, (s.refused st x).deflCnt st 2)
         else (.absorb, free, (s.refused st x).deflCnt st 3))
      else
        let early := s.aheadOfTurn st x
        let fits := x.plen + 1 ≤ free && !s.grantWaits st
          && (!early || s.oosUsed st + x.plen + 1 ≤ 64)
        let locked := s.lockRefuses st x
        if fits && !locked then (.take 1, free - (x.plen + 1), s.allocReq st x false)
        else if locked || s.fld (stopReg st sDEFL_CTRL) 0 2 ≤ x.defl || x.stype == stESC then
          (.handoff, free, (s.refused st x).deflCnt st 2)
        else (.deflect, free, s.deflCnt st 1)

/-- The valid entry of bank `b` of a stop's flow table with a role and a RESID, as its word offset (R97). -/
def State.flowIn (s : State) (b st role resid : Nat) (p : Nat → Bool) : Option Nat :=
  ((List.range 64).map (fun n => stopReg st (sFLOW_TABLE + 0x200 * b + 8 * n))).find? fun a =>
    s.flag a 0 && s.fld a 1 2 == role && s.fld a 3 10 == resid && p a

/-- The same of the active bank. -/
def State.flowEntry (s : State) (st role resid : Nat) (p : Nat → Bool) : Option Nat :=
  s.flowIn (s.fld (stopReg st sFLOW_STAT) 0 1) st role resid p

/-- The same of the bank of the frame in which a slot passed its origin, `lag` rc ago (R438). -/
def State.flowAt (s : State) (lag st role resid : Nat) (p : Nat → Bool) : Option Nat :=
  let b := s.fld (stopReg st sFLOW_STAT) 0 1
  s.flowIn (if s.swapFrame 1 && s.before lag then 1 - b else b) st role resid p

/-- Entries that the EJECT entry of a flow owns at a stop. In the frame in which a new flow table takes effect,
the old bank's entry stays in force as well, until that frame's end (R101, R438). -/
def State.guarOwn (s : State) (st resid : Nat) : Nat :=
  let now := s.flowEntry st 2 resid (fun _ => true)
  let a := match now, s.swapFrame 1 with
    | none, true => s.flowIn (1 - s.fld (stopReg st sFLOW_STAT) 0 1) st 2 resid (fun _ => true)
    | _, _ => now
  match a with
  | some a => s.fld (a + 4) 0 6 + 1
  | none => 0

/-- A port at reset: buffers empty, no credit (R382). -/
def defDp (_ : Nat) : DpSt :=
  { egress := [], ingress := [], egAlloc := [], credit := List.replicate 8 0,
    owed := List.replicate 8 0, granted := List.replicate 8 0, rsvIn := [], rsvEg := [],
    transit := [], lastInj := List.replicate 8 0, clsRot := 0, modRot := 0, modsTx := 0, modsRx := 0,
    modsOut := 0, window := none, winMod := none, winAt := 0, minRtt := none, rotate := none, tx := none }

def State.dp (s : State) (p : Nat) : DpSt := Tab.get defDp s.d2d.dps p

def State.setDp (s : State) (p : Nat) (v : DpSt) : State :=
  { s with d2d := { s.d2d with dps := Tab.set defDp s.d2d.dps p v } }

/-- Entries a GUAR packet holds in the ejection stage or its context; what has gone on to an egress buffer is
counted there. -/
def Reasm.guarEnts (r : Reasm) (die : Nat) : Nat :=
  if (r.slots.headD closedSlot).ddie = die then r.ents else r.ents - r.slots.length

/-- GUAR entries in use of one flow (R101). -/
def State.guarUsed (s : State) (st resid : Nat) : Nat :=
  (((s.reasm st).filter (fun r => r.store == 2 && r.resid == resid)).map (fun r => r.guarEnts s.die)).sum
    + (match stopDp st with
       | none => 0
       | some p => ((s.dp p).egress.filter (fun e => e.slot.cls == clsGUAR && e.slot.resid == resid)).length)
    + ((List.range 4).map (fun p =>
        (((s.inbox st p).filter (fun d => d.store == 2 && d.resid == resid)).map (·.ents)).sum)).sum

/-- A GUAR slot at its target: one entry of its flow, or GUAR_OVERRUN (R101). -/
def State.ejectGuar (s : State) (st : Nat) (x : Slot) : EjRes × State :=
  let resid := x.resid
  match (s.guarMarks st).find? (fun m => m.src == x.src) with
  | some m =>
    let ms := (s.guarMarks st).filter (fun m => m.src != x.src)
    let ms := if m.seen + 1 < m.plen + 1 then ms ++ [{ m with seen := m.seen + 1 }] else ms
    (.absorb, (s.setGuarMarks st ms).count (stopReg st sGUAR_CNT) 0 32 1)
  | none =>
    let own := s.guarOwn st resid
    if s.guarUsed st resid < own then
      let rs := s.reasm st
      let rs := if rs.any (fun r => r.store == 2 && r.src == x.src) then
          rs.map (fun r => if r.store = 2 ∧ r.src = x.src then { r with ents := r.ents + 1 } else r)
        else rs ++ [{ src := x.src, store := 2, ents := 1, plen := x.plen, slots := [],
                      born := s.frame.rcs, resid := resid, grnt := false, ahead := false }]
      (.take 2, s.setReasm st rs)
    else
      let mine := (s.reasm st).find? (fun r => r.store == 2 && r.src == x.src)
      let seen := 1 + (match mine with | some r => r.ents | none => 0)
      let s := s.setReasm st ((s.reasm st).filter (fun r => !(r.store == 2 && r.src == x.src)))
      let s := if seen < x.plen + 1 then
          s.setGuarMarks st (s.guarMarks st ++
            [{ src := x.src, seen := seen, plen := x.plen, born := s.frame.rcs }]) else s
      (.absorb, (s.count (stopReg st sGUAR_CNT) 0 32 1).raise st
        (recGen x.dport sevCONTAINED caGUAR_OVERRUN (some x.part) (specGen 0 0 0 0 resid 0 0)))

/-- From DRAINED until ON again, a stop's absent-destination handler takes its slots (R364). -/
def State.stopAbsent (s : State) (st : Nat) : Bool := 2 ≤ s.domState (ngOf st)

/-- The handler's answer: one of 32 entries, or dropped and counted (R364). -/
def State.absAnswer (s : State) (st : Nat) (x : Slot) : State :=
  if !(opPosted x.opc) && (x.cls == clsGUAR || x.cls == clsMGMT || x.cls == clsRSP) then s
  else
    let q := Tab.get (fun _ => []) s.pw.absQ st
    if q.length < 32 then
      let p := mkRsp s.die st x (if opPosted x.opc then opPWACK else opCMP) stFENCED false 0 0 [0]
      { s with pw := { s.pw with absQ := Tab.set (fun _ => []) s.pw.absQ st (q ++ [p]) } }
    else s.count (stopReg st sABS_CNT) 16 8 1

/-- A slot for ports 0 to 2 of a stop that is off, or for a fenced port (R364, Table 13.6). -/
def State.absentSlot (s : State) (st : Nat) (x : Slot) : State :=
  let a := stopReg st sABS_CNT
  let s := s.count a 0 8 1
  if x.cls = clsRSP ∨ x.cls = clsGUAR then s.count a 8 8 1
  else if x.pseq = 0 then
    if s.stopAbsent st then s.absAnswer st x else s.refuseWith st x stFENCED
  else s

/-! ### Egress of a die-to-die port stop -/

/-- A set of modules without module `m`, and with it. -/
def modDrop (set m : Nat) : Nat := set - (if bitOf (BitVec.ofNat 4 set) m then 2 ^ m else 0)
def modAdd (set m : Nat) : Nat := modDrop set m + 2 ^ m

/-- Egress local part of a credit class, in slots (Table 14.4). -/
def egLocal (c : Nat) : Nat := if c = 5 then 32 else if c = 7 then 16 else 64

/-- Entries of a class's local part in use or allocated. -/
def DpSt.localUsed (d : DpSt) (c : Nat) : Nat :=
  (d.egress.filter (fun e => e.ccls == c && !e.transit)).length
    + ((d.egAlloc.filter (fun a => a.2.1 == c)).map (fun a => a.2.2)).sum

/-- Admission to a port stop's egress (Table 14.5). Store 4 is the egress buffer. -/
def State.egressAdmit (s : State) (st : Nat) (x : Slot) (free : Nat) (again : Bool) : EjRes × Nat × State :=
  match stopDp st with
  | none => (.absorb, free, s)
  | some p =>
    let d := s.dp p
    let c := x.ccls
    if x.cls = clsMGMT then (.take 4, free, s)
    else if x.cls = clsGUAR then
      let (r, s) := s.ejectGuar st x
      (r, free, s)
    else if c = 8 then
      if d.rsvEg.any (fun r => r.src == x.reqKey) then (.take 4, free, s)
      else (.absorb, free, s.count (dpReg p (dCNT + 12)) 0 32 1)
    else if x.sdie ≠ s.die then (.take 4, free, s)
    else if c = 5 then
      if d.localUsed 5 < egLocal 5 then (.take 4, free, s)
      else if x.opc = opGRANT then (.absorb, free, s.count (dpReg p (dCNT + 16)) 0 32 1)
      else if s.fld (stopReg st sDEFL_CTRL) 0 2 ≤ x.defl || x.stype == stESC then
        (.handoff, free, (s.refused st x).deflCnt st 2)
      else (.deflect, free, s.deflCnt st 1)
    else
      match d.egAlloc.find? (fun a => a.1 == x.src) with
      | some _ => (.take 4, free, s)
      | none =>
        let room := egLocal c - d.localUsed c
        let (r, _, s') := s.ejectReq st x room true again
        if r = .take 1 then
          let s' := s'.setReasm st ((s'.reasm st).filter (fun q => !(q.store == 1 && q.src == x.src)))
          (.take 4, free, s'.setDp p { d with egAlloc := d.egAlloc ++ [(x.src, c, x.plen + 1)] })
        else (r, free, if r = .deflect ∨ r = .handoff then s'.count (dpReg p (dCNT + 8)) 0 32 1 else s')

/-- A slot enters the egress buffer (R379, R381), unless it failed its check: its allocated entry is then free. -/
def State.egressStore (s : State) (st : Nat) (x : Slot) (lring : Nat) (ok : Bool) : State :=
  match stopDp st with
  | none => s
  | some p =>
    let d := s.dp p
    let alloc := d.egAlloc.filterMap (fun a =>
      if a.1 = x.src ∧ x.sdie = s.die ∧ x.cls ≠ clsRSP then
        (if a.2.2 ≤ 1 then none else some (a.1, a.2.1, a.2.2 - 1)) else some a)
    s.setDp p { d with
      egAlloc := alloc
      egress := if ok then
          d.egress ++ [{ ccls := x.ccls, transit := x.sdie != s.die, lring := lring, slot := x }]
        else d.egress }

/-- Insert a slot by PSEQ. -/
def insertSlot (x : Slot) : List Slot → List Slot
  | [] => [x]
  | y :: ys => if x.pseq < y.pseq then x :: y :: ys else y :: insertSlot x ys

/-- A slot leaves the ejection stage for the egress buffer, or is discarded there (`ok` false). A GUAR packet's context
notes it, and goes with its last slot (R101, R384). -/
def State.egressTake (s : State) (st : Nat) (x : Slot) (lring store : Nat) (ok : Bool) : State :=
  let s := s.egressStore st x lring ok
  if store = 2 then
    s.setReasm st ((s.reasm st).filterMap (fun r =>
      if r.store = 2 ∧ r.src = x.src then
        (if r.slots.length = r.plen then none else some { r with slots := insertSlot x r.slots })
      else some r))
  else s

/-- A slot for a port that Table 1.2 marks "none" (R14). -/
def State.noPortSlot (s : State) (st : Nat) (x : Slot) : State :=
  if x.pseq = 0 then
    let s := (s.refuseWith st x stDECERR).count (stopReg st sDEC_CNT) 0 8 1
    s.raise st (recGen x.dport sevCONTAINED caDEC_MISS (some x.part)
      (specGen x.addr x.opc x.tag (peerOf x.sdie x.sstop x.sport) 0 0 0))
  else s

/-- The fate of an occupied slot that arrives at its target stop (Table 3.1). `again`: a slot of its packet was handed
off in this rc. -/
def State.eject (s : State) (st : Nat) (x : Slot) (free : Nat) (again : Bool) : EjRes × Nat × State :=
  if x.ddie ≠ s.die then s.egressAdmit st x free again
  else if x.cls = clsMGMT then (.take 3, free, s)
  else if x.dport ≤ 2 && s.stopAbsent st then (.absorb, free, s.absentSlot st x)
  else if x.dport < 2 && portGen st x.dport == 0 then (.absorb, free, s.noPortSlot st x)
  else if x.dport < 2 && (s.port st x.dport).state == 3 then (.absorb, free, s.absentSlot st x)
  else if x.cls = clsRSP then (.take 0, free, s)
  else if x.cls = clsGUAR then
    let (r, s) := s.ejectGuar st x
    (r, free, s)
  else s.ejectReq st x free false again

/-! ### Reassembly -/

/-- Pass on every successor whose turn has come, each behind its predecessor, in OSEQ order (R189). -/
def releaseOrder (fuel : Nat) (st : Nat) (key : Nat) (s : State) : State :=
  match fuel with
  | 0 => s
  | fuel + 1 =>
    let e := Tab.get (fun _ => 0) s.ni.oexp key
    match (List.range 4).find? (fun p => (s.inbox st p).any (fun d =>
        d.early && oexpKey st (Pkt.head d.slots) == key && (Pkt.head d.slots).oseq == e)) with
    | none => s
    | some p =>
      let now (d : Deliv) : Bool := d.early && oexpKey st (Pkt.head d.slots) == key && (Pkt.head d.slots).oseq == e
      let ds := s.inbox st p
      let s := s.setInbox st p (ds.filter (fun d => !now d) ++ (ds.filter now).map (fun d => { d with early := false }))
      releaseOrder fuel st key
        { s with ni := { s.ni with oexp := Tab.set (fun _ => 0) s.ni.oexp key ((e + 1) % 64) } }

/-- A management packet of one slot from port 3 of a stop. The manual gives its content no encoding (log entry 71). -/
def State.mgmtPkt (s : State) (st dstop opc : Nat) : Pkt :=
  mkPkt { ddie := s.die, dstop := dstop, dport := 3, sdie := s.die, sstop := st, sport := 3, cls := clsMGMT, opc := opc }
    [(0, seqExt 0 0 0)]

/-- A row 0 stop notes an acknowledgement of its column. With all 12 it sends one to stop 8 (R105). -/
def State.ackNoted (s : State) (st row : Nat) : State :=
  let rows := if (s.merged st).contains row then s.merged st else row :: s.merged st
  if rows.length < 12 then s.setMerged st rows
  else
    let s := s.setMerged st []
    if st = hearthStop then s else s.offer st 3 (s.mgmtPkt st hearthStop opMG_ACK) (some 0) false

/-- A stop acknowledges a broadcast: to the row 0 stop of its column (R105). -/
def State.ackUp (s : State) (st : Nat) : State :=
  if stopY st = 0 then s.ackNoted st 0
  else s.offer st 3 (s.mgmtPkt st (stopX st) opMG_ACK) (some 0) false

/-- A row 0 stop sends a lap broadcast down its column ring, on track A southward (R105, log entry 143). -/
def State.lapDown (s : State) (st : Nat) (slots : List Slot) : State :=
  let own (x : Slot) : Slot := Slot.seal { x with hdr := withField (withField x.hdr 18 8 st) 32 8 st }
  (s.setMerged st []).offerOn st 3 (slots.map own) (some 0) false (.lap 4)

/-- Hearth offers a fabric-wide broadcast: a lap on a row 0 ring, eastward on track A, and the lap of stop 8's own
column (R105, log entry 143). -/
def State.broadcast (s : State) : State :=
  let p := s.mgmtPkt hearthStop hearthStop opMG_LAP
  (s.offerOn hearthStop 3 p (some 0) false (.lap 0)).lapDown hearthStop p

/-- What a management packet starts as it enters a port 3 buffer: the lap of a row 0 stop's column, or the merging of
an acknowledgement from it (R105). The copy is written two rc after its arrival, so the lap may go in the third. -/
def State.relay (s : State) (st : Nat) (h : Slot) (slots : List Slot) : State :=
  if stopY st ≠ 0 then s
  else if h.opc = opMG_LAP ∧ h.sstop = hearthStop ∧ st ≠ hearthStop then s.lapDown st slots
  else if h.opc = opMG_ACK ∧ stopX h.sstop = stopX st ∧ stopY h.sstop ≠ 0 then s.ackNoted st (stopY h.sstop)
  else s

/-- A port 3 buffer gives up its oldest management packet with an opcode, as the unit that it is for acts on it. -/
def State.mgmtTake (s : State) (st opc : Nat) : State :=
  match (s.mgmt st).find? (fun p => (Pkt.head p).opc == opc) with
  | some p => s.setMgmt st ((s.mgmt st).erase p)
  | none => s

/-- The first LOCK request to an unlocked port locks it for its source port (R197); one that is to be answered LOCKED
takes none (R198). -/
def State.takeLock (s : State) (st : Nat) (h : Slot) : State :=
  if h.dport < 2 ∧ h.attrBit attrLock ∧ h.opc ≠ opUNLOCK then
    let v := s.port st h.dport
    if v.lockedBy.isNone && !v.brokenFor.contains { h.src with tag := 0 } then
      s.setPort st h.dport { v with
        lockedBy := some { h.src with tag := 0 }, lockDue := s.cdc.hct + s.fld (stopReg st sTXN_CTRL) 0 16 }
    else s
  else s

/-- A whole packet passes to its destination port (R51). -/
def State.deliver (s : State) (st : Nat) (r : Reasm) (slots : List Slot) : State :=
  let h := Pkt.head slots
  if r.store = 0 then s.setRspIn st (s.rspIn st ++ [slots])
  else if r.store = 3 then ((s.setMgmt st (s.mgmt st ++ [slots])).noticeUp st).relay st h slots
  else if h.dport = 2 ∧ !(opENQ ≤ h.opc && h.opc ≤ opSTEAL && h.opc != opNOTIFY) then
    ((s.refuseWith st (slots.getLastD h) stPROTERR).count (stopReg st (sQE_CNT + 16)) 0 32 1).raise st
      (recGen 2 sevCONTAINED caQPROTO (some h.part)
        (specGen h.addr h.opc h.tag (peerOf h.sdie h.sstop h.sport) 0 0 0))
  else
    let s := s.takeLock st h
    let key := oexpKey st h
    let d : Deliv :=
      { slots := slots, store := r.store, ents := r.ents, resid := r.resid, early := false,
        arr := s.sampleNow st h, tick := s.cdc.us }
    if h.hasOseq then
      let e := if h.sstart then h.oseq else Tab.get (fun _ => 0) s.ni.oexp key
      if h.oseq = e then
        let s := { s with ni := { s.ni with oexp := Tab.set (fun _ => 0) s.ni.oexp key ((e + 1) % 64) } }
        releaseOrder 64 st key (s.setInbox st h.dport (s.inbox st h.dport ++ [d]))
      else s.setInbox st h.dport (s.inbox st h.dport ++ [{ d with early := true }])
    else s.setInbox st h.dport (s.inbox st h.dport ++ [d])

/-- A fault of reassembly: PROTERR (R51, R535). -/
def State.reasmBad (s : State) (st : Nat) (x : Slot) : State :=
  s.raise st (recGen x.dport sevCONTAINED caPROTERR (some x.part)
    (specGen 0 0 x.tag (peerOf x.sdie x.sstop x.sport) 0 0 (x.pseq + 256 * x.plen)))

/-- A checked slot is written into the ejection buffer (R51, R55). `born` is the rc of its capture. -/
def State.storeSlot (s : State) (st : Nat) (x : Slot) (store born : Nat) : State :=
  if x.plen < x.pseq then s.reasmBad st x
  else
    let rs := s.reasm st
    match rs.find? (fun r => r.store == store && r.src == x.src) with
    | some r =>
      if r.slots.any (fun y => y.pseq == x.pseq) then s.reasmBad st x
      else
        let slots := insertSlot x r.slots
        let others := rs.filter (fun q => !(q.store == store && q.src == x.src))
        if slots.length = r.plen + 1 then (s.setReasm st others).deliver st r slots
        else s.setReasm st (others ++ [{ r with slots := slots }])
    | none =>
      if store = 0 ∨ store = 3 then
        let r : Reasm := { src := x.src, store := store, ents := x.plen + 1, plen := x.plen,
                           slots := [x], born := born, resid := 0, grnt := false, ahead := false }
        if x.plen = 0 then s.deliver st r [x] else s.setReasm st (rs ++ [r])
      else s

/-- A slot taken off the ring, or looped back, fails its CRC: it is discarded, and its header tells nothing (R52, log
entry 138). A looped-back packet rode no ring, so no ring counts it. -/
def State.crcLost (s : State) (st l : Nat) (x : Slot) : State :=
  (if l < 8 then s.count (stopReg st (sRING_CNT + 4 * l)) 0 12 1 else s).raise st (recHdr 3 sevCONTAINED caRING_CRC x.hdr)

/-- The slot leaves the die: its place is an egress buffer. -/
def State.outbound (s : State) (e : EjEnt) : Bool := e.store == 4 || (e.store == 2 && e.slot.ddie != s.die)

/-- The CRC check of the ejection stage (R52). A slot for egress that fails gives its allocated entry back. -/
def State.ejCheck (s : State) (st : Nat) (e : EjEnt) : Option State :=
  if e.slot.crcOk then none
  else
    let s := s.crcLost st e.lring e.slot
    some (if s.outbound e then s.egressTake st e.slot e.lring e.store false else s)

/-- A checked slot goes to its store (R51, R55, R381). -/
def State.ejWrite (s : State) (st : Nat) (e : EjEnt) : State :=
  if s.outbound e then s.egressTake st e.slot e.lring e.store true
  else s.storeSlot st e.slot e.store (s.frame.rcs + 1 - e.age)

/-- One entry of the ejection stage at the end of an rc: `age` counts the rc since and with its capture. It is checked in
the second and written at the end of the third (R52, R55); a looped-back packet takes two rc in all (R39). -/
def State.ejStep (s : State) (st : Nat) (e : EjEnt) : Option EjEnt × State :=
  let e := { e with age := e.age + 1 }
  if e.age = 2 then
    match s.ejCheck st e with
    | some t => (none, t)
    | none => if e.lring = 8 then (none, s.ejWrite st e) else (some e, s)
  else if 3 ≤ e.age then (none, s.ejWrite st e)
  else (some e, s)

/-- The ejection stage of a stop moves on by one rc. -/
def State.ejAdvance (s : State) (st : Nat) : State :=
  let es := s.ej st
  let (left, s) := es.foldl (fun acc e =>
    let (keep, t) := acc.2.ejStep st e
    (match keep with | some k => (acc.1 ++ [k], t) | none => (acc.1, t)))
    (([] : List EjEnt), s.setEj st [])
  s.setEj st (left ++ s.ej st)

/-- GUAR marks older than REASM_LIMIT rc are dropped (R101). -/
def State.ageGuarMarks (s : State) (st : Nat) : State :=
  let ms := s.guarMarks st
  if ms.isEmpty then s
  else s.setGuarMarks st (ms.filter (fun m =>
    s.frame.rcs - m.born < s.fld (stopReg st sRING_CTRL) 0 20))

end Sys2Proof.Machine
end

