-- ==== Sys2Proof/Machine/Ring.lean ====
section
/-! DEFINITION. What a stop does with the slots of one rc: link upsets, ejection (R42, R50), origin
work (R46, R53, R54), the turn gates (R43, R63, R73, R100, R104), escape checks (R75), and
injection (R41, R44, R49, R70, R73, R99, R104). -/
namespace Sys2Proof.Machine
open Sys2Proof

/-! ### Links -/

/-- A slot as it arrives at coordinate `p` of ring `r`. -/
def linkIn (us : List Upset) (r p : Nat) (x : Slot) : Slot :=
  (us.filter (fun u => u.ring.val == r && u.pos == p)).foldl (fun y u => u.on y) x

/-- A slot of a row register that the turn gate resolves in this rc (R42 step 3). -/
def State.turnPending (s : State) (st l : Nat) : Bool :=
  let x := s.slot (ringAt st l) (stopX st)
  decide (l < 4) && x.occ &&
    (match s.target x with
     | some t => stopX t == stopX st && stopY t != stopY st
     | none => false)

/-! ### Ejection -/

/-- A lap broadcast at a stop that is not its source (R105). -/
def lapCopy (st : Nat) (x : Slot) : Bool :=
  x.cls == clsMGMT && x.opc == opMG_LAP && x.sstop == x.dstop && x.sstop != st

/-- Request-store entries free for admission in this rc: those free at its start, `base`, less what it has admitted
since; a granted re-send takes reserved ones (R50, R69). -/
def State.reqFree (s base : State) (st : Nat) : Nat :=
  128 - base.reqUsed st
    - (((s.reasm st).filter (fun r => r.store == 1 && r.born == s.frame.rcs && !r.grnt)).map (·.ents)).sum

/-- A stop takes an occupied slot at its target, or lets it pass (R42 steps 1 and 4, R52, R65 to R67,
R105). What is left of the slot is answered, and whether it was handed off. `again` names the packets of which a slot
was handed off in this rc. -/
def ejectAt (base : State) (again : List Src) (st l : Nat) (x : Slot) (s : State) : Slot × Bool × State :=
  if !x.occ then (x, false, s)
  else if lapCopy st x then
    (x, false, s.setEj st (s.ej st ++ [{ age := 0, lring := l, slot := x, store := 3 }]))
  else if s.target x != some st then (x, false, s)
  else if x.cls = clsMGMT ∧ x.opc = opMG_LAP then (x.emptied, false, if x.crcOk then s else s.crcLost st l x)
  else
    let s0 := s.maxDefl st x.defl
    match s0.eject st x (s0.reqFree base st) (again.contains x.src) with
    | (.take k, _, s) =>
      (x.emptied, false,
        (s.setEj st (s.ej st ++ [{ age := 0, lring := l, slot := x, store := k }])).ev st 0x05 l 0 x.hdr)
    | (.absorb, _, s) => (x.emptied, false, (if x.crcOk then s else s0.crcLost st l x).ev st 0x05 l 0 x.hdr)
    | (.handoff, _, s) =>
      (x.emptied, true, ((if x.crcOk then s else s0.crcLost st l x).ev st 0x05 l 0 x.hdr).ev st 0x08 l 0 x.hdr)
    | (.deflect, _, s) =>
      (x.deflected, false, (if x.defl = 15 then s.raiseFlag (stopReg st sDEFL_STAT) 4 else s).ev st 0x08 l 0 x.hdr)

/-- Descending DEFL, and in the order given among equals (R43, R50). -/
def insDefl (e : Nat × Slot) : List (Nat × Slot) → List (Nat × Slot)
  | [] => [e]
  | h :: t => if h.2.defl < e.2.defl then e :: h :: t else h :: insDefl e t

def byDefl (l : List (Nat × Slot)) : List (Nat × Slot) := l.foldl (fun acc e => insDefl e acc) []

/-- Ejection over the slots that arrive at a stop, local ring and slot; what is left of each is
answered. -/
def ejectAll (base : State) (st : Nat) (xs : List (Nat × Slot)) (s : State) : List (Nat × Slot) × State :=
  let (ys, _, s) := (byDefl xs).foldl (fun acc e =>
    let (ys, off, s) := acc
    let (y, gone, s) := ejectAt base off st e.1 e.2 s
    (ys ++ [(e.1, y)], if gone then e.2.src :: off else off, s)) (([] : List (Nat × Slot)), ([] : List Src), s)
  (ys, s)

/-! ### Origin work -/

/-- The ring's bit in TEMPER_BLK (R451). -/
def State.ringBlocked (s : State) (r : Nat) : Bool := s.flag (gTEMPER_BLK + 4 * (r / 32)) (r % 32)

/-- The active stamping entry of a frame position (R45). -/
def State.stampEntry (s : State) (r p : Nat) : Word32 :=
  s.reg (stampReg r (s.fld (ringReg r rSTAMP_STAT) 0 1) p)

/-- The entry in force at an origin: closed before the strobe (R84), on a blocked ring (R451), and on a die that has
failed (R422); STYPE and RESID. -/
def State.originEntry (s : State) (r : Nat) : Nat × Nat :=
  if !s.frame.running || s.fabState == fabFAILED || s.ringBlocked r then (stBE, 0x3FF)
  else (fieldOf (s.stampEntry r s.frame.fpos) 0 3, fieldOf (s.stampEntry r s.frame.fpos) 4 10)

/-- A closed entry (R46, Table 4.2). -/
def closedEntry (e : Nat × Nat) : Bool := e.2 == 0x3FF && e.1 != stGUAR

/-- The hygiene test of R53, CRC apart. -/
def State.unclean (s : State) (x : Slot) : Bool :=
  decide (5 ≤ x.stype)
    || (x.occ && decide (191 < x.dstop) && x.ddie == s.die)
    || (x.occ && x.ddie != s.die
        && !s.reachable x.ddie (if x.cls = clsRSP then x.sstop else x.dstop) (x.cls == clsRSP))
    || (!x.isEmpty && !x.occ)

/-- The origin's hygiene checks (R53) and stamping (R46, R54). The old state gives the domain states
and routes of the rc. -/
def originWork (r st l : Nat) (x : Slot) (s : State) : Slot × State :=
  let a := stopReg st (sRING_CNT + 4 * l)
  if !x.crcOk then
    (closedSlot, (s.count a 0 12 1).raise st (recHdr 3 sevCONTAINED caRING_CRC x.hdr))
  else if s.unclean x then
    (closedSlot, (s.count a 12 8 1).raise st (recHdr 3 sevCONTAINED caRING_HYGIENE x.hdr))
  else
    let e := s.originEntry r
    if x.isEmpty then (emptySlot e.1 e.2, s)
    else if x.stype = stGUAR then (x, s)
    else if closedEntry e then (x.stamped (x.stype, 0x3FF), s)
    else if e.1 = x.stype then (x.stamped e, s)
    else (x, (s.count a 20 8 1).raise st (recPkt sevCONTAINED caSTAMP_MISS x.part r s.frame.fpos))

/-- Origin work where the stop is the ring's origin. -/
def atOrigin (r st l : Nat) (x : Slot) (s : State) : Slot × State :=
  if originStop r = st then originWork r st l x s else (x, s)

/-! ### Turn gates -/

/-- This stop is the owning crossing of column ring `r` in the present epoch (R72). -/
def State.ownsCol (s : State) (r st : Nat) : Bool :=
  ringDist r (stopY st) == (12 - s.frame.epoch % 12) % 12

/-- The owning row ring of the present epoch, as a local ring (R72). -/
def State.ownerRow (s : State) : Nat := (s.frame.epoch / 12) % 4

/-- A turn-pending packet that may escape at this gate (Table 3.2). -/
def State.escClaim (s : State) (r st l : Nat) (x : Slot) : Bool :=
  s.ownsCol r st && l == s.ownerRow && (decide (2 ≤ x.defl) || x.stype == stESC)

/-- The TURN entry that names a flow's column ring at this stop (Table 2.7, R97), in the bank of the frame in which the
slot of row ring `r` passed its origin: it reached the row register in the rc before (R43, R438). -/
def State.turnsTo (s : State) (st r resid l : Nat) : Bool :=
  (s.flowAt (ringDist r (stopX st) + 1) st 1 resid (fun a => s.fld a 13 3 == l)).isSome

/-- A turn-pending packet may take column slot `y` of local ring `l'` (R43, R44, R73, R100). -/
def State.mayTurn (s : State) (st l' : Nat) (y : Slot) (l : Nat) (x : Slot) : Bool :=
  if !y.isEmpty then false
  else if x.cls = clsGUAR then
    y.stype == stGUAR && y.resid == x.resid && s.turnsTo st (ringAt st l) x.resid l'
  else
    (match s.target x with
     | some t => 2 + colDir (stopY st) (stopY t) == l' / 2
     | none => false) &&
    y.resid == 0 &&
    (y.stype == stBE || (y.stype == stESC && s.escClaim (ringAt st l') st l x))

/-- The turning packet that one column slot goes to, in the order of R43, written into it. The
claims that remain and the slot are answered. -/
def turnOne (st l' : Nat) (y : Slot) (claims : List (Nat × Slot)) (s : State) :
    Slot × List (Nat × Slot) × List (Nat × Slot) × State :=
  match claims.find? (fun c => s.mayTurn st l' y c.1 c.2) with
  | none => (y, claims, [], s)
  | some (l, x) =>
    let s := s.ev st 0x06 l 0 x.hdr
    let s := if y.stype = stESC then (s.deflCnt st 4).ev st 0x09 l' 0 x.hdr else s
    (y.turnInto x, claims.filter (fun c => c.1 != l), [(l, x.emptied)], s)

/-- What becomes of a turn-pending packet that no column slot takes (R63, R100). -/
def gateMiss (st l : Nat) (x : Slot) (s : State) : Slot × State :=
  if x.cls = clsGUAR then
    (x.emptied, (s.count (stopReg st (sGUAR_CNT + 4)) 0 32 1).raise st
      (recPkt sevCONTAINED caGUAR_ALIGN x.part x.resid (s.frame.fpos + 65536 * ringAt st l)))
  else
    let s := (s.deflCnt st 0).ev st 0x07 l 0 x.hdr
    (x.deflected, if x.defl = 15 then s.raiseFlag (stopReg st sDEFL_STAT) 4 else s)

/-- The gate's first look at a turn-pending slot: a bad CRC or a MGMT packet goes no further (R43,
R104). The claims, and the row slots already settled. -/
def gateScreen (st : Nat) (xs : List (Nat × Slot)) (s : State) :
    List (Nat × Slot) × List (Nat × Slot) × State :=
  xs.foldl (fun acc e =>
    let (claims, done, s) := acc
    let (l, x) := e
    let s := s.maxDefl st x.defl
    if !x.crcOk then
      (claims, done ++ [(l, x.emptied)],
        (s.count (stopReg st (sRING_CNT + 4 * l)) 0 12 1).raise st
          (recHdr 3 sevCONTAINED caRING_CRC x.hdr))
    else if x.cls = clsMGMT then
      (claims, done ++ [(l, x.emptied)],
        s.raise st (recGen 3 sevCONTAINED caMGMT_ROUTE (some x.part)
          (specGen x.addr x.opc x.tag (peerOf x.sdie x.sstop x.sport) (ringAt st l) 0 0)))
    else (claims ++ [(l, x)], done, s)) ([], [], s)

/-- ESC_CONFLICT at a gate (R75): an occupied ESC slot meets an eligible claimant in an owned
epoch. -/
def escCheck (st l' : Nat) (y : Slot) (claims : List (Nat × Slot)) (s : State) : State :=
  let r := ringAt st l'
  if y.stype != stESC || s.fld gFAB_STATE 0 4 == 7 then s
  else
    let s := { s with ring := { s.ring with
      escSeen := Tab.set (fun _ => false) s.ring.escSeen (st * 2 + (l' / 2 - 2)) true } }
    if y.occ && claims.any (fun c => s.escClaim r st c.1 c.2 && c.2.cls != clsGUAR &&
        (match s.target c.2 with
         | some t => 2 + colDir (stopY st) (stopY t) == l' / 2
         | none => false)) then
      ((s.raiseFlag (stopReg st sDEFL_STAT) 6).deflCnt st 7).raise st
        (recIdx sevCONTAINED caESC_CONFLICT r s.frame.epoch)
    else s

/-- The turn gates of a stop: the column slots of local rings 4 to 7, the row slots sent on, and the
state. -/
def turnGates (st : Nat) (pend : List (Nat × Slot)) (cols : List Slot) (s : State) :
    List Slot × List (Nat × Slot) × State :=
  let (claims, done, s) := gateScreen st pend s
  let claims := byDefl claims
  let s := (cols.zipIdx).foldl (fun s e => escCheck st (4 + e.2) e.1 claims s) s
  let (cols, claims, done, s) := (cols.zipIdx).foldl (fun acc e =>
    let (cs, claims, done, s) := acc
    let (y, claims, sent, s) := turnOne st (4 + e.2) e.1 claims s
    (cs ++ [y], claims, done ++ sent, s)) (([] : List Slot), claims, done, s)
  let (done, s) := claims.foldl (fun acc c =>
    let (y, s) := gateMiss st c.1 c.2 acc.2
    (acc.1 ++ [(c.1, y)], s)) (done, s)
  (cols, done, s)

/-! ### Injection -/

/-- The slot of a packet that goes in next. -/
def QPkt.slotNow (p : QPkt) : Slot := p.slots.getD p.next closedSlot

/-- SVC of a sampled response, in every slot (R497). -/
def withSvc (svc : Nat) (p : Pkt) : Pkt := p.map (fun x => { x with ext := withField x.ext 46 18 svc })

/-- A response to a sampled request takes its SVC as its first slot goes in (R497). -/
def State.stampSvc (s : State) (st : Nat) (p : QPkt) : QPkt :=
  let h := Pkt.head p.slots
  if p.next = 0 ∧ h.cls = clsRSP ∧ h.attrBit attrSmpl then
    let now := if h.ddie = s.die then s.frame.rcnt else fieldOf (s.localTs st).count 2 20
    let svc := (now + 2 ^ 20 - fieldOf h.ext 26 20) % 2 ^ 20
    { p with slots := withSvc (min svc 0x3FFFF) p.slots }
  else p

/-- The transaction layer notes an injected slot: how many of the copy are in, when the last went
in (R68), and the first injection of a sampled transaction (R498). -/
def State.noteInjected (s : State) (st : Nat) (p : QPkt) : State :=
  let h := Pkt.head p.slots
  if h.cls = clsRSP then s
  else
    s.setTxns st p.port ((s.txns st p.port).map fun t =>
      if t.tag = h.tag then
        { t with
          stamps := if t.stamps.length = 2 then t.stamps ++ [s.stamp st] else t.stamps
          pieces := t.pieces.map fun c =>
            if c.addr = h.addr ∧ c.die = h.ddie ∧ c.stop = h.dstop then
              { c with injected := p.next + 1, lastInj := s.frame.rcs } else c }
      else t)

/-- The head packet of queue `q` puts its next slot into ring slot `y` of local ring `l`. `d` is the
direction, 4 for none of the scheduler's. -/
def injectOne (st d q l : Nat) (y : Slot) (s : State) : Slot × State :=
  match s.injq st q with
  | [] => (y, s)
  | p :: rest =>
    let p := s.stampSvc st p
    let x := y.fill p.slotNow
    let s := if p.next = 0 then (if d < 4 then s.firstIn st d q p else s.chargeFirst st q p) else s
    let s := (s.noteInjected st p).ev st 0x04 l p.port x.hdr
    let last := p.slots.length ≤ p.next + 1
    let s := s.setInjq st q (if last then rest else { p with next := p.next + 1 } :: rest)
    let s := if d < 4 then
        s.setDir st d { s.dir st d with hold := if last then none else some q } else s
    (x, s)

/-- Frame position of the origin pass `lag` rc ago (R45), in the frame in which it fell. -/
def State.passPos (s : State) (lag : Nat) : Nat :=
  if s.before lag then 48 * s.frame.flenPrev + s.frame.fpos - lag
  else s.frame.fpos - lag

/-- The entry of position `p` in the frame of that pass belongs to flow `resid` (R98, R438). -/
def State.runAt (s : State) (lag r resid p : Nat) : Bool :=
  let b := s.fld (ringReg r rSTAMP_STAT) 0 1
  let e := s.reg (stampReg r (if s.swapFrame 0 && s.before lag then 1 - b else b) p)
  let len := if s.before lag then 48 * s.frame.flenPrev else s.frameLen
  decide (p < len) && fieldOf e 0 3 == stGUAR && fieldOf e 4 10 == resid

/-- Entries of the flow's run from position `p` on, and before it: at most `n`. -/
def State.runFrom (s : State) (lag r resid : Nat) : Nat → Nat → Nat
  | 0, _ => 0
  | n + 1, p => if s.runAt lag r resid p then 1 + State.runFrom s lag r resid n (p + 1) else 0

def State.runBack (s : State) (lag r resid : Nat) : Nat → Nat → Nat
  | 0, _ => 0
  | n + 1, p =>
    match p with
    | 0 => 0
    | m + 1 => if s.runAt lag r resid m then 1 + State.runBack s lag r resid n m else 0

/-- A GUAR packet into its flow's run: slot PSEQ = k into slot k of a run that holds the whole packet, by the INJ entry
of the run's own frame (R44, R99, R438). -/
def injectGuar (st l : Nat) (y : Slot) (s : State) : Slot × State :=
  if !y.isEmpty || y.stype != stGUAR then (y, s)
  else
    let r := ringAt st l
    let lag := ringDist r (ringCoord r st)
    match s.flowAt lag st 0 y.resid (fun a => s.fld a 13 3 == l) with
    | none => (y, s)
    | some a =>
      let q := 8 * s.fld a 16 6 + clsGUAR
      match s.injq st q with
      | [] => (y, s)
      | p :: _ =>
        let h := Pkt.head p.slots
        let pos := s.passPos lag
        if p.port = s.fld a 22 2 ∧ h.ddie * 256 + h.dstop = s.fld (a + 4) 8 12 ∧ s.target h ≠ some st
            ∧ s.runBack lag r y.resid 64 pos = p.next
            ∧ p.slots.length ≤ p.next + s.runFrom lag r y.resid 64 pos then
          injectOne st 4 q l y s
        else (y, s)

/-- A MGMT packet into a MGMT slot (R104): the head of queue 7, the MGMT queue of context 0, in its direction, or on the
ring its lap is placed on (R105, R112). -/
def injectMgmt (st l : Nat) (y : Slot) (s : State) : Slot × State :=
  if !y.isEmpty || y.stype != stMGMT || y.resid != 0 then (y, s)
  else
    match s.injq st clsMGMT with
    | [] => (y, s)
    | p :: _ =>
      let here := match p.mark with
        | .lap k => k == l
        | _ => s.dirOf st p.slots == l / 2
      if here then injectOne st 4 clsMGMT l y s else (y, s)

/-- A best-effort packet of class `cls` may fill slot `y` in direction `d` (R44, R73). -/
def State.mayInject (s : State) (st d l cls : Nat) (y : Slot) : Bool :=
  y.isEmpty && y.resid == 0 &&
    (y.stype == stBE ||
      (y.stype == stESC && cls != clsRSP && (s.dir st d).starved &&
        (decide (d < 2) || s.ownsCol (ringAt st l) st)))

/-- Count a starved injection into an ESC slot (R73). -/
def escFilled (st l : Nat) (y : Slot) (s : State) : State :=
  if y.stype = stESC then (s.deflCnt st 5).ev st 0x09 l 0 y.hdr else s

/-- The starvation counter counts the rc that ends as the `rc`-th of all, once (R70). -/
def State.starveTick (s : State) (st d rc : Nat) : State :=
  let v := s.dir st d
  if v.counted = rc then s else s.setDir st d { v with starve := v.starve + 1, counted := rc }

/-- The stop has injected a slot in a direction: its counter returns to 0 and it is starved no longer (R70). -/
def State.starveEnd (s : State) (st d rc : Nat) : State :=
  s.setDir st d { s.dir st d with starve := 0, starved := false, counted := rc }

/-- The scheduler's packet of direction `d` goes into the slots of its two tracks (R41, R49). `base` is the state at the
start of the rc. -/
def injectBE (base : State) (st d : Nat) (ys : Slot × Slot) (s : State) : (Slot × Slot) × Bool × State :=
  match s.select (base.credit st) st d with
  | (none, s) => (ys, false, s)
  | (some (q, p), s) =>
    let cls := (Pkt.head p.slots).cls
    let a := s.mayInject st d (2 * d) cls ys.1
    let b := s.mayInject st d (2 * d + 1) cls ys.2
    let two := decide (p.next + 2 ≤ p.slots.length)
    let putA (s : State) : Slot × State := injectOne st d q (2 * d) ys.1 (escFilled st (2 * d) ys.1 s)
    let putB (s : State) : Slot × State :=
      injectOne st d q (2 * d + 1) ys.2 (escFilled st (2 * d + 1) ys.2 s)
    if a && b then
      let dir := s.dir st d
      let s := s.setDir st d { dir with toggle := !dir.toggle }
      if two then
        if dir.toggle then
          let (yb, s) := putB s
          let (ya, s) := putA s
          ((ya, yb), true, s)
        else
          let (ya, s) := putA s
          let (yb, s) := putB s
          ((ya, yb), true, s)
      else if dir.toggle then
        let (yb, s) := putB s
        ((ys.1, yb), true, s)
      else
        let (ya, s) := putA s
        ((ya, ys.2), true, s)
    else if a then
      let (ya, s) := putA s
      ((ya, ys.2), true, s)
    else if b then
      let (yb, s) := putB s
      ((ys.1, yb), true, s)
    else (ys, false, s.starveTick st d (s.frame.rcs + 1))

/-- The absent-destination handler's oldest answer into an empty BE slot (R364). -/
def injectAbs (st d : Nat) (ys : Slot × Slot) (s : State) : (Slot × Slot) × Bool × State :=
  match Tab.get (fun _ => []) s.pw.absQ st with
  | [] => (ys, false, s)
  | p :: rest =>
    let ok (y : Slot) : Bool := y.isEmpty && y.stype == stBE && y.resid == 0
    let out : State := { s with pw := { s.pw with absQ := Tab.set (fun _ => []) s.pw.absQ st rest } }
    if s.dirOf st p != d then (ys, false, s)
    else if ok ys.1 then ((ys.1.fill (Pkt.head p), ys.2), true, out)
    else if ok ys.2 then ((ys.1, ys.2.fill (Pkt.head p)), true, out)
    else (ys, false, s)

/-- Everything a stop injects in one direction in an rc, with the starvation counter's return to 0
(R70). -/
def injectDir (base : State) (st d : Nat) (ys : Slot × Slot) (s : State) : (Slot × Slot) × State :=
  if !s.frame.running then (ys, s)
  else
    let (y0, s) := injectMgmt st (2 * d) ys.1 s
    let (y1, s) := injectMgmt st (2 * d + 1) ys.2 s
    if s.stopAbsent st then
      let (zs, _, s) := injectAbs st d (y0, y1) s
      (zs, if zs.1 != ys.1 || zs.2 != ys.2 then s.starveEnd st d (s.frame.rcs + 1) else s)
    else
      let (y0, s) := injectGuar st (2 * d) y0 s
      let (y1, s) := injectGuar st (2 * d + 1) y1 s
      let (zs, _, s) := injectBE base st d (y0, y1) s
      if zs.1 != ys.1 || zs.2 != ys.2 then
        (zs, s.starveEnd st d (s.frame.rcs + 1))
      else (zs, s)

/-- Heads of the GUAR queues whose packet is for its own stop (R39 case 4). -/
def State.guarHeads (s : State) (st : Nat) : List (Nat × QPkt) :=
  (s.queuesOf st).filterMap fun e =>
    match e.2 with
    | p :: _ => if e.1 % 8 = clsGUAR ∧ s.target (Pkt.head p.slots) = some st then some (e.1, p) else none
    | [] => none

/-- What a looped-back packet rides in place of a ring slot: a GWR one of its flow. -/
def QPkt.loopSlot (p : QPkt) : Slot :=
  match p.mark with
  | .flow r => emptySlot stGUAR r
  | _ => emptySlot stBE 0

/-- A packet for its own stop passes through the ejection buffer, one slot in an rc (R39 case 4). -/
def loopBack (base : State) (st : Nat) (s : State) : State :=
  if !s.frame.running || s.stopAbsent st then s
  else
    let hs := s.heads (base.credit st) st 4
    let order := [clsRSP, clsSNP, clsREQ, clsIO, clsMSG, clsBULK]
    match s.guarHeads st ++ order.filterMap (fun c => pickHead 63 c hs) with
    | [] => s
    | (q, p) :: _ =>
      let y := p.loopSlot
      let x := y.fill (s.stampSvc st p).slotNow
      let go (s : State) : State := (injectOne st 4 q 8 y s).2
      match s.eject st x (s.reqFree base st) false with
      | (.take k, _, t) =>
        let t := go t
        t.setEj st (t.ej st ++ [{ age := 0, lring := 8, slot := x, store := k }])
      | (.absorb, _, t) => go t
      | (.handoff, _, t) => go t
      | (.deflect, _, _) => s

end Sys2Proof.Machine
end

