-- ==== Sys2Proof/Machine/Perf.lean ====
section
/-! DEFINITION. Counting (R488 to R492): what each counter adds in an rc. -/
namespace Sys2Proof.Machine
open Sys2Proof

/-- Which fields of a filter set apply to an event: 0 none, 1 CLASS only, 2 every field
(Table 19.1). -/
def evFilter (c : Nat) : Nat :=
  if c ∈ [0x02, 0x04, 0x05, 0x06, 0x07, 0x08, 0x09] then 1
  else if c ∈ [0x10, 0x11, 0x12, 0x13, 0x14, 0x17, 0x20] then 2 else 0

/-- The event codes Table 19.1 lists. -/
def evListed (c : Nat) : Bool :=
  c ∈ [0x01, 0x02, 0x03, 0x04, 0x05, 0x06, 0x07, 0x08, 0x09, 0x10, 0x11, 0x12, 0x13, 0x14,
    0x15, 0x16, 0x17, 0x18, 0x20, 0x21, 0x22, 0x23, 0x30, 0x31, 0x32, 0x33]

/-- A header matches filter set k at a stop (R490). -/
def State.pmfMatch (s : State) (st k : Nat) (h : BitVec 160) : Bool :=
  let a := stopReg st (sPMF + 0x20 * k)
  let priv := s.fld a 0 2
  let page := fieldOf h 103 40
  bitOf (s.reg a) (2 + fieldOf h 42 3)
    && (priv == 0 || (priv == 1 && !bitOf h 143) || (priv == 2 && bitOf h 143))
    && ((peerOf (fieldOf h 28 4) (fieldOf h 32 8) (fieldOf h 40 2) ^^^ s.fld (a + 4) 0 14)
        &&& s.fld (a + 4) 16 14) == 0
    && ((fieldOf h 63 12 ^^^ s.fld (a + 8) 0 12) &&& s.fld (a + 8) 16 12) == 0
    && (s.fld a 10 1 == 0 ||
        (decide (s.fld (a + 0x10) 0 32 + s.fld (a + 0x14) 0 8 * 2 ^ 32 ≤ page)
          && decide (page ≤ s.fld (a + 0x18) 0 32 + s.fld (a + 0x1C) 0 8 * 2 ^ 32)))

/-- A header passes the filter selected by FSEL, as far as `kind` lets fields apply. FSEL 5 to 7 are
not used and match nothing of a set. -/
def State.filterPass (s : State) (st fsel kind : Nat) (h : BitVec 160) : Bool :=
  if kind = 0 ∨ fsel = 0 ∨ 4 < fsel then true
  else if kind = 1 then bitOf (s.reg (stopReg st (sPMF + 0x20 * (fsel - 1)))) (2 + fieldOf h 42 3)
  else s.pmfMatch st (fsel - 1) h

/-- Response-store entries reserved or in use (R50, R176). -/
def State.rspUsed (s : State) (st : Nat) : Nat :=
  ((List.range 4).map (fun p => ((s.txns st p).map (·.resv)).sum)).sum
    + ((List.range 2).map (fun k => (s.port st k).sendResv)).sum

/-- What counter `n` of a stop adds in this rc; `leave` gives the slot leaving on a local ring. -/
def State.pmcCount (s : State) (st n : Nat) (leave : Nat → Slot) : Nat :=
  let a := stopReg st (sPMC_CFG + 4 * n)
  let c := s.fld a 0 8
  let inMask (l : Nat) : Bool := l < 8 && s.flag a (8 + l)
  let fsel := s.fld a 17 3
  if c = 0x01 then 1
  else if c = 0x02 then ((List.range 8).filter (fun l =>
      inMask l && (leave l).occ && s.filterPass st fsel 1 (leave l).hdr)).length
  else if c = 0x03 then ((List.range 8).filter (fun l => inMask l && (leave l).isEmpty)).length
  else if c = 0x15 then s.injUsed st
  else if c = 0x16 then s.rspUsed st
  else (s.pmu.evs.filter (fun e => e.stop == st && e.code == c
      && (decide (0x10 ≤ c) || inMask e.lring)
      && (decide (c < 0x30) || e.port == s.fld a 16 1)
      && s.filterPass st fsel (evFilter c) e.hdr)).length

/-- Value of a counter. -/
def State.pmc (s : State) (st n : Nat) : Nat := Tab.get (fun _ => 0) s.pmu.pmc (st * 16 + n)

def State.setPmc (s : State) (st n v : Nat) : State :=
  { s with pmu := { s.pmu with pmc := Tab.set (fun _ => 0) s.pmu.pmc (st * 16 + n) (v % 2 ^ 48) } }

/-- An addition to a counter, with its overflow (R492). -/
def State.pmcAdd (s : State) (st n k : Nat) : State :=
  let v := s.pmc st n + k
  let s := s.setPmc st n v
  if v < 2 ^ 48 then s
  else
    let s := s.raiseFlag (stopReg st sPMU_OVF) n
    if s.flag (stopReg st (sPMC_CFG + 4 * n)) 22 then s.raiseFlag (stopReg st sPMU_CTRL) 0 else s

/-- The counters that count: EN set, and the stop not frozen as the rc began (R491, R492). -/
def State.pmcLive (s : State) : List (Nat × Nat) :=
  s.regs.filterMap fun e =>
    if 0x100000 ≤ e.1 ∧ e.1 < 0x400000 then
      let st := (e.1 - 0x100000) / 0x4000
      let o := (e.1 - 0x100000) % 0x4000
      if sPMC_CFG ≤ o ∧ o < sPMC ∧ bitOf e.2 20 ∧ !s.flag (stopReg st sPMU_CTRL) 0 then
        some (st, (o - sPMC_CFG) / 4) else none
    else none

/-- Every counter adds the occurrences of the rc, and the list of occurrences is empty again. -/
def State.pmcSweep (s : State) (leave : Nat → Nat → Slot) : State :=
  let t := s.pmcLive.foldl (fun t k => t.pmcAdd k.1 k.2 (s.pmcCount k.1 k.2 (leave k.1))) s
  { t with pmu := { t.pmu with evs := [] } }

end Sys2Proof.Machine
end

