-- ==== Sys2Proof/Machine/Cross.lean ====
section
/-! DEFINITION. The crossing of an agent port (R328 to R335): its FIFOs and their pointers, the beats and parity of the
outward channels (R146, R148, R159, R161), what waits in the inward FIFOs, the readies (R113, R143 to R145, R156, R167),
and the events that cross for the counters (R333). -/
namespace Sys2Proof.Machine
open Sys2Proof

/-! ### Channels and parity -/

/-- A channel's number, in a record's DETAIL (log entry 10) and as the key of its FIFO. -/
def chanCode : Chan → Nat
  | .req => 0
  | .dat => 1
  | .msg => 2
  | .rsp => 3
  | .oreq => 4
  | .odat => 5
  | .orsp => 6
  | .omsg => 7
  | .ntf => 8

/-- The outward channels. -/
def outChans : List Chan := [.oreq, .odat, .orsp, .omsg, .ntf]

/-- The kind of beat an outward channel carries. -/
def OutBeat.chan : OutBeat → Chan
  | .oreq .. => .oreq
  | .odat .. => .odat
  | .orsp .. => .orsp
  | .omsg .. => .omsg
  | .ntf .. => .ntf

/-- The last beat of its packet. -/
def OutBeat.isLast : OutBeat → Bool
  | .oreq .. => true
  | .odat _ _ last _ _ => last
  | .orsp _ _ _ last _ _ _ => last
  | .omsg _ _ _ _ _ last _ => last
  | .ntf .. => true

/-- The number of ones in the low `w` bits of `v`. -/
def onesIn (w v : Nat) : Nat := ((List.range w).map (fun i => v / 2 ^ i % 2)).sum

/-- Odd parity over `n` packed bytes: each byte and its bit hold an odd number of ones (R146). -/
def oddPar (v n : Nat) : Nat :=
  ((List.range n).map (fun i => (1 - onesIn 8 (v / 2 ^ (8 * i) % 256) % 2) * 2 ^ i)).sum

/-- Packed bytes whose byte and parity bit together hold an even number of ones (R146). -/
def parityBad (v n par : Nat) : List Nat :=
  (List.range n).filter (fun i => (oddPar v n / 2 ^ i + par / 2 ^ i) % 2 == 1)

/-- Width of a tag on the wires of a generation. -/
def tagWidth (gen : Nat) : Nat := if gen = 3 then 10 else 9

/-- The packed payload of an outward beat of a GLP-3 or GLP-4 port, its bytes, and the first of the 64 bytes that are
data bytes, 64 past the end where it has none (Tables 6.4 to 6.8, R158; data bytes: log entry 7). -/
def OutBeat.pack (gen : Nat) : OutBeat → Nat × Nat × Nat
  | .oreq opc tag cls addr len attr src part sub _ =>
    (packFields ([(opc, 6), (tag, tagWidth gen), (cls, 3), (addr, 52), (len, 13), (attr, 2), (src, 14)]
      ++ (if gen = 3 then [(part, 12)] else []) ++ [(sub, 16)]), if gen = 3 then 16 else 15, 80)
  | .odat data be last pois _ =>
    (packFields ([(data.toNat, 512), (be.toNat, 64), (boolNat last, 1)]
      ++ (if gen = 3 then [(boolNat pois, 1)] else [])), 73, 0)
  | .orsp tag status data last pois sub _ =>
    (packFields ([(tag, tagWidth gen), (status, 4), (data.toNat, 512), (boolNat last, 1)]
      ++ (if gen = 3 then [(boolNat pois, 1)] else []) ++ [(sub, 16)]), 68, 2)
  | .omsg opc src len part data last _ =>
    (packFields ([(opc, 6), (src, 14), (len, 13)] ++ (if gen = 3 then [(part, 12)] else [])
      ++ [(data.toNat, 512), (boolNat last, 1)]), if gen = 3 then 70 else 69, 80)
  | .ntf qaddr kind _ => (packFields [(qaddr, 20), (kind, 2)], 3, 80)

/-- The beat with its parity bits. -/
def OutBeat.withPar (par : Nat) : OutBeat → OutBeat
  | .oreq opc tag cls addr len attr src part sub _ => .oreq opc tag cls addr len attr src part sub par
  | .odat data be last pois _ => .odat data be last pois par
  | .orsp tag status data last pois sub _ => .orsp tag status data last pois sub par
  | .omsg opc src len part data last _ => .omsg opc src len part data last par
  | .ntf qaddr kind _ => .ntf qaddr kind par

/-- The parity the NI drives: none on GLP-2; with `inv` the 64 data-byte bits are inverted, which is how a GLP-3 port
marks poison (R159, R161). -/
def OutBeat.seal (gen : Nat) (inv : Bool) (b : OutBeat) : OutBeat :=
  if gen = 1 then b
  else
    let (v, n, lo) := b.pack gen
    let p := oddPar v n
    b.withPar (if inv && decide (lo < 64) then p ^^^ (2 ^ (lo + 64) - 2 ^ lo) else p)

/-! ### FIFOs -/

/-- A 5-bit Gray count and back (R329). -/
def grayOf (n : Nat) : BitVec 5 := BitVec.ofNat 5 (n % 32 ^^^ n % 32 / 2)
def grayTo (g : BitVec 5) : Nat :=
  let v := g.toNat
  v ^^^ v / 2 ^^^ v / 4 ^^^ v / 8 ^^^ v / 16

/-- A pointer moved on by `n` entries. -/
def grayAdd (g : BitVec 5) (n : Nat) : BitVec 5 := grayOf (grayTo g + n)

/-- Entries between two pointers, modulo 32. -/
def grayGap (w r : BitVec 5) : Nat := (grayTo w + 32 - grayTo r) % 32

/-- A FIFO at reset: empty, pointers 0. -/
def defFifo (_ : Nat) : Fifo := { ents := [], send := [], wptr := 0, rptr := 0, seen := 0, late := false }

/-- The stop that a memory of Table 21.11 belongs to, by the model's numbering of the memories. -/
def memStop (m : Nat) : Nat := if m < 768 then m / 4 else if m < 1728 then (m - 768) % 192 else nStops

/-- Safe crossing mode is in force for a port (R331, R344). IEEE 1500 holds every stop, and IEEE 1687 the stop of a
memory under test. -/
def State.safeMode (s : State) (st k : Nat) : Bool :=
  s.fabState == fabINIT || s.fabState == fabCALIBRATING || decide ((s.port st k).state < 2)
    || s.flag (portReg st k pCDC_CTRL) 16 || s.her.test.wrapper != 0
    || s.her.test.running.any (fun m => memStop m == st) || s.cdc.hold || decide (0 < s.cdc.tail)

/-- Entries of a channel: 16 in a FIFO, one in safe mode, one held value for the notify sideband (R328, R329, R331). -/
def State.chanDepth (s : State) (st k : Nat) (c : Chan) : Nat :=
  if c = .ntf || s.safeMode st k then 1 else 16

def PortSt.fifo (v : PortSt) (c : Chan) : Fifo := Tab.get defFifo v.fifos (chanCode c)

def PortSt.setFifo (v : PortSt) (c : Chan) (f : Fifo) : PortSt :=
  { v with fifos := Tab.set defFifo v.fifos (chanCode c) f }

/-- Beats that wait are written as entries come free: a full FIFO takes none, and no entry is overwritten (R329). -/
def Fifo.fill (depth : Nat) (f : Fifo) : Fifo :=
  let n := min (depth - f.ents.length) f.send.length
  { f with
    ents := f.ents ++ f.send.take n, send := f.send.drop n
    wptr := grayAdd f.wptr n, seen := grayAdd f.wptr n }

/-- The oldest entry is read. -/
def Fifo.pop (f : Fifo) : Fifo := { f with ents := f.ents.drop 1, rptr := grayAdd f.rptr 1, late := false }

/-- The channel may be handed another packet: the last one is wholly written and an entry is free. -/
def State.outFree (s : State) (st k : Nat) (c : Chan) : Bool :=
  let f := (s.port st k).fifo c
  f.send.isEmpty && decide (f.ents.length < s.chanDepth st k c)

/-- A packet's beats are handed to their channels; what has no entry yet waits at the writing side. -/
def PortSt.drive (v : PortSt) (bs : List OutBeat) : PortSt :=
  outChans.foldl (fun (v : PortSt) c =>
    let mine := bs.filter (fun b => b.chan == c)
    if mine.isEmpty then v else v.setFifo c { v.fifo c with send := (v.fifo c).send ++ mine }) v

/-- Every outward FIFO of a port takes what it has entries for. The response-store entries of a completion are free
once its last beat has one (R176). -/
def State.fillOut (s : State) (st k : Nat) : State :=
  let v := outChans.foldl (fun (v : PortSt) c =>
    if (v.fifo c).send.isEmpty then v else v.setFifo c ((v.fifo c).fill (s.chanDepth st k c))) (s.port st k)
  s.setPort st k { v with sendResv := if (v.fifo .orsp).send.isEmpty then 0 else v.sendResv }

/-- Beats are handed to the outward channels of a port. -/
def State.drive (s : State) (st k : Nat) (bs : List OutBeat) : State :=
  (s.setPort st k ((s.port st k).drive bs)).fillOut st k

/-- Every beat of a channel that the agent has not taken. -/
def PortSt.queued (v : PortSt) (c : Chan) : List OutBeat := (v.fifo c).ents ++ (v.fifo c).send

/-- An oreq header with data. -/
def OutBeat.dataHdr : OutBeat → Bool
  | .oreq opc .. => opCarriesData opc
  | _ => false

/-- What an outward channel offers: its oldest entry; on orsp the answers of R338 come first; an odat beat no earlier
than its header (R145). -/
def PortSt.offered (v : PortSt) (gen : Nat) (c : Chan) : Option OutBeat :=
  let head := (v.fifo c).ents.head?
  match c with
  | .orsp =>
    (match v.owed with
     | (t, st) :: _ => some (OutBeat.seal gen false (.orsp t st 0 true false 0 0))
     | [] => head)
  | .odat =>
    let hdrs := ((v.queued .oreq).filter OutBeat.dataHdr).length
    let pkts := ((v.queued .odat).filter OutBeat.isLast).length
    let first := match (v.fifo .oreq).ents with
      | b :: _ => b.dataHdr
      | [] => false
    if decide (hdrs < pkts) || (hdrs == pkts && first) then head else none
  | _ => head

/-- A beat transfers to the agent (R143): its entry is free. With the last orsp beat of a tag its bit of the map is
clear, on GLP-2 the oldest (R334), and with the last odat beat its request is no longer under way (R201). -/
def PortSt.take (v : PortSt) (gen : Nat) (c : Chan) (b : OutBeat) : PortSt :=
  match c, b with
  | .orsp, .orsp tag _ _ last _ _ _ =>
    let left := if gen = 1 then v.tagMap.drop 1 else v.tagMap.erase tag
    let v := if last then { v with tagMap := left } else v
    if v.owed.isEmpty then v.setFifo c (v.fifo c).pop
    else { v.setFifo c { v.fifo c with late := false } with owed := v.owed.drop 1 }
  | .odat, .odat _ _ last _ _ =>
    let v := v.setFifo c (v.fifo c).pop
    if last then { v with away := v.away.drop 1 } else v
  | _, _ => v.setFifo c (v.fifo c).pop

/-- The port's FIFOs are empty and no packet is in progress (R340). -/
def PortSt.quiet (v : PortSt) : Bool :=
  outChans.all (fun c => (v.queued c).isEmpty) && v.inq.isEmpty && v.early.isEmpty && v.owed.isEmpty

/-! ### The inward side -/

/-- Entries of an inward channel's FIFO that a packet takes. -/
def inEntries (p : InPkt) (c : Chan) : Nat :=
  match p, c with
  | .req _, .req => 1
  | .req r, .dat => r.beats.length
  | .msg m, .msg => m.beats.length
  | .rsp r, .rsp => r.beats.length
  | _, _ => 0

/-- The channel of a packet's header. -/
def inChan : InPkt → Chan
  | .req _ => .req
  | .msg _ => .msg
  | .rsp _ => .rsp

/-- Entries in use of an inward FIFO. -/
def PortSt.inUsed (v : PortSt) (c : Chan) : Nat := (v.inq.map (fun p => inEntries p c)).sum

/-- A packet of the channel waits in the port's receive stage (R113). -/
def State.laneHeld (s : State) (st k lane : Nat) : Bool := (s.heldAt st k).any (fun h => h.lane == lane)

/-- A transaction whose tag the agent may not use yet (R151, R163). -/
def Txn.holdsTag (t : Txn) : Bool :=
  match t.phase with
  | .captured => !t.acked
  | .released => !t.acked
  | .ready => true
  | .posted => t.ack
  | .haunt => false
  | .stale => false

/-- The ready of an inward channel (R143 to R145): high while the port is OPEN, is not asked to stop, and the FIFO is not
full; on req and msg low in a partition change (R156), while a packet of the channel is held for want of injection space
(R113), and at 64 requests on GLP-2 (R151); on dat low at 64 beats ahead of their header (R145). -/
def State.ready (s : State) (st k : Nat) (c : Chan) : Bool :=
  let v := s.port st k
  let open_ := v.state == 2 && !v.stopLvl && decide (v.inUsed c < s.chanDepth st k c)
  let mayAsk := v.pchg.isNone && !(portGen st k == 1 && decide (64 ≤ ((s.txns st k).filter Txn.holdsTag).length))
  match c with
  | .req => open_ && mayAsk && !s.laneHeld st k 2
  | .msg => open_ && mayAsk && !s.laneHeld st k 1
  | .dat => open_ && decide (v.early.length < 64)
  | .rsp => open_
  | _ => false

/-- The NI reads the inward FIFOs: the ring clock runs, and for rsp no response of the port waits for injection space
(R113, R144, R345). -/
def State.reads (s : State) (st k : Nat) (p : InPkt) : Bool :=
  !s.cdc.hold && (inChan p != .rsp || !s.laneHeld st k 0)

/-- Pointers of the inward FIFOs as `w` entries more are written and `r` entries more are read of each. -/
def PortSt.passIn (v : PortSt) (p : InPkt) (wr rd : Bool) : PortSt :=
  [Chan.req, .dat, .msg, .rsp].foldl (fun (v : PortSt) c =>
    let n := inEntries p c
    if n = 0 then v
    else
      let f := v.fifo c
      let w := if wr then grayAdd f.wptr n else f.wptr
      v.setFifo c { f with wptr := w, seen := w, rptr := if rd then grayAdd f.rptr n else f.rptr }) v

/-- The packet fits the free entries of its FIFOs. -/
def State.roomFor (s : State) (st k : Nat) (p : InPkt) : Bool :=
  [Chan.req, .dat, .msg, .rsp].all (fun c =>
    inEntries p c == 0 || decide ((s.port st k).inUsed c + inEntries p c ≤ s.chanDepth st k c))

/-! ### Events for the counters -/

/-- A port event (Table 19.1): it crosses to rc at once while the ring clock runs, and waits while it is held; of each
kind 15 wait, and one more is lost (R333). -/
def State.portEv (s : State) (st k code : Nat) : State :=
  if !s.cdc.hold then s.ev st code 8 k 0
  else
    let v := s.port st k
    if (v.evPend.filter (· == code)).length < 15 then s.setPort st k { v with evPend := v.evPend ++ [code] }
    else (s.raiseFlag (portReg st k pCDC_STAT) 7).count (portReg st k pCDC_LOST) 0 16 1

/-- So many events of one kind. -/
def State.portEvs (s : State) (st k code n : Nat) : State := (List.replicate n ()).foldl (fun s _ => s.portEv st k code) s

/-- What waits crosses. -/
def State.portEvCross (s : State) (st k : Nat) : State :=
  let v := s.port st k
  v.evPend.foldl (fun (s : State) c => s.ev st c 8 k 0) (s.setPort st k { v with evPend := [] })

end Sys2Proof.Machine
end

