-- ==== Sys2Proof/Machine/Map.lean ====
section
/-! DEFINITION. The address decoder (R202 to R217), the access check units (R220 to R227), the
notices of posted writes (R231), and the commands of entries, checks and swaps. -/
namespace Sys2Proof.Machine
open Sys2Proof

/-! ### Regions of the map -/

/-- 128 bits held as four register words from offset `a` up, little-endian (R237). -/
def State.quad (s : State) (a : Nat) : BitVec 128 :=
  BitVec.ofNat 128 ((s.reg a).toNat + (s.reg (a + 4)).toNat * 2 ^ 32 + (s.reg (a + 8)).toNat * 2 ^ 64
    + (s.reg (a + 12)).toNat * 2 ^ 96)

def State.setQuad (s : State) (a : Nat) (v : BitVec 128) : State :=
  (((s.setReg a (BitVec.ofNat 32 v.toNat)).setReg (a + 4) (BitVec.ofNat 32 (v.toNat / 2 ^ 32))).setReg
    (a + 8) (BitVec.ofNat 32 (v.toNat / 2 ^ 64))).setReg (a + 12) (BitVec.ofNat 32 (v.toNat / 2 ^ 96))

/-- A decoder region (Table 8.1). -/
abbrev Region := BitVec 128

def rgBase (e : Region) : Nat := fieldOf e 0 40
def rgLimit (e : Region) : Nat := fieldOf e 48 40
def rgKind (e : Region) : Nat := fieldOf e 88 2
def rgStop (e : Region) : Nat := fieldOf e 90 12
def rgPort (e : Region) : Nat := fieldOf e 102 2
def rgMembers (e : Region) : Nat := fieldOf e 104 16
def rgDev (e : Region) : Bool := bitOf e 120 || rgKind e == 2
def rgSec (e : Region) : Bool := bitOf e 121
def rgBoot (e : Region) : Bool := bitOf e 122
def rgEn (e : Region) : Bool := bitOf e 123

/-- First page of the boot-window alias: REMAP_CTRL.ALIAS gives address bits [51:24] (R211). -/
def State.aliasPage (s : State) : Nat := s.fld gREMAP_CTRL 4 28 * 2 ^ 12

def State.remap (s : State) : Bool := s.flag gREMAP_CTRL 0

/-- A page lies in the region itself. -/
def rgHas (e : Region) (page : Nat) : Bool := rgBase e ≤ page && page ≤ rgLimit e

/-- A page lies in the boot window's alias range (R211). -/
def rgAliasHas (al : Nat) (e : Region) (page : Nat) : Bool :=
  rgBoot e && al ≤ page && page ≤ al + rgLimit e

/-- Bits of a region that are not reserved (Table 8.1). -/
def rgMask : Region := BitVec.ofNat 128 ((2 ^ 40 - 1) + (2 ^ 124 - 2 ^ 48))

def State.regions (s : State) (base : Nat) : List Region :=
  (List.range 64).map (fun i => s.quad (base + 16 * i))

/-- The map as an NI holds it (R218): while a new map replaces it, one region entry per rc, the entries from the
replacement's rc on are still the old ones. All NIs replace in the same rcs (log entry 5). -/
def State.niRegions (s : State) : List Region :=
  let es := s.regions gACTIVE_MAP
  if s.ni.mapOld.isEmpty then es
  else es.take (s.frame.rcs - s.ni.mapFrom) ++ s.ni.mapOld.drop (s.frame.rcs - s.ni.mapFrom)

/-- Number of members of an interleave set. -/
def popCount (w v : Nat) : Nat := ((List.range w).map (fun i => v / 2 ^ i % 2)).sum

/-- m of n = 2^m members, if n is a power of two up to 16. -/
def log2Members (v : Nat) : Option Nat := firstBelow 5 (fun m => popCount 16 v == 2 ^ m)

/-- The XOR of the m-bit fields of the 44-bit granule number (R206). -/
def hashFold (m : Nat) : Nat → Nat → Nat
  | 0, _ => 0
  | n + 1, g => (g % 2 ^ m) ^^^ hashFold m n (g / 2 ^ m)

def hashIdx (m g : Nat) : Nat := if m = 0 then 0 else hashFold m ((44 + m - 1) / m) (g % 2 ^ 44)

/-- The idx-th set bit of MEMBERS, from MC0 upward (R206). -/
def memberOf (v idx : Nat) : Nat :=
  ((List.range 16).filter (fun k => v / 2 ^ k % 2 == 1)).getD idx 0

/-- Destination of an offset in the fabric configuration space (Table 8.2). -/
def fcsStop (o : Nat) : Option Nat :=
  if o < 0x100000 then some hearthStop
  else if o < 0x400000 then some ((o - 0x100000) / 0x4000)
  else if o < 0x480000 then some (dpStop ((o - 0x400000) / 0x10000))
  else if 0x800000 ≤ o ∧ o < 0xF00000 then some (originStop ((o - 0x800000) / 0x10000))
  else if 0x1000000 ≤ o ∧ o < 0x2800000 then some ((o - 0x1000000) / 0x20000)
  else none

/-- One decoded piece of a request: destination, the address in the slot, its first byte in the
request's own addressing and its bytes. -/
structure Dest where
  die  : Nat
  stop : Nat
  port : Nat
  slotAddr : Nat
  first : Nat
  bytes : Nat
  deriving DecidableEq, Repr

/-- What decoding answers: refused with a status, a cause to record (0 for none) and a DEC_CNT field
(4 for none), or the pieces and whether the region is DEV. -/
inductive DecRes where
  | bad (status cause cnt : Nat)
  | good (dev : Bool) (pieces : List Dest)
  deriving DecidableEq, Repr

/-- Pieces of bytes [a, a + n) cut at 256-byte granules (R207). -/
def granules : Nat → Nat → Nat → List (Nat × Nat)
  | 0, _, _ => []
  | fuel + 1, a, n =>
    let room := 256 - a % 256
    if n ≤ room then [(a, n)] else (a, room) :: granules fuel (a + room) (n - room)

/-- The interleaved member of an address (R205, R206). -/
def interleave (members a : Nat) : Nat :=
  mcStop (memberOf members (hashIdx ((log2Members members).getD 0) (a / 256)))

/-- Address decoding and the checks of Table 8.3 (R205, R207 to R215). -/
def State.decode (s : State) (addr len attr : Nat) : DecRes :=
  let page := addr / 4096
  let al := s.aliasPage
  let hits := s.niRegions.filter (fun e => rgEn e && (rgHas e page || rgAliasHas al e page))
  let spec := bitOf (BitVec.ofNat 8 attr) attrSpec
  let walk := bitOf (BitVec.ofNat 8 attr) attrWalk
  let lock := bitOf (BitVec.ofNat 8 attr) attrLock
  let sec := bitOf (BitVec.ofNat 8 attr) attrSec
  match hits with
  | [] => .bad stDECERR caDEC_MISS 0
  | _ :: _ :: _ => .bad stDECERR caDEC_MULTI 0
  | [e] =>
    let viaAlias := !rgHas e page
    let off := addr - rgBase e * 4096
    let inter := rgKind e == 1 || (rgBoot e && s.remap && !viaAlias)
    let gs := granules 17 addr (len + 1)
    let split := inter && decide (1 < popCount 16 (rgMembers e)) && decide (1 < gs.length)
    if rgKind e = 2 ∧ (fcsStop (off % 2 ^ 26)).isNone then .bad stDECERR caDEC_MISS 0
    else if rgSec e && !sec then .bad stDECERR caDEC_SEC 0
    else if rgDev e && walk then .bad stWALKERR_DEV 0 2
    else if rgDev e && spec then .bad stSPECREF 0 1
    else if lock && (split || rgKind e == 2) then .bad stPROTERR caPORT_PROTO 0
    else
      let die := rgStop e / 256
      let one (a n : Nat) : Dest :=
        if rgKind e = 2 then
          { die := off / 2 ^ 26 % 16, stop := (fcsStop (off % 2 ^ 26)).getD 0, port := 3,
            slotAddr := a, first := a, bytes := n }
        else if inter then
          { die := die, stop := interleave (rgMembers e) a, port := 0, slotAddr := a, first := a,
            bytes := n }
        else
          { die := die, stop := rgStop e % 256, port := rgPort e,
            slotAddr := if viaAlias then a - al * 4096 else a, first := a, bytes := n }
      .good (rgDev e) (if split then gs.map (fun g => one g.1 g.2) else [one addr (len + 1)])

/-- DEC_CNT field k rises (R241). -/
def State.decCnt (s : State) (st k : Nat) : State :=
  if k < 4 then s.count (stopReg st sDEC_CNT) (8 * k) 8 1 else s

/-! ### The check of a staging map (R217) -/

/-- Two regions share a page. -/
def rgOverlap (e f : Region) : Bool := decide (rgBase e ≤ rgLimit f) && decide (rgBase f ≤ rgLimit e)

/-- LIMIT lies below BASE: such a region covers no page, and so overlaps none. -/
def rgVoid (e : Region) : Bool := decide (rgLimit e < rgBase e)

/-- A region overlaps the alias range of an enabled boot window among `es`. -/
def rgOnAlias (al : Nat) (es : List Region) (e : Region) : Bool :=
  es.any (fun w => rgEn w && rgBoot w && decide (rgBase e ≤ al + rgLimit w) && decide (al ≤ rgLimit e))

/-- Cause code of Table 8.11 for region `i` of a staging map, 0 when it passes. -/
def State.mapFault (s : State) (es : List Region) (i : Nat) : Nat :=
  let e := es.getD i 0
  if !rgEn e then 0
  else if rgVoid e then 2
  else if es.zipIdx.any (fun f => f.2 != i && rgEn f.1 && !rgVoid f.1 && rgOverlap e f.1)
      || rgOnAlias s.aliasPage es e then 1
  else if rgBoot e && (es.zipIdx.any (fun f => decide (f.2 < i) && rgEn f.1 && rgBoot f.1)
      || rgBase e != 0 || decide (0xFFF < rgLimit e) || rgKind e != 0
      || (log2Members (rgMembers e)).isNone) then 3
  else if rgKind e = 1 ∧ (log2Members (rgMembers e)).isNone then 4
  else if rgKind e = 2 ∧ (rgBase e ≠ s.d2d.fcsBase / 4096 ∨ rgBase e + 0x3FFFF < rgLimit e) then 5
  else if rgKind e = 3 then 6
  else 0

/-- First failing region of the staging map and its cause. -/
def State.mapCheck (s : State) : Option (Nat × Nat) :=
  let es := s.regions gSTAGE_MAP
  (firstBelow 64 (fun i => s.mapFault es i != 0)).map (fun i => (i, s.mapFault es i))

/-- A checked map becomes the active one (R217), and every NI starts to replace its copy in this rc (R218). -/
def State.mapCopy (s : State) (es : List Region) : State :=
  let s := { s with ni := { s.ni with mapOld := s.niRegions, mapFrom := s.frame.rcs } }
  forUpTo 64 (fun i s => s.setQuad (gACTIVE_MAP + 16 * i) (es.getD i 0)) s

/-- Every NI holds the whole new map. -/
def State.mapWhole (s : State) : Bool := s.ni.mapOld.isEmpty

/-! ### Access check units -/

def acuStart (e : BitVec 128) : Nat := fieldOf e 0 48
def acuEnd (e : BitVec 128) : Nat := fieldOf e 64 48
def acuEn (e : BitVec 128) : Bool := bitOf e 112
def acuLock (e : BitVec 128) : Bool := bitOf e 118

/-- An entry's permission for a privilege and a type (Table 8.5). -/
def acuGrants (e : BitVec 128) (priv rd wr : Bool) : Bool :=
  (!rd || bitOf e (if priv then 115 else 113)) && (!wr || bitOf e (if priv then 116 else 114))

/-- Active set of an ACU. -/
def State.acuActive (s : State) (st a : Nat) : Nat := s.fld (acuReg st a 8) 0 1

/-- One granule: 0 when permitted, else the cause code of Table 8.6, with the region (R222). -/
def State.acuGranule (s : State) (st a g : Nat) (priv sec rd wr : Bool) : Nat × Nat :=
  let has (e : BitVec 128) : Bool := acuEn e && decide (acuStart e ≤ g) && decide (g ≤ acuEnd e)
  let b := s.acuActive st a
  match (List.range 32).filter (fun i => has (s.acuSet st a b i)) with
  | [i] =>
    let e := s.acuSet st a b i
    if !acuGrants e priv rd wr then (3, i)
    else if bitOf e 117 && !sec then (4, i)
    else (0, i)
  | i :: _ :: _ => (5, i)
  | [] =>
    if s.flag (acuReg st a 0) 0 || !priv then (1, 0)
    else
      let one (rd wr : Bool) : Bool := (List.range 4).any (fun i =>
        let e := s.acuDef st a i
        has e && acuGrants e true rd wr && (!bitOf e 117 || sec))
      if (!rd || one true false) && (!wr || one false true) then (0, 0) else (2, 0)

/-- The granules a request touches, with their results. -/
def State.acuWalk (s : State) (st a addr len : Nat) (priv sec rd wr : Bool) : List (Nat × Nat × Nat) :=
  let g0 := addr / 16
  (List.range ((addr + len) / 16 - g0 + 1)).map fun i => (g0 + i, s.acuGranule st a (g0 + i) priv sec rd wr)

/-- Bytes of 64-byte block `blk` that a walk permits. -/
def permMask (ws : List (Nat × Nat × Nat)) (blk : Nat) : BitVec 64 :=
  ws.foldl (fun m w =>
    if w.1 / 4 = blk ∧ w.2.1 = 0 then m ||| BitVec.ofNat 64 (0xFFFF * 2 ^ (16 * (w.1 % 4))) else m) 0

/-- Bits of the record of Table 8.6. -/
def faultBits (addr opc tag part attr : Nat) (partly whole : Bool) (cause region set port status peer : Nat) :
    Nat :=
  packFields
    [(addr, 52), (opc, 6), (tag, 10), (part, 12), (attr, 1), (attr / 2, 1), (boolNat partly, 1),
     (boolNat whole, 1), (cause, 3), (region, 5), (set, 1), (port, 2), (status, 4), (peer, 12)]

/-- A captured 128-bit record in four words. -/
def State.setWords (s : State) (a v : Nat) : State := s.setQuad a (BitVec.ofNat 128 v)

/-- A fault of an ACU is counted, and the first is captured and recorded (R224). -/
def State.acuFault (s : State) (st a part bits : Nat) : State :=
  let c := acuReg st a 8
  let s := s.count (acuReg st a 0x30) 0 32 1
  if s.flag c 13 then s.raiseFlag c 14
  else
    ((s.setWords (acuReg st a 0x10) bits).raiseFlag c 13).raise st
      (recGen a sevCONTAINED caACU_FAULT (some part) (BitVec.ofNat 256 bits))

/-- The outcome of an ACU check of one request: whether it may go on, and the mask of each block when
only some bytes are permitted (R222, R223). -/
def State.acuCheck (s : State) (st a opc addr len tag part attr peer : Nat) (dev : Bool) :
    Bool × List (BitVec 64) × State :=
  let rd := opReads opc
  let wr := opWrites opc
  if !rd && !wr then (true, [], s)
  else
    let priv := attr % 2 == 1
    let sec := attr / 2 % 2 == 1
    let ws := s.acuWalk st a addr len priv sec rd wr
    match ws.find? (fun w => w.2.1 != 0) with
    | none => (true, [], s)
    | some w =>
      let some_ := ws.any (fun w => w.2.1 == 0)
      let whole := some_ && (opc == opCREQ || opc == opCREQ_D || opc == opATOM || (rd && dev))
      let low := if w.1 * 16 < addr then addr else w.1 * 16
      let s := s.acuFault st a part
        (faultBits low opc tag part attr some_ whole w.2.1 w.2.2 (s.acuActive st a) a 0 peer)
      if !some_ || whole then (false, [], s)
      else
        let b0 := addr / 64
        (true, (List.range ((addr + len) / 64 - b0 + 1)).map (fun j => permMask ws (b0 + j)), s)

/-- A notice about a posted write at its source (R231), `set` being the set it was checked against: port 3 has no ACU,
so there only the record is written. -/
def State.postedNotice (s : State) (st p opc addr tag part attr set status peer : Nat) : State :=
  if !opPostedWr opc then s
  else
  let bits := faultBits addr opc tag part attr false false 6 0 set p status peer
  let s := s.raise st (recGen p sevCONTAINED caPOSTED_ERR (some part) (BitVec.ofNat 256 bits))
  if 2 < p then s
  else
    let c := acuReg st p 8
    let s := s.count (acuReg st p 0x34) 0 32 1
    if s.flag c 15 then s else (s.setWords (acuReg st p 0x20) bits).raiseFlag c 15

/-! ### Entries, checks and swaps -/

/-- An ACU exists: beside an agent port, or ACU 2 (R220). -/
def acuThere (st a : Nat) : Bool := a == 2 || (a < 2 && portGen st a != 0)

/-- END lies below START: such a region covers no granule, and so overlaps none. -/
def acuVoid (e : BitVec 128) : Bool := decide (acuEnd e < acuStart e)

/-- The check of a shadow set: the cause of Table 8.17 and the first failing region (R226). -/
def State.shadowFault (s : State) (st a : Nat) : Option (Nat × Nat) :=
  let b := 1 - s.acuActive st a
  let e (i : Nat) := s.acuSet st a b i
  let bad (i : Nat) : Nat :=
    if acuEn (e i) && acuVoid (e i) then 2
    else if acuEn (e i) && (List.range 32).any (fun j => j != i && acuEn (e j) && !acuVoid (e j)
        && decide (acuStart (e i) ≤ acuEnd (e j)) && decide (acuStart (e j) ≤ acuEnd (e i))) then 1
    else if acuLock (s.acuSet st a (1 - b) i) && s.acuSet st a (1 - b) i != e i then 3
    else 0
  (firstBelow 32 (fun i => bad i != 0)).map (fun i => (bad i, i))

/-- The parts of the state that the ACU commands may change. -/
def State.keepAcu (s t : State) : State := { s with regs := t.regs, acu := t.acu, ni := t.ni, recs := t.recs }

/-- PREPARE has reached the stop in a commit that names table kind `t` and has not settled: its shadow
bank takes no write (R433). -/
def State.cmtFrozen (s : State) (st t : Nat) : Bool := s.her.prep.contains st && s.her.scope / 2 ^ t % 2 == 1

/-- A commit is in progress on the die: PREPARING, DECIDED or IN_DOUBT (R439). -/
def State.cmtOpen (s : State) : Bool := [1, 2, 5].contains (s.fld gCOMMIT_STATUS 0 3)

/-- A Kind A change that names ACU `a` has frozen its shadow set (R229, R433). -/
def State.acuFrozen (s : State) (st a : Nat) : Bool := s.cmtFrozen st (4 + a)

/-- A write that R433 turns away. -/
def State.cmtWr (s : State) (st : Nat) : State := s.raiseFlag (stopReg st sSTOP_CMT_STAT) 8

/-- The entry that ACU_SEL selects (R239). An ACU that is not there reads 0 (R220). -/
def State.acuSelected (s : State) (st : Nat) : BitVec 128 :=
  let w := s.reg (stopReg st sACU_SEL)
  let i := fieldOf w 0 6
  let a := fieldOf w 7 2
  if a = 3 ∨ 36 ≤ i ∨ !acuThere st a then 0
  else if i < 32 then s.acuSet st a (fieldOf w 6 1) i
  else s.acuDef st a (i - 32)

/-- ACU_RDATA takes the selected entry whole (R239). -/
def State.acuLatch (s : State) (st : Nat) : State := s.setQuad (stopReg st sACU_RDATA) (s.acuSelected st)

/-- A write of an ACU's entry that is ignored (R225, R230): ACT_WR with `act`, LOCK_WR with `lock`. -/
def State.acuIgnored (s : State) (c : Nat) (act lock : Bool) : State :=
  let s := if act then s.raiseFlag c 10 else s
  if lock then s.raiseFlag c 12 else s

/-- An entry is written through the window: `s` has ACU_SEL already. -/
def State.acuEntry (s : State) (st a b idx : Nat) (v : BitVec 128) : State :=
  let c := acuReg st a 8
  if idx < 32 then
    let act := b == s.acuActive st a
    let lock := acuLock (s.acuSet st a b idx)
    if act || lock then s.acuIgnored c act lock
    else if s.acuFrozen st a then s.cmtWr st
    else (s.setAcuSet st a b idx v).setFld c 1 2 0
  else if idx < 36 then
    let act := s.fld gFAB_STATE 0 4 != 3
    let lock := acuLock (s.acuDef st a (idx - 32))
    if act || lock then s.acuIgnored c act lock else s.setAcuDef st a (idx - 32) v
  else s

/-- ACU_ENTRY_WRITE (R220, R225, R226, R230, R234, R239): ACU_SEL is written. With WR set the whole entry lands in the
shadow set or the default map; ACU_RDATA takes the entry that is now selected. -/
def execAcuEntryWrite (st : StopNo) (sel : Word32) (s : State) : Host.Outcome State Fault Refusal :=
  if !s.niOn st.val then .next s else
  let st := st.val
  let a := fieldOf sel 7 2
  let s0 := s.setReg (stopReg st sACU_SEL) (sel &&& 0x1FF)
  let v := s.quad (stopReg st sACU_WDATA) &&& BitVec.ofNat 128 (2 ^ 119 - 1 - (0xFFFF * 2 ^ 48))
  let t := if !bitOf sel 31 || 2 < a || !acuThere st a then s0
    else s0.acuEntry st a (fieldOf sel 6 1) (fieldOf sel 0 6) v
  .next (s.keepAcu (t.acuLatch st))

/-- The result of a shadow check, in ACU_STAT. -/
def State.shadowCheck (s : State) (st a : Nat) : State :=
  let c := acuReg st a 8
  match s.shadowFault st a with
  | none => ((s.setFld c 1 2 1).setFld c 3 2 0).setFld c 5 5 0
  | some (cause, i) => ((s.setFld c 1 2 2).setFld c 3 2 cause).setFld c 5 5 i

/-- ACU_SHADOW_CHECK (R226): a pending check gives its result. -/
def execAcuShadowCheck (st : StopNo) (a : Fin 3) (s : State) : Host.Outcome State Fault Refusal :=
  if s.fld (acuReg st.val a.val 8) 1 2 = 0 then .next (s.keepAcu (s.shadowCheck st.val a.val))
  else .next s

/-- The shadow set becomes active, and the new shadow's check is pending (R227). -/
def State.acuSwap (s : State) (st a : Nat) : State :=
  let c := acuReg st a 8
  (s.setFld c 0 1 (1 - s.acuActive st a)).setFld c 1 2 0

/-- A queue operation (Table 7.1). -/
def Txn.isMsg (t : Txn) : Bool := 0x30 ≤ t.opc && t.opc ≤ 0x37

/-- Every request captured on the port has passed its access check. -/
def State.checksDone (s : State) (st k : Nat) : Bool :=
  (s.txns st k).all (fun t => t.phase != .captured || t.isMsg || !t.pieces.isEmpty)

/-- The partition that the port's sideband asks for (R156). -/
def State.sideband (s : State) (st a : Nat) : Option Nat := if a < 2 then (s.port st a).pchg else none

/-- A sideband request is answered: with `refused`, PCHG_ERR is set and nothing changes (R156). -/
def State.sideAnswer (s : State) (st a : Nat) (refused : Bool) : State :=
  match s.sideband st a with
  | none => s
  | some part =>
    let v := s.port st a
    let s := s.setPort st a { v with
      pchg := none, pchgBad := false, pchgAck := true, pchgErr := refused
      curPart := if refused then v.curPart else part }
    if refused then s.raiseFlag (portReg st a pERR) 10 else s

/-- The swap of an ACU that a register or a sideband request waits for is decided (R156, R227, R229, R235). A sideband
request with a parity error is refused by itself. Otherwise the swap waits while the shadow check is pending, while a
commit holds the ACU, and while requests taken before a sideband request are unchecked; then one swap, or one refusal,
answers both. -/
def State.swapDecide (s : State) (st a : Nat) : State :=
  let c := acuReg st a 8
  let cmd := acuReg st a 4
  let side := (s.sideband st a).isSome
  if side && !s.checksDone st a then s
  else if side && (s.port st a).pchgBad then s.sideAnswer st a true
  else if !side && !s.flag cmd 0 then s
  else if s.fld c 1 2 = 0 ∨ s.acuFrozen st a then s
  else if s.fld c 1 2 = 2 then ((s.raiseFlag c 11).setFld cmd 0 1 0).sideAnswer st a true
  else ((s.acuSwap st a).setFld cmd 0 1 0).sideAnswer st a false

/-- ACU_SWAP (R227, R229, R235): ACU_CMD.SWAP is written, and the swap is decided. While it waits, SWAP stays set. -/
def execAcuSwap (st : StopNo) (a : Fin 3) (s : State) : Host.Outcome State Fault Refusal :=
  if !s.niOn st.val || !acuThere st.val a.val then .next s
  else .next (s.keepAcu ((s.setFld (acuReg st.val a.val 4) 0 1 1).swapDecide st.val a.val))

end Sys2Proof.Machine
end

