-- ==== Sys2Proof/Machine/Capture.lean ====
section
/-! DEFINITION. What a port takes from its agent (R146 to R163): parity, protocol checks, the building
of slots from beats, the sampler's tag (R495, R496), and the two capture commands. -/
namespace Sys2Proof.Machine
open Sys2Proof

/-! ### Parity -/

/-- The packed req payload and its bytes (Table 6.3). -/
def packReq (gen : Nat) (r : AgentReq) : Nat × Nat :=
  if gen = 3 then
    (packFields [(r.opc, 6), (r.tag, 10), (r.addr, 52), (r.len, 13), (boolNat r.priv, 1),
      (boolNat r.sec, 1), (boolNat r.ord, 1), (boolNat r.spec, 1), (boolNat r.walk, 1), (r.part, 12),
      (r.pctag, 48), (r.sub, 16)], 21)
  else
    (packFields [(r.opc, 6), (r.tag, 9), (r.addr, 52), (r.len, 13), (boolNat r.priv, 1),
      (boolNat r.sec, 1), (boolNat r.ord, 1), (r.sub, 16)], 13)

/-- A packed dat beat (Table 6.5). -/
def packDat (gen : Nat) (b : Beat) : Nat :=
  packFields ([(b.data.toNat, 512), (b.be.toNat, 64), (boolNat b.last, 1)]
    ++ (if gen = 3 then [(boolNat b.pois, 1)] else []))

/-- A packed msg beat and its bytes (Table 6.7). -/
def packMsg (gen : Nat) (m : MsgIn) (b : Beat) : Nat × Nat :=
  if gen = 3 then
    (packFields [(m.opc, 6), (m.tag, 10), (m.qaddr, 20), (m.len, 13), (m.part, 12),
      (b.data.toNat, 512), (boolNat b.last, 1)], 72)
  else
    (packFields [(m.opc, 6), (m.tag, 9), (m.qaddr, 20), (m.len, 13), (b.data.toNat, 512),
      (boolNat b.last, 1)], 71)

/-- A packed rsp beat (Table 6.6); 68 bytes. -/
def packRsp (gen : Nat) (r : RspIn) (b : Beat) : Nat :=
  if gen = 3 then
    packFields [(r.tag, 10), (r.status, 4), (b.data.toNat, 512), (boolNat b.last, 1),
      (boolNat b.pois, 1), (r.sub, 16)]
  else
    packFields [(r.tag, 9), (r.status, 4), (b.data.toNat, 512), (boolNat b.last, 1), (r.sub, 16)]

/-- The port checks parity (R159). -/
def State.parityOn (s : State) (st k : Nat) : Bool :=
  portGen st k == 3 || (portGen st k == 2 && s.flag (portReg st k pCFG) 1)

/-- What a parity check finds of a beat: a bad byte 0 or 1 that holds the tag, another bad header byte, a bad data byte
(Table 6.11). -/
structure BeatErr where
  tag : Bool
  hdr : Bool
  dat : Bool
  deriving DecidableEq, Repr

/-- The check of a beat whose header is every byte below `lo` and from `hi` on, with bytes 0 and 1 the tag's when
`tagged`. A byte that holds any data bit is a data byte (log entry 7). -/
def beatErr (tagged : Bool) (lo hi : Nat) (bad : List Nat) : BeatErr :=
  { tag := tagged && bad.any (fun i => i < 2)
    hdr := bad.any (fun i => (!tagged || 2 ≤ i) && (i < lo || hi ≤ i))
    dat := bad.any (fun i => (!tagged || 2 ≤ i) && lo ≤ i && i < hi) }

def BeatErr.clean (e : BeatErr) : Bool := !e.tag && !e.hdr && !e.dat

/-- A GLP-3 dat beat whose 64 data-byte parity bits are all wrong is poison (R161). -/
def datPoison (gen : Nat) (b : Beat) : Bool :=
  gen == 2 && (List.range 64).all (fun i => (parityBad (packDat gen b) 73 b.par.toNat).contains i)

/-- The check of one dat beat. The byte that holds `last` and `pois` is a header byte (R160, log entry 154). -/
def datErr (gen : Nat) (b : Beat) : BeatErr :=
  let bad := parityBad (packDat gen b) 73 b.par.toNat
  beatErr false 0 72 (if datPoison gen b then bad.filter (fun i => 64 ≤ i) else bad)

/-! ### Port flags -/

/-- Raise a PORT_ERR flag and count in PORT_ERRCNT (R170). -/
def State.portErr (s : State) (st k flag cntLo : Nat) : State :=
  (s.raiseFlag (portReg st k pERR) flag).count (portReg st k pERRCNT) cntLo 8 1

/-- The partition a port's packets carry (R155). -/
def State.portPart (s : State) (st k part : Nat) : Nat :=
  if portGen st k = 3 then part else s.fld (portReg st k pCFG) 4 12

/-- A port record (R469). -/
def State.portRec (s : State) (st k sev cause part addr opc tag status : Nat) : State :=
  s.raise st (recGen k sev cause (some part) (specGen addr opc tag 0 0 status 0))

/-- What the header fields of a packet give its records: partition, address, opcode, tag and status. -/
structure HdrRec where
  part   : Nat
  addr   : Nat
  opc    : Nat
  tag    : Nat
  status : Nat
  deriving DecidableEq, Repr

/-- Valid lowered or payload changed before the transfer (Table 6.13). -/
def State.unstable (s : State) (st k part : Nat) : State :=
  (s.portErr st k 2 8).portRec st k sevCONTAINED caPORT_PROTO part 0 0 0 0

/-- How a packet's parity checks end: it is forwarded, it is dropped with a known tag, or without one. -/
inductive ParEnd where
  | fwd | drop | lost
  deriving DecidableEq, Repr

/-- The outcome of a packet's parity checks: its end, whether its status becomes SLVERR, and its poison. -/
structure ParOut where
  fate  : ParEnd
  force : Bool
  pois  : Bool
  deriving DecidableEq, Repr

/-- One beat at the parity checker (R160, Table 6.11): its flags, one count, and its records. `raw` is the header as it
came. With `keep`, on rsp, a bad header byte leaves the packet forwarded with SLVERR. Once a packet is dropped its beats are
consumed unchecked. -/
def State.parBeat (s : State) (st k : Nat) (h : HdrRec) (raw : Nat) (keep : Bool) (o : ParOut) (e : BeatErr) :
    ParOut × State :=
  if o.fate != .fwd || e.clean then (o, s)
  else
    let a := portReg st k pERR
    let s := s.count (portReg st k pERRCNT) 0 8 1
    let s := if e.tag || e.hdr then s.raiseFlag a 0 else s
    let s := if e.dat then s.raiseFlag a 1 else s
    let log (s : State) (sev : Nat) : State := s.portRec st k sev caPORT_PARITY h.part h.addr h.opc h.tag h.status
    if e.tag then
      ({ o with fate := .lost }, s.raise st
        { port := k, sev := sevCONTAINED, cause := caPORT_PARITY, part := some h.part, unver := true,
          spec := BitVec.ofNat 256 raw })
    else if e.hdr && !keep then ({ o with fate := .drop }, log s sevCONTAINED)
    else
      let s := if e.hdr then log s sevCONTAINED else s
      ({ o with force := o.force || e.hdr, pois := o.pois || e.dat }, if e.dat then log s sevDEFERRED else s)

/-- The parity checks of a packet, beat by beat, and then, if it is not dropped, the first row of Table 6.13 (R166). -/
def State.parCheck (s : State) (st k : Nat) (h : HdrRec) (raw : Nat) (keep stable : Bool) (es : List BeatErr) :
    ParOut × State :=
  let (o, s) := (if s.parityOn st k then es else []).foldl (fun (acc : ParOut × State) e =>
    State.parBeat acc.2 st k h raw keep acc.1 e) ({ fate := .fwd, force := false, pois := false }, s)
  (o, if o.fate = .fwd && !stable then s.unstable st k h.part else s)

/-! ### Tag states -/

/-- A transaction that keeps a new request on its tag from release (R174, R194). -/
def Txn.blocksTag (t : Txn) : Bool :=
  match t.phase with
  | .posted => true
  | .haunt => true
  | .captured => t.acked
  | .released => t.acked
  | _ => false

/-- TAG of a port's next request: the agent's, or on GLP-2 the NI's own (R151). -/
def State.captureTag (s : State) (st k tag : Nat) : Nat :=
  match portGen st k with
  | 3 => tag % 1024
  | 2 => tag % 512
  | _ => (s.port st k).nextTag % 64

/-- The port counts one captured transaction more. -/
def State.bumpOrder (s : State) (st k : Nat) : State :=
  let v := s.port st k
  s.setPort st k { v with
    nextOrd := v.nextOrd + 1
    nextTag := if portGen st k = 1 then (v.nextTag + 1) % 64 else v.nextTag }

/-- The limit of a class's completion timer, in µs (R191). -/
def State.ctoLimit (s : State) (st opc : Nat) : Nat :=
  let c := opClass opc
  if c = clsMSG then s.fld (stopReg st sCTO_A) 16 16
  else if c = clsIO then s.fld (stopReg st sCTO_B) 0 16
  else if c = clsBULK then s.fld (stopReg st sCTO_B) 16 16
  else s.fld (stopReg st sCTO_A) 0 16

/-- The completion timer starts, unless it runs: it keeps the limit of its start (R191). -/
def State.armed (s : State) (st : Nat) (t : Txn) : Txn :=
  if t.timer then t else { t with timer := true, due := s.usClock + 400 * s.ctoLimit st t.opc }

/-- A captured transaction enters the port's tag state; one on a haunted or busy tag is held and
counted, and its timer starts (R174, R191, R194). -/
def State.addTxn (s : State) (st k : Nat) (t : Txn) : State :=
  let ts := s.txns st k
  let t := { t with order := (s.port st k).nextOrd }
  let held := t.phase == .captured && ts.any (fun u => u.blocksTag && u.tag == t.tag)
  let t := if held then s.armed st t else t
  let s := if held then s.txnCnt st 9 else s
  (s.setTxns st k (ts ++ [t])).bumpOrder st k

/-- A transaction as it is captured. -/
def newTxn (s : State) (st k tag opc addr len plen attr part sub pctag : Nat)
    (body : List (BitVec 512 × BitVec 64)) : Txn :=
  let g := (s.port st k).tgen
  { tag := tag + 1024 * g, gen := g, phase := .captured, opc := opc, addr := addr, len := len,
    plen := plen, attr := attr, part := part, sub := sub, pctag := pctag, body := body, pieces := [],
    resv := 0, timer := false, due := 0, permit := [], status := 0, data := [], pois := false,
    order := 0, ack := false, acked := false, haunts := false, stamps := [s.stamp st],
    last := none, retries := 0, redec := false, set := 0 }

/-- The NI completes a transaction itself: no slot of it is injected (R195). -/
def Txn.fail (t : Txn) (status : Nat) : Txn := { t with phase := .ready, status := status }

/-- A request that returns a response to its agent (Table 7.1): every one but WR_P and GWR. -/
def expectsRsp (opc : Nat) : Bool := opc != opWR_P && opc != opGWR

/-- A refused request: a status on orsp for a request that expects one, nothing else (R163). -/
def State.refuseTxn (s : State) (st k : Nat) (t : Txn) (status : Nat) : State :=
  if expectsRsp t.opc then s.addTxn st k (t.fail status) else s

/-! ### The sampler -/

/-- One step of the LFSR x^16 + x^14 + x^13 + x^11 + 1 (R495; shift form: log entry 8). -/
def lfsrStep (v : Nat) : Nat :=
  let fb := (v % 2 + v / 4 % 2 + v / 8 % 2 + v / 32 % 2) % 2
  v / 2 + fb * 32768

/-- A tagged transaction that its NI still holds for its record: one that has been handed over, or that a port reset
has left stale, is none (log entry 174). -/
def smplHeld (t : Txn) : Bool :=
  bitOf (BitVec.ofNat 8 t.attr) attrSmpl && t.phase != .haunt && t.phase != .stale && !t.acked

/-- Tagged transactions held at a stop (R496). -/
def State.tagged (s : State) (st : Nat) : Nat :=
  ((List.range 2).map (fun k => ((s.txns st k).filter smplHeld).length)).sum

/-- The header of a request as the filters read it (R490). -/
def candHdr (die st k : Nat) (t : Txn) : BitVec 160 :=
  { sdie := die, sstop := st, sport := k, cls := opClass t.opc, opc := t.opc, tag := t.tag,
    part := t.part, addr := t.addr, attr := t.attr : HdrIn }.bits t.plen 0

/-- A candidate at the sampler (R495, R496): whether it is tagged. -/
def State.sample (s : State) (st k : Nat) (t : Txn) : Bool × State :=
  let a := stopReg st sSMP_CTRL
  if !s.flag a 0 || !s.flag a (1 + k) || !s.filterPass st (s.fld a 3 3) 2 (candHdr s.die st k t) then
    (false, s)
  else
    let c := Tab.get (fun _ => 0) s.pmu.countdown st
    if 0 < c then
      (false, { s with pmu := { s.pmu with countdown := Tab.set (fun _ => 0) s.pmu.countdown st (c - 1) } })
    else
      let n := s.fld (stopReg st sSMP_PERIOD) 0 20 + 1
      let j := s.fld a 6 4
      let l := lfsrStep (Tab.get (fun _ => 0) s.pmu.lfsr st)
      let r := l % 2 ^ j
      let reload := if j = 0 then n - 1 else n - 1 + r - 2 ^ (j - 1)
      let s := { s with pmu := { s.pmu with
        countdown := Tab.set (fun _ => 0) s.pmu.countdown st reload
        lfsr := Tab.set (fun _ => 0) s.pmu.lfsr st (if j = 0 then Tab.get (fun _ => 0) s.pmu.lfsr st else l) } }
      if 16 ≤ s.tagged st then
        (false, (s.count (stopReg st sSMP_STAT) 16 8 1).ev st 0x18 8 k 0)
      else (true, s.ev st 0x17 8 k (candHdr s.die st k t))

/-- A transaction with ATTR.SMPL when the sampler tags it. -/
def State.captured (s : State) (st k : Nat) (t : Txn) : State :=
  let (tag, s) := s.sample st k t
  let t := if tag then { t with attr := t.attr ||| 128 } else { t with pctag := 0 }
  s.addTxn st k t

/-! ### Slots from beats -/

/-- A GLP-2 beat as the half of a slot: payload and enables at half `h` (R148). -/
def halfBeat (h : Nat) (b : Beat) : BitVec 512 × BitVec 64 :=
  (BitVec.ofNat 512 ((b.data.toNat % 2 ^ 256) * 2 ^ (256 * h)),
   BitVec.ofNat 64 ((b.be.toNat % 2 ^ 32) * 2 ^ (32 * h)))

/-- The slots of a GLP-2 burst whose first beat lies in half `a0` (R148). -/
def pairBeats (a0 : Nat) : List Beat → List (BitVec 512 × BitVec 64)
  | [] => []
  | [b] => [halfBeat a0 b]
  | b :: c :: rest =>
    if a0 = 1 then halfBeat 1 b :: pairBeats 0 (c :: rest)
    else
      ((halfBeat 0 b).1 ||| (halfBeat 1 c).1, (halfBeat 0 b).2 ||| (halfBeat 1 c).2) :: pairBeats 0 rest

/-- The slots a port builds from a packet's beats (R147, R148). -/
def beatSlots (gen addr : Nat) (bs : List Beat) : List (BitVec 512 × BitVec 64) :=
  if gen = 1 then pairBeats (addr / 32 % 2) bs else bs.map (fun b => (b.data, b.be))

/-- `last` stands on the final beat and on no other (R145). -/
def lastRight : List Beat → Bool
  | [] => true
  | [b] => b.last
  | b :: rest => !b.last && lastRight rest

/-! ### REQUEST_CAPTURE -/

/-- Bytes minus 1 of a request (Table 7.2, RLEN). -/
def reqLen (gen : Nat) (r : AgentReq) : Nat :=
  if gen = 1 then 32 * (r.len % 8 + 1) - r.addr % 32 - 1 else r.len

/-- PLEN of a request (R147, R148, R199). -/
def reqPlen (gen : Nat) (r : AgentReq) : Nat :=
  if r.opc = opATOM then 0
  else if gen = 1 then (r.addr / 32 % 2 + r.len % 8) / 2
  else (r.addr % 64 + r.len) / 64

/-- Beats a data-carrying request has. -/
def reqBeats (gen : Nat) (r : AgentReq) : Nat :=
  if !opCarriesData r.opc then 0 else if gen = 1 then r.len % 8 + 1 else reqPlen gen r + 1

/-- ATTR of a request from its port, SMPL apart (Table 6.10). -/
def reqAttr (gen : Nat) (r : AgentReq) (pois : Bool) : Nat :=
  packFields [(boolNat r.priv, 1), (boolNat r.sec, 1), (boolNat (gen == 3 && r.spec), 1),
    (boolNat (gen == 3 && r.walk), 1), (boolNat pois, 1), (boolNat (gen == 1 && r.lock), 1),
    (boolNat (gen == 1 || r.ord), 1)]

/-- The form of CREQ_D and ATOM (R173, R199). -/
def reqForm (r : AgentReq) : Bool :=
  if r.opc = opCREQ_D then r.addr % 64 == 0 && (r.len + 1) % 64 == 0
  else if r.opc = opATOM then
    let op := r.sub % 16
    let n := if op = 9 then (r.len + 1) / 2 else r.len + 1
    r.sub / 16 == 0 && op ≤ 9 && (n == 4 || n == 8) && (op != 9 || (r.len + 1) % 2 == 0)
      && r.addr % n == 0
  else true

/-- The parity checks of a request: its header, then its dat beats. -/
def reqErrs (gen : Nat) (r : ReqIn) : List BeatErr :=
  let (v, n) := packReq gen r.req
  beatErr true n n (parityBad v n r.req.par.toNat) :: r.beats.map (datErr gen)

/-- A valid INJ entry names the port (Table 6.2). -/
def State.feedsFlow (s : State) (st k : Nat) : Bool :=
  let b := s.fld (stopReg st sFLOW_STAT) 0 1
  (List.range 64).any fun n =>
    let a := stopReg st (sFLOW_TABLE + 0x200 * b + 8 * n)
    s.flag a 0 && s.fld a 1 2 == 0 && s.fld a 22 2 == k

/-- The first check of Table 6.13 that a request fails, in the order of the table (log entry 144): PORT_ERR flag,
counter, status (16 for no response at all) and cause. -/
def State.reqCheck (s : State) (st k : Nat) (r : ReqIn) : Option (Nat × Nat × Nat × Nat) :=
  let g := portGen st k
  let q := r.req
  if !(reqOpcode g q.opc || (q.opc == opGWR && s.feedsFlow st k)) then some (2, 8, stPROTERR, caPORT_PROTO)
  else if g == 3 && (q.spec || q.walk) && opWrites q.opc then some (2, 8, stPROTERR, caPORT_PROTO)
  else if (g != 1 && 4095 < q.len) || q.addr / 4096 != (q.addr + reqLen g q) / 4096 then
    some (3, 16, stPROTERR, caPORT_RANGE)
  else if g != 1 && (s.txns st k).any (fun t => t.holdsTag &&
      t.tag == s.captureTag st k q.tag + 1024 * (s.port st k).tgen) then some (4, 8, 16, caTAG_DUP)
  else if r.beats.length != reqBeats g q || !lastRight r.beats then some (2, 8, stPROTERR, caPORT_PROTO)
  else if !reqForm q then some (2, 8, stPROTERR, caPORT_PROTO)
  else none

/-- The parts of the state that an agent port's commands may change. -/
def State.keepPort (s t : State) : State :=
  { s with regs := t.regs, ni := t.ni, recs := t.recs, pmu := t.pmu, free := t.free }

/-- A request as it stands after the parity check: checked under Table 6.13 and captured. -/
def State.takeReq (s : State) (st k : Nat) (r : ReqIn) (pois : Bool) : State :=
  let g := portGen st k
  let q := r.req
  let tag := s.captureTag st k q.tag
  let part := s.portPart st k q.part
  let t := newTxn s st k tag q.opc q.addr (reqLen g q) (reqPlen g q) (reqAttr g q pois) part q.sub
    (if g = 3 then q.pctag else 0) (beatSlots g q.addr r.beats)
  match s.reqCheck st k r with
  | some (flag, cnt, status, cause) =>
    let s := (s.portErr st k flag cnt).portRec st k sevCONTAINED cause part q.addr q.opc t.tag 0
    if status = 16 then s else s.refuseTxn st k t status
  | none => s.captured st k t

/-- The tag of a transaction of the port, its generation above it (Table 18.5). -/
def State.fullTag (s : State) (st k tag : Nat) : Nat := s.captureTag st k tag + 1024 * (s.port st k).tgen

/-- The bit of a tag in the initiator-tag map is set; on GLP-2 a request is counted (R334). -/
def State.noteTag (s : State) (st k tag : Nat) : State :=
  let v := s.port st k
  if portGen st k != 1 && v.tagMap.contains tag then s else s.setPort st k { v with tagMap := v.tagMap ++ [tag] }

/-- Dat beats up to and with the first that has `last`, and those after it. -/
def cutLast : List Beat → List Beat × List Beat
  | [] => ([], [])
  | b :: rest => if b.last then ([b], rest) else ((b :: (cutLast rest).1), (cutLast rest).2)

/-- The dat beats that came ahead of a header join it (R145). -/
def State.takeEarly (s : State) (st k : Nat) (r : ReqIn) : ReqIn × State :=
  let v := s.port st k
  if opCarriesData r.req.opc && !v.early.isEmpty then
    ({ r with beats := (cutLast v.early).1 ++ r.beats }, s.setPort st k { v with early := (cutLast v.early).2 })
  else (r, s)

/-- A request that has crossed is captured (R145, R146, R151, R154, R155, R160, R163, R166, R173, R199). -/
def State.captureReq (s : State) (st k : Nat) (r : ReqIn) : State :=
  let g := portGen st k
  let (r, s) := s.takeEarly st k r
  let q := r.req
  let part := s.portPart st k q.part
  let h : HdrRec := { part := part, addr := q.addr, opc := q.opc, tag := s.fullTag st k q.tag, status := 0 }
  let (o, s) := s.parCheck st k h (packReq g q).1 false r.stable (reqErrs g r)
  match o.fate with
  | .fwd =>
    let pois := r.beats.any (fun b => (g == 3 && b.pois) || (s.parityOn st k && datPoison g b))
    s.takeReq st k r (o.pois || pois)
  | .drop =>
    s.refuseTxn st k (newTxn s st k (s.captureTag st k q.tag) q.opc q.addr 0 0 0 part 0 0 []) stPROTERR
  | .lost => s

/-- The NI reads a packet's FIFOs and nothing of its channel waits there. -/
def State.passes (s : State) (st k : Nat) (p : InPkt) : Bool :=
  s.reads st k p && !(s.port st k).inq.any (fun q => inChan q == inChan p)

/-- A packet can transfer whole: its ready is high, and the NI reads its FIFOs or they have room for it (R329). -/
def State.takes (s : State) (st k : Nat) (p : InPkt) : Bool :=
  s.ready st k (inChan p) && (s.passes st k p || s.roomFor st k p)

/-- A packet transfers into the inward FIFOs: it is captured at once, or waits there while the NI does not read
(R329, R345). -/
def State.arrive (s : State) (st k : Nat) (p : InPkt) (capture : State → State) : State :=
  let v := s.port st k
  if s.passes st k p then capture (s.setPort st k (v.passIn p true true))
  else s.setPort st k { v.passIn p true false with inq := v.inq ++ [p] }

/-- The events of a request that transfers, and its tag (Table 19.1, R334). -/
def State.reqEvents (s : State) (st k : Nat) (r : ReqIn) : State :=
  ((s.noteTag st k (s.captureTag st k r.req.tag)).portEv st k 0x30).portEvs st k 0x31 r.beats.length

/-- REQUEST_CAPTURE (R142 to R146, R151, R154, R155, R160, R163, R173, R199, R329): a request header and its
beats transfer, are captured whole and checked. With `req_ready` low nothing transfers. -/
def execRequestCapture (st : StopNo) (k : PortNo) (r : ReqIn) (s : State) :
    Host.Outcome State Fault Refusal :=
  let st := st.val
  let k := k.val
  if portGen st k = 0 then .fault .absentPort
  else if !s.takes st k (.req r) then .next (s.keepPort (s.portEv st k 0x33))
  else
    let t := s.reqEvents st k r
    .next (s.keepPort (t.arrive st k (.req r) (fun u => u.captureReq st k r)))

/-! ### MSG_CAPTURE -/

/-- Queue operations that an agent may issue (Table 9.2). -/
def msgOpcode (opc : Nat) : Bool := [0x30, 0x31, 0x32, 0x33, 0x34, 0x36].contains opc

/-- A queue operation that carries its data into the slots (Table 9.2). -/
def msgData (opc : Nat) : Bool := opc == 0x30 || opc == 0x34

/-- Beats of a message (R147, R148, R249). -/
def msgBeats (gen : Nat) (m : MsgIn) : Nat :=
  if m.opc = 0x30 then m.len / (if gen = 1 then 32 else 64) + 1 else 1

/-- The check of one msg beat: its data bytes are those that hold a data bit (Table 6.7, log entry 7). -/
def msgErr (gen : Nat) (m : MsgIn) (b : Beat) : BeatErr :=
  let (v, n) := packMsg gen m b
  beatErr true (if gen = 3 then 7 else 6) (if gen = 3 then 72 else 70) (parityBad v n b.par.toNat)

/-- The first check of Table 6.13 that a message fails, in the order of the table (R163, R249, log entry 144). -/
def State.msgCheck (s : State) (st k : Nat) (m : MsgIn) : Option (Nat × Nat × Nat × Nat) :=
  let g := portGen st k
  if !msgOpcode m.opc then some (2, 8, stPROTERR, caPORT_PROTO)
  else if 4095 < m.len then some (3, 16, stMSGSIZE, caPORT_RANGE)
  else if g != 1 && (s.txns st k).any (fun t => t.holdsTag &&
      t.tag == s.captureTag st k m.tag + 1024 * (s.port st k).tgen) then some (4, 8, 16, caTAG_DUP)
  else if m.beats.length != msgBeats g m || !lastRight m.beats then some (2, 8, stPROTERR, caPORT_PROTO)
  else if (m.opc == 0x34 && m.len != 3) || (m.opc == 0x33 && m.len != 63) then
    some (2, 8, stPROTERR, caPORT_PROTO)
  else none

/-- Flags of data byte 0, ARM and CLRDB (R249), for the operations that have them. -/
def msgFlags (m : MsgIn) : Nat :=
  if [0x31, 0x32, 0x33, 0x36].contains m.opc then
    match m.beats with
    | b :: _ => b.data.toNat % (if m.opc = 0x33 then 4 else 2)
    | [] => 0
  else 0

/-- Slots of a message: data for ENQ, the four bytes of a DBELL, none otherwise. -/
def msgSlots (gen : Nat) (m : MsgIn) : List (BitVec 512 × BitVec 64) :=
  if m.opc = 0x30 then (if gen = 1 then pairBeats 0 m.beats else m.beats.map (fun b => (b.data, 0)))
  else if m.opc = 0x34 then
    (m.beats.take 1).map (fun b => (BitVec.ofNat 512 (b.data.toNat % 2 ^ 32), 0))
  else []

/-- A message as it stands after the parity check. The queue address is held as the address and the
flags as `sub`; ATTR is 0 on msg, ORD also on GLP-2 (R154, log entry 150). -/
def State.takeMsg (s : State) (st k : Nat) (m : MsgIn) (pois : Bool) : State :=
  let g := portGen st k
  let part := s.portPart st k m.part
  let t := newTxn s st k (s.captureTag st k m.tag) m.opc m.qaddr m.len
    (if m.opc = 0x30 then m.len / 64 else 0) (if pois then 16 else 0) part (msgFlags m) 0 (msgSlots g m)
  match s.msgCheck st k m with
  | some (flag, cnt, status, cause) =>
    let s := (s.portErr st k flag cnt).portRec st k sevCONTAINED cause part 0 m.opc t.tag 0
    if status = 16 then s else s.refuseTxn st k t status
  | none => s.captured st k t

/-- A message that has crossed is captured (R147, R155, R160, R163, R166, R249). -/
def State.captureMsg (s : State) (st k : Nat) (m : MsgIn) : State :=
  let g := portGen st k
  let part := s.portPart st k m.part
  let h : HdrRec := { part := part, addr := 0, opc := m.opc, tag := s.fullTag st k m.tag, status := 0 }
  let raw := match m.beats with
    | b :: _ => (packMsg g m { b with data := 0 }).1 % 2 ^ 61
    | [] => 0
  let (o, s) := s.parCheck st k h raw false m.stable (m.beats.map (msgErr g m))
  match o.fate with
  | .fwd => s.takeMsg st k m o.pois
  | .drop =>
    s.refuseTxn st k (newTxn s st k (s.captureTag st k m.tag) m.opc m.qaddr 0 0 0 part 0 0 []) stPROTERR
  | .lost => s

/-- MSG_CAPTURE (R142 to R147, R155, R160, R163, R249, R329): a queue operation transfers, is captured whole and
checked. With `msg_ready` low nothing transfers. -/
def execMsgCapture (st : StopNo) (k : PortNo) (m : MsgIn) (s : State) :
    Host.Outcome State Fault Refusal :=
  let st := st.val
  let k := k.val
  if portGen st k = 0 then .fault .absentPort
  else if !s.takes st k (.msg m) then .next s
  else
    let t := (s.noteTag st k (s.captureTag st k m.tag)).portEv st k 0x30
    .next (s.keepPort (t.arrive st k (.msg m) (fun u => u.captureMsg st k m)))

end Sys2Proof.Machine
end

