-- ==== Sys2Proof/Machine/Release.lean ====
section
/-! DEFINITION. The source side of the transaction layer: destinations (R202, R203, R246), fences
(R351, R356), ordering (R189, R190), reservations (R176, R178), the forming of packets (R172, R250)
and the release of a request (R175). -/
namespace Sys2Proof.Machine
open Sys2Proof

/-- One ATTR bit of a transaction. -/
def Txn.attrBit (t : Txn) (i : Nat) : Bool := bitOf (BitVec.ofNat 8 t.attr) i

/-- The transaction is ordered (R190). -/
def Txn.ord (t : Txn) : Bool := t.attrBit attrOrd

/-! ### Fences -/

/-- The APD an agent port belongs to (R350). -/
def State.apdOf (s : State) (st k : Nat) : Option Nat :=
  if s.flag (portReg st k pAPD) 8 then some (s.fld (portReg st k pAPD) 0 8) else none

/-- A destination is in a fence set (R351, R390, R440). -/
def State.fsetHas (s : State) (f : FSet) (die stop port : Nat) : Bool :=
  match f with
  | .apd n => die == s.die && port < 2 && s.apdOf stop port == some n
  | .ng k => die == s.die && port < 3 && ngOf stop == k
  | .dp p => die != s.die && s.routePort die stop false == some p
  | .dests l => l.contains (die, stop, port)
  | .dies l => l.contains die && (die != s.die || decide (port < 3))

/-- The domain number that a fence set wakes (R363, Table 13.1). -/
def FSet.dom : FSet → Option Nat
  | .apd n => some n
  | .ng k => some (256 + k)
  | .dp p => some (304 + p)
  | .dests _ => none
  | .dies _ => none

/-- Fence sets in force at a stop. -/
def State.fences (s : State) (st : Nat) : List FSet := Tab.get (fun _ => []) s.pw.fences st

/-- The destination is fenced at source stop `st`. -/
def State.fenced (s : State) (st die stop port : Nat) : Bool :=
  (s.fences st).any (fun f => s.fsetHas f die stop port)

/-- A wakeable packet (R356): every stop is of an NG domain, so one to port 2 never is. -/
def wakeable (cls port : Nat) : Bool :=
  [clsSNP, clsREQ, clsMSG, clsBULK, clsGUAR].contains cls && port != 2

/-- Insert in ascending order, once. -/
def insertAsc (x : Nat) : List Nat → List Nat
  | [] => [x]
  | y :: ys => if x < y then x :: y :: ys else if x = y then y :: ys else y :: insertAsc x ys

/-- The domain of the switched set is OFF (Table 13.13): its state code is 4 or more, or the APD is
drained. -/
def State.domOff (s : State) (d : Nat) : Bool :=
  if d < 256 then Tab.get (fun _ => 0) s.pw.apds d == 2 else s.domState (d - 256) == 4

/-- Wake events for the fenced destination (R363). For a domain already OFF, WAKE_EN decides. -/
def State.wakeFor (s : State) (st die stop port : Nat) : State :=
  let ds := ((s.fences st).filter (fun f => s.fsetHas f die stop port)).filterMap FSet.dom
  let ds := ds.filter (fun d => !s.domOff d || s.flag gPWR_CTRL 16)
  { s with pw := { s.pw with wake := ds.foldl (fun w d => insertAsc d w) s.pw.wake } }

/-! ### Destinations -/

/-- A piece before its release. -/
def newPiece (addr plen die stop port skip : Nat) : Piece :=
  { addr := addr, plen := plen, die := die, stop := stop, port := port, oseq := 0, sstart := false,
    released := false, resent := false, injected := 0, lastInj := 0, status := none, skip := skip,
    demoted := false, grantBy := none }

/-- The piece of a decoded destination: the blocks it touches (R147, R207). -/
def destPiece (t : Txn) (d : Dest) : Piece :=
  newPiece d.slotAddr (if t.opc = opATOM then 0 else (d.first % 64 + d.bytes - 1) / 64)
    d.die d.stop d.port (d.first / 64 - t.addr / 64)

/-- WALK status (R216). -/
def walkStatus (attr status : Nat) : Nat :=
  if bitOf (BitVec.ofNat 8 attr) attrWalk &&
      [stDECERR, stSLVERR, stTIMEOUT, stFENCED, stPROTERR].contains status then stWALKERR_BUS
  else status

/-- A refusal at step 2 of R175. -/
def Txn.refuse (t : Txn) (status : Nat) : Txn := t.fail (walkStatus t.attr status)

/-- Record of a decode refusal (R215, R209). -/
def State.decRec (s : State) (st p : Nat) (t : Txn) (cause peer : Nat) : State :=
  s.raise st (recGen p sevCONTAINED cause (some t.part) (specGen t.addr t.opc t.tag peer 0 0 0))

/-- GLP-2's lock: a LOCK request to another target than the one the port holds (R197). -/
def State.lockElsewhere (s : State) (st p : Nat) (t : Txn) (c : Piece) : Bool :=
  t.attrBit attrLock && p < 2 &&
    (match (s.port st p).holdsLock with
     | none => false
     | some h => h != (c.die, c.stop, c.port))

/-- The valid INJ entry of a GWR, by its port and RESID (R99). -/
def State.injEntry (s : State) (st p : Nat) (t : Txn) : Option Nat :=
  if t.sub / 1024 = 0 then
    s.flowEntry st 0 (t.sub % 1024) (fun a => s.fld a 22 2 == p)
  else none

/-- A GUAR packet that is not injected (Table 4.9). -/
def State.noFlow (s : State) (st p : Nat) (t : Txn) : State :=
  (s.count (stopReg st (sGUAR_CNT + 8)) 0 32 1).raise st
    (recGen p sevCONTAINED caGUAR_NOFLOW (some t.part) (specGen t.addr t.opc t.tag 0 (t.sub % 1024) 0 0))

/-- Step 2 of R175: the request decoded and checked. `none` where it is dropped without completion;
otherwise it holds its pieces, or is completed with a status. A request decoded again has passed the access check
already, and passes Table 8.3 alone (R219). -/
def State.decodeTxn (s : State) (st p : Nat) (t : Txn) : Option Txn × State :=
  let again := t.redec
  let s := if again then s.decCnt st 3 else s
  let t := { t with redec := false, set := if again then t.set else if p < 3 then s.acuActive st p else 0 }
  if t.isMsg then
    let die := t.addr / 65536 % 16
    let stop := t.addr / 256 % 256
    if 191 < stop || !s.reachable die stop false then
      (some (t.refuse stDECERR), s.raise st (recGen p sevCONTAINED caQDEC (some t.part)
        (specGen t.addr t.opc t.tag (peerOf die stop 2) (t.addr % 256) 0 0)))
    else (some { t with pieces := [newPiece 0 t.plen die stop 2 0] }, s)
  else if t.opc = opSNP then
    let die := t.sub / 1024 % 16
    let stop := t.sub / 4 % 256
    if 191 < stop || 1 < t.sub % 4 || !s.reachable die stop false then
      (some (t.refuse stDECERR), (s.decCnt st 0).decRec st p t caDEC_MISS (t.sub % 16384))
    else (some { t with pieces := [newPiece t.addr t.plen die stop (t.sub % 4) 0] }, s)
  else
    match s.decode t.addr t.len t.attr with
    | .bad status cause cnt =>
      let s := s.decCnt st cnt
      let s := if cause = 0 then s else s.decRec st p t cause 0
      (if t.opc = opGWR then none else some (t.refuse status), s)
    | .good dev ds =>
      match ds with
      | [] => (some (t.refuse stDECERR), s)
      | d :: _ =>
        if ds.any (fun e => !s.reachable e.die e.stop false) then
          (if t.opc = opGWR then none else some (t.refuse stDECERR),
            (s.decCnt st 0).decRec st p t caDEC_MISS (peerOf d.die d.stop d.port))
        else if s.lockElsewhere st p t (destPiece t d) then
          (some (t.refuse stPROTERR), s.portRec st p sevCONTAINED caPORT_PROTO t.part t.addr t.opc t.tag 0)
        else
        let (ok, mask, s1) :=
          if again then (true, t.permit, s)
          else if p = 3 then (true, [], s)
          else s.acuCheck st p t.opc t.addr t.len t.tag t.part t.attr (d.die * 256 + d.stop) dev
        if !ok then (if t.opc = opGWR then none else some (t.refuse stACCERR), s1)
        else if t.opc = opGWR then
          match s.injEntry st p t with
          | none => (none, s1.noFlow st p t)
          | some a =>
            if ds.any (fun e => s.fld (a + 4) 8 12 != e.die * 256 + e.stop) || s.fld a 24 6 < t.plen then
              (none, s1.noFlow st p t)
            else (some { t with pieces := ds.map (destPiece t), permit := mask }, s1)
        else (some { t with pieces := ds.map (destPiece t), permit := mask }, s1)

/-! ### Ordering, reservations, pending lists -/

/-- Phases in which an ORD request of the port has no completion yet (R190). -/
def TxPhase.open_ : TxPhase → Bool
  | .captured => true
  | .released => true
  | .posted => true
  | .ready => false
  | .haunt => false
  | .stale => false

/-- Pieces without completion. -/
def Txn.openPieces (t : Txn) : List Piece := t.pieces.filter (fun c => c.status.isNone)

/-- The ordering unit lets piece `i` of `t` go (R190). -/
def ordPermits (ts : List Txn) (t : Txn) (i : Nat) (c : Piece) : Bool :=
  let earlier := ts.filter (fun u => u.ord && decide (u.order < t.order) && u.phase.open_)
  let mine := (t.pieces.take i).filter (fun d => d.status.isNone)
  let all := earlier.flatMap (fun u => u.openPieces.map (fun d => (recNo d.die d.stop, opBE u.opc)))
    ++ mine.map (fun d => (recNo d.die d.stop, opBE t.opc))
  let here := recNo c.die c.stop
  let same := all.filter (fun d => d.1 == here)
  !earlier.any (fun u => u.pieces.isEmpty)
    && all.all (fun d => d.1 == here)
    && same.length < 64
    && ((!opBE t.opc && !same.any (·.2)) || same.isEmpty)

/-- Response-store entries a request reserves (R176, R247). -/
def Txn.rspNeed (t : Txn) : Nat :=
  if opPosted t.opc || t.opc == opGWR then 0
  else if opCmpdPlen t.opc then t.plen + 1
  else if t.opc = opDEQ ∨ t.opc = opPEEK ∨ t.opc = opSTEAL then t.len / 64 + 1
  else 1

/-- A request whose completion may carry data (Table 7.1, R247): on expiry its data is driven as zero (R192). -/
def Txn.reads (t : Txn) : Bool :=
  opCmpdPlen t.opc || [opATOM, opSNP, opDEQ, opPEEK, opSTEAL, opQSTAT].contains t.opc

/-- The class and data that a keep-store copy is for (R178). -/
def Txn.kept (t : Txn) : Bool :=
  [clsREQ, clsIO, clsMSG, clsBULK].contains (opClass t.opc) &&
    (opCarriesData t.opc || t.opc == opENQ || t.opc == opDBELL)

/-- Keep-store entries that a piece holds: from its release until it is answered, its re-send has been injected, or its
timer has expired (R178). A port reset frees none. -/
def Txn.keepOf (t : Txn) (c : Piece) : Nat :=
  let live := match t.phase with
    | .released => true
    | .posted => true
    | .stale => true
    | _ => false
  if live && t.kept && c.released && c.status.isNone && !(c.resent && c.plen + 1 ≤ c.injected) then
    c.plen + 1 else 0

/-- Keep-store entries in use at a stop. -/
def State.keepUsed (s : State) (st : Nat) : Nat :=
  ((List.range 4).map (fun p =>
    ((s.txns st p).map (fun t => (t.pieces.map t.keepOf).sum)).sum)).sum

/-- RSV_LIM of a port. -/
def State.rsvLim (s : State) (st p : Nat) : Nat :=
  s.fld (stopReg st (sRSV_LIM_A + 4 * (p / 2))) (16 * (p % 2)) 11

/-- The response space a request needs is there, or already reserved (R176). -/
def State.rspRoom (s : State) (st p : Nat) (t : Txn) : Bool :=
  decide (0 < t.resv) ||
    (decide (s.rspUsed st + t.rspNeed ≤ 1024)
      && decide (((s.txns st p).map (·.resv)).sum + (if p < 2 then (s.port st p).sendResv else 0) + t.rspNeed ≤ s.rsvLim st p))

/-- A request-class packet to the destination waits behind a pending list: the target stop's own, or
that of the port stop its route leaves through (R183, R387). -/
def State.pendHolds (s : State) (st : Nat) (cls die stop : Nat) : Bool :=
  let held (d t : Nat) : Bool := !(s.pend st (recNo d t)).isEmpty
  clsSNP ≤ cls && cls ≤ clsBULK &&
    (held die stop ||
      (die != s.die && (match s.routePort die stop false with
        | some q => held s.die (dpStop q)
        | none => false)))

/-- OSEQ counter of a port for a destination stop (R189). -/
def oseqKey (st p : Nat) (c : Piece) : Nat := (st * 4 + p) * 3072 + recNo c.die c.stop

/-- No ORD packet of the port to the stop lacks its completion (R189, R200). -/
def startsSeq (ts : List Txn) (c : Piece) : Bool :=
  !ts.any (fun u => u.ord && (match u.phase with
      | .released => true
      | .posted => true
      | .stale => true
      | _ => false)
    && u.pieces.any (fun d => d.released && d.status.isNone && recNo d.die d.stop == recNo c.die c.stop))

/-! ### Forming packets -/

/-- A request whose OPX carries RLEN (Table 7.2). -/
def opRlen (opc : Nat) : Bool :=
  [opRD, opRD_NC, opCREQ, opCREQ_D, opATOM, opSNP, opUNLOCK, opBRD].contains opc

/-- OPX of a request packet (Tables 7.2 and 9.3). -/
def Txn.opx (t : Txn) (c : Piece) : Nat :=
  if t.opc = opNOTIFY then
    packFields [(0, 16), (t.sub % 256, 8), (0, 14), (t.sub / 256, 2)]
  else if t.isMsg then
    packFields [(0, 16), (t.addr % 256, 8), (t.len, 12), (t.sub % 2, 1), (t.sub / 2 % 2, 1)]
  else opxReq t.sub (t.ord && c.sstart) (if opRlen t.opc then t.len else 0)

/-- The slots' payload and extension of one piece (R147, R172, R223). -/
def Txn.pieceBody (t : Txn) (c : Piece) : List (BitVec 512 × BitVec 64) :=
  (List.range (c.plen + 1)).map fun i =>
    let (d, be) := t.body.getD (c.skip + i) (0, 0)
    if opBE t.opc then
      (d, if t.permit.isEmpty then be else be &&& t.permit.getD (c.skip + i) 0)
    else (d, seqExt 0 c.oseq (t.opx c))

/-- The packet of one piece of a transaction (R26, R48). -/
def State.piecePkt (s : State) (st p : Nat) (t : Txn) (c : Piece) (grnt : Bool) : Pkt :=
  mkPkt { ddie := c.die, dstop := c.stop, dport := c.port, sdie := s.die, sstop := st, sport := p,
          cls := opClass t.opc, opc := t.opc, tag := t.tag, part := t.part, addr := c.addr,
          attr := t.attr, grnt := grnt } (t.pieceBody c)

/-! ### Completion of a transaction -/

/-- First status other than OK in address order (R207). -/
def mergeStatus (cs : List Piece) : Nat :=
  ((cs.filterMap (·.status)).find? (· != stOK)).getD stOK

/-- The status delivered: POISON stands, a partly permitted request gets ACCERR, WALK is rewritten
(R216, R223). -/
def Txn.finalStatus (t : Txn) : Nat :=
  let m := mergeStatus t.pieces
  if !t.permit.isEmpty && m != stPOISON then stACCERR else walkStatus t.attr m

/-- Every piece is answered: the transaction is ready for delivery, or, acknowledged already, over. -/
def Txn.settle (t : Txn) : Option Txn :=
  if t.pieces.isEmpty || t.pieces.any (fun c => c.status.isNone) then some t
  else if opPosted t.opc then
    match t.phase with
    | .posted => if t.ack then some { t with phase := .ready } else none
    | .captured => some { t with phase := .ready, status := t.finalStatus, ack := true }
    | .released => some { t with phase := .ready, status := t.finalStatus, ack := true }
    | _ => none
  else some { t with phase := .ready, status := t.finalStatus }

/-- Put a transaction in the place of the one at index `n`, or take that one out. -/
def State.putTxn (s : State) (st p n : Nat) (t : Option Txn) : State :=
  s.setTxns st p (match t with
    | some u => (s.txns st p).set n u
    | none => (s.txns st p).eraseIdx n)

/-- A transaction whose outcome is known before it was injected waits for delivery. A posted write
acknowledged already gets a notice instead (R231). -/
def State.finish (s : State) (st p n : Nat) (t : Txn) : State :=
  if t.acked then
    let c := t.pieces.headD (newPiece 0 0 0 0 0 0)
    (s.postedNotice st p t.opc t.addr t.tag t.part t.attr t.set t.status (c.die * 256 + c.stop)).putTxn st p n none
  else s.putTxn st p n (some t)

/-- Piece `i` of a request is completed with FENCED at its source (Table 13.4). An acknowledgement not
yet handed over carries that status; where it has been, a notice says it (R231). -/
def State.fenceFail (s : State) (st p n : Nat) (t : Txn) (i : Nat) (c : Piece) : State :=
  let u : Txn := { t with pieces := t.pieces.set i { c with released := true, status := some stFENCED } }
  let open_ := u.pieces.any (fun d => d.status.isNone)
  if u.opc = opGWR then s.putTxn st p n none
  else if u.phase == .posted then
    if u.ack then s.putTxn st p n (some { u with status := stFENCED, phase := if open_ then .posted else .ready })
    else
      let s1 := s.postedNotice st p u.opc u.addr u.tag u.part u.attr u.set stFENCED (c.die * 256 + c.stop)
      s1.putTxn st p n (if open_ then some u else none)
  else if open_ then s.putTxn st p n (some u)
  else
    match u.settle with
    | none => s.putTxn st p n none
    | some v => s.finish st p n v

/-- The lock a GLP-2 port holds as an initiator, after a request to a target is released (R197). -/
def State.noteLock (s : State) (st p : Nat) (t : Txn) (c : Piece) : State :=
  if p < 2 ∧ portGen st p = 1 then
    let v := s.port st p
    if t.attrBit attrLock && t.opc != opUNLOCK then s.setPort st p { v with holdsLock := some (c.die, c.stop, c.port) }
    else if v.holdsLock = some (c.die, c.stop, c.port) then s.setPort st p { v with holdsLock := none }
    else s
  else s

/-- What step 3 to 5 of R175 and Table 13.4 say of one piece. -/
inductive RelRes where
  | go | wait | held | fenced
  deriving DecidableEq, Repr

/-- Whether piece `i` of a decoded request may be released now. -/
def State.relCheck (s : State) (st p : Nat) (t : Txn) (i : Nat) (c : Piece) : RelRes :=
  let cls := opClass t.opc
  if s.fenced st c.die c.stop c.port && cls != clsRSP && cls != clsMGMT then
    (if wakeable cls c.port then .held else .fenced)
  else if t.ord && !ordPermits (s.txns st p) t i c then .wait
  else if s.pendHolds st cls c.die c.stop then .wait
  else if !s.rspRoom st p t then .wait
  else if t.kept && 512 < s.keepUsed st + c.plen + 1 then .wait
  else .go

/-- One piece goes into its injection queue (R112, R175, R189). -/
def State.sendPiece (s : State) (st p n : Nat) (t : Txn) (i : Nat) (c : Piece) : State :=
  let ts := s.txns st p
  let seq := t.ord && !opBE t.opc
  let key := oseqKey st p c
  let o := Tab.get (fun _ => 0) s.ni.oseq key
  let c := { c with oseq := if seq then o else 0, sstart := t.ord && startsSeq ts c, released := true }
  let s := if seq then
      { s with ni := { s.ni with oseq := Tab.set (fun _ => 0) s.ni.oseq key ((o + 1) % 64) } } else s
  let ps := t.pieces.set i c
  let all := ps.all (·.released)
  let u : Txn := { s.armed st t with
    pieces := ps
    phase := if all && opPosted t.opc then .posted else .released
    ack := t.ack || (all && opPosted t.opc && decide (p < 2) && !t.acked)
    status := if all && opPosted t.opc && !t.permit.isEmpty then stACCERR else t.status
    resv := if t.resv = 0 then t.rspNeed else t.resv
    stamps := if t.stamps.length = 1 then t.stamps ++ [s.stamp st] else t.stamps
    data := if t.data.isEmpty && t.reads then List.replicate t.rspNeed 0 else t.data }
  let ctx := if t.opc = opGWR then (s.injEntry st p t).map (fun a => s.fld a 16 6) else none
  let s := s.putTxn st p n (if t.opc = opGWR ∧ all then none else some u)
  (s.noteLock st p t c).offerOn st p (s.piecePkt st p u c false) ctx false
    (if t.opc = opGWR then .flow (t.sub % 1024) else .plain)

/-- Release, in address order, of every piece that may go; the request stops at the first that may
not. `fuel` bounds the pieces visited. -/
def releasePieces (st p n : Nat) : Nat → State → State
  | 0, s => s
  | fuel + 1, s =>
    match (s.txns st p)[n]? with
    | none => s
    | some t =>
      match t.pieces.zipIdx.find? (fun c => !c.1.released) with
      | none => s
      | some (c, i) =>
        match s.relCheck st p t i c with
        | .go =>
          let s1 := s.sendPiece st p n t i c
          if (s1.txns st p).length < (s.txns st p).length then s1 else releasePieces st p n fuel s1
        | .wait => s
        | .held =>
          (s.putTxn st p n (some (if t.opc = opGWR then t else s.armed st t))).wakeFor st c.die c.stop c.port
        | .fenced =>
          let s1 := s.fenceFail st p n t i c
          if (s1.txns st p).length < (s.txns st p).length then s1 else releasePieces st p n fuel s1

/-- A captured request that nothing keeps from step 2: its tag is neither haunted nor busy (R174,
R194), and on GLP-2 no earlier request of the port waits (R175). -/
def State.mayStart (s : State) (st p : Nat) (t : Txn) : Bool :=
  let ts := s.txns st p
  !ts.any (fun u => u.blocksTag && u.tag == t.tag && u.order != t.order)
    && !(portGen st p == 1 && p < 2 && ts.any (fun u => decide (u.order < t.order)
      && (u.phase == .captured || (u.phase == .released && u.pieces.any (fun c => !c.released)))))

/-- Index of the request with a tag that has still something to release. -/
def State.relIndex (s : State) (st p tag : Nat) : Option Nat :=
  ((s.txns st p).zipIdx.find? (fun e => e.1.tag == tag &&
    (e.1.phase == .captured ||
      (e.1.phase == .released && e.1.pieces.any (fun c => !c.released))))).map (·.2)

/-- The release of one request as far as it goes. -/
def State.release (s : State) (st p tag : Nat) : State :=
  match s.relIndex st p tag with
  | none => s
  | some n =>
    match (s.txns st p)[n]? with
    | none => s
    | some t =>
      if t.phase == .captured && !s.mayStart st p t then s
      else if t.phase == .captured && t.pieces.isEmpty then
        match s.decodeTxn st p t with
        | (none, s1) => s1.putTxn st p n none
        | (some u, s1) =>
          if u.phase == .captured then releasePieces st p n 17 (s1.putTxn st p n (some u))
          else s1.finish st p n (if opPosted u.opc then { u with ack := true } else u)
      else releasePieces st p n 17 s

/-- The parts of the state that the transaction layer may change. -/
def State.keepTxn (s t : State) : State :=
  { s with regs := t.regs, ni := t.ni, recs := t.recs, pmu := t.pmu, pw := t.pw }

/-- A command of a port exists only where Table 1.2 gives the port; ports 2 and 3 are everywhere. -/
def portThere (st p : Nat) : Bool := 2 ≤ p || portGen st p != 0

/-- REQUEST_RELEASE (R172, R174 to R176, R178, R183, R189 to R191, R197, R202 to R224, R246, R356,
R363): the request of port `p` with tag `tag`, generation included, passes the steps of R175. -/
def execRequestRelease (st : StopNo) (p : Fin 4) (tag : Fin 4096) (s : State) :
    Host.Outcome State Fault Refusal :=
  if portThere st.val p.val then .next (s.keepTxn (s.release st.val p.val tag.val))
  else .fault .absentPort

/-- INJ_QUEUE_ADMIT (R112 to R115, R179): the first packet in the receive stage of a port enters its
queue. -/
def execInjQueueAdmit (st : StopNo) (p : Fin 4) (s : State) : Host.Outcome State Fault Refusal :=
  if portThere st.val p.val then .next (s.keepTxn (s.admitHeld st.val p.val)) else .fault .absentPort

end Sys2Proof.Machine
end

