-- ==== Sys2Proof/Machine/Txn.lean ====
section
/-! DEFINITION. Refusals and grants (R180 to R188), completions (R191 to R196, R207, R216, R223), locks
(R198), sample records (R498, R499), and the commands of the transaction layer. -/
namespace Sys2Proof.Machine
open Sys2Proof

/-! ### Finding and withdrawing -/

/-- A response packet is consumed: the copy in the response store is taken out. -/
def State.takeRsp (s : State) (st : Nat) (p : Pkt) : State :=
  s.setRspIn st ((s.rspIn st).erase p)

/-- A released piece that an answer with this ADDR belongs to (R207). -/
def Piece.awaits (c : Piece) (addr : Nat) : Bool := c.released && c.status.isNone && c.addr == addr

/-- Index of the transaction an answer belongs to, among those in a phase that `ok` names. -/
def State.txnFor (s : State) (st p tag addr : Nat) (ok : TxPhase → Bool) : Option Nat :=
  ((s.txns st p).zipIdx.find? (fun e => e.1.tag == tag && ok e.1.phase
    && e.1.pieces.any (fun c => c.awaits addr))).map (·.2)

/-- The packet in queue `q` that carries a tag of a port and an address. -/
def QPkt.isFor (e : QPkt) (p tag addr : Nat) : Bool :=
  let h := Pkt.head e.slots
  h.cls != clsRSP && e.port == p && h.tag == tag && h.addr == addr

/-- The injection of a packet ends or never begins: it is taken out of its queue or receive stage, and
a direction held by it is free (R49, R68). With `part` false a part-injected packet stays. -/
def State.withdraw (s : State) (st p tag addr : Nat) (part : Bool) : State :=
  let goes (e : QPkt) : Bool := e.isFor p tag addr && (part || e.next == 0)
  let s := (s.queuesOf st).foldl (fun (s : State) q =>
    if q.2.any goes then
      let headGoes := match q.2 with
        | e :: _ => goes e
        | [] => false
      let s := s.setInjq st q.1 (q.2.filter (fun e => !goes e))
      if headGoes then
        forUpTo 4 (fun d s =>
          if (s.dir st d).hold = some q.1 then s.setDir st d { s.dir st d with hold := none } else s) s
      else s
    else s) s
  s.setHeld st p ((s.heldAt st p).filter (fun h =>
    !((Pkt.head h.slots).cls != clsRSP && (Pkt.head h.slots).tag == tag && (Pkt.head h.slots).addr == addr)))

/-- Pending-list entries of a transaction become void (R185, R192, R200). -/
def State.voidPend (s : State) (st p tag : Nat) : State :=
  let keys := (s.ni.pend.filter (fun e => st * 3072 ≤ e.1 && e.1 < st * 3072 + 3072)).map (·.1 - st * 3072)
  keys.foldl (fun (s : State) k => s.setPend st k ((s.pend st k).map (fun e =>
    if e.port = p ∧ e.tag = tag then { e with void := true } else e))) s

/-- The haunt of a tag ends, or will not begin once its TIMEOUT is handed over (R194). -/
def State.unhaunt (s : State) (st p tag : Nat) : State :=
  s.setTxns st p (((s.txns st p).filter (fun t => !(t.phase == .haunt && t.tag == tag))).map (fun t =>
    if t.phase = .ready ∧ t.tag = tag then { t with haunts := false } else t))

/-- A piece goes back to the state before its release: the request is held (Table 13.4). -/
def Txn.unrelease (t : Txn) (i : Nat) (c : Piece) : Txn :=
  let ps := t.pieces.set i { c with released := false, resent := false, injected := 0 }
  if ps.any (fun d => d.released) then { t with pieces := ps }
  else { t with pieces := ps, phase := .captured, resv := 0, ack := false }

/-! ### RETRY, GRANT and GRELEASE at the source -/

/-- The refused copy at its source (R68, R183, R194, Table 13.4). -/
def State.retryAt (s : State) (st : Nat) (h : Slot) : State :=
  let key := recNo h.sdie h.sstop
  let p := h.dport
  let add (s : State) (void : Bool) : State :=
    s.setPend st key (s.pend st key ++
      [{ port := p, tag := h.tag, addr := h.addr, void := void, granted := none }])
  let live : TxPhase → Bool := fun ph => match ph with
    | .released => true
    | .posted => true
    | _ => false
  match s.txnFor st p h.tag h.addr live with
  | some n =>
    match (s.txns st p)[n]? with
    | none => add s true
    | some t =>
      match t.pieces.zipIdx.find? (fun c => c.1.awaits h.addr) with
      | none => add s true
      | some (c, i) =>
        let s := s.withdraw st p h.tag h.addr true
        let t := { t with retries := t.retries + 1 }
        if s.fenced st c.die c.stop c.port then
          if wakeable (opClass t.opc) c.port then
            (add (s.putTxn st p n (some (t.unrelease i c))) true).wakeFor st c.die c.stop c.port
          else add (s.fenceFail st p n t i c) true
        else add (s.putTxn st p n (some t)) false
  | none =>
    add ((s.withdraw st p h.tag h.addr true).unhaunt st p h.tag) true

/-- The source consumes a RETRY (R182, R183). -/
def State.retryTaken (s : State) (st : Nat) (p : Pkt) : State :=
  ((s.takeRsp st p).txnCnt st 4).retryAt st (Pkt.head p)

/-- RETRY_RECEIVE (R68, R177, R182, R183, R194, R196, R356, R387): the source consumes a RETRY of its control entries. -/
def execRetryReceive (st : StopNo) (p : Pkt) (s : State) : Host.Outcome State Fault Refusal :=
  if (s.rspIn st.val).contains p then
    let t := s.retryTaken st.val p
    .next { s.keepTxn t with ring := t.ring }
  else .next s

/-- The oldest entry of a pending list that no grant has reached yet. -/
def firstUngranted (l : List Pend) : Option (Pend × Nat) :=
  l.zipIdx.find? (fun e => e.1.granted.isNone)

/-- A grant answered at its source (R185). -/
def State.grantAt (s : State) (st : Nat) (h : Slot) : State :=
  let key := recNo h.sdie h.sstop
  let k := st * 3072 + key
  if Tab.get (fun _ => 0) s.ni.lastG k = h.gnum + 1 then s
  else
    let s := { s with ni := { s.ni with lastG := Tab.set (fun _ => 0) s.ni.lastG k (h.gnum + 1) } }
    let back (s : State) : State := s.sendCtl st opGRELEASE h.sdie h.sstop h.gnum 0
    match firstUngranted (s.pend st key) with
    | none => back s
    | some (e, i) =>
      if e.void then back (s.setPend st key ((s.pend st key).eraseIdx i))
      else s.setPend st key ((s.pend st key).set i { e with granted := some h.gnum })

/-- GRANT_RECEIVE (R177, R185, R196): the source answers a GRANT once. -/
def execGrantReceive (st : StopNo) (p : Pkt) (s : State) : Host.Outcome State Fault Refusal :=
  if (s.rspIn st.val).contains p then .next (s.keepTxn ((s.takeRsp st.val p).grantAt st.val (Pkt.head p)))
  else .next s

/-- The granted packet at the head of the pending list for a target stop is sent again with GRNT = 1,
once RESEND_HOLD has passed since the refused copy's last injected slot (R68, R114, R185). One whose
entry became void after its grant is answered with GRELEASE. -/
def State.resendNow (s : State) (st die stop : Nat) : State :=
  let key := recNo die stop
  match (s.pend st key).zipIdx.find? (fun e => e.1.granted.isSome) with
  | none => s
  | some (e, i) =>
    let g := e.granted.getD 0
    let gone (s : State) : State := s.setPend st key ((s.pend st key).eraseIdx i)
    if e.void then (gone s).sendCtl st opGRELEASE die stop g 0
    else
      match s.txnFor st e.port e.tag e.addr (fun ph => ph == .released || ph == .posted) with
      | none => (gone s).sendCtl st opGRELEASE die stop g 0
      | some n =>
        match (s.txns st e.port)[n]? with
        | none => s
        | some t =>
          match t.pieces.zipIdx.find? (fun c => c.1.awaits e.addr) with
          | none => s
          | some (c, j) =>
            if s.frame.rcs - c.lastInj < s.fld (stopReg st sDEFL_CTRL) 16 16 then s
            else
              let c := { c with resent := true, injected := 0, grantBy := some (die, stop, g) }
              let s := (gone s).putTxn st e.port n (some { t with pieces := t.pieces.set j c })
              s.offer st e.port (s.piecePkt st e.port t c true) none true

/-- RESEND (R68, R114, R178, R185): the re-send of a granted packet to target stop (die, stop). -/
def execResend (st : StopNo) (die : Fin 16) (stop : StopNo) (s : State) :
    Host.Outcome State Fault Refusal :=
  .next (s.keepTxn (s.resendNow st.val die.val stop.val))

/-! ### Grants at the target -/

/-- The next record in rotation that waits for a grant (R184). -/
def State.nextGrant (s : State) (st : Nat) : Option (Nat × Retry) :=
  let rot := Tab.get (fun _ => 0) s.ni.grot st
  let ws := (s.retriesOf st).filter (fun e => decide (0 < e.2.count) && !e.2.gout)
  match ws.find? (fun e => rot < e.1) with
  | some e => some e
  | none => ws.head?

/-- The next record in rotation is granted when entries for its size class are free (R184). -/
def State.grantIssue (s : State) (st : Nat) : State :=
  match s.nextGrant st with
  | none => s
  | some (n, r) =>
    if 128 < s.reqUsed st + classSlots r.sz then s
    else
      let g := (r.gnum + 1) % 16
      let s := s.setRetry st n
        { r with gout := true, gnum := g, resv := classSlots r.sz, sent := s.frame.rcs
                 gsz := r.sz, limit := s.fld (stopReg st sGRANT_CTRL) 0 20 }
      let s := { s with ni := { s.ni with grot := Tab.set (fun _ => 0) s.ni.grot st n } }
      (s.txnCnt st 1).sendCtl st opGRANT (n / 192) (n % 192) g r.sz

/-- GRANT_ISSUE (R184). -/
def execGrantIssue (st : StopNo) (s : State) : Host.Outcome State Fault Refusal :=
  .next (s.keepTxn (s.grantIssue st.val))

/-- A GRELEASE at the target that granted (R186). -/
def State.greleaseAt (s : State) (st : Nat) (h : Slot) : State :=
  let n := recNo h.sdie h.sstop
  let r := s.retry st n
  if r.gout ∧ r.gnum = h.gnum then
    (s.setRetry st n { r with gout := false, resv := 0, count := r.count - 1 }).txnCnt st 3
  else s

/-- GRELEASE_RECEIVE (R177, R186). -/
def execGreleaseReceive (st : StopNo) (p : Pkt) (s : State) : Host.Outcome State Fault Refusal :=
  if (s.rspIn st.val).contains p then .next (s.keepTxn ((s.takeRsp st.val p).greleaseAt st.val (Pkt.head p)))
  else .next s

/-- The GRELEASE that answers a record's GRANT waits among the control entries (R196). -/
def State.releaseWaits (s : State) (st n : Nat) (r : Retry) : Bool :=
  (s.rspIn st).any (fun p => let h := Pkt.head p
    h.opc == opGRELEASE && recNo h.sdie h.sstop == n && h.gnum == r.gnum)

/-- GRANT_TO (R184, R196): GRANT_TO rc have passed since the record's GRANT, and the same GRANT is sent again. -/
def execGrantTo (st : StopNo) (rcd : Fin 3072) (s : State) : Host.Outcome State Fault Refusal :=
  let st := st.val
  let n := rcd.val
  let r := s.retry st n
  if r.gout ∧ r.limit ≤ s.frame.rcs - r.sent ∧ !s.releaseWaits st n r then
    let s1 := s.setRetry st n { r with sent := s.frame.rcs }
    let s2 := ((s1.txnCnt st 1).txnCnt st 2).sendCtl st opGRANT (n / 192) (n % 192) r.gnum r.gsz
    .next (s.keepTxn (s2.raise st (recGen 3 sevCORRECTED caGRANT_TO none
      (specGen 0 0 0 (peerOf (n / 192) (n % 192) 3) 0 0 0))))
  else .next s

/-- One record at the sweep (R187): what it becomes, and whether it was cleared. -/
def Retry.sweep (r : Retry) : Retry × Bool :=
  if r.count = 0 ∧ !r.gout ∧ r.slots ≠ 0 ∧ r.age then ({ r with slots := 0, age := true }, true)
  else ({ r with age := true }, false)

/-- A record whose word the memory could not correct: the spec does not say what it then holds (R188). -/
def Retry.ofWord (v : Nat) : Retry :=
  { count := v % 8192, slots := (BitVec.ofNat 16 (v / 8192)).toInt, sz := v / 2 ^ 29 % 4, gout := v / 2 ^ 31 % 2 = 1
    gnum := v / 2 ^ 32 % 16, age := v / 2 ^ 36 % 2 = 1, resv := 0, sent := 0, gsz := 0, limit := 0 }

/-- What the record memory's code finds at a record (R188): a corrected error is flagged; with an uncorrectable one the
record is lost. -/
def State.recMem (s : State) (st : Nat) (e : Fin 3072 × Bool) : State :=
  if e.2 then s.raiseFlag (stopReg st sRTY_STAT) 24
  else
    let (v, s) := s.freeNext
    ((s.setRetry st e.1.val (Retry.ofWord (Config.freeNat v))).raiseFlag (stopReg st sRTY_STAT) 25).raise st
      (recGen 3 sevFATAL caRTY_REC_UE none (specGen 0 0 0 (peerOf (e.1.val / 192) (e.1.val % 192) 3) 0 0 0))

/-- RETRY_SWEEP (R187, R188, R196): REASM_LIMIT rc have passed since the last sweep. The sweep reads every
record. -/
def execRetrySweep (sw : SweepIn) (s : State) : Host.Outcome State Fault Refusal :=
  let st := sw.st.val
  let last := Tab.get (fun _ => 0) s.ni.swept st
  if s.fld (stopReg st sRING_CTRL) 0 20 ≤ s.frame.rcs - last then
    let s0 := sw.errs.foldl (fun (t : State) e => t.recMem st e) s
    let rs := s0.retriesOf st
    let s1 : State := { s0 with ni := { s0.ni with
      swept := Tab.set (fun _ => 0) s0.ni.swept st s.frame.rcs, aged := Tab.set (fun _ => false) s0.ni.aged st true } }
    let t := rs.foldl (fun (t : State) e =>
      let (r, cleared) := e.2.sweep
      let t := t.setRetry st e.1 r
      if cleared then t.txnCnt st 10 else t) s1
    .next { s.keepTxn t with free := t.free }
  else .next s

/-! ### Completions at the source -/

/-- Data blocks placed from block `k` on. -/
def placeData (d : List (BitVec 512)) (k : Nat) (x : List (BitVec 512)) : List (BitVec 512) :=
  x.zipIdx.foldl (fun acc e =>
    if k + e.2 < acc.length then acc.set (k + e.2) e.1 else acc ++ [e.1]) d

/-- One piece of a transaction is answered. -/
def Txn.answer (t : Txn) (i : Nat) (c : Piece) (pkt : Pkt) (now : Nat) : Txn :=
  let h := Pkt.head pkt
  let st := if h.attrBit attrPois ∧ h.status = stOK then stPOISON else h.status
  { t with
    pieces := t.pieces.set i { c with status := some st }
    data :=
      if t.pieces.length = 1 then (if h.opc = opCMP_D then pkt.map (·.pay) else [])
      else if h.opc = opCMP_D then placeData t.data c.skip (pkt.map (·.pay))
      else t.data
    pois := t.pois || h.attrBit attrPois
    sub := if t.isMsg then t.sub else h.sub
    stamps := (t.stamps.take 3) ++ [now]
    last := pkt.getLast? }

/-- A completion that comes after its TIMEOUT (R193, R194). -/
def State.lateRsp (s : State) (st p : Nat) (h : Slot) : State :=
  (s.txnCnt st 6).raise st (recGen p sevCORRECTED caLATE_RSP (some h.part)
    (specGen h.addr h.opc h.tag (peerOf h.sdie h.sstop h.sport) 0 h.status 0))

/-- A response of an old generation (R153, R200): counted and discarded. -/
def State.staleRsp (s : State) (st p : Nat) (h : Slot) : State :=
  let s := if p < 2 then s.count (portReg st p pCNT2) 16 8 1 else s
  match s.txnFor st p h.tag h.addr (· == .stale) with
  | none => s
  | some n =>
    match (s.txns st p)[n]? with
    | none => s
    | some t =>
      let u : Txn := { t with pieces := t.pieces.map (fun c =>
        if c.awaits h.addr then { c with status := some h.status } else c) }
      s.putTxn st p n (if u.pieces.any (fun c => c.released && c.status.isNone) then some u else none)

/-- A completion at its source NI. -/
def State.complete (s : State) (st : Nat) (pkt : Pkt) : State :=
  let h := Pkt.head pkt
  let p := h.dport
  let answer (n : Nat) : State :=
    match (s.txns st p)[n]? with
    | none => s
    | some t =>
      match t.pieces.zipIdx.find? (fun c => c.1.awaits h.addr) with
      | none => s
      | some (c, i) =>
        if t.phase == .posted then s.putTxn st p n none
        else s.putTxn st p n (t.answer i c pkt (s.stamp st)).settle
  match s.txnFor st p h.tag h.addr (fun ph => ph == .released) with
  | some n => answer n
  | none =>
    match s.txnFor st p h.tag h.addr (fun ph => ph == .posted) with
    | some n =>
      match (s.txns st p)[n]? with
      | some t => if opPosted t.opc then s.lateRsp st p h else answer n
      | none => s
    | none =>
      if p < 2 && h.tag / 1024 != (s.port st p).tgen then s.staleRsp st p h
      else
        (s.unhaunt st p h.tag).lateRsp st p h

/-- COMPLETION_RECEIVE (R153, R178, R190, R193, R194, R207, R216, R223): a CMP or CMP_D reaches its
source. A completion with the tag of an acknowledged posted write is none of its. -/
def execCompletionReceive (st : StopNo) (p : Pkt) (s : State) : Host.Outcome State Fault Refusal :=
  if (s.rspIn st.val).contains p then .next (s.keepTxn ((s.takeRsp st.val p).complete st.val p)) else .next s

/-- The PWACK of a posted request ends it; a status other than OK is a notice to its agent (R174, R231). One that comes
after the expiry of its timer finds nothing (log entry 151). -/
def State.pwackAt (s : State) (st : Nat) (h : Slot) : State :=
  let q := h.dport
  match s.txnFor st q h.tag h.addr (fun ph => ph == .posted || ph == .released) with
  | none => s
  | some n =>
    match (s.txns st q)[n]? with
    | none => s
    | some t =>
      let u : Txn := { t with pieces := t.pieces.map (fun c =>
        if c.awaits h.addr then { c with status := some h.status } else c) }
      let s2 := s.putTxn st q n (if u.phase == .posted then u.settle else some u)
      if h.status = stOK then s2 else
        s2.postedNotice st q t.opc t.addr t.tag t.part t.attr t.set h.status (h.sdie * 256 + h.sstop)

/-- PWACK_RECEIVE (R153, R174, R177, R178, R231, R265): a PWACK is consumed. -/
def execPwackReceive (st : StopNo) (p : Pkt) (s : State) : Host.Outcome State Fault Refusal :=
  if (s.rspIn st.val).contains p then .next (s.keepTxn ((s.takeRsp st.val p).pwackAt st.val (Pkt.head p)))
  else .next s

/-! ### Control entries -/

/-- A control packet: RETRY, GRANT, PWACK or GRELEASE (R177). -/
def isControl (p : Pkt) : Bool :=
  let h := Pkt.head p
  h.opc == opGRANT || h.opc == opGRELEASE || h.opc == opPWACK || (h.opc == opCMP && h.status == stRETRY)

/-- The NI consumes one control packet. -/
def State.ctlTake (s : State) (st : Nat) (p : Pkt) : State :=
  let h := Pkt.head p
  if h.opc = opCMP then s.retryTaken st p
  else
    let s := s.takeRsp st p
    if h.opc = opGRANT then s.grantAt st h else if h.opc = opGRELEASE then s.greleaseAt st h else s.pwackAt st h

/-- The control packets ejected an rc ago are consumed, 8 of them at the most (R177). -/
def State.ctlSweep (s : State) (st : Nat) : State :=
  (((s.rspIn st).filter isControl).take 8).foldl (fun (t : State) p => t.ctlTake st p) s

/-! ### Sample records -/

/-- A value that saturates at all ones of its field. -/
def satField (w x : Nat) : Nat := min x (2 ^ w - 1)

/-- Difference modulo 2^20. -/
def diff20 (a b : Nat) : Nat := (a + 2 ^ 20 - b % 2 ^ 20) % 2 ^ 20

/-- The sample record of a transaction, before LOST, SEQ and RCRC (Table 19.2). -/
def State.sampleRec (s : State) (st p : Nat) (t : Txn) (status : Nat) : BitVec 512 :=
  let rc (i : Nat) : Nat := (t.stamps.getD i 0) % 2 ^ 20
  let c := t.pieces.headD (newPiece 0 0 0 0 0 0)
  let x := !t.pieces.isEmpty && c.die != s.die
  let cross (i : Nat) : Nat := if x then (t.stamps.getD i 0) / 2 ^ 20 % 2 ^ 20 else rc i
  let rcs (i : Nat) : Nat := (t.stamps.getD i 0) / 2 ^ 40
  let inj := decide (3 ≤ t.stamps.length)
  let (arr, svc, sd, rd) := match t.last with
    | some l => (fieldOf l.ext 26 20, fieldOf l.ext 46 18, l.sdefl, l.defl)
    | none => (0, 0, 0, 0)
  let tgt (v : Nat) : Nat := if t.last.isSome then v else 0
  BitVec.ofNat 512 (packFields
    [((s.localTs st).count.toNat, 64), (s.die, 4), (st, 8), (p, 2), (t.part, 12), (t.tag, 12),
     (t.pctag, 48), (t.addr, 52), (t.opc, 6), (status, 4), (peerOf c.die c.stop c.port, 14),
     (t.attr % 16, 4), (t.plen, 6), (if 2 ≤ t.stamps.length then satField 20 (rcs 1 - rcs 0) else 0, 20),
     (if inj then satField 20 (rcs 2 - rcs 1) else 0, 20), (tgt (diff20 (arr + 1) (cross 2)), 20),
     (tgt svc, 18), (tgt (diff20 (cross 3 + 1) (arr + svc)), 20), (satField 20 (s.frame.rcs - rcs 0), 20),
     (sd, 4), (rd, 4), (satField 4 t.retries, 4), (boolNat x, 1), (boolNat t.last.isNone, 1),
     (boolNat (decide (1 < t.pieces.length)), 1)])

def State.sampleQ (s : State) (st : Nat) : List (BitVec 512) := Tab.get (fun _ => []) s.pmu.recQ st

/-- Sample-record writes of the stop that wait for injection (R499); the model marks them in the tag
state's unused `pctag` of port 2. -/
def State.sampleWrites (s : State) (st : Nat) : Nat :=
  ((s.txns st 2).filter (fun t => t.opc == opBWR_P && t.pctag == 1
    && t.pieces.all (fun c => c.injected == 0))).length

/-- A sample record joins the NI's queue of 4, or is dropped (R498, R499). -/
def State.sampleOut (s : State) (st : Nat) (r : BitVec 512) : State :=
  if (s.sampleQ st).length + s.sampleWrites st < 4 then
    { s with pmu := { s.pmu with recQ := Tab.set (fun _ => []) s.pmu.recQ st (s.sampleQ st ++ [r]) } }
  else
    let s := s.count (stopReg st sSMP_STAT) 24 8 1
    { s with pmu := { s.pmu with lostNi := Tab.set (fun _ => false) s.pmu.lostNi st true } }

/-- Entries of the sample buffer. -/
def State.sampleSize (s : State) : Nat := 2 ^ (s.fld gSAMPLE_BUF_SIZE 0 4 + 6)

/-- A transaction that port 2 of a stop issues (R499, R265, R282). -/
def State.engineIssue (s : State) (st : Nat) (t : Txn) : State :=
  let ts := s.txns st 2
  s.setTxns st 2 (ts ++ [{ t with tag := freeTag ts 1024 }])

/-- SAMPLE_INDEX_ALLOC (R499, R502): the allocator serves the next asking stop in rotation. -/
def execSampleIndexAlloc (s : State) : Host.Outcome State Fault Refusal :=
  match ((List.range 192).map (fun i => (s.pmu.rot + 1 + i) % 192)).find?
      (fun st => !(s.sampleQ st).isEmpty) with
  | none => .next s
  | some st =>
    match s.sampleQ st with
    | [] => .next s
    | r :: rest =>
      let s1 := { s with pmu := { s.pmu with
        recQ := Tab.set (fun _ => []) s.pmu.recQ st rest, rot := st } }
      let head := s.fld gSAMPLE_HEAD 0 20
      let size := s.sampleSize
      if (head + size - s.fld gSAMPLE_TAIL 0 20 % size) % size = size - 1 then
        let s2 := (s1.raiseFlag gSAMPLE_STAT 0).count gSAMPLE_STAT 16 16 1
        .next (s.keepTxn { s2 with pmu := { s2.pmu with lostBuf := true } })
      else
        let lost := s.pmu.lostBuf || Tab.get (fun _ => false) s.pmu.lostNi st
        let b := withField (withField r 369 1 (boolNat lost)) 370 24 s.pmu.alloc
        let b := withField b 480 32 (crc32c 60 (b.toNat % 2 ^ 480))
        let s2 := s1.setFld gSAMPLE_HEAD 0 20 ((head + 1) % size)
        let s2 := { s2 with pmu := { s2.pmu with
          alloc := s.pmu.alloc + 1, lostBuf := false
          lostNi := Tab.set (fun _ => false) s2.pmu.lostNi st false } }
        let t := newTxn s2 st 2 0 opBWR_P (s.fld gSAMPLE_BUF_BASE 0 32 * 2 ^ 20 + 64 * head) 63 0 1
          (s.fld gSAMPLE_CTRL 0 12) 0 1 [(b, BitVec.allOnes 64)]
        .next (s.keepTxn (s2.engineIssue st { t with gen := 0 }))

/-! ### COMPLETION_DELIVER -/

/-- Data as handed over: forbidden bytes zero (R223); zero where a port cannot carry poison (R161). -/
def State.outData (s : State) (st p : Nat) (t : Txn) : List (BitVec 512) :=
  if t.data.isEmpty || t.last.isNone then t.data
  else if p < 2 && t.pois && !(portGen st p == 3 || (portGen st p == 2 && s.parityOn st p)) then
    t.data.map (fun _ => 0)
  else if t.permit.isEmpty then t.data
  else t.data.zipIdx.map (fun e =>
    let m := t.permit.getD e.2 0
    BitVec.ofNat 512 ((List.range 64).map (fun n =>
      if bitOf m n then fieldOf e.1 (8 * n) 8 * 2 ^ (8 * n) else 0)).sum)

/-- A transaction whose completion, or acknowledgement, waits to be handed over. -/
def Txn.deliverable (t : Txn) : Bool :=
  match t.phase with
  | .ready => true
  | .posted => t.ack
  | _ => false

/-- GLP-2 delivers in issue order (R151). -/
def State.inTurn (s : State) (st p : Nat) (t : Txn) : Bool :=
  !(portGen st p == 1 && p < 2 && (s.txns st p).any (fun u => u.holdsTag && decide (u.order < t.order)))

/-- `n` beats of 32 bytes from half `a0` of the first block on (R148). -/
def halvesFrom (a0 n : Nat) (blocks : List (BitVec 512)) : List (BitVec 512) :=
  (List.range n).map fun j =>
    BitVec.ofNat 512 ((blocks.getD ((a0 + j) / 2) 0).toNat / 2 ^ (256 * ((a0 + j) % 2)) % 2 ^ 256)

/-- The data beats of a response or of its blocks at a port's width (R147, R148): a message starts at byte 0, a request's
data at its first byte, and a dataless response is one beat of zero. -/
def Txn.rspBeats (gen : Nat) (t : Txn) (blocks : List (BitVec 512)) : List (BitVec 512) :=
  if blocks.isEmpty then [0]
  else if gen = 1 then
    if t.isMsg then halvesFrom 0 (min (t.len / 32 + 1) (2 * blocks.length)) blocks
    else halvesFrom (t.addr / 32 % 2) ((t.addr % 32 + t.len) / 32 + 1) blocks
  else blocks

/-- The orsp beats of a completion (Table 6.6, R161): a tag on every generation, which GLP-2 has no wires for. -/
def State.rspOut (s : State) (st p : Nat) (t : Txn) : List OutBeat :=
  let g := portGen st p
  let pois := t.pois || t.status == stPOISON
  let bs := t.rspBeats g (s.outData st p t)
  bs.zipIdx.map fun e =>
    OutBeat.seal g (pois && g == 2 && s.parityOn st p)
      (.orsp (t.tag % 1024) t.status e.1 (e.2 + 1 == bs.length) (pois && g == 3)
        (if t.isMsg then 0 else t.sub % 65536) 0)

/-- The completion of a transaction is handed over; its reservation is freed with its last beat (R176, R194). -/
def State.handOver (s : State) (st p n : Nat) (t : Txn) : State :=
  let stays : Option Txn :=
    match t.phase with
    | .posted => some { t with ack := false, acked := true }
    | _ => if t.haunts then some { t with phase := .haunt, resv := 0, timer := false } else none
  let s := if bitOf (BitVec.ofNat 8 t.attr) attrSmpl then s.sampleOut st (s.sampleRec st p t t.status) else s
  let s := s.putTxn st p n stays
  if 2 ≤ p then s
  else
    (s.setPort st p { s.port st p with sendResv := t.resv }).drive st p (s.rspOut st p t)

/-- Tags of port 2 whose completion the queue engine takes itself: walks, page moves and device accesses
(R278, R280, R282). -/
def State.engineTags (s : State) (st : Nat) : List Nat :=
  (Tab.get (fun _ => []) s.qe.walks st).map (fun (w : QWalk) => w.tag)
    ++ (Tab.get (fun _ => []) s.qe.moves st).flatMap (fun (m : QMove) => m.tags)
    ++ (Tab.get (fun _ => []) s.qe.ops st).filterMap (fun (o : QOp) => o.dev)

/-- Tags of a port whose completion a unit of the NI takes by a command of its own: the queue engine's at port 2, and
Hearth's log writes and routed ENQs at its port 3 (R473, R479). -/
def State.unitTags (s : State) (st p : Nat) : List Nat :=
  if p = 2 then s.engineTags st
  else if p = 3 ∧ st = hearthStop then (s.recs.writes.filter (fun w => !w.done)).map (·.tag) ++ s.recs.perr
  else []

/-- COMPLETION_DELIVER (R144, R151, R161, R168, R176, R498): the completion of the transaction with tag
`tag` is handed to the orsp crossing FIFO once that has an entry for it; at ports 2 and 3 the NI's own unit consumes
it. -/
def execCompletionDeliver (st : StopNo) (p : Fin 4) (tag : Fin 4096) (s : State) :
    Host.Outcome State Fault Refusal :=
  let st := st.val
  let p := p.val
  if !portThere st p then .fault .absentPort
  else if p < 2 ∧ ((s.port st p).state ≠ 2 ∨ (s.port st p).stopLvl ∨ !s.outFree st p .orsp) then .next s
  else if (s.unitTags st p).contains tag.val then .next s
  else
    match (s.txns st p).zipIdx.find? (fun e => e.1.tag == tag.val && e.1.deliverable) with
    | none => .next s
    | some (t, n) =>
      if s.inTurn st p t then .next (s.keepTxn (s.handOver st p n t)) else .next s

/-! ### Timers and locks -/

/-- The expiry of one transaction's timer (R192, R194, R231, R359). -/
def State.expire (s : State) (st p n : Nat) (t : Txn) : State :=
  let c := t.pieces.headD (newPiece 0 0 0 0 0 0)
  let waits := t.phase == .captured
  let fenceHeld := waits && !t.pieces.isEmpty && s.fenced st c.die c.stop c.port
  let s := s.raise st (recGen p sevCONTAINED (if fenceHeld then caFENCE_HOLD else caCTO) (some t.part)
    (specGen 0 0 t.tag (peerOf c.die c.stop c.port) 0 0 (opClass t.opc)))
  let s := s.txnCnt st 5
  let s := t.pieces.foldl (fun (s : State) d => (s.backGrant st d).withdraw st p t.tag d.addr false) s
  let s := s.voidPend st p t.tag
  let went := t.pieces.any (fun d => d.injected != 0 || d.resent)
  match t.phase with
  | .posted =>
    (s.postedNotice st p t.opc t.addr t.tag t.part t.attr t.set stTIMEOUT (c.die * 256 + c.stop)).putTxn st p n
      (if t.ack then some { t with phase := .ready } else none)
  | _ => s.finish st p n { t with
      phase := .ready, status := walkStatus t.attr stTIMEOUT, haunts := !waits && went, timer := false
      data := if t.reads then List.replicate t.rspNeed 0 else [], pois := false, last := none
      ack := t.ack || opPosted t.opc }

/-- The transaction's timer has reached its limit at a µs tick that has crossed (R191). -/
def State.overdue (s : State) (t : Txn) : Bool := t.timer && decide (t.due ≤ 400 * s.cdc.us)

/-- The response store holds what completes every piece of the transaction: it wins over the expiry (R193, R196). -/
def State.answered (s : State) (st p : Nat) (t : Txn) : Bool :=
  t.pieces.any (fun c => c.status.isNone) && t.pieces.all (fun c => c.status.isSome || (c.released &&
    (s.rspIn st).any (fun q => let h := Pkt.head q
      h.dport == p && h.tag == t.tag && h.addr == c.addr && h.status != stRETRY
        && (h.opc == opCMP || h.opc == opCMP_D || h.opc == opPWACK))))

/-- RETRYs that wait for a tag are recorded before its timer expires (R196). -/
def State.retriesFirst (s : State) (st p tag : Nat) : State :=
  ((s.rspIn st).filter (fun q => let h := Pkt.head q
    h.opc == opCMP && h.status == stRETRY && h.dport == p && h.tag == tag)).foldl
      (fun (t : State) q => t.retryTaken st q) s

/-- A phase in which the timer runs that CTO names: with `held`, of a request that waits for its release. -/
def TxPhase.timed (held : Bool) : TxPhase → Bool
  | .captured => held
  | .released | .posted | .stale => !held
  | .ready | .haunt => false

/-- CTO (R191 to R194, R196, R231, R359): the completion timer of a transaction of port `p` expires. `held`
names the one that waits for its release, where the tag also names an earlier one. -/
def execCto (st : StopNo) (p : Fin 4) (tag : Fin 4096) (held : Bool) (s : State) :
    Host.Outcome State Fault Refusal :=
  let st := st.val
  let p := p.val
  if !portThere st p then .fault .absentPort
  else
    let s1 := s.retriesFirst st p tag.val
    match (s1.txns st p).zipIdx.find? (fun e => e.1.tag == tag.val && s1.overdue e.1 && e.1.phase.timed held) with
    | none => .next s
    | some (t, n) =>
      if s1.answered st p t then .next s
      else
        let u := if t.phase == .stale then s1.putTxn st p n none else s1.expire st p n t
        .next { s.keepTxn u with ring := u.ring }

/-- A lock is broken: the owner's next request to the port gets LOCKED (R198). -/
def State.breakLock (s : State) (st k : Nat) : State :=
  let v := s.port st k
  match v.lockedBy with
  | none => s
  | some o =>
    ((s.setPort st k { v with lockedBy := none, brokenFor := v.brokenFor ++ [o] }).txnCnt st 7).raise st
      (recGen k sevCONTAINED caLOCK_BREAK (some (s.curPart st k)) (specGen 0 0 0 (peerOf o.die o.stop o.port) 0 0 0))

/-- A request that ends the port's lock has been admitted (R196, R197). -/
def State.unlockWaits (s : State) (st k : Nat) : Bool :=
  (s.inbox st k).any (fun d => let h := Pkt.head d.slots
    (s.port st k).lockedBy == some { h.src with tag := 0 } && !(h.attrBit attrLock && h.opc != opUNLOCK))

/-- LOCK_BREAK (R196, R198): LOCK_TO has passed since the lock of port `k` was taken. -/
def execLockBreak (st : StopNo) (k : PortNo) (s : State) : Host.Outcome State Fault Refusal :=
  let st := st.val
  let k := k.val
  if portGen st k = 0 then .fault .absentPort
  else if (s.port st k).lockedBy.isNone ∨ s.cdc.hct < (s.port st k).lockDue ∨ s.unlockWaits st k then .next s
  else .next (s.keepTxn (s.breakLock st k))

end Sys2Proof.Machine
end

