-- ==== Sys2Proof/Machine/Port.lean ====
section
/-! DEFINITION. The target side of an agent port (R149, R152, R158, R161, R197, R201), its sideband,
timers and filters (R156, R164, R165), and its crossing: resets, resynchronisation, recovery, stopped
clocks and Bellows (R334 to R343). -/
namespace Sys2Proof.Machine
open Sys2Proof

/-! ### Requests to the agent -/

/-- `oreq_len` in bytes minus 1 of a request (R147). -/
def oreqLen (h : Slot) : Nat :=
  if opBE h.opc then 64 * (h.plen + 1) - h.addr % 64 - 1 else h.rlen

/-- The GLP-2 bursts of a request: first byte and bytes of each (R149). -/
def bursts (h : Slot) : List (Nat × Nat) := granules 17 h.addr (oreqLen h + 1)

/-- The data beats of one burst of `n` bytes from address `a` on, `i0` the slot of its first block: data and byte enables
(R147, R148). A packet without byte enables has them all. -/
def odatBeats (gen : Nat) (slots : List Slot) (a n i0 : Nat) : List (BitVec 512 × BitVec 64) :=
  let be (x : Slot) : BitVec 64 := if opBE x.opc then x.ext else BitVec.allOnes 64
  if gen = 1 then
    (List.range ((a % 32 + n - 1) / 32 + 1)).map fun j =>
      let h := a / 32 % 2 + j
      let x := slots.getD (i0 + h / 2) closedSlot
      (BitVec.ofNat 512 (x.pay.toNat / 2 ^ (256 * (h % 2)) % 2 ^ 256),
       BitVec.ofNat 64 ((be x).toNat / 2 ^ (32 * (h % 2)) % 2 ^ 32))
  else slots.map (fun x => (x.pay, be x))

/-- The oreq beat and the odat beats of one burst (Tables 6.4 and 6.5). With `inv` a GLP-3 port marks the data as poison
by its parity (R161). -/
def burstOut (gen ttag : Nat) (inv : Bool) (slots : List Slot) (a n i0 : Nat) : List OutBeat :=
  let h := Pkt.head slots
  let hdr := OutBeat.seal gen false (.oreq h.opc ttag h.cls a (if gen = 1 then (a % 32 + n - 1) / 32 else n - 1)
    (h.attr % 4) (peerOf h.sdie h.sstop h.sport) (if gen = 3 then h.part else 0) (if opBE h.opc then 0 else h.sub) 0)
  let ds := odatBeats gen slots a n i0
  if opCarriesData h.opc then
    hdr :: ds.zipIdx.map (fun e => OutBeat.seal gen inv
      (.odat e.1.1 e.1.2 (e.2 + 1 == ds.length) (h.attrBit attrPois && gen == 3) 0))
  else [hdr]

/-- The bursts of a request toward its agent: one, or on GLP-2 those of R149. -/
def outBursts (gen : Nat) (h : Slot) : List (Nat × Nat) := if gen = 1 then bursts h else [(h.addr, oreqLen h + 1)]

/-- What a port drives on oreq and odat for one request (Tables 6.4 and 6.5). -/
def State.oreqOf (s : State) (st k ttag : Nat) (slots : List Slot) : List OutBeat :=
  let g := portGen st k
  let h := Pkt.head slots
  (outBursts g h).flatMap fun b =>
    burstOut g ttag (g == 2 && s.parityOn st k && h.attrBit attrPois) slots b.1 b.2 (b.1 / 64 - h.addr / 64)

/-- A request whose agent answers it (Table 7.1). -/
def wantsRsp (opc : Nat) : Bool := !opPosted opc && opc != opGWR

/-- The port can carry poison toward its agent (Table 6.12). -/
def State.poisonOk (s : State) (st k : Nat) : Bool :=
  portGen st k == 3 || (portGen st k == 2 && s.parityOn st k)

/-- The owner of the port's lock, if the slot comes from it. -/
def State.ownsLock (s : State) (st k : Nat) (h : Slot) : Bool :=
  (s.port st k).lockedBy == some { h.src with tag := 0 }

/-- The lock ends with the owner's request that carries no LOCK, or with UNLOCK (R197). -/
def State.endLock (s : State) (st k : Nat) (h : Slot) : State :=
  if s.ownsLock st k h && !(h.attrBit attrLock && h.opc != opUNLOCK) then
    s.setPort st k { s.port st k with lockedBy := none } else s

/-- A packet in the stores that may go to the agent now: in its turn, no notification, and not kept by
another source's lock (R189, R198, R233). -/
def State.mayDeliver (s : State) (st : Nat) (d : Deliv) : Bool :=
  let h := Pkt.head d.slots
  !d.early && h.opc != opNOTIFY && !s.lockRefuses st h

/-- Least target tag in use by no request of the port. -/
def freeTtag (ts : List TTxn) : Nat :=
  (firstBelow 1024 (fun n => !(ts.any (fun t => t.ttag == n)))).getD 0

/-- Record of a notice at the target (R231, R161). -/
def State.targetNotice (s : State) (st : Nat) (h : Slot) (status : Nat) : State :=
  s.raise st (recGen h.dport sevCONTAINED caPOSTED_ERR (some h.part) (BitVec.ofNat 256
    (faultBits h.addr h.opc h.tag h.part h.attr false false 6 0 0 h.dport status (h.sdie * 256 + h.sstop))))

/-- The NI answers a request itself instead of its agent. -/
def State.answerSelf (s : State) (st : Nat) (d : Deliv) (status : Nat) : State :=
  let h := Pkt.head d.slots
  s.offer st h.dport (mkRsp s.die st (d.slots.getLastD h) opCMP status (status == stPOISON) 0 d.arr [0]) none false

/-- The packet that the port takes next: one of a guaranteed flow ahead of every other class (R101), else the first to
have arrived. -/
def State.nextDeliv (s : State) (st k : Nat) : Option (Deliv × Nat) :=
  let es := (s.inbox st k).zipIdx.filter (fun e => s.mayDeliver st e.1)
  match es.find? (fun e => (Pkt.head e.1.slots).cls == clsGUAR) with
  | some e => some e
  | none => es.head?

/-- The request's beats enter the oreq and odat FIFOs; until its data has wholly transferred it stays under way (R201). -/
def State.present (s : State) (st k ttag : Nat) (d : Deliv) : State :=
  let h := Pkt.head d.slots
  let v := s.port st k
  let more := if opCarriesData h.opc then (outBursts (portGen st k) h).map (fun _ => h) else []
  (s.setPort st k { v with away := v.away ++ more }).drive st k (s.oreqOf st k ttag d.slots)

/-- The oreq FIFO, and for a request with data the odat FIFO, may be handed it. -/
def State.mayPresent (s : State) (st k : Nat) (h : Slot) : Bool :=
  s.outFree st k .oreq && (!opCarriesData h.opc || s.outFree st k .odat)

/-- Data that the port cannot hand on poisoned is not forwarded (R161); an ATOM gets SLVERR (R199). -/
def State.dropPoison (s : State) (st k : Nat) (d : Deliv) : State :=
  let h := Pkt.head d.slots
  let s := s.raise st (recGen k sevDEFERRED caPOISON_DROP (some h.part)
    (specGen h.addr h.opc h.tag (peerOf h.sdie h.sstop h.sport) 0 0 0))
  (if h.opc = opATOM then s.answerSelf st d stSLVERR
   else if wantsRsp h.opc then s.answerSelf st d stPOISON
   else if opPostedWr h.opc then s.targetNotice st h stPOISON else s).endLock st k h

/-- The next packet of a port goes to its agent, or is answered in its place. The bursts of a GLP-2 request count once
against TGT_MAX_M1 + 1 (R152, log entry 149). -/
def State.oreqDeliver (s : State) (st k : Nat) : State :=
  match s.nextDeliv st k with
  | none => s
  | some (d, i) =>
    let h := Pkt.head d.slots
    let g := portGen st k
    let s0 := s.setInbox st k ((s.inbox st k).eraseIdx i)
    let v := s.port st k
    if v.brokenFor.contains { h.src with tag := 0 } then
      let s1 := s0.setPort st k { v with brokenFor := v.brokenFor.erase { h.src with tag := 0 } }
      if wantsRsp h.opc then s1.answerSelf st d stLOCKED else if opPostedWr h.opc then s1.targetNotice st h stLOCKED else s1
    else if h.opc = opATOM ∧ g = 1 then s0.answerSelf st d stSLVERR
    else if opCarriesData h.opc && h.attrBit attrPois && !s.poisonOk st k then s0.dropPoison st k d
    else if !s.mayPresent st k h then s
    else if wantsRsp h.opc then
      let ts := s.ttxns st k
      if s.fld (portReg st k pCFG) 16 10 < ts.length then s
      else
        let tag := if g = 1 then 0 else freeTtag ts
        let t : TTxn := { ttag := tag, head := d.slots.getLastD h, bursts := (outBursts g h).length, status := stOK,
                          data := [], stamp := d.arr }
        (s0.setTtxns st k (ts ++ [t])).present st k tag d
    else (s0.present st k 0 d).endLock st k h

/-- OREQ_DELIVER (R101, R145, R147, R149, R152, R161, R197, R198, R231): the NI presents a request to its
agent. -/
def execOreqDeliver (st : StopNo) (k : PortNo) (s : State) : Host.Outcome State Fault Refusal :=
  if portGen st.val k.val = 0 then .fault .absentPort
  else if (s.port st.val k.val).state ≠ 2 ∨ (s.port st.val k.val).stopLvl then .next s
  else .next (s.keepPort (s.oreqDeliver st.val k.val))

/-! ### Responses from the agent -/

/-- A GLP-3 rsp beat whose 64 data-byte parity bits, bytes 2 to 65, are all wrong is poison (R161). -/
def rspInv (gen : Nat) (r : RspIn) (b : Beat) : Bool :=
  gen == 2 && (List.range 64).all (fun i => (parityBad (packRsp gen r b) 68 b.par.toNat).contains (i + 2))

/-- The check of one rsp beat: its data bytes are bytes 2 to 65 (R160, log entry 7). -/
def rspErr (gen : Nat) (r : RspIn) (b : Beat) : BeatErr :=
  let bad := parityBad (packRsp gen r b) 68 b.par.toNat
  beatErr true 2 66 (if rspInv gen r b then bad.filter (fun i => i < 2 || 66 ≤ i) else bad)

/-- The agent's beats say poison (Table 6.12). -/
def State.rspPoison (s : State) (st k : Nat) (r : RspIn) : Bool :=
  let g := portGen st k
  if g = 3 then r.beats.any (·.pois) else s.parityOn st k && r.beats.any (rspInv g r)

/-- Data blocks of a response (R147, R148). -/
def rspBlocks (gen addr : Nat) (bs : List Beat) : List (BitVec 512) := (beatSlots gen addr bs).map (·.1)

/-- Burst `i` of a request at its target. -/
def burstAt (h : Slot) (i : Nat) : Nat × Nat := (bursts h).getD i (h.addr, oreqLen h + 1)

/-- A request that is answered with data whatever its response says (Table 7.1). -/
def opDataRsp (opc : Nat) : Bool := [opRD, opRD_NC, opATOM, opBRD].contains opc

/-- The response to a request carries data: by its opcode, or, to CREQ and SNP, as the agent says (R171, log entry 6). -/
def rspHasData (opc : Nat) (tells : Bool) : Bool := opDataRsp opc || ((opc == opCREQ || opc == opSNP) && tells)

/-- The burst of a target request that is answered next. -/
def burstNow (t : TTxn) : Nat × Nat := burstAt t.head ((bursts t.head).length - t.bursts)

/-- Beats a response with data must have: one for each block that the presented address and oreq_len touch (R147,
log entry 137). -/
def rspBeatsOf (gen : Nat) (t : TTxn) : Nat :=
  if t.head.opc = opATOM ∨ t.head.opc = opSNP then 1
  else if gen = 1 then ((burstNow t).1 % 32 + (burstNow t).2 - 1) / 32 + 1
  else (t.head.addr % 64 + oreqLen t.head) / 64 + 1

/-- A response whose beat count is right: that of its data, or one beat where it has none or reports an error
(R163). -/
def rspCountOk (gen : Nat) (t : TTxn) (r : RspIn) : Bool :=
  if rspHasData t.head.opc r.hasData then
    r.beats.length == rspBeatsOf gen t || (r.status != stOK && r.beats.length == 1)
  else r.beats.length == 1

/-- A target request is answered to its requester, with CMP_D where its completion carries data: a block that the agent
did not send is zero (R114, R171, R176, R197, R497, R534). -/
def State.answerTarget (s : State) (st k : Nat) (t : TTxn) (status sub : Nat) (data : List (BitVec 512))
    (pois : Bool) : State :=
  let n := if t.head.opc = opATOM ∨ t.head.opc = opSNP then 1 else t.head.plen + 1
  let body := (List.range n).map (fun i => data.getD i 0)
  let s := s.offer st k (if rspHasData t.head.opc (!data.isEmpty) then
      mkRsp s.die st t.head opCMP_D status pois sub t.stamp body
    else mkRsp s.die st t.head opCMP status pois sub t.stamp [0]) none false
  s.endLock st k t.head

/-- Blocks placed from block `k` on. -/
def putBlocks (d : List (BitVec 512)) (k : Nat) (x : List (BitVec 512)) : List (BitVec 512) :=
  (List.range (max d.length (k + x.length))).map fun i =>
    if k ≤ i && decide (i < k + x.length) then d.getD i 0 ||| x.getD (i - k) 0 else d.getD i 0

/-- The response, after the checks of its channel, with its status (Table 6.13, R149). The data of a GLP-2 burst stands
at the blocks that the burst covers. -/
def State.takeRspIn (s : State) (st k : Nat) (i : Nat) (t : TTxn) (r : RspIn) (status : Nat) (pois : Bool) :
    State :=
  let ts := s.ttxns st k
  let g := portGen st k
  let at_ := if g = 1 then (burstNow t).1 / 64 - t.head.addr / 64 else 0
  let data := if rspHasData t.head.opc r.hasData && !r.beats.isEmpty then
      putBlocks t.data at_ (rspBlocks g (if g = 1 then (burstNow t).1 else 0) r.beats) else t.data
  let merged := if t.status = stOK then status else t.status
  if t.bursts ≤ 1 then
    (s.setTtxns st k (ts.eraseIdx i)).answerTarget st k t merged r.sub data pois
  else s.setTtxns st k (ts.set i { t with bursts := t.bursts - 1, status := merged, data := data })

/-- The target request that a response names: by its tag, or on GLP-2 the oldest (R152). -/
def State.ttxnFor (s : State) (st k tag : Nat) : Option (TTxn × Nat) :=
  if portGen st k = 1 then (s.ttxns st k).zipIdx.head?
  else (s.ttxns st k).zipIdx.find? (fun e => e.1.ttag == tag)

/-- A response whose parity allows it: stray, or with its status checked (Table 6.13). -/
def State.checkRsp (s : State) (st k : Nat) (r : RspIn) (force pois : Bool) : State :=
  match s.ttxnFor st k r.tag with
  | none =>
    let s := (s.raiseFlag (portReg st k pERR) 5).count (portReg st k pCNT2) 8 8 1
    s.raise st (recGen k sevCONTAINED caSTRAY_RSP (some (s.curPart st k)) (specGen 0 0 r.tag 0 0 0 0))
  | some (t, i) =>
    let proto (s : State) : State := (s.portErr st k 2 8).portRec st k sevCONTAINED caPORT_PROTO
      t.head.part t.head.addr t.head.opc r.tag r.status
    let wrong := !lastRight r.beats || !rspCountOk (portGen st k) t r
    let odd := r.status != stOK && r.status != stDECERR && r.status != stSLVERR
    let s := if wrong || odd then proto s else s
    s.takeRspIn st k i t r (if force || wrong || odd then stSLVERR else r.status) (pois || s.rspPoison st k r)

/-- A response that has crossed (R160, R163, R166). -/
def State.captureRsp (s : State) (st k : Nat) (r : RspIn) : State :=
  let g := portGen st k
  let h : HdrRec := { part := s.curPart st k, addr := 0, opc := 0, tag := r.tag, status := r.status }
  let raw := packFields [(r.tag, tagWidth g), (r.status, 4)]
  let (o, s) := s.parCheck st k h raw true r.stable (r.beats.map (rspErr g r))
  match o.fate with
  | .fwd => s.checkRsp st k r o.force o.pois
  | _ => s

/-- AGENT_RESPONSE (R2, R114, R143, R144, R149, R152, R160, R161, R163, R171, R197, R199, R329, R497, R534): the agent
returns a response on rsp. With `rsp_ready` low nothing transfers. -/
def execAgentResponse (st : StopNo) (k : PortNo) (r : RspIn) (s : State) :
    Host.Outcome State Fault Refusal :=
  let st := st.val
  let k := k.val
  if portGen st k = 0 then .fault .absentPort
  else if !s.takes st k (.rsp r) then .next s
  else .next (s.keepPort (s.arrive st k (.rsp r) (fun u => u.captureRsp st k r)))

/-! ### Messages and notifications -/

/-- Record bits [51:0] of a NOTIFY and whether two notifications merge (R158). -/
def Ntf.sameAs (a b : Ntf) : Bool := a.rcd % 2 ^ 22 == b.rcd % 2 ^ 22

/-- A NOTIFY that has been answered waits in the notify stage, merges, or is discarded (R158). -/
def State.stageNotify (s : State) (st k : Nat) (h : Slot) : State :=
  let v := s.port st k
  let n : Ntf := { rcd := h.addr, src := peerOf h.sdie h.sstop h.sport, part := h.part }
  if v.state = 0 ∨ v.state = 1 then s.count (portReg st k pCNT2) 24 7 1
  else if v.ntf.any (fun m => m.sameAs n) then s
  else s.setPort st k { v with ntf := v.ntf ++ [n] }

/-- NOTIFY (R158, R265): the oldest NOTIFY in a target port's store is answered with PWACK and queued
for delivery. While the stage of 16 is full it stays in the request store, unless it merges. -/
def execNotify (st : StopNo) (k : PortNo) (s : State) : Host.Outcome State Fault Refusal :=
  let st := st.val
  let k := k.val
  if portGen st k = 0 then .fault .absentPort
  else
    match (s.inbox st k).zipIdx.find? (fun e => (Pkt.head e.1.slots).opc == opNOTIFY && !e.1.early) with
    | none => .next s
    | some (d, i) =>
      let h := Pkt.head d.slots
      let v := s.port st k
      let merges := v.ntf.any (fun m => m.sameAs { rcd := h.addr, src := 0, part := 0 })
      if 16 ≤ v.ntf.length && !merges && v.state != 0 && v.state != 1 then .next s
      else
        let s1 := s.setInbox st k ((s.inbox st k).eraseIdx i)
        .next (s.keepPort ((s1.respond st h opPWACK stOK).stageNotify st k h))

/-- The first notification of the stage is handed to its channel, once that has an entry for it. -/
def State.popNtf (s : State) (st k : Nat) (c : Chan) (m : Ntf → OutBeat) : State :=
  let v := s.port st k
  match v.ntf with
  | [] => s
  | n :: rest =>
    if s.outFree st k c then (s.setPort st k { v with ntf := rest }).drive st k [OutBeat.seal (portGen st k) false (m n)]
    else s

/-- The beat that presents a notification on the sideband, and on omsg: 8 bytes (R147, R158, R265). -/
def Ntf.onSide (n : Ntf) : OutBeat := .ntf (n.rcd % 2 ^ 20) (n.rcd / 2 ^ 20 % 4) 0
def Ntf.onMsg (n : Ntf) : OutBeat := .omsg opNOTIFY n.src 7 0 (BitVec.ofNat 512 (n.rcd % 2 ^ 52)) true 0

/-- NTF_DELIVER (R158, R159, R265, R328): the notification at the head of the stage is presented on the GLP-4
sideband. -/
def execNtfDeliver (st : StopNo) (k : PortNo) (s : State) : Host.Outcome State Fault Refusal :=
  let st := st.val
  let k := k.val
  if portGen st k = 0 then .fault .absentPort
  else if portGen st k ≠ 3 ∨ (s.port st k).state ≠ 2 ∨ (s.port st k).stopLvl then .next s
  else .next (s.keepPort (s.popNtf st k .ntf Ntf.onSide))

/-- OMSG_DELIVER (R147, R158, R159, R265): at a GLP-2 or GLP-3 port the notification is a message of 8 bytes. -/
def execOmsgDeliver (st : StopNo) (k : PortNo) (s : State) : Host.Outcome State Fault Refusal :=
  let st := st.val
  let k := k.val
  if portGen st k = 0 then .fault .absentPort
  else if portGen st k = 3 ∨ (s.port st k).state ≠ 2 ∨ (s.port st k).stopLvl then .next s
  else .next (s.keepPort (s.popNtf st k .omsg Ntf.onMsg))

/-! ### The partition-change sideband -/

/-- PARTITION_CHANGE (R156, R160, R163): `pchg_valid` is sampled with a new partition and its parity. -/
def execPartitionChange (st : StopNo) (k : PortNo) (part : Fin 4096) (par : Fin 4) (s : State) :
    Host.Outcome State Fault Refusal :=
  let st := st.val
  let k := k.val
  if portGen st k = 0 then .fault .absentPort
  else if portGen st k ≠ 3 ∨ (s.port st k).state ≠ 2 then .next s
  else
    let v := s.port st k
    match v.pchg with
    | some _ =>
      .next (s.keepPort ((s.portErr st k 2 8).portRec st k sevCONTAINED caPORT_PROTO part.val 0 0 0 0))
    | none =>
      let bad := !(parityBad part.val 2 par.val).isEmpty
      let s1 := s.setPort st k { v with pchg := some part.val, pchgBad := bad, pchgAck := false, pchgErr := false }
      .next (s.keepPort (if bad then
        (s1.portErr st k 0 0).portRec st k sevCORRECTED caPORT_PARITY part.val 0 0 0 0 else s1))

/-- PCHG_SWAP (R156, R227, R229, R235): the change is carried out or refused, and acknowledged, or still waits. -/
def execPchgSwap (st : StopNo) (k : PortNo) (s : State) : Host.Outcome State Fault Refusal :=
  if portGen st.val k.val = 0 then .fault .absentPort
  else if (s.sideband st.val k.val).isNone then .next s
  else .next (s.keepPort (s.swapDecide st.val k.val))

/-! ### Filters and handshake timers -/

/-- GLITCH (R164): a level seen in one sample only is ignored, flagged, counted and recorded. -/
def execGlitch (st : StopNo) (k : PortNo) (which : AsyncIn) (s : State) : Host.Outcome State Fault Refusal :=
  let st := st.val
  let k := k.val
  let code := match which with
    | .rstN => 0
    | .stopReq => 1
    | .bellowsAck => 2
  if portGen st k = 0 then .fault .absentPort
  else .next (s.keepPort (((s.raiseFlag (portReg st k pERR) 8).count (portReg st k pCNT2) 0 8 1).raise st
    (recGen k sevCORRECTED caGLITCH (some (s.curPart st k)) (specGen 0 0 0 0 0 0 code))))

/-- A handshake timeout is flagged, counted and recorded (R165). -/
def State.hsTimeout (s : State) (st k flag : Nat) (c : Chan) : State :=
  (s.portErr st k flag 24).raise st
    (recGen k sevCONTAINED caHS_TIMEOUT (some (s.curPart st k)) (specGen 0 0 0 0 0 0 (chanCode c)))

/-- A request or message whose header transferred and whose rest did not: it is answered with PROTERR (R165, R334). -/
def State.cutShort (s : State) (st k : Nat) (c : Chan) (tag opc addr part : Nat) : State :=
  let s := (s.hsTimeout st k 6 c).noteTag st k (s.captureTag st k tag)
  s.refuseTxn st k (newTxn s st k (s.captureTag st k tag) opc addr 0 0 0 (s.portPart st k part) 0 0 []) stPROTERR

/-- HS_TIMEOUT_IN (R145, R165, R166): an inbound packet was not finished within IN_TO. Its beats are consumed; dat beats
without a header are given up. -/
def execHsTimeoutIn (st : StopNo) (k : PortNo) (part : HsPart) (s : State) :
    Host.Outcome State Fault Refusal :=
  let st := st.val
  let k := k.val
  let v := s.port st k
  if portGen st k = 0 then .fault .absentPort
  else if v.state ≠ 2 then .next s
  else
    match part with
    | .dat =>
      if v.early.isEmpty then .next s
      else .next (s.keepPort ((s.setPort st k { v with early := [] }).hsTimeout st k 6 .dat))
    | .req q =>
      let e := if opCarriesData q.opc then (cutLast v.early).2 else v.early
      .next (s.keepPort ((s.setPort st k { v with early := e }).cutShort st k .req q.tag q.opc q.addr q.part))
    | .msg m => .next (s.keepPort (s.cutShort st k .msg m.tag m.opc m.qaddr m.part))
    | .rsp r =>
      let s1 := s.hsTimeout st k 6 .rsp
      match s1.ttxnFor st k r.tag with
      | none => .next (s.keepPort s1)
      | some (t, i) => .next (s.keepPort (s1.takeRspIn st k i t { r with beats := [] } stSLVERR false))

/-- HS_TIMEOUT_OUT (R165, R166): a beat offered outward has waited longer than OUT_TO; one record for
each beat. -/
def execHsTimeoutOut (st : StopNo) (k : PortNo) (c : Chan) (s : State) : Host.Outcome State Fault Refusal :=
  let st := st.val
  let k := k.val
  let v := s.port st k
  if portGen st k = 0 then .fault .absentPort
  else if v.state ≠ 2 ∨ (v.offered (portGen st k) c).isNone ∨ (v.fifo c).late then .next s
  else .next (s.keepPort ((s.setPort st k (v.setFifo c { v.fifo c with late := true })).hsTimeout st k 7 c))

/-! ### Resets and recovery -/

/-- Requests still outstanding at the agent are answered with SLVERR, a posted write whose data had not wholly
transferred gets a notice, the lock is broken, and one TGT_RESET record is written (R201); with `gone`, no agent reset
and the record is written only if a request was cut off. -/
def State.settleTarget (s : State) (st k : Nat) (gone : Bool) : State :=
  let ts := s.ttxns st k
  let v := s.port st k
  let s1 : State := ts.foldl (fun (t : State) x =>
    t.offer st k (mkRsp t.die st x.head opCMP stSLVERR false 0 x.stamp [0]) none false)
    (s.setTtxns st k [])
  let s2 := (v.away.filter (fun h => opPostedWr h.opc)).eraseDups.foldl (fun (t : State) h => t.targetNotice st h stSLVERR)
    (s1.setPort st k { s1.port st k with away := [] })
  let s3 := if gone && ts.isEmpty && v.away.isEmpty then s2
    else s2.raise st (recGen k sevCONTAINED caTGT_RESET (some (s.curPart st k)) 0)
  s3.breakLock st k

/-- A posted write that has been acknowledged stays the NI's to complete (R153, R174, R200). -/
def Txn.own (t : Txn) : Bool := t.phase == .posted || (t.acked && (t.phase == .captured || t.phase == .released))

/-- What becomes of one initiator transaction at its port's reset (R200). -/
def Txn.atReset (t : Txn) : Option Txn :=
  if t.own then some { t with ack := false, acked := true }
  else
    match t.phase with
    | .stale => some t
    | .released =>
      if t.pieces.any (fun c => c.injected != 0 || c.resent) then some { t with phase := .stale } else none
    | _ => none

/-- The UNLOCK the NI sends on a port's behalf, an ORD request in the port's sequence (R189, R200; TAG: log entry
152). -/
def unlockTxn (s : State) (st k : Nat) (h : Nat × Nat × Nat) : Txn :=
  { newTxn s st k (s.captureTag st k 0) opUNLOCK 0 0 0 64 (s.curPart st k) 0 0 [] with
    pieces := [newPiece 0 0 h.1 h.2.1 h.2.2 0] }

/-- It is sent, and its CMP is the NI's to consume. -/
def State.sendUnlock (s : State) (st k : Nat) (h : Nat × Nat × Nat) : State :=
  let n := (s.txns st k).length
  let s := s.addTxn st k (unlockTxn s st k h)
  match (s.txns st k)[n]? with
  | none => s
  | some t =>
    let s := s.sendPiece st k n t 0 (newPiece 0 0 h.1 h.2.1 h.2.2 0)
    s.setTxns st k ((s.txns st k).zipIdx.map (fun e => if e.2 = n then { e.1 with phase := .posted } else e.1))

/-- The initiator side at a reset of the port's agent (R200). -/
def State.settleInitiator (s : State) (st k : Nat) : State :=
  let ts := s.txns st k
  let withdrawn := (ts.filter (fun t => t.phase == .released && t.atReset.isNone))
  let s1 : State := withdrawn.foldl (fun (u : State) t =>
    (t.pieces.foldl (fun (u : State) c => u.withdraw st k t.tag c.addr true) u).txnCnt st 8) s
  let s2 : State := (ts.filter (fun t => !t.own && t.phase != .haunt)).foldl
    (fun (u : State) t => u.voidPend st k t.tag) s1
  let s3 := s2.setTxns st k (ts.filterMap Txn.atReset)
  match (s.port st k).holdsLock with
  | none => s3
  | some h => s3.sendUnlock st k h

/-- The agent side of a port is gone: CLOSED, the next tag generation, R200 and R201 (R153, R168, R338). What stands in
the FIFOs stays until the resync discards it, and notifications in the stage stay (R158, log entry 153). `owed` are the answers still due to the agent. -/
def State.closePort (s : State) (st k : Nat) (owed : List (Nat × Nat)) : State :=
  let t := (s.settleInitiator st k).settleTarget st k false
  let v := t.port st k
  t.setPort st k { v with
    state := 0, tgen := (v.tgen + 1) % 4, pchg := none, pchgBad := false, pchgAck := false, pchgErr := false
    holdsLock := none, owed := owed, rsReq := false, rsAck := false, early := []
    nextTag := if portGen st k = 1 then (v.nextTag + 1) % 64 else v.nextTag }

/-- A CLOSED port whose reset is over, that is enabled and not asked to stop, at a stop whose fill has completed
(R308), enters RESYNC and raises RS_REQ (R335, Table 12.5). -/
def State.tryResync (s : State) (st k : Nat) : State :=
  let v := s.port st k
  if v.state = 0 && v.rstLvl && !v.stopLvl && s.flag (portReg st k pCFG) 0 && !s.fillBusy st then
    s.setPort st k { v with state := 1, rsReq := true, rsAck := false, rsFrom := s.her.boot.hcs, rsLate := false }
  else s

/-- No transaction of the generation after TGEN can still be answered (R153). -/
def State.genFree (s : State) (st k : Nat) : Bool :=
  !(s.txns st k).any (fun t => t.gen == ((s.port st k).tgen + 1) % 4)

/-- The resync handshake is in progress: what PORT_CDC_STAT.RS_BUSY reports. -/
def PortSt.rsBusy (v : PortSt) : Bool := v.rsReq || v.rsAck

/-- A port whose handshake is complete opens once EN and R153 allow it. -/
def State.tryOpen (s : State) (st k : Nat) : State :=
  let v := s.port st k
  if v.state = 1 && !v.rsBusy && s.flag (portReg st k pCFG) 0 && s.genFree st k && s.fabState != fabFAILED then
    s.setPort st k { v with state := 2 }
  else s

/-- PORT_RESET_ASSERT (R153, R164, R168, R200, R201, R334): the filtered reset asserts. The initiator-tag map is
clear. -/
def execPortResetAssert (x : Fin 16) (y : Fin 12) (k : PortNo) (s : State) : Host.Outcome State Fault Refusal :=
  let st := (stopXY x y).val
  let k := k.val
  if portGen st k = 0 then .fault .absentPort
  else
    let t := s.closePort st k []
    let t := t.setPort st k { t.port st k with rstLvl := false, tagMap := [] }
    .next { s.keepTxn t with ring := t.ring }

/-- PORT_RESET_DEASSERT (R164, R335, R361): the filtered reset deasserts. -/
def execPortResetDeassert (st : StopNo) (k : PortNo) (s : State) : Host.Outcome State Fault Refusal :=
  let st := st.val
  let k := k.val
  if portGen st k = 0 then .fault .absentPort
  else .next (s.keepPort ((s.setPort st k { s.port st k with rstLvl := true }).tryResync st k))

/-- The channel of each packet in the outward FIFOs; a request with data counts by its last data beat. -/
def PortSt.outPkts (v : PortSt) : List Chan :=
  outChans.flatMap fun c => ((v.queued c).filter (fun b => b.isLast && !b.dataHdr)).map (fun _ => c)

/-- `n` packets are discarded (R336). -/
def State.discardPkts (s : State) (st k : Nat) (cs : List Chan) : State :=
  cs.foldl (fun (t : State) c =>
    if c = .omsg ∨ c = .ntf then
      t.raise st (recGen k sevCONTAINED caCDC_DISCARD (some (s.curPart st k)) (specGen 0 0 0 0 0 0 (chanCode c)))
    else t) (s.count (portReg st k pCDC_CNT) 0 16 cs.length)

/-- A FIFO with no entries and one side's pointers, or both, at 0. -/
def Fifo.wiped (_ : Fifo) : Fifo := defFifo 0

/-- Step 2 of the handshake: the ac half discards the outbound FIFOs and raises RS_ACK (R335). -/
def State.resyncAc (s : State) (st k : Nat) : State :=
  let v := s.port st k
  if !v.rsReq || v.rsAck then s
  else
    (s.discardPkts st k v.outPkts).setPort st k { v with
      rsAck := true, sendResv := 0
      fifos := v.fifos.filter (fun e => e.1 < 4) }

/-- Step 3: the rc half discards the inbound FIFOs and lowers RS_REQ (R335). -/
def State.resyncRc (s : State) (st k : Nat) : State :=
  let v := s.port st k
  if !(v.rsReq && v.rsAck) then s
  else
    (s.discardPkts st k (v.inq.map inChan)).setPort st k { v with rsReq := false, inq := [], fifos := [] }

/-- Step 4: the ac half lowers RS_ACK, and the handshake is complete (R335). -/
def State.resyncEnd (s : State) (st k : Nat) : State :=
  let v := s.port st k
  if v.rsReq then s else s.setPort st k { v with rsAck := false }

/-- RESYNC_DONE (R153, R335, R336, R338): the steps of the handshake that are still to come are taken, and the port opens
where EN and R153 allow it; at a port whose handshake is over it is the opening alone. -/
def execResyncDone (x : Fin 16) (y : Fin 12) (k : PortNo) (s : State) : Host.Outcome State Fault Refusal :=
  let st := (stopXY x y).val
  let k := k.val
  if portGen st k = 0 then .fault .absentPort
  else if (s.port st k).state ≠ 1 ∨ (s.port st k).stopLvl then .next s
  else .next (s.keepPort ((((s.resyncAc st k).resyncRc st k).resyncEnd st k).tryOpen st k))

/-- RS_TO in hc (R335). -/
def rsTo : Nat := 4096

/-- RS_TIMEOUT (R335): a resync step has waited longer than RS_TO; the port keeps waiting. It is reported once. -/
def execRsTimeout (st : StopNo) (k : PortNo) (s : State) : Host.Outcome State Fault Refusal :=
  let st := st.val
  let k := k.val
  if portGen st k = 0 then .fault .absentPort
  else if (s.port st k).state = 1 ∧ (s.port st k).rsBusy ∧ !(s.port st k).rsLate
      ∧ rsTo < s.her.boot.hcs - (s.port st k).rsFrom then
    let t := s.setPort st k { s.port st k with rsLate := true }
    .next (s.keepPort ((t.raiseFlag (portReg st k pCDC_STAT) 6).raise st
      (recGen k sevCONTAINED caCDC_RS_TIMEOUT (some (s.curPart st k)) 0)))
  else .next s

/-- Sort tags ascending, once each. -/
def ascTags (l : List Nat) : List Nat := l.foldl (fun acc x => insertAsc x acc) []

/-- The tags that a recovery answers: those of the initiator-tag map, ascending; on GLP-2 in issue order (R334, R338). -/
def State.mapTags (s : State) (st k : Nat) : List Nat :=
  if portGen st k = 1 then (s.port st k).tagMap else ascTags (s.port st k).tagMap

/-- The recovery of a port (R336 to R338). -/
def State.recover (s : State) (st k : Nat) : State :=
  (s.closePort st k ((s.mapTags st k).map (fun t => (t, stSLVERR)))).tryResync st k

/-- A write pointer that the reading side of a FIFO receives is wrong: it lies behind the one before, or more than 16
entries past the read pointer (R330). -/
def Fifo.ptrBad (f : Fifo) (w : BitVec 5) : Bool :=
  decide (16 < grayGap w f.rptr) || decide (grayGap w f.rptr < grayGap f.seen f.rptr)

/-- CDC_PTR (R330, R336, R338): the reading side of a channel's FIFO receives write pointer `ptr`. A pointer error is
flagged and recorded, and the port recovers. -/
def execCdcPtr (st : StopNo) (k : PortNo) (c : Chan) (ptr : Fin 32) (s : State) : Host.Outcome State Fault Refusal :=
  let st := st.val
  let k := k.val
  let v := s.port st k
  let w := BitVec.ofNat 5 ptr.val
  if portGen st k = 0 then .fault .absentPort
  else if c = .ntf then .next s
  else if !(v.fifo c).ptrBad w then .next (s.keepPort (s.setPort st k (v.setFifo c { v.fifo c with seen := w })))
  else
    let t := ((s.raiseFlag (portReg st k pCDC_STAT) 5).raise st
      (recGen k sevCONTAINED caCDC_PTR (some (s.curPart st k)) (specGen 0 0 0 0 0 0 (chanCode c)))).recover st k
    .next { s.keepTxn t with ring := t.ring }

/-- RECOVER (R153, R200, R201, R336 to R338): a write of 1 to PORT_CDC_CMD.RECOVER. RECOVER reads 1
until the port has reopened or waits in RESYNC. An absent port's block takes no write, nor does one whose domain is
not ON (R510). -/
def execRecover (x : Fin 16) (y : Fin 12) (k : PortNo) (s : State) : Host.Outcome State Fault Refusal :=
  let st := (stopXY x y).val
  let k := k.val
  if portGen st k = 0 || !s.niOn st then .next s
  else
    let t := s.recover st k
    .next { s.keepTxn t with ring := t.ring }

/-! ### Stopped clocks and Bellows -/

/-- STOP_REQ (R164, R340): the filtered stop request rises and the inbound readies fall. -/
def execStopReq (st : StopNo) (k : PortNo) (s : State) : Host.Outcome State Fault Refusal :=
  if portGen st.val k.val = 0 then .fault .absentPort
  else .next (s.keepPort (s.setPort st.val k.val { s.port st.val k.val with stopLvl := true }))

/-- PORT_STOPPED (R340): the FIFOs of an OPEN port that was asked to stop are empty and no packet is in progress. -/
def execPortStopped (st : StopNo) (k : PortNo) (s : State) : Host.Outcome State Fault Refusal :=
  let v := s.port st.val k.val
  if portGen st.val k.val = 0 then .fault .absentPort
  else if v.state = 2 ∧ v.stopLvl ∧ v.quiet then .next (s.keepPort (s.setPort st.val k.val
      { v with state := 4, stopFrom := s.cdc.us }))
  else .next s

/-- STOP_RELEASE (R340, R335): the stop request falls; a STOPPED port returns to OPEN. -/
def execStopRelease (st : StopNo) (k : PortNo) (s : State) : Host.Outcome State Fault Refusal :=
  let v := s.port st.val k.val
  if portGen st.val k.val = 0 then .fault .absentPort
  else
    let s1 := s.setPort st.val k.val
      { v with stopLvl := false, state := if v.state = 4 then 2 else v.state }
    .next (s.keepPort (s1.tryResync st.val k.val))

/-- A packet of a waking class is due at the port (Table 12.6). -/
def State.wakeDue (s : State) (st k : Nat) : Bool :=
  (s.txns st k).any Txn.deliverable || !(s.port st k).owed.isEmpty || !(s.port st k).ntf.isEmpty
    || (s.inbox st k).any (fun d => (Pkt.head d.slots).cls != clsIO)

/-- The Bellows request rises once more (R343). -/
def State.bellowsUp (s : State) (st k : Nat) : State :=
  (s.setPort st k { s.port st k with bellows := true, wakePend := false }).count
    (portReg st k pCDC_STAT) 16 16 1

/-- BELLOWS_REQ (R332, R342, R343): a waking packet is due at a STOPPED port. An event during a
handshake is merged. -/
def execBellowsReq (st : StopNo) (k : PortNo) (s : State) : Host.Outcome State Fault Refusal :=
  let v := s.port st.val k.val
  if portGen st.val k.val = 0 then .fault .absentPort
  else if v.state ≠ 4 ∨ !s.wakeDue st.val k.val then .next s
  else if v.bellows then .next (s.keepPort (s.setPort st.val k.val { v with wakePend := true }))
  else .next (s.keepPort (s.bellowsUp st.val k.val))

/-- BELLOWS_ACK (R332, R343, R346): the acknowledgement completes the handshake; an event merged behind
it raises the request again if it is still needed. -/
def execBellowsAck (st : StopNo) (k : PortNo) (s : State) : Host.Outcome State Fault Refusal :=
  let v := s.port st.val k.val
  if portGen st.val k.val = 0 then .fault .absentPort
  else if !v.bellows then .next s
  else
    let s1 := s.setPort st.val k.val { v with bellows := false, wakePend := false }
    .next (s.keepPort (if v.wakePend ∧ v.state = 4 ∧ s.wakeDue st.val k.val then
      s1.bellowsUp st.val k.val else s1))

/-- STOPPED_TO has passed since the µs tick after the packet became due at the STOPPED port (R342). -/
def State.stoppedLong (s : State) (st k : Nat) (d : Deliv) : Bool :=
  decide (max d.tick (s.port st k).stopFrom + 1 + s.fld (portReg st k pCDC_CTRL) 0 16 ≤ s.cdc.us)

/-- STOPPED (R342): the oldest IO packet at a STOPPED port has waited STOPPED_TO. -/
def execStopped (st : StopNo) (k : PortNo) (s : State) : Host.Outcome State Fault Refusal :=
  let st := st.val
  let k := k.val
  if portGen st k = 0 then .fault .absentPort
  else if (s.port st k).state ≠ 4 then .next s
  else
    match (s.inbox st k).zipIdx.find? (fun e => (Pkt.head e.1.slots).cls == clsIO && s.stoppedLong st k e.1) with
    | none => .next s
    | some (d, i) =>
      let h := Pkt.head d.slots
      let s1 := s.setInbox st k ((s.inbox st k).eraseIdx i)
      let s2 := if wantsRsp h.opc then s1.answerSelf st d stTIMEOUT else s1
      let s3 := (s2.raiseFlag (portReg st k pCDC_STAT) 8).count (portReg st k pCDC_CNT) 16 15 1
      .next (s.keepPort ((s3.raise st (recGen k sevCONTAINED caSTOPPED (some h.part)
        (specGen h.addr h.opc h.tag (peerOf h.sdie h.sstop h.sport) 0 0 0))).endLock st k h))

/-- TICK_LOST (R333): while the ring clock is held, `n` timer ticks found 15 waiting at a stop's NI and were lost; one
record for each hold. -/
def execTickLost (st : StopNo) (n : Nat) (s : State) : Host.Outcome State Fault Refusal :=
  if !s.cdc.hold then .next s
  else
    let s1 := (s.raiseFlag gCDC_GSTAT 0).count gCDC_GSTAT 16 16 n
    let c := { s.cdc with ticks := 15 }
    if s.cdc.lost.contains st.val then .next { s with regs := s1.regs, cdc := c }
    else
      let s2 := s1.raise st.val (recGen 3 sevCORRECTED caTICK_LOST none 0)
      .next { s with regs := s2.regs, recs := s2.recs, cdc := { c with lost := s.cdc.lost ++ [st.val] } }

/-- PORT_CDC_CNT_CLEAR (R347, R510): DISC_CNT, STOPTO_CNT and WAKE_CNT return to 0, or to 1 where `ev` marks an
increment in the same rc. -/
def execPortCdcCntClear (st : StopNo) (k : PortClr 3) (s : State) : Host.Outcome State Fault Refusal :=
  let c := portReg st.val k.k.val pCDC_CNT
  if portGen st.val k.k.val = 0 || !s.niOn st.val then .next s
  else .next { s with
    regs := (((s.setFld c 0 16 (fieldOf k.ev 0 1)).setFld c 16 15 (fieldOf k.ev 1 1)).setFld
      (portReg st.val k.k.val pCDC_STAT) 16 16 (fieldOf k.ev 2 1)).regs }

end Sys2Proof.Machine
end

