-- ==== Sys2Proof/Machine/Store.lean ====
section
/-! DEFINITION. The queue store (R296 to R319): the Reed-Solomon code, its decoder, reads with their
write-backs, spares, the merge buffers, the fill, the Flux scrubber and the raw window. -/
namespace Sys2Proof.Machine
open Sys2Proof

/-! ### The field and the code -/

/-- α · a in GF(2^8) of x^8 + x^4 + x^3 + x^2 + 1 (R297). -/
def gfTwice (a : Nat) : Nat := if a < 128 then 2 * a else (2 * a) ^^^ 0x11D

/-- Product in the field, over the bits of `b`. -/
def gfMulGo : Nat → Nat → Nat → Nat → Nat
  | 0, _, _, acc => acc
  | n + 1, a, b, acc => gfMulGo n (gfTwice a) (b / 2) (if b % 2 = 1 then acc ^^^ a else acc)

def gfMul (a b : Nat) : Nat := gfMulGo 8 a b 0

/-- a^n. -/
def gfPow (a : Nat) : Nat → Nat
  | 0 => 1
  | n + 1 => gfMul a (gfPow a n)

/-- The inverse of a non-zero element. -/
def gfInv (a : Nat) : Nat := gfPow a 254

/-- Four check bytes as the division register of R297; g(x) = x^4 + 0x0F x^3 + 0x36 x^2 + 0x78 x + 0x40. -/
def rsStep (r : Nat × Nat × Nat × Nat) (d : Nat) : Nat × Nat × Nat × Nat :=
  let f := d ^^^ r.2.2.2
  (gfMul f 0x40, r.1 ^^^ gfMul f 0x78, r.2.1 ^^^ gfMul f 0x36, r.2.2.1 ^^^ gfMul f 0x0F)

/-- The check field of 32 data bytes (R297). -/
def rsCheck (d : BitVec 256) : Word32 :=
  let r := (List.range 32).foldl (fun r i => rsStep r (fieldOf d (8 * (31 - i)) 8)) (0, 0, 0, 0)
  BitVec.ofNat 32 (packFields [(r.1, 8), (r.2.1, 8), (r.2.2.1, 8), (r.2.2.2, 8)])

/-- The mask of the poison form on the check field (R301). -/
def poisMask : Word32 := 0x5AC3963C

/-- A stored word from data and check field (R296). -/
def rsWord (d : BitVec 256) (c : Word32) : BitVec 288 := BitVec.ofNat 288 (d.toNat + c.toNat * 2 ^ 256)

/-- A valid codeword, or the poison form of the data (R297, R301). -/
def rsEncode (d : BitVec 256) (pois : Bool) : BitVec 288 :=
  rsWord d (if pois then rsCheck d ^^^ poisMask else rsCheck d)

def wordData (w : BitVec 288) : BitVec 256 := BitVec.ofNat 256 w.toNat
def wordChk (w : BitVec 288) : Word32 := BitVec.ofNat 32 (w.toNat / 2 ^ 256)

/-- The power of x at which symbol `k` stands in the codeword (R297). -/
def symPos (k : Nat) : Nat := if k < 32 then k + 4 else k - 32

/-- A syndrome: the codeword polynomial at 1, α, α², α³. -/
abbrev Synd := Nat × Nat × Nat × Nat

def Synd.xor (a b : Synd) : Synd := (a.1 ^^^ b.1, a.2.1 ^^^ b.2.1, a.2.2.1 ^^^ b.2.2.1, a.2.2.2 ^^^ b.2.2.2)

def Synd.zero (a : Synd) : Bool := a == (0, 0, 0, 0)

/-- The syndrome of value `e` at symbol `k`. -/
def syndOf (k e : Nat) : Synd :=
  let x := gfPow 2 (symPos k)
  let e1 := gfMul e x
  let e2 := gfMul e1 x
  (e, e1, e2, gfMul e2 x)

/-- The syndrome of a stored word (R299). -/
def syndrome (w : BitVec 288) : Synd :=
  (List.range 36).foldl (fun s k => s.xor (syndOf k (fieldOf w (8 * k) 8))) (0, 0, 0, 0)

/-- The symbol and value of the one symbol error with this syndrome, if there is one. -/
def oneError (s : Synd) : Option (Nat × Nat) :=
  if s.1 = 0 then none
  else ((List.range 36).find? (fun k => syndOf k s.1 == s)).map (fun k => (k, s.1))

/-- The values at symbols `j` and `k` whose errors give this syndrome, if both are non-zero. -/
def pairError (s : Synd) (j k : Nat) : Option (Nat × Nat) :=
  let a := gfPow 2 (symPos j)
  let b := gfPow 2 (symPos k)
  let y := gfMul (s.2.1 ^^^ gfMul a s.1) (gfInv (a ^^^ b))
  let x := s.1 ^^^ y
  if x ≠ 0 ∧ y ≠ 0 ∧ (syndOf j x).xor (syndOf k y) = s then some (x, y) else none

/-- The two symbol errors with this syndrome, if there are such, lower symbol first. -/
def twoErrors (s : Synd) : Option (Nat × Nat × Nat × Nat) :=
  ((List.range 36).flatMap (fun j => (List.range j).map (fun i => (i, j)))).findSome? fun p =>
    (pairError s p.1 p.2).map (fun e => (p.1, e.1, p.2, e.2))

/-- A symbol of a word changed by `e`. -/
def fixSym (w : BitVec 288) (k e : Nat) : BitVec 288 := w ^^^ BitVec.ofNat 288 (e * 2 ^ (8 * k))

/-- What the decoder says of a word (R299): 0 clean, 1 corrected, 2 uncorrectable, 3 poison (the code of
QS_RAW_STAT); the two symbols of Table 11.4; and the word corrected. -/
structure Verdict where
  kind : Nat
  sym0 : Nat
  sym1 : Nat
  word : BitVec 288
  deriving DecidableEq, Repr

/-- The decoder in Guard (`reach` false) or Reach mode (R299). -/
def rsDecode (reach : Bool) (w : BitVec 288) : Verdict :=
  let s := syndrome w
  let p := s.xor (syndrome (rsWord 0 poisMask))
  if s.zero then { kind := 0, sym0 := 63, sym1 := 63, word := w }
  else if p.zero then { kind := 3, sym0 := 63, sym1 := 63, word := w }
  else
    match oneError p with
    | some (k, _) => { kind := 3, sym0 := k, sym1 := 63, word := w }
    | none =>
      match oneError s with
      | some (k, e) => { kind := 1, sym0 := k, sym1 := 63, word := fixSym w k e }
      | none =>
        match (if reach then twoErrors s else none) with
        | some (i, x, j, y) => { kind := 1, sym0 := i, sym1 := j, word := fixSym (fixSym w i x) j y }
        | none => { kind := 2, sym0 := 63, sym1 := 63, word := w }

/-! ### Stored words -/

/-- Key of a symbol: physical row 0 to 1,031 of a bank (R296, R303). -/
def memKey (st b row k : Nat) : Nat := ((st * 4 + b) * 1032 + row % 1032) * 36 + k

/-- What an unlisted symbol reads as (log entry 2). -/
def memDef (_ : Nat) : BitVec 8 := 0

/-- One symbol of the queue store. -/
def State.sym (s : State) (st b row k : Nat) : BitVec 8 := Tab.get memDef s.mem (memKey st b row k)

def State.setSym (s : State) (st b row k : Nat) (v : BitVec 8) : State :=
  { s with mem := Tab.set memDef s.mem (memKey st b row k) v }

/-- The stored word at a physical row. -/
def State.memWord (s : State) (st b row : Nat) : BitVec 288 :=
  BitVec.ofNat 288 (packFields ((List.range 36).map (fun k => ((s.sym st b row k).toNat, 8))))

def State.setMemWord (s : State) (st b row : Nat) (w : BitVec 288) : State :=
  forUpTo 36 (fun k s => s.setSym st b row k (BitVec.ofNat 8 (fieldOf w (8 * k) 8))) s

/-- QS_REMAP_b_k. -/
def remapReg (st b k : Nat) : Nat := stopReg st (sQS_REMAP + 0x20 * b + 4 * k)

/-- The active remap entry of a row (R312). -/
def State.spareOf (s : State) (st b row : Nat) : Option Nat :=
  firstBelow 8 (fun k => s.fld (remapReg st b k) 10 2 == 1 && s.fld (remapReg st b k) 0 10 == row)

/-- The physical row that serves a row (R312). -/
def State.physRow (s : State) (st b row : Nat) : Nat :=
  match s.spareOf st b row with
  | some k => 1024 + k
  | none => row

/-- Lowest free remap entry of a bank. -/
def State.freeSpare (s : State) (st b : Nat) : Option Nat :=
  firstBelow 8 (fun k => s.fld (remapReg st b k) 10 2 == 0)

/-- Reach mode at a stop (R299). -/
def State.reach (s : State) (st : Nat) : Bool := s.flag (stopReg st sQS_CTRL) 0

/-- OWNER_PART of a definition entry (Table 9.4). -/
def qeOwner (e : BitVec 256) : Nat := fieldOf e 68 12

/-- Raw mode is in force (R316). -/
def State.rawMode (s : State) (st : Nat) : Bool := s.flag (stopReg st sQS_RAW_CTRL) 0

/-- The row that a spare word serves. -/
def State.spareRow (s : State) (st b k : Nat) : Option Nat :=
  if s.fld (remapReg st b k) 10 2 = 1 then some (s.fld (remapReg st b k) 0 10) else none

/-! ### Records -/

def State.qEntry (s : State) (st q : Nat) : BitVec 256 := Tab.get (fun _ => 0) s.qe.table (st * 256 + q)
def State.setQEntry (s : State) (st q : Nat) (v : BitVec 256) : State :=
  { s with qe := { s.qe with table := Tab.set (fun _ => 0) s.qe.table (st * 256 + q) v } }
def State.qSeg (s : State) (st q : Nat) : BitVec 128 := Tab.get (fun _ => 0) s.qe.segs (st * 256 + q)
def State.resid (s : State) (st : Nat) : List Resid := Tab.get (fun _ => []) s.qe.resid st
def State.qtlb (s : State) (st : Nat) : List QtlbEnt := Tab.get (fun _ => []) s.qe.qtlb st

/-- The live queue whose DIRECT segment holds frame `f` (R273, R274). -/
def State.directOwner (s : State) (st f : Nat) : Option Nat :=
  ((s.qe.segs.filter (fun e => st * 256 ≤ e.1 && e.1 < st * 256 + 256)).find? (fun e =>
    fieldOf (s.qEntry st (e.1 - st * 256)) 0 3 != 0 && bitOf e.2 0 && fieldOf e.2 1 2 == 1
      && decide (fieldOf e.2 13 7 ≤ f) && decide (f ≤ fieldOf e.2 13 7 + fieldOf e.2 3 10))).map (·.1 - st * 256)

/-- The queue whose element or page a frame holds, as far as the engine knows (Table 11.4). -/
def State.frameQueue (s : State) (st f : Nat) : Option Nat :=
  match (s.resid st).find? (fun r => r.frame == f) with
  | some r => some r.q
  | none =>
    match s.directOwner st f with
    | some q => some q
    | none => ((s.qtlb st).find? (fun e => e.kind == 0 && decide (e.addr ≤ f) && decide (f < e.addr + 2 ^ e.n))).map (·.q)

/-- Who reads a word (Table 11.4). -/
def rdFlux : Nat := 0
def rdOp : Nat := 1
def rdMove : Nat := 2
def rdRaw : Nat := 3
def rdMerge : Nat := 4

/-- Where a word was read and by whom: logical row, bank, physical row and reader. -/
structure RdAt where
  row  : Nat
  bank : Nat
  phys : Nat
  by_  : Nat
  deriving DecidableEq, Repr

/-- The record of Table 11.4. -/
def State.qsRec (s : State) (st : Nat) (a : RdAt) (v : Verdict) (result chk : Nat) : BitVec 256 :=
  let f := (4 * a.row + a.bank) / 32
  let q := s.frameQueue st f
  BitVec.ofNat 256 (packFields
    [(a.row, 10), (a.bank, 2), (boolNat (1024 ≤ a.phys), 1), (if 1024 ≤ a.phys then a.phys - 1024 else 0, 3),
     (v.sym0, 6), (v.sym1, 6), (result, 2), (boolNat (s.reach st), 1), (a.by_, 3), (q.getD 0, 8),
     (boolNat q.isSome, 1), (f, 7), (chk, 32)])

/-- A record of the stop's queue store, raised at port 2, with the OWNER_PART of the queue that holds the frame, if
any (R469). -/
def State.qsRaise (s : State) (st sev cause : Nat) (a : RdAt) (spec : BitVec 256) : State :=
  s.raise st (recGen 2 sev cause ((s.frameQueue st ((4 * a.row + a.bank) / 32)).map (fun q => qeOwner (s.qEntry st q)))
    spec)

/-! ### Reading -/

/-- A persistent error (R312): the row moves to the lowest free spare, or stays and is reported once, in a record of
the general layout that names no field (R471). -/
def State.persist (s : State) (st : Nat) (a : RdAt) (w : BitVec 288) (v : Verdict) (chk : Nat) : State :=
  let old := a.phys - 1024
  let mapped := a.phys < 1024 || s.fld (remapReg st a.bank old) 10 2 == 1
  if !mapped then
    (if s.fld (remapReg st a.bank old) 10 2 = 0 then s.setFld (remapReg st a.bank old) 10 2 2 else s)
  else
    match (if s.flag (stopReg st sQS_CTRL) 2 then s.freeSpare st a.bank else none) with
    | some k =>
      let s := if 1024 ≤ a.phys then s.setFld (remapReg st a.bank old) 10 2 2 else s
      let s := (s.setMemWord st a.bank (1024 + k) w).setReg (remapReg st a.bank k)
        (BitVec.ofNat 32 (packFields [(a.row, 10), (1, 2), (2, 2)]))
      (s.raiseFlag (stopReg st sQS_ERR) 3).qsRaise st sevCORRECTED caQS_REMAP a
        (s.qsRec st { a with phys := 1024 + k } v 3 chk)
    | none =>
      let s := (s.raiseFlag (stopReg st sQS_STAT) (8 + a.bank)).raiseFlag (stopReg st sQS_ERR) 4
      if Tab.get (fun _ => false) s.store.fullRec (st * 4 + a.bank) then s
      else
        let s := { s with store := { s.store with
          fullRec := Tab.set (fun _ => false) s.store.fullRec (st * 4 + a.bank) true } }
        s.qsRaise st sevCORRECTED caQS_SPARE_FULL a 0

/-- A corrected error is counted, and captured and recorded unless one is captured already (R315). -/
def State.noteCe (s : State) (st : Nat) (a : RdAt) (v : Verdict) (chk : Nat) : State :=
  let s := s.count (stopReg st (sQS_CE_CNT + 4 * a.bank)) 0 32 1
  if s.flag (stopReg st sQS_ERR) 0 then s
  else
    let r := s.qsRec st a v 0 chk
    ((s.setWords (stopReg st sQS_CE_REC) (r.toNat % 2 ^ 128)).raiseFlag (stopReg st sQS_ERR) 0).qsRaise st
      sevCORRECTED caQS_CE a r

/-- An uncorrectable error is counted and recorded; the first is captured (R311, R315). -/
def State.noteUe (s : State) (st : Nat) (a : RdAt) (v : Verdict) (chk : Nat) : State :=
  let s := s.count (stopReg st (sQS_UE_CNT + 4 * a.bank)) 0 16 1
  let r := s.qsRec st a v 1 chk
  let s := if s.flag (stopReg st sQS_ERR) 1 then s
    else (s.setWords (stopReg st sQS_UE_REC) (r.toNat % 2 ^ 128)).raiseFlag (stopReg st sQS_ERR) 1
  s.qsRaise st sevDEFERRED caQS_UE a r

/-- The fault of the array at a word of this access, if the command names one. -/
def fltAt (fs : List MemFlt) (b row : Nat) : MemFlt :=
  (fs.find? (fun f => f.bank == b && f.row == row)).getD { bank := b, row := row, bits := 0, again := 0 }

/-- A word as the array returns it. -/
def State.readRaw (s : State) (fs : List MemFlt) (st b phys : Nat) : BitVec 288 :=
  s.memWord st b phys ^^^ (fltAt fs b phys).bits

/-- A decoded read, with the write-back and re-read that its verdict calls for (R302, R305, R311, R314). -/
def State.readWord (s : State) (fs : List MemFlt) (st : Nat) (a : RdAt) : Verdict × State :=
  let w := s.readRaw fs st a.bank a.phys
  let again := (fltAt fs a.bank a.phys).again
  let v := rsDecode (s.reach st) w
  let chk := (wordChk w).toNat
  if v.kind = 0 then (v, s)
  else if v.kind = 1 then
    let s := (s.noteCe st a v chk).setMemWord st a.bank a.phys v.word
    (v, if again = 0 then s else s.persist st a v.word v chk)
  else if v.kind = 2 then
    let p := rsEncode (wordData w) true
    let s := (s.noteUe st a v chk).setMemWord st a.bank a.phys p
    (v, if again = 0 then s else s.persist st a p v chk)
  else if a.by_ = rdFlux then (v, s)
  else (v, (s.count (stopReg st (sQS_UE_CNT + 4 * a.bank)) 16 16 1).raiseFlag (stopReg st sQS_ERR) 2)

/-! ### The merge buffer -/

def State.merge (s : State) (st b : Nat) : List MergeEnt := Tab.get (fun _ => []) s.store.merge (st * 4 + b)

def State.setMerge (s : State) (st b : Nat) (v : List MergeEnt) : State :=
  { s with store := { s.store with merge := Tab.set (fun _ => []) s.store.merge (st * 4 + b) v } }

/-- Bits of the enabled bytes. -/
def byteMask (m : BitVec 32) : BitVec 256 :=
  BitVec.ofNat 256 (((List.range 32).map (fun k => if bitOf m k then 255 * 2 ^ (8 * k) else 0)).sum)

/-- The enabled bytes of `new` over `old`. -/
def overlay (old new : BitVec 256) (m : BitVec 32) : BitVec 256 :=
  (old &&& ~~~(byteMask m)) ||| (new &&& byteMask m)

/-- Writes that waited for a drain complete. -/
def State.endWaits (s : State) (st : Nat) (hs : List Slot) (status : Nat) : State :=
  hs.foldl (fun (s : State) h => s.refuseWith st h status) s

/-- An entry drains by read-modify-write (R307). -/
def State.drainEnt (s : State) (fs : List MemFlt) (st b : Nat) (e : MergeEnt) : State :=
  let s := s.setMerge st b ((s.merge st b).filter (fun x => x.row != e.row))
  let a : RdAt := { row := e.row, bank := b, phys := s.physRow st b e.row, by_ := rdMerge }
  let (v, s) := s.readWord fs st a
  let phys := s.physRow st b e.row
  let d := overlay (wordData v.word) e.data e.mask
  if v.kind ≤ 1 then (s.setMemWord st b phys (rsEncode d false)).endWaits st e.wait stOK
  else
    let s := (s.setMemWord st b phys (rsEncode d true)).raiseFlag (stopReg st sQS_ERR) 6
    let s := if v.kind = 3 then
        s.qsRaise st sevDEFERRED caQS_UE a (s.qsRec st a v 2 (wordChk v.word).toNat) else s
    s.endWaits st e.wait stPOISON

/-- A drain for an access to the word (R307). -/
def State.drainRow (s : State) (fs : List MemFlt) (st b row : Nat) : State :=
  match (s.merge st b).find? (fun e => e.row == row) with
  | none => s
  | some e => s.drainEnt fs st b e

/-- A read of a row by any reader but a merge drain: the merge entry drains first (R307, R312). -/
def State.readRow (s : State) (fs : List MemFlt) (st b row by_ : Nat) : Verdict × State :=
  let s := s.drainRow fs st b row
  s.readWord fs st { row := row, bank := b, phys := s.physRow st b row, by_ := by_ }

/-- A whole-word write with computed check bytes or in the poison form. It discards a merge entry of the
word and wins over it (R304, R307). -/
def State.writeRow (s : State) (st b row : Nat) (d : BitVec 256) (pois : Bool) : State :=
  let gone := (s.merge st b).filter (fun e => e.row == row)
  let s := s.setMerge st b ((s.merge st b).filter (fun e => e.row != row))
  let s := s.setMemWord st b (s.physRow st b row) (rsEncode d pois)
  s.endWaits st (gone.flatMap (·.wait)) stOK

/-- Word `w` of a stop's 128 KiB: its bank and row (R303). -/
def wordBank (w : Nat) : Nat := w % 4
def wordRow (w : Nat) : Nat := w / 4 % 1024

/-- Flux reads one word of its step: row `n`, or a spare word, whose merge entry drains first (R307, R310, R319). -/
def State.scrubWord (s : State) (fs : List MemFlt) (st n b : Nat) : State :=
  if n < 1024 then (s.readRow fs st b n rdFlux).2
  else
    let s := match s.spareRow st b (n - 1024) with
      | some row => s.drainRow fs st b row
      | none => s
    (s.readWord fs st { row := s.fld (remapReg st b (n - 1024)) 0 10, bank := b, phys := n, by_ := rdFlux }).2

/-! ### Commands of the store -/

/-- The parts of the state that the store's commands may change. -/
def State.keepStore (s t : State) : State :=
  { s with regs := t.regs, mem := t.mem, store := t.store, recs := t.recs, ni := t.ni, pmu := t.pmu }

/-- SCRUB_STEP (R299 to R302, R305, R307, R310 to R315, R318, R319): a Flux step falls due. The step count
goes on while steps are lost. -/
def execScrubStep (st : StopNo) (fs : List MemFlt) (s : State) : Host.Outcome State Fault Refusal :=
  let st := st.val
  let pos := stopReg st sQS_SCRUB_POS
  let n := s.fld pos 0 11
  if s.stopAbsent st ∨ s.fillBusy st then .next s
  else
    let t := if !s.flag (stopReg st sQS_CTRL) 1 || s.rawMode st then s
      else forUpTo 4 (fun b t => t.scrubWord fs st n b) s
    let t := if n < 1031 then t.setFld pos 0 11 (n + 1)
      else (t.setFld pos 0 11 0).setFld (stopReg st sQS_STAT) 16 16 (t.fld (stopReg st sQS_STAT) 16 16 + 1)
    .next (s.keepStore t)

/-- MERGE_DRAIN (R299, R300, R302, R307, R314): MERGE_AGE rc have passed since an entry's last write. -/
def execMergeDrain (st : StopNo) (b : Fin 4) (row : Fin 1024) (fs : List MemFlt) (s : State) :
    Host.Outcome State Fault Refusal :=
  match (s.merge st.val b.val).find? (fun e => e.row == row.val
      && decide (s.fld (stopReg st.val sQS_CTRL) 16 8 ≤ s.frame.rcs - e.last)) with
  | none => .next s
  | some e => .next (s.keepStore (s.drainEnt fs st.val b.val e))

/-- Port 3 takes its accesses in the order in which their packets complete reassembly (R505): the oldest is `p`. -/
def State.port3First (s : State) (st : Nat) (p : Pkt) : Bool :=
  s.fabState != fabFAILED && (s.inbox st 3).head?.map (fun d => d.slots) == some p

/-- An access leaves port 3's store. -/
def State.port3Take (s : State) (st : Nat) (p : Pkt) : State :=
  s.setInbox st 3 ((s.inbox st 3).eraseP (fun d => d.slots == p))

/-- The completion of an access at port 3. -/
def State.port3Answer (s : State) (st : Nat) (p : Pkt) (status : Nat) : State :=
  (s.port3Take st p).refuseWith st (p.getLastD (Pkt.head p)) status

/-- The first refusal an access to the raw window meets, if any (R505, R507, R510, R536). -/
def State.rawRefusal (s : State) (st : Nat) (h : Slot) : Option Nat :=
  if s.domState (ngOf st) ≠ 0 then some stFENCED
  else if !(h.attrBit attrPriv && h.attrBit attrSec) then some stACCERR
  else none

/-- Byte offset of an address in the stop's 128 KiB (R208). -/
def rawOffset (addr : Nat) : Nat := addr % 2 ^ 26 % 0x20000

/-- The two words of a 64-byte block. -/
def blockData (d0 d1 : BitVec 256) : BitVec 512 := BitVec.ofNat 512 (d0.toNat + d1.toNat * 2 ^ 256)

/-- One word read through the raw window: its data, whether it is poisoned (R314, R316). -/
def State.rawReadWord (s : State) (fs : List MemFlt) (st w : Nat) : BitVec 256 × Bool × State :=
  let b := wordBank w
  let row := wordRow w
  if s.rawMode st then
    let x := s.readRaw fs st b (s.physRow st b row)
    let v := rsDecode (s.reach st) x
    let s := (s.setReg (stopReg st sQS_RAW_LAST) (wordChk x)).setReg (stopReg st sQS_RAW_STAT)
      (BitVec.ofNat 32 (packFields [(v.kind, 2), (boolNat (s.reach st), 1), (v.sym0, 6), (v.sym1, 6)]))
    (wordData x, false, s)
  else
    let (v, s) := s.readRow fs st b row rdRaw
    if v.kind ≤ 1 then (wordData v.word, false, s) else (0, true, s)

/-- Words `w` onward, at most `n` of them; words outside [lo, hi] are not read. -/
def rawReadWords (fs : List MemFlt) (st lo hi : Nat) : Nat → Nat → State → List (BitVec 256) × Bool × State
  | 0, _, s => ([], false, s)
  | n + 1, w, s =>
    let (d, p, s) := if lo ≤ w ∧ w ≤ hi then s.rawReadWord fs st w else (0, false, s)
    let (ds, q, s) := rawReadWords fs st lo hi n (w + 1) s
    (d :: ds, p || q, s)

/-- Words paired into 64-byte blocks. -/
def pairWords : List (BitVec 256) → List (BitVec 512)
  | a :: b :: rest => blockData a b :: pairWords rest
  | [a] => [blockData a 0]
  | [] => []

/-- RAW_WINDOW_READ (R299, R300, R302, R305, R307, R312, R314 to R317, R505, R510, R536): port 3 reads the
words the request touches. -/
def execRawWindowRead (st : StopNo) (p : Pkt) (fs : List MemFlt) (s : State) :
    Host.Outcome State Fault Refusal :=
  let st := st.val
  let h := Pkt.head p
  if !s.port3First st p then .next s else
  match s.rawRefusal st h with
  | some r => .next (s.keepStore (s.port3Answer st p r))
  | none =>
    if h.opc ≠ opRD ∧ h.opc ≠ opRD_NC then .next (s.keepStore (s.port3Answer st p stSLVERR))
    else
      let a := rawOffset h.addr
      let w0 := a / 64 * 2
      let (ds, pois, t) := rawReadWords fs st (a / 32) ((a + h.rlen) / 32) (2 * (h.plen + 1)) w0 s
      let t := t.port3Take st p
      let status := if pois then stPOISON else stOK
      .next (s.keepStore (t.offer st 3 (mkRsp t.die st (p.getLastD h) opCMP_D status false 0 (t.sampleNow st h)
        (pairWords ds)) none false))

/-- A partial write enters the merge buffer (R307). A write onto a word whose stored form is poison or
uncorrectable waits for the drain. The result says whether it waits. -/
def State.mergeWrite (s : State) (fs : List MemFlt) (st b row : Nat) (d : BitVec 256) (m : BitVec 32)
    (h : Option Slot) : Bool × State :=
  let due := decide (1 < (rsDecode (s.reach st) (s.memWord st b (s.physRow st b row))).kind)
  let w := match h with
    | some x => if due then [x] else []
    | none => []
  match (s.merge st b).find? (fun e => e.row == row) with
  | some e =>
    let e' : MergeEnt := { e with data := overlay e.data d m, mask := e.mask ||| m, last := s.frame.rcs,
                                  wait := e.wait ++ w }
    if e'.mask = BitVec.allOnes 32 then
      let s := s.setMerge st b ((s.merge st b).filter (fun x => x.row != row))
      (due && h.isSome, (s.setMemWord st b (s.physRow st b row) (rsEncode e'.data false)).endWaits st e'.wait stOK)
    else (due && h.isSome, s.setMerge st b ((s.merge st b).map (fun x => if x.row = row then e' else x)))
  | none =>
    let s := match s.merge st b with
      | e :: _ => if 8 ≤ (s.merge st b).length then s.drainEnt fs st b e else s
      | [] => s
    (due && h.isSome, s.setMerge st b (s.merge st b ++
      [{ row := row, data := d &&& byteMask m, mask := m, last := s.frame.rcs, wait := w }]))

/-- The words of a write request: word number, data and byte enables; words not enabled are left out. -/
def rawWords (p : Pkt) : List (Nat × BitVec 256 × BitVec 32) :=
  let h := Pkt.head p
  let w0 := rawOffset h.addr / 64 * 2
  (p.zipIdx.flatMap (fun e =>
    [(w0 + 2 * e.2, BitVec.ofNat 256 e.1.pay.toNat, BitVec.ofNat 32 e.1.ext.toNat),
     (w0 + 2 * e.2 + 1, BitVec.ofNat 256 (e.1.pay.toNat / 2 ^ 256), BitVec.ofNat 32 (e.1.ext.toNat / 2 ^ 32))]))
    |>.filter (fun e => e.2.2 != 0)

/-- Words written one after the other; the request's completion waits at most at one of them. -/
def rawWriteWords (fs : List MemFlt) (st : Nat) (h : Slot) :
    List (Nat × BitVec 256 × BitVec 32) → Bool → State → Bool × State
  | [], waits, s => (waits, s)
  | (w, d, m) :: rest, waits, s =>
    let b := wordBank w
    let row := wordRow w
    if m = BitVec.allOnes 32 then
      rawWriteWords fs st h rest waits
        (if s.rawMode st then s.setMemWord st b (s.physRow st b row) (rsWord d (s.reg (stopReg st sQS_RAW_CHK)))
         else s.writeRow st b row d false)
    else
      let (wt, s) := s.mergeWrite fs st b row d m (if waits then none else some h)
      rawWriteWords fs st h rest (waits || wt) s

/-- RAW_WINDOW_WRITE (R307, R316, R317, R505, R510, R536): port 3 writes whole words, merges partial ones,
and in raw mode stores QS_RAW_CHK as the check field. -/
def execRawWindowWrite (st : StopNo) (p : Pkt) (fs : List MemFlt) (s : State) :
    Host.Outcome State Fault Refusal :=
  let st := st.val
  let h := Pkt.head p
  if !s.port3First st p then .next s else
  match s.rawRefusal st h with
  | some r => .next (s.keepStore (s.port3Answer st p r))
  | none =>
    let ws := rawWords p
    if h.opc ≠ opWR ∧ h.opc ≠ opWR_NC ∧ h.opc ≠ opWR_P then .next (s.keepStore (s.port3Answer st p stSLVERR))
    else if s.rawMode st && ws.any (fun e => e.2.2 != BitVec.allOnes 32) then
      .next (s.keepStore ((s.raiseFlag (stopReg st sQS_ERR) 5).port3Answer st p stSLVERR))
    else
      let (waits, t) := rawWriteWords fs st h ws false s
      .next (s.keepStore (if waits then t.port3Take st p
        else t.port3Answer st p stOK))

/-- RAW_MODE_ENABLE (R316, R318, R319): QS_RAW_CTRL.EN is written. -/
def execRawModeEnable (st : StopNo) (en : Bool) (s : State) : Host.Outcome State Fault Refusal :=
  if !s.niOn st.val then .next s else
  let st := st.val
  let idle := !s.flag (stopReg st sQE_CTRL) 0 && (List.range 4).all (fun b => (s.merge st b).isEmpty)
  if en then
    .next (s.keepStore (if idle then (s.raiseFlag (stopReg st sQS_RAW_CTRL) 0).raiseFlag (stopReg st sQS_STAT) 1
      else s.raiseFlag (stopReg st sQS_ERR) 5))
  else .next (s.keepStore (s.endRaw st))

/-- A row's word copied, decoded, into a free spare, whose entry then governs (R313). -/
def State.remapAdd (s : State) (fs : List MemFlt) (st b row src : Nat) : State :=
  if (s.spareOf st b row).isSome then s
  else
    match s.freeSpare st b with
    | none => s.raiseFlag (stopReg st sQS_ERR) 4
    | some k =>
      let (v, s) := s.readRow fs st b row rdRaw
      match s.spareOf st b row with
      | some _ => s
      | none =>
        let w := if v.kind ≤ 1 then v.word else rsEncode (wordData v.word) true
        (s.setMemWord st b (1024 + k) w).setReg (remapReg st b k)
          (BitVec.ofNat 32 (packFields [(row, 10), (1, 2), (src, 2)]))

/-- QS_REMAP_ADD (R313): host software or Hearth names a row to be moved to a spare. -/
def execQsRemapAdd (st : StopNo) (b : Fin 4) (row : Fin 1024) (fs : List MemFlt) (s : State) :
    Host.Outcome State Fault Refusal :=
  if !s.niOn st.val then .next s else
  .next (s.keepStore (s.remapAdd fs st.val b.val row.val 1))

/-- Bank `b` of a stop at a fill: no merge entry, and its remap table as the fuses give it (R308, R313). -/
def State.fillBank (s : State) (st b : Nat) : State :=
  let fuses := (s.her.fuseRemap.filter (fun e => e.1 == st && e.2.1 == b)).map (·.2.2)
  let s := s.setMerge st b []
  let s := { s with store := { s.store with
    fullRec := Tab.set (fun _ => false) s.store.fullRec (st * 4 + b) false } }
  forUpTo 8 (fun k s => s.setReg (remapReg st b k)
    (match fuses[k]? with
     | some row => BitVec.ofNat 32 (packFields [(row, 10), (1, 2), (0, 2)])
     | none => 0)) s

/-- The fill of one stop begins (R308): every word reads zero, the scrubber starts over. -/
def State.fillStop (s : State) (st : Nat) : State :=
  let s := { s with mem := s.mem.filter (fun e =>
    e.1 < memKey st 0 0 0 || memKey (st + 1) 0 0 0 ≤ e.1) }
  let s := forUpTo 4 (fun b s => s.fillBank st b) s
  (s.setReg (stopReg st sQS_STAT) 1).setReg (stopReg st sQS_SCRUB_POS) 0

/-- QS_FILL (R304, R308, R313): the stores of NG domain `k` are filled with zero words. The fill runs after reset and
after a power-up alone: a stop whose fill is over, or whose domain has no power, is not filled. -/
def execQsFill (k : Fin 48) (s : State) : Host.Outcome State Fault Refusal :=
  .next (s.keepStore (((List.range 192).filter (fun st => ngOf st == k.val && s.filling st)).foldl
    (fun (s : State) st => s.fillStop st) s))

end Sys2Proof.Machine
end

