-- ==== Sys2Proof/Machine/Hearth.lean ====
section
/-! DEFINITION. Hearth's ROM and SRAM (R320 to R322): the code of their words, Hearth's own accesses to them and their
scrubber. -/
namespace Sys2Proof.Machine
open Sys2Proof

/-! ### The code -/

/-- One data byte through the division register of R320: g(x) = x^3 + 0x07 x^2 + 0x0E x + 0x08. -/
def hmStep (r : Nat × Nat × Nat) (d : Nat) : Nat × Nat × Nat :=
  let f := d ^^^ r.2.2
  (gfMul f 0x08, r.1 ^^^ gfMul f 0x0E, r.2.1 ^^^ gfMul f 0x07)

/-- A stored word: the data bytes are symbols 0 to 7, the check bytes symbols 8 to 10 (R320). -/
def hmEncode (d : BitVec 64) : BitVec 88 :=
  let r := (List.range 8).foldl (fun r i => hmStep r (fieldOf d (8 * (7 - i)) 8)) (0, 0, 0)
  BitVec.ofNat 88 (packFields [(d.toNat, 64), (r.1, 8), (r.2.1, 8), (r.2.2, 8)])

/-- The power of x at which symbol `k` stands in the codeword (R297, R320). -/
def hmPos (k : Nat) : Nat := if k < 8 then k + 3 else k - 8

/-- The syndrome of value `e` at symbol `k`: the codeword polynomial at 1, α, α². -/
def hmSynd (k e : Nat) : Nat × Nat × Nat :=
  let x := gfPow 2 (hmPos k)
  let e1 := gfMul e x
  (e, e1, gfMul e1 x)

/-- The syndrome of a stored word. -/
def hmSyndrome (w : BitVec 88) : Nat × Nat × Nat :=
  (List.range 11).foldl (fun s k =>
    let t := hmSynd k (fieldOf w (8 * k) 8)
    (s.1 ^^^ t.1, s.2.1 ^^^ t.2.1, s.2.2 ^^^ t.2.2)) (0, 0, 0)

/-- What a read of a word finds: it is clean, or corrected to a codeword, or uncorrectable (R320). -/
inductive HmRead where
  | clean
  | corrected (w : BitVec 88)
  | uncorrectable
  deriving DecidableEq, Repr

/-- The decoder: one symbol is corrected (R320). -/
def hmDecode (w : BitVec 88) : HmRead :=
  let s := hmSyndrome w
  if s = (0, 0, 0) then .clean
  else match (if s.1 = 0 then none else (List.range 11).find? (fun k => hmSynd k s.1 == s)) with
    | some k => .corrected (w ^^^ BitVec.ofNat 88 (s.1 * 2 ^ (8 * k)))
    | none => .uncorrectable

/-! ### The memory -/

/-- A word of Hearth's memory: the ROM is words 0 to 32,767, the SRAM the 32,768 after it (log entry 142). -/
def State.hmWord (s : State) (n : Nat) : BitVec 88 := Tab.get (fun _ => 0) s.store.hmem n

def State.setHmWord (s : State) (n : Nat) (w : BitVec 88) : State :=
  { s with store := { s.store with hmem := Tab.set (fun _ => 0) s.store.hmem n w } }

/-- The word is in the ROM. -/
def hmRom (n : Nat) : Bool := decide (n < 32768)

/-- A write of Hearth's: the ROM takes none. -/
def State.hmWrite (s : State) (n : Nat) (w : BitVec 88) : State := if hmRom n then s else s.setHmWord n w

/-- The counts and flags of a read (R321, R324). -/
def State.hmCount (s : State) (n : Nat) : HmRead → State
  | .clean => s
  | .corrected _ => (s.raiseFlag gHMEM_STAT 0).count gHMEM_STAT 8 8 1
  | .uncorrectable => ((s.raiseFlag gHMEM_STAT 1).count gHMEM_STAT 16 8 1).setReg gHMEM_ADDR
      (BitVec.ofNat 32 (packFields [(8 * n, 19), (boolNat (hmRom n), 1)]))

/-- A word is read, `bits` of it having changed in the array since it was last written. -/
def State.hmRead (s : State) (n : Nat) (bits : BitVec 88) : HmRead × State :=
  let w := s.hmWord n ^^^ bits
  let r := hmDecode w
  (r, (s.setHmWord n w).hmCount n r)

/-- The enabled bytes of `new` over `old`. -/
def hmOverlay (old new : BitVec 64) (m : BitVec 8) : BitVec 64 :=
  let k := BitVec.ofNat 64 (((List.range 8).map (fun i => if bitOf m i then 255 * 2 ^ (8 * i) else 0)).sum)
  (old &&& ~~~k) ||| (new &&& k)

/-- The trap cause of an access that fails (Table 11.7). -/
def hmCause : HOp → Nat
  | .fetch => 1
  | .load => 5
  | .store => 7

/-- What an access leaves in the word it read (Table 11.7): a fetch nothing, a load the corrected word, a store the
merged one. -/
def State.hmLeave (s : State) (x : HAcc) (n : Nat) (w : BitVec 88) (fixed : Bool) : State :=
  match x.op with
  | .fetch => s
  | .load => if fixed then s.hmWrite n w else s
  | .store => s.hmWrite n (hmEncode (hmOverlay (BitVec.ofNat 64 w.toNat) x.data x.mask))

/-- An access of Hearth's to its memory, and the cause of the trap it ends in, if any (R321). -/
def State.hmAccess (s : State) (x : HAcc) : Option Nat × State :=
  let n := x.addr.toNat / 8
  if x.op = .fetch ∧ hmRom n = false then (some 1, s)
  else if x.op = .store ∧ x.mask = 0xFF then (none, s.hmWrite n (hmEncode x.data))
  else
    let (r, t) := s.hmRead n x.bits
    match r with
    | .clean => (none, t.hmLeave x n (t.hmWord n) false)
    | .corrected w => (none, t.hmLeave x n w true)
    | .uncorrectable => (some (hmCause x.op), t)

/-- The word that the scrubber reads at a position: the SRAM, then the ROM (R322, log entry 46). -/
def hmScrubWord (pos : Nat) : Nat := (pos + 32768) % 65536

/-- HEARTH_SCRUB_STEP (R321, R322): the scrubber reads its next word, some of whose data and check symbols have changed. A corrected SRAM word is written back; an
uncorrectable word is left and recorded. -/
def execHearthScrubStep (data : BitVec 64) (chk : BitVec 24) (s : State) : Host.Outcome State Fault Refusal :=
  let n := hmScrubWord s.store.hscrub
  let s0 := { s with store := { s.store with hscrub := (s.store.hscrub + 1) % 65536 } }
  let (r, t) := s0.hmRead n (chk ++ data)
  .next (s.keepStore (match r with
    | .clean => t
    | .corrected w => t.hmWrite n w
    | .uncorrectable => t.raiseHearth sevDEFERRED caHEARTH_UE 0))

end Sys2Proof.Machine
end

