-- ==== Sys2Proof/Machine/Paging.lean ====
section
/-! DEFINITION. Queue-table and segment entries (R251, R274), translation (R276 to R279), residency and
page moves (R280 to R285), faults (R269) and notifications (R264, R265) of the queue engines. -/
namespace Sys2Proof.Machine
open Sys2Proof

/-! ### Queue-table entries (Table 9.4) -/

def qeState (e : BitVec 256) : Nat := fieldOf e 0 3
def qeType (e : BitVec 256) : Nat := fieldOf e 3 2
def qeEsz (e : BitVec 256) : Nat := fieldOf e 5 3
def qeCap (e : BitVec 256) : Nat := fieldOf e 8 14 + 1
def qeHead (e : BitVec 256) : Nat := fieldOf e 22 14
def qeTail (e : BitVec 256) : Nat := fieldOf e 36 14
def qeCount (e : BitVec 256) : Nat := fieldOf e 50 15
def qeArmed (e : BitVec 256) : Bool := bitOf e 65
def qeNtfMode (e : BitVec 256) : Nat := fieldOf e 104 2
def qeNtfEv (e : BitVec 256) : Nat := fieldOf e 106 4
def qeThresh (e : BitVec 256) : Nat := fieldOf e 128 14

/-- Bytes of an element (R252). -/
def qeSize (e : BitVec 256) : Nat := 64 * 2 ^ qeEsz e

def qDISABLED : Nat := 0
def qACTIVE : Nat := 1
def qFULL : Nat := 2
def qSPILLING : Nat := 3
def qFAULTED : Nat := 4
def qDRAINING : Nat := 5

/-- The bits software writes (Type RW in Table 9.4). -/
def qStaticMask : BitVec 256 :=
  BitVec.ofNat 256 ((2 ^ 22 - 8) + (2 ^ 124 - 2 ^ 66) + (2 ^ 142 - 2 ^ 128) + (2 ^ 196 - 2 ^ 147))

/-- A queue of a priority group (R257). -/
def qInGroup (e : BitVec 256) : Bool := qeType e == 1 || qeType e == 3

/-- The leader of a queue's group, or the queue itself (R257). -/
def State.leaderOf (s : State) (st q : Nat) : Nat :=
  if qInGroup (s.qEntry st q) then q / 8 * 8 else q

/-- The queues of a queue's group, or the queue alone. -/
def State.groupOf (s : State) (st q : Nat) : List Nat :=
  if qInGroup (s.qEntry st q) then (List.range 8).map (fun k => q / 8 * 8 + k) else [q]

/-- COUNT of a queue, or the sum over its group's levels (R264). -/
def State.groupCount (s : State) (st q : Nat) : Nat :=
  ((s.groupOf st q).map (fun j => qeCount (s.qEntry st j))).sum

/-! ### Queue operations as packets (Table 9.3) -/

def QOp.head (o : QOp) : Slot := Pkt.head o.pkt

def State.qops (s : State) (st : Nat) : List QOp := Tab.get (fun _ => []) s.qe.ops st
def State.setQops (s : State) (st : Nat) (v : List QOp) : State :=
  { s with qe := { s.qe with ops := Tab.set (fun _ => []) s.qe.ops st v } }
def State.walks (s : State) (st : Nat) : List QWalk := Tab.get (fun _ => []) s.qe.walks st
def State.setWalks (s : State) (st : Nat) (v : List QWalk) : State :=
  { s with qe := { s.qe with walks := Tab.set (fun _ => []) s.qe.walks st v } }
def State.moves (s : State) (st : Nat) : List QMove := Tab.get (fun _ => []) s.qe.moves st
def State.setMoves (s : State) (st : Nat) (v : List QMove) : State :=
  { s with qe := { s.qe with moves := Tab.set (fun _ => []) s.qe.moves st v } }
def State.setResid (s : State) (st : Nat) (v : List Resid) : State :=
  { s with qe := { s.qe with resid := Tab.set (fun _ => []) s.qe.resid st v } }
def State.setQtlb (s : State) (st : Nat) (v : List QtlbEnt) : State :=
  { s with qe := { s.qe with qtlb := Tab.set (fun _ => []) s.qe.qtlb st v } }
def State.leavingAt (s : State) (st : Nat) : List Nat := Tab.get (fun _ => []) s.qe.leaving st
def State.setLeaving (s : State) (st : Nat) (v : List Nat) : State :=
  { s with qe := { s.qe with leaving := Tab.set (fun _ => []) s.qe.leaving st v } }

def State.invAt (s : State) (st : Nat) : List QInv := Tab.get (fun _ => []) s.qe.inv st
def State.setInv (s : State) (st : Nat) (v : List QInv) : State :=
  { s with qe := { s.qe with inv := Tab.set (fun _ => []) s.qe.inv st v } }

/-- QE_CNT_k and PG_CNT_k rise (R272, R295). -/
def State.qeCnt (s : State) (st k : Nat) : State := s.count (stopReg st (sQE_CNT + 4 * k)) 0 32 1
def State.pgCnt (s : State) (st k : Nat) : State := s.count (stopReg st (sPG_CNT + 4 * k)) 0 32 1

/-! ### States and faults -/

/-- STATE as COUNT and the page moves give it (Table 9.5, R284); FAULTED, DRAINING and DISABLED stay. -/
def State.qRefresh (s : State) (st q : Nat) : State :=
  let e := s.qEntry st q
  if qeState e = qACTIVE ∨ qeState e = qFULL ∨ qeState e = qSPILLING then
    s.setQEntry st q (withField e 0 3
      (if (s.moves st).any (fun m => m.q == q && m.kind != .gone) then qSPILLING
       else if qeCount e = qeCap e then qFULL else qACTIVE))
  else s

/-- A fault is recorded, and with `enter` the queue becomes FAULTED: one that was not before is counted and sets QFLT
(R269, Table 9.21). -/
def State.qFaultBy (s : State) (st q cause status : Nat) (enter : Bool) : State :=
  let old := s.qEntry st q
  let e := withField old 124 4 cause
  let s := s.setQEntry st q (if enter then withField e 0 3 qFAULTED else e)
  let s := if enter && qeState old != qFAULTED then (s.raiseFlag (stopReg st sQE_STAT) 26).qeCnt st 7 else s
  s.raise st (recGen 2 sevCONTAINED caQFAULT (some (qeOwner e)) (specGen 0 0 0 0 q status cause))

/-- A queue meets a fault (R267, R269): one in DRAINING stays there. -/
def State.qFault (s : State) (st q cause status : Nat) : State :=
  s.qFaultBy st q cause status (qeState (s.qEntry st q) != qDRAINING)

/-- The queue-table entry has an uncorrectable error: the queue is FAULTED, whatever it held, until FORCE_DELETE
(R269). -/
def State.qLost (s : State) (st q status : Nat) : State :=
  ({ s with qe := { s.qe with ue := Tab.set (fun _ => false) s.qe.ue (st * 256 + q) true } }).qFaultBy st q 6 status true

def State.qIsLost (s : State) (st q : Nat) : Bool := Tab.get (fun _ => false) s.qe.ue (st * 256 + q)

/-! ### Segments and frames -/

def sgValid (g : BitVec 128) : Bool := bitOf g 0
def sgMode (g : BitVec 128) : Nat := fieldOf g 1 2
def sgPages (g : BitVec 128) : Nat := fieldOf g 3 10 + 1
def sgFrame (g : BitVec 128) : Nat := fieldOf g 13 7
def sgSec (g : BitVec 128) : Bool := bitOf g 20
def sgPref (g : BitVec 128) : Bool := bitOf g 21
def sgTable (g : BitVec 128) : Nat := fieldOf g 32 46 * 64

/-- Frame `f` is named in the spill pool (R293). -/
def State.inPool (s : State) (st f : Nat) : Bool := s.flag (stopReg st (sQS_POOL + 4 * (f / 32))) (f % 32)

/-- Frames of the pool. -/
def State.poolFrames (s : State) (st : Nat) : List Nat := (List.range 128).filter (fun f => s.inPool st f)

/-- A frame that holds a page or is being filled. -/
def State.frameBusy (s : State) (st f : Nat) : Bool :=
  (s.resid st).any (fun r => r.frame == f) || (s.moves st).any (fun m => m.frame == f)

/-- The frame a page is resident in. -/
def State.residOf (s : State) (st q page : Nat) : Option Resid :=
  (s.resid st).find? (fun r => r.q == q && r.page == page)

/-- Pages an element of a queue covers (R273). -/
def elemPages (e : BitVec 256) (i : Nat) : List Nat :=
  let o := i * qeSize e
  (List.range ((o + qeSize e - 1) / 1024 - o / 1024 + 1)).map (fun k => o / 1024 + k)

/-- The level a DEQ or PEEK at a leader reads: the highest whose COUNT is not 0 (R257). -/
def State.topLevel (s : State) (st q : Nat) : Nat :=
  match (List.range 8).reverse.find? (fun k => decide (0 < qeCount (s.qEntry st (q + k)))) with
  | some k => q + k
  | none => q

/-- The queue whose elements an operation works on, and the element's index (R256 to R258). -/
def State.opTarget (s : State) (st : Nat) (h : Slot) : Nat × Nat :=
  let q := h.qnum
  let e := s.qEntry st q
  if h.opc = opENQ then (q, qeTail e)
  else if qeType e = 1 then (s.topLevel st q, qeHead (s.qEntry st (s.topLevel st q)))
  else if qeType e = 2 ∧ h.opc ≠ opSTEAL then (q, (qeTail e + qeCap e - 1) % qeCap e)
  else (q, qeHead e)

/-- An operation that touches an element. -/
def touchesElem (opc : Nat) : Bool := opc == opENQ || opc == opDEQ || opc == opPEEK || opc == opSTEAL

/-- An operation in progress holds the page (R281). -/
def State.pageHeld (s : State) (st q page : Nat) : Bool :=
  (s.qops st).any (fun o => o.started && touchesElem o.head.opc &&
    (let (j, i) := s.opTarget st o.head
     j == q && (elemPages (s.qEntry st j) i).contains page))

/-- A page holds an element within COUNT (R282). -/
def State.pageLive (s : State) (st q page : Nat) : Bool :=
  let e := s.qEntry st q
  (List.range (qeCount e)).any (fun i => (elemPages e ((qeHead e + i) % qeCap e)).contains page)

/-! ### Traffic of port 2 -/

/-- Port 2 issues a transaction; its tag is returned. -/
def State.engineSend (s : State) (st : Nat) (t : Txn) : Nat × State :=
  let tag := freeTag (s.txns st 2) 1024
  (tag, s.setTxns st 2 (s.txns st 2 ++ [{ t with tag := tag, gen := 0 }]))

/-- Attributes of walks, moves and device accesses (R278, R282). -/
def engineAttr (sec walk spec pois : Bool) : Nat :=
  packFields [(1, 1), (boolNat sec, 1), (boolNat spec, 1), (boolNat walk, 1), (boolNat pois, 1)]

/-- The finished port 2 transaction with a tag. -/
def State.engineTxn (s : State) (st tag : Nat) : Option Txn :=
  (s.txns st 2).find? (fun t => t.tag == tag && t.phase == .ready)

/-- It is consumed. -/
def State.engineTake (s : State) (st : Nat) (tags : List Nat) : State :=
  s.setTxns st 2 ((s.txns st 2).filter (fun t => !(t.phase == .ready && tags.contains t.tag)))

/-- Frame words: word `k` of frame `f`, 0 to 31, by bank and row (R303). A row has ten bits. -/
def frameWord (f k : Nat) : Nat × Nat := (k % 4, (8 * f + k / 4) % 1024)

/-- A frame filled with zero words (R282, R289). -/
def State.zeroFrame (s : State) (st f : Nat) : State :=
  forUpTo 32 (fun k s => s.writeRow st (frameWord f k).1 (frameWord f k).2 0 false) s

/-! ### Page moves -/

/-- The 16 one-slot packets of a move, in ascending order (R282). -/
def sendBlocks (st : Nat) (mk : Nat → State → Txn × State) : List Nat → State → List Nat × State
  | [], s => ([], s)
  | k :: ks, s =>
    let (t, s) := mk k s
    let (tag, s) := s.engineSend st t
    let (tags, s) := sendBlocks st mk ks s
    (tag :: tags, s)

/-- A refill or prefetch starts into frame `f`. -/
def State.startRefill (s : State) (st q page addr f : Nat) (pref : Bool) : State :=
  let g := s.qSeg st q
  let part := qeOwner (s.qEntry st q)
  let (tags, s) := sendBlocks st (fun k s =>
    (newTxn s st 2 0 opBRD (addr + 64 * k) 63 0 (engineAttr (sgSec g) false pref false) part 0 0 [(0, 0)], s))
    (List.range 16) s
  let s := s.setMoves st (s.moves st ++
    [{ kind := if pref then .prefetch else .refill, frame := f, q := q, page := page, addr := addr, tags := tags }])
  (s.pgCnt st (if pref then 5 else 3)).qRefresh st q

/-- A spill of a resident page starts: each block is read and sent, with ATTR.POIS where a word of it is
poison; an uncorrectable word is put into the poison form first (R282, R314). -/
def State.startSpill (s : State) (fs : List MemFlt) (st : Nat) (r : Resid) : State :=
  let g := s.qSeg st r.q
  let part := qeOwner (s.qEntry st r.q)
  let (tags, s) := sendBlocks st (fun k s =>
    let (a, s) := s.readRow fs st (frameWord r.frame (2 * k)).1 (frameWord r.frame (2 * k)).2 rdMove
    let (b, s) := s.readRow fs st (frameWord r.frame (2 * k + 1)).1 (frameWord r.frame (2 * k + 1)).2 rdMove
    let pois := decide (1 < a.kind) || decide (1 < b.kind)
    (newTxn s st 2 0 opBWR (r.addr + 64 * k) 63 0 (engineAttr (sgSec g) false false pois) part 0 0
      [(blockData (wordData a.word) (wordData b.word), BitVec.allOnes 64)], s)) (List.range 16) s
  let s := s.setMoves st (s.moves st ++
    [{ kind := .spill, frame := r.frame, q := r.q, page := r.page, addr := r.addr, tags := tags }])
  s.qRefresh st r.q

/-- The operation with a packet, as it stands now. -/
def State.opNow (s : State) (st : Nat) (p : Pkt) : Option QOp := (s.qops st).find? (fun o => o.pkt == p)

/-- One operation changed. -/
def State.updOp (s : State) (st : Nat) (p : Pkt) (f : QOp → QOp) : State :=
  s.setQops st ((s.qops st).map (fun o => if o.pkt = p then f o else o))

/-- The victim that the operation has chosen is still being spilled. -/
def State.spillsFor (s : State) (st : Nat) (pkt : Pkt) : Bool :=
  match s.opNow st pkt with
  | none => false
  | some o => (s.moves st).any (fun m => m.kind == .spill && some m.frame == o.vict)

/-- The frame for a refill: a free pool frame, or the victim's where it is clean. A dirty victim's spill is started
instead, and the operation waits for it (R281). -/
def State.takeFrame (s : State) (fs : List MemFlt) (st : Nat) (pkt : Pkt) : Option Nat × State :=
  match (s.poolFrames st).find? (fun f => !s.frameBusy st f) with
  | some f => (some f, s)
  | none =>
    if s.spillsFor st pkt then (none, s)
    else
    match (s.resid st).find? (fun r => s.inPool st r.frame && !r.stuck && !s.pageHeld st r.q r.page
        && !(s.moves st).any (fun m => m.frame == r.frame)) with
    | none => (none, s)
    | some r =>
      if !r.dirty then (some r.frame, s.setResid st ((s.resid st).filter (fun x => x.frame != r.frame)))
      else (none, (s.startSpill fs st r).updOp st pkt (fun o => { o with vict := some r.frame }))

/-- What came of asking for a page. -/
inductive PageRes where
  | at_ (f : Nat) | wait | fault (cause : Nat) | device (addr : Nat)
  deriving DecidableEq, Repr

/-- The least recently used order: the page is used now. -/
def State.touchPage (s : State) (st q page : Nat) : State :=
  match s.residOf st q page with
  | none => s
  | some r => s.setResid st ((s.resid st).filter (fun x => x.frame != r.frame) ++ [r])

/-- A BACKED page is wanted on chip (R280 to R282, R290). `empty` says that an ENQ wants it and it holds no
element within COUNT. -/
def State.wantBacked (s : State) (fs : List MemFlt) (st : Nat) (pkt : Pkt) (q page addr : Nat) (empty : Bool) :
    PageRes × State :=
  match (s.moves st).find? (fun m => m.q == q && m.page == page && m.kind != .gone) with
  | some m =>
    if m.kind = .prefetch then
      (.wait, s.setMoves st ((s.moves st).map (fun x =>
        if x.frame = m.frame ∧ x.kind = .prefetch then { x with kind := .refill } else x)))
    else (.wait, s)
  | none =>
    match s.residOf st q page with
    | some r => (.at_ r.frame, s.touchPage st q page)
    | none =>
      if (s.poolFrames st).length < 4 then (.fault 5, s)
      else
        match s.takeFrame fs st pkt with
        | (none, s) => (.wait, s)
        | (some f, s) =>
          if empty then
            let s := (s.zeroFrame st f).pgCnt st 3
            (.at_ f, s.setResid st (s.resid st ++
              [{ frame := f, q := q, page := page, addr := addr, dirty := true, stuck := false }]))
          else (.wait, s.startRefill st q page addr f false)

/-! ### Translation -/

/-- What a QTLB entry says of a page. -/
def QtlbEnt.loc (e : QtlbEnt) (page : Nat) : PageLoc :=
  if e.kind = 0 then .frame (e.addr + (page - e.base))
  else if e.kind = 1 then .backed (e.addr + (page - e.base) * 1024)
  else .dev (e.addr + (page - e.base) * 1024)

def QtlbEnt.covers (e : QtlbEnt) (q page : Nat) : Bool :=
  e.q == q && decide (e.base ≤ page) && decide (page < e.base + 2 ^ e.n)

/-- The walk of one page-table entry: a BRD of its 64-byte block (R276, R278), for an operation, a prefetch, or with
`rel` the release of a deleted queue (R289). -/
def State.walkRead (s : State) (st q page : Nat) (pref rel : Bool) : State :=
  let g := s.qSeg st q
  let a := (sgTable g + 8 * page) / 64 * 64
  let (tag, s) := s.engineSend st (newTxn s st 2 0 opBRD a 63 0
    (engineAttr (sgSec g) true pref false) (qeOwner (s.qEntry st q)) 0 0 [(0, 0)])
  (s.setWalks st (s.walks st ++ [{ tag := tag, q := q, page := page, pref := pref, dropped := false, gone := false, rel := rel }])).pgCnt st 2

def State.startWalk (s : State) (st q page : Nat) (pref : Bool) : State := s.walkRead st q page pref false

/-- A lookup in the QTLB: a hit is used now; an entry that fails parity is removed and counts as a miss
(R279). -/
def State.qtlbLook (s : State) (st q page : Nat) (bad : Bool) : Option PageLoc × State :=
  match (s.qtlb st).find? (fun e => e.covers q page) with
  | none => (none, s)
  | some e =>
    let rest := (s.qtlb st).filter (fun x => x != e)
    if bad then (none, (s.setQtlb st rest).raiseFlag (stopReg st sQTLB_STAT) 8)
    else (some (e.loc page), s.setQtlb st (rest ++ [e]))

/-- A page-table entry is valid (R277). -/
def State.pteValid (s : State) (st : Nat) (v : Nat) : Bool :=
  let e := BitVec.ofNat 64 v
  let kind := fieldOf e 1 2
  let f := fieldOf e 10 7
  bitOf e 0 && kind != 3 && fieldOf e 3 3 != 7 && fieldOf e 6 4 == 0 && fieldOf e 62 2 == 0
    && (kind != 0 || (fieldOf e 17 45 == 0 && !s.inPool st f && (s.directOwner st f).isNone))

/-- The translation a valid entry gives its own page. -/
def pteLoc (v : Nat) : PageLoc :=
  let e := BitVec.ofNat 64 v
  let a := fieldOf e 10 42 * 1024
  if fieldOf e 1 2 = 0 then .frame (fieldOf e 10 7)
  else if fieldOf e 1 2 = 1 then .backed a else .dev a

/-- The run installed for page `p` by a valid entry (R279). -/
def State.install (s : State) (st q p v : Nat) : State :=
  let e := BitVec.ofNat 64 v
  let kind := fieldOf e 1 2
  let unit := if kind = 0 then fieldOf e 10 7 else fieldOf e 10 42
  let n := fieldOf e 3 3
  let fits := unit % 2 ^ n == p % 2 ^ n
  let s := if fits then s else s.raiseFlag (stopReg st sQTLB_STAT) 7
  let n := if fits then n else 0
  let b := p - p % 2 ^ n
  let u := unit - p % 2 ^ n
  let old := s.qtlb st
  let old := if 64 ≤ old.length then old.tail else old
  s.setQtlb st (old ++ [{ q := q, base := b, n := n, kind := kind, addr := if kind = 0 then u else u * 1024 }])

/-! ### Notifications -/

/-- The record of Table 9.10. -/
def ntfRec (qaddr kind count : Nat) : Nat :=
  packFields [(qaddr, 20), (kind, 2), (0, 10), (min count 0x7FFF, 15)]

/-- One notification is sent in the form that NTF_MODE of the definition `e` names (R265). -/
def State.notifySend (s : State) (st q kind : Nat) (e : BitVec 256) : State :=
  let r := ntfRec (s.die * 65536 + st * 256 + q) kind (s.groupCount st q)
  if qeNtfMode e = 1 then
    let a := fieldOf e 144 52
    ((s.qeCnt st 6).engineSend st (newTxn s st 2 0 opBWR_P a 7 0 1 (qeOwner e) 0 0
      [(BitVec.ofNat 512 (r * 2 ^ (8 * (a % 64))), BitVec.ofNat 64 (0xFF * 2 ^ (a % 64)))])).2
  else
    let d := fieldOf e 110 14
    let die := d / 1024
    let stop := d / 4 % 256
    if 191 < stop || !s.reachable die stop false then
      s.raise st (recGen 2 sevCONTAINED caQDEC (some (qeOwner e))
        (specGen 0 opNOTIFY 0 (peerOf die stop (d % 4)) q 0 0))
    else
      let t := newTxn s st 2 0 opNOTIFY (r % 2 ^ 52) 0 0 1 (qeOwner e) (q + 256 * kind) 0 [(0, 0)]
      ((s.qeCnt st 6).engineSend st { t with pieces := [newPiece (r % 2 ^ 52) 0 die stop (d % 4) 0] }).2

/-- The first enabled event that occurred, in the order of R264. -/
def firstEvent (ev : Nat) (bell thresh nonempty space : Bool) : Option Nat :=
  if bell && ev / 8 % 2 == 1 then some 3
  else if thresh && ev / 2 % 2 == 1 then some 1
  else if nonempty && ev % 2 == 1 then some 0
  else if space && ev / 4 % 2 == 1 then some 2
  else none

/-- The events of an operation on queue `q`, whose count was `before`, under the definition `e` (R264, R270). -/
def State.qEvents (s : State) (st q before : Nat) (space bell : Bool) (e : BitVec 256) : State :=
  let l := s.leaderOf st q
  let now := s.groupCount st l
  if !qeArmed (s.qEntry st l) || qeNtfMode e == 0 then s
  else
    match firstEvent (qeNtfEv e) bell (before < qeThresh e && qeThresh e ≤ now) (before == 0 && 0 < now) space with
    | none => s
    | some k => (s.setQEntry st l (withField (s.qEntry st l) 65 1 0)).notifySend st l k e

/-- ARM: ARMED is set, and a condition that already holds notifies at once (R264), under the definition `e`. -/
def State.qArm (s : State) (st q : Nat) (e : BitVec 256) : State :=
  let l := s.leaderOf st q
  let now := s.groupCount st l
  let s := s.setQEntry st l (withField (s.qEntry st l) 65 1 1)
  if qeNtfMode e = 0 then s
  else
    match firstEvent (qeNtfEv e) false (qeThresh e ≤ now) (0 < now) false with
    | none => s
    | some k => (s.setQEntry st l (withField (s.qEntry st l) 65 1 0)).notifySend st l k e

end Sys2Proof.Machine
end

