-- ==== Sys2Proof/Machine/Queue.lean ====
section
/-! DEFINITION. The queue engine's operations (R243 to R270): taking them in order, the checks of Table
9.7, the access to elements in frames and device windows, notification, and the commands ENQ, DEQ, PEEK,
STEAL, QSTAT, DBELL, WALK_COMPLETE, PAGE_MOVE_COMPLETE and DEV_ACCESS_COMPLETE. -/
namespace Sys2Proof.Machine
open Sys2Proof

/-! ### Operations in progress -/

/-- An operation completes: it leaves the engine, and its response is sent (R245, R261). -/
def State.qDone (s : State) (st : Nat) (o : QOp) (status : Nat) (data : Option (List (BitVec 512)))
    (pois : Bool) : State :=
  let s := s.setQops st ((s.qops st).filter (fun x => x.pkt != o.pkt))
  s.offer st 2 (mkRsp s.die st (o.pkt.getLastD o.head) (if data.isSome then opCMP_D else opCMP) status pois 0 o.arr
    (data.getD [0])) none false

/-- ARM of an operation that completed with OK, POISON or EMPTY (R264). -/
def State.opArm (s : State) (st : Nat) (o : QOp) : State :=
  let h := o.head
  if h.qarm && [opDEQ, opPEEK, opSTEAL, opQSTAT].contains h.opc then s.qArm st h.qnum o.ent else s

/-- A fault met by an operation: the queue addressed is FAULTED and the operation gets SLVERR (R269). -/
def State.opFault (s : State) (st : Nat) (o : QOp) (cause status : Nat) : State :=
  let h := o.head
  (s.qFault st h.qnum cause status).qDone st o stSLVERR
    none false

/-! ### Checks -/

/-- The operation is allowed for the TYPE (R256 to R258). -/
def typeAllows (ty opc : Nat) : Bool :=
  if ty = 2 then true
  else if ty = 3 then !(opc == opDEQ || opc == opPEEK || opc == opSTEAL)
  else opc != opSTEAL

/-- Bit of an operation in a rights field (R260). -/
def rightBit (opc : Nat) : Nat :=
  if opc = opENQ then 0 else if opc = opDEQ then 1 else if opc = opPEEK then 2
  else if opc = opQSTAT then 3 else if opc = opDBELL then 4 else 5

/-- Rights of a partition at a queue (R260). -/
def qRights (e : BitVec 256) (part : Nat) : Nat :=
  if part = qeOwner e then 0x3F
  else fieldOf e 98 6 ||| (if part = fieldOf e 80 12 then fieldOf e 92 6 else 0)

/-- Order 3 of Table 9.7 passes. -/
def qAccess (e : BitVec 256) (h : Slot) : Bool :=
  qRights e h.part / 2 ^ rightBit h.opc % 2 == 1 && (!bitOf e 66 || h.attrBit attrPriv)
    && (!bitOf e 67 || h.attrBit attrSec)

/-- The engine executes operations (Table 9.14). -/
def State.qeOn (s : State) (st : Nat) : Bool := s.flag (stopReg st sQE_CTRL) 0

/-- The first of orders 1 to 8 of Table 9.7 that fails: status, counter, and the record's cause or 0. An operation
taken before its queue entered DRAINING is not fenced (R270). -/
def State.qCheck (s : State) (st : Nat) (o : QOp) : Option (Nat × Nat × Nat) :=
  let h := o.head
  let q := h.qnum
  let e := s.qEntry st q
  if !s.qeOn st || qeState e == qDISABLED then some (stDECERR, 4, caQDEC)
  else if !typeAllows (qeType e) h.opc then some (stPROTERR, 4, caQPROTO)
  else if !qAccess e h then some (stACCERR, 4, caQACC)
  else if qeState e == qFAULTED && h.opc != opQSTAT then some (stSLVERR, 4, 0)
  else if qeState e == qDRAINING && o.late && (h.opc == opENQ || h.opc == opDBELL) then some (stFENCED, 4, 0)
  else if h.opc == opENQ && decide (qeSize e < h.qlen + 9) then some (stMSGSIZE, 3, 0)
  else if h.opc == opENQ && decide (qeCap e ≤ qeCount e) then some (stQFULL, 2, 0)
  else if (h.opc == opDEQ || h.opc == opPEEK || h.opc == opSTEAL)
      && qeCount (s.qEntry st (s.opTarget st h).1) == 0 then some (stEMPTY, 1, 0)
  else none

/-- A refused operation: counted, recorded where Table 9.7 says so; EMPTY may arm. -/
def State.qRefuse (s : State) (st : Nat) (o : QOp) (status k cause : Nat) : State :=
  let h := o.head
  let s := s.qeCnt st k
  let s := if cause = 0 then s else
    s.raise st (recGen 2 sevCONTAINED cause (some h.part)
      (specGen h.addr h.opc h.tag (peerOf h.sdie h.sstop h.sport) h.qnum 0 0))
  let s := if status = stEMPTY then s.opArm st o else s
  s.qDone st o status none false

/-! ### Elements in frames -/

/-- Bank and row of word `w` of the element at segment offset `base`; `locs` gives each page's frame. -/
def elemWord (locs : List (Nat × Nat)) (base w : Nat) : Nat × Nat :=
  let o := base + 32 * w
  frameWord ((locs.lookup (o / 1024)).getD 0) (o % 1024 / 32)

/-- Words `w` onward of an element, each with whether it is poisoned or uncorrectable (R268, R314). -/
def readElem (fs : List MemFlt) (st : Nat) (locs : List (Nat × Nat)) (base : Nat) :
    Nat → Nat → State → List (BitVec 256 × Bool) × State
  | 0, _, s => ([], s)
  | n + 1, w, s =>
    let (v, s) := s.readRow fs st (elemWord locs base w).1 (elemWord locs base w).2 rdOp
    let (ds, s) := readElem fs st locs base n (w + 1) s
    ((wordData v.word, decide (1 < v.kind)) :: ds, s)

/-- Words written one after the other. -/
def writeElem (st : Nat) (locs : List (Nat × Nat)) (base : Nat) (pois : Bool) :
    List (BitVec 256) → Nat → State → State
  | [], _, s => s
  | d :: ds, w, s =>
    writeElem st locs base pois ds (w + 1)
      (s.writeRow st (elemWord locs base w).1 (elemWord locs base w).2 d pois)

/-- The number in `n` pieces of `w` bits, lowest first. -/
def splitNat (w : Nat) : Nat → Nat → List Nat
  | 0, _ => []
  | n + 1, v => (v % 2 ^ w) :: splitNat w n (v / 2 ^ w)

/-- Pieces of `w` bits joined, lowest first. -/
def joinNat (w : Nat) : List Nat → Nat
  | [] => 0
  | x :: xs => x % 2 ^ w + joinNat w xs * 2 ^ w

/-- The descriptor of an ENQ (Table 9.6). -/
def descOf (e : BitVec 256) (h : Slot) : Nat :=
  packFields [(h.qlen, 13), (if qeType e = 3 then h.qnum % 8 else 0, 3),
    (peerOf h.sdie h.sstop h.sport, 14), (h.part, 12), (boolNat (h.attrBit attrPriv), 1),
    (boolNat (h.attrBit attrSec), 1), (0, 19), (1, 1)]

/-- Bytes 0 to LEN + 8 of the element an ENQ writes, as one number (R253). -/
def elemOf (e : BitVec 256) (p : Pkt) : Nat :=
  let h := Pkt.head p
  descOf e h + joinNat 512 (p.map (·.pay.toNat)) % 2 ^ (8 * (h.qlen + 1)) * 2 ^ 64

/-! ### Outcomes -/

/-- Resident pages of the queue named in `locs` are dirty. -/
def State.markDirty (s : State) (st q : Nat) (locs : List (Nat × Nat)) : State :=
  s.setResid st ((s.resid st).map (fun r =>
    if r.q = q ∧ (locs.any (fun l => l.1 == r.page && l.2 == r.frame)) then { r with dirty := true } else r))

/-- An element has been written: TAIL, COUNT, events, OK (R256, R261, R264). -/
def State.enqDone (s : State) (st : Nat) (o : QOp) : State :=
  let q := o.head.qnum
  let before := s.groupCount st q
  let e := s.qEntry st q
  let e := withField (withField e 36 14 ((qeTail e + 1) % qeCap e)) 50 15 (qeCount e + 1)
  (((s.setQEntry st q e).qRefresh st q).qEvents st q before false false o.ent).qeCnt st 0
    |>.qDone st o stOK none false

/-- A prefetch takes a free pool frame alone; into a pool too small for a refill it is discarded (R281, R283). -/
def State.prefetchInto (s : State) (st q page addr : Nat) : State :=
  if (s.poolFrames st).length < 4 then s.pgCnt st 6
  else
    match (s.poolFrames st).find? (fun f => !s.frameBusy st f) with
    | some f => s.startRefill st q page addr f true
    | none => s

/-- A prefetch of the page that holds the next HEAD, where R283 asks for one. -/
def State.prefetch (s : State) (st j i : Nat) (bad : Bool) : State :=
  let e := s.qEntry st j
  let g := s.qSeg st j
  let last := (i * qeSize e + qeSize e - 1) / 1024
  let page := ((i + 1) % qeCap e) * qeSize e / 1024
  if qeType e = 2 ∨ sgMode g ≠ 2 ∨ !sgPref g ∨ page = last then s
  else if (s.residOf st j page).isSome || (s.moves st).any (fun m => m.q == j && m.page == page && m.kind != .gone)
      || (s.walks st).any (fun w => w.q == j && w.page == page && !w.dropped) then s
  else
    match s.qtlbLook st j page bad with
    | (some (.backed a), s) =>
      (s.pgCnt st 0).prefetchInto st j page a
    | (some _, s) => s.pgCnt st 0
    | (none, s) => (s.pgCnt st 1).startWalk st j page true

/-- The element is returned, and removed unless the operation is PEEK (R256 to R258, R261, R268). -/
def State.readDone (s : State) (st : Nat) (o : QOp) (status : Nat) (pois : Bool)
    (data : List (BitVec 512)) : State :=
  let h := o.head
  let (j, i) := s.opTarget st h
  let before := s.groupCount st j
  let e := s.qEntry st j
  let s1 := if h.opc = opPEEK then s
    else
      let e' := if qeType e = 2 ∧ h.opc ≠ opSTEAL then withField e 36 14 i
        else withField e 22 14 ((i + 1) % qeCap e)
      (((s.setQEntry st j (withField e' 50 15 (qeCount e - 1))).qRefresh st j).qEvents st j before
        (decide (qeCount e = qeCap e)) false o.ent)
  let s2 := (s1.opArm st o).qeCnt st (if pois then 5 else 0)
  ((s2.qDone st o status (some data) pois)).prefetch st j i false

/-- What the first word read says, and the rest of the bytes where they are wanted. `rest` reads further
words: it gets the number of words that hold bytes 0 to LEN + 8. -/
def State.readJudge (s : State) (st : Nat) (o : QOp) (desc : BitVec 64) (bad : Bool)
    (rest : Nat → State → Nat × Bool × State) : State :=
  let len := fieldOf desc 0 13
  if bad then s.readDone st o stPOISON true [0]
  else if !bitOf desc 63 then s.opFault st o 4 stSLVERR
  else if o.head.qlen + 1 < len + 9 then
    (s.qeCnt st 3).qDone st o stMSGSIZE (some [BitVec.ofNat 512 desc.toNat]) false
  else
    let (v, pois, s) := rest ((len + 8) / 32 + 1) s
    s.readDone st o (if pois then stPOISON else stOK) pois
      ((splitNat 512 ((len + 8) / 64 + 1) (v % 2 ^ (8 * (len + 9)))).map (BitVec.ofNat 512))

/-- A read of an element in frames (R245, R254, R255, R268, R269). -/
def State.readFrames (s : State) (fs : List MemFlt) (st : Nat) (o : QOp) (locs : List (Nat × Nat)) : State :=
  let (j, i) := s.opTarget st o.head
  let e := s.qEntry st j
  let base := i * qeSize e
  let first := min 4 (qeSize e / 32)
  let (ws, s) := readElem fs st locs base first 0 s
  let w0 := ws.headD (0, false)
  s.readJudge st o (BitVec.ofNat 64 w0.1.toNat) w0.2 (fun n s =>
    let (more, s) := readElem fs st locs base (min ((n + 3) / 4 * 4) (qeSize e / 32) - first) first s
    let all := (ws ++ more).take n
    (joinNat 256 (all.map (·.1.toNat)), all.any (·.2), s))

/-- An ENQ into frames (R253, R268, R304). -/
def State.enqFrames (s : State) (st : Nat) (o : QOp) (locs : List (Nat × Nat)) : State :=
  let h := o.head
  let e := s.qEntry st h.qnum
  let pois := h.attrBit attrPois
  let n := if pois then qeSize e / 32 else (h.qlen + 8) / 32 + 1
  let ds := (splitNat 256 n (elemOf e o.pkt)).map (BitVec.ofNat 256)
  ((writeElem st locs (qeTail e * qeSize e) pois ds 0 s).markDirty st h.qnum locs).enqDone st o

/-- The one request of an element on a device window (R280). -/
def State.devAccess (s : State) (st : Nat) (o : QOp) (addr : Nat) : State :=
  let h := o.head
  let (j, _) := s.opTarget st h
  let e := s.qEntry st j
  let g := s.qSeg st j
  let t : Txn :=
    if h.opc = opENQ then
      let n := h.qlen + 9
      let body := (splitNat 512 ((n - 1) / 64 + 1) (elemOf e o.pkt)).zipIdx.map (fun b =>
        (BitVec.ofNat 512 b.1, BitVec.ofNat 64 (2 ^ min 64 (n - 64 * b.2) - 1)))
      newTxn s st 2 0 opBWR addr (n - 1) 0 (engineAttr (sgSec g) false false (h.attrBit attrPois)) (qeOwner e) 0 0
        body
    else newTxn s st 2 0 opBRD addr (qeSize e - 1) 0 (engineAttr (sgSec g) false false false) (qeOwner e) 0 0
      [(0, 0)]
  let (tag, s) := s.engineSend st t
  s.updOp st o.pkt (fun x => { x with dev := some tag })

/-! ### Translation for an operation -/

/-- What translation of a page gives. -/
inductive QLoc where
  | got (l : PageLoc) | wait | fault (cause : Nat)
  deriving DecidableEq, Repr

/-- Translation of page `p` of queue `q` for operation `o` (R274, R277 to R279). -/
def State.qLoc (s : State) (inp : QIn) (st : Nat) (o : QOp) (q p : Nat) : QLoc × State :=
  let missed (s : State) : State :=
    if o.miss.contains p then s else (s.pgCnt st 1).updOp st o.pkt (fun x => { x with miss := x.miss ++ [p] })
  let g := s.qSeg st q
  if !sgValid g || (sgMode g != 1 && sgMode g != 2) then (.fault 3, s)
  else if sgMode g = 1 then (.got (.frame (sgFrame g + p)), s)
  else
    match o.tr.lookup p with
    | some l => (.got l, s)
    | none =>
      if (s.walks st).any (fun w => w.q == q && w.page == p && !(w.dropped && w.pref)) then
        (.wait, (missed s).setWalks st ((s.walks st).map (fun w =>
          if w.q = q ∧ w.page = p ∧ !(w.dropped && w.pref) then { w with pref := false } else w)))
      else
        match s.qtlbLook st q p inp.tlbBad with
        | (some l, s) => (.got l, (s.pgCnt st 0).updOp st o.pkt (fun x => { x with tr := x.tr ++ [(p, l)] }))
        | (none, s) => (.wait, (missed s).startWalk st q p false)

/-- What the pages of an element give: frames, or a device address. -/
inductive PagesRes where
  | frames (l : List (Nat × Nat)) | wait | fault (cause : Nat) | device (addr : Nat)
  deriving DecidableEq, Repr

/-- The translations of an element's pages, each page on its own (R273). -/
inductive TrRes where
  | all (l : List (Nat × PageLoc)) | wait | fault (cause : Nat)
  deriving DecidableEq, Repr

def qTranslate (inp : QIn) (st : Nat) (pkt : Pkt) (q : Nat) : List Nat → List (Nat × PageLoc) → State → TrRes × State
  | [], acc, s => (.all acc, s)
  | p :: ps, acc, s =>
    match s.opNow st pkt with
    | none => (.wait, s)
    | some o =>
      match s.qLoc inp st o q p with
      | (.wait, s) => (.wait, s)
      | (.fault c, s) => (.fault c, s)
      | (.got l, s) => qTranslate inp st pkt q ps (acc ++ [(p, l)]) s

/-- A resident page is served by its frame, whatever its entry has become (R288). -/
def State.served (s : State) (st q : Nat) (x : Nat × PageLoc) : Nat × PageLoc :=
  match s.residOf st q x.1, x.2 with
  | some r, .frame _ => (x.1, .backed r.addr)
  | some r, .dev _ => (x.1, .backed r.addr)
  | _, l => (x.1, l)

/-- The pages are brought on chip, one after the other (R280 to R282). -/
def qBring (inp : QIn) (st : Nat) (pkt : Pkt) (q : Nat) (enq : Bool) :
    List (Nat × PageLoc) → List (Nat × Nat) → State → PagesRes × State
  | [], acc, s => (.frames acc, s)
  | (p, .frame f) :: ps, acc, s => qBring inp st pkt q enq ps (acc ++ [(p, f)]) s
  | (_, .dev _) :: _, _, s => (.wait, s)
  | (p, .backed a) :: ps, acc, s =>
    match s.wantBacked inp.flts st pkt q p a (enq && !s.pageLive st q p) with
    | (.at_ f, s) => qBring inp st pkt q enq ps (acc ++ [(p, f)]) s
    | (.wait, s) => (.wait, s)
    | (.fault c, s) => (.fault c, s)
    | (.device d, s) => (.device d, s)

/-- The device address of the element's first page, where one of its pages lies on a device window: the whole access is
then one request to that window (R280). The element's pages follow one another. -/
def devBase (l : List (Nat × PageLoc)) : Option Nat :=
  l.zipIdx.findSome? (fun x => match x.1.2 with
    | .dev a => some (a - 1024 * x.2)
    | _ => none)

/-- The pages of an element, translated and then brought on chip. -/
def State.qPages (s : State) (inp : QIn) (st : Nat) (pkt : Pkt) (q : Nat) (enq : Bool) (ps : List Nat) :
    PagesRes × State :=
  match qTranslate inp st pkt q ps [] s with
  | (.wait, s) => (.wait, s)
  | (.fault c, s) => (.fault c, s)
  | (.all l, s) =>
    let l := l.map (s.served st q)
    match devBase l with
    | some a => (.device a, s)
    | none => qBring inp st pkt q enq l [] s

/-- An element operation goes as far as it can. -/
def State.elemGo (s : State) (inp : QIn) (st : Nat) (o : QOp) : State :=
  if o.dev.isSome then s
  else
    let h := o.head
    let (j, i) := s.opTarget st h
    let e := s.qEntry st j
    match s.qPages inp st o.pkt j (h.opc == opENQ) (elemPages e i) with
    | (.wait, s) => s
    | (.fault c, s) => s.opFault st o c stSLVERR
    | (.device a, s) => s.devAccess st o (a + i * qeSize e % 1024)
    | (.frames l, s) => if h.opc = opENQ then s.enqFrames st o l else s.readFrames inp.flts st o l

/-- An element operation reads the segment entry of the queue that holds the element: an uncorrectable error there
faults that queue (R274). -/
def State.elemOp (s : State) (inp : QIn) (st : Nat) (o : QOp) : State :=
  if o.seg = 2 then (s.qFault st (s.opTarget st o.head).1 6 stSLVERR).qDone st o stSLVERR none false
  else if o.seg = 1 then
    ((s.raiseFlag (stopReg st sQTLB_STAT) 10).updOp st o.pkt (fun x => { x with seg := 0 })).elemGo inp st
      { o with seg := 0 }
  else s.elemGo inp st o

/-- The status block of QSTAT (Table 9.8). -/
def State.qstatBlock (s : State) (st q : Nat) : BitVec 512 :=
  let e := s.qEntry st q
  let lead := qeType e == 1
  let levels := (List.range 8).map (fun k => (if lead then qeCount (s.qEntry st (q + k)) else 0, 16))
  BitVec.ofNat 512 (packFields
    ([(qeState e, 3), (qeType e, 2), (qeEsz e, 3), (fieldOf e 8 14, 14), (boolNat (qeArmed e), 1), (0, 9),
      (min (if lead then s.groupCount st q else qeCount e) 0xFFFF, 16), (qeHead e, 16), (qeTail e, 16),
      (fieldOf e 196 16, 16), (fieldOf e 212 32, 32)] ++ levels ++
     [((s.localTs st).count.toNat, 64), (fieldOf e 124 4, 8)]))

/-- QSTAT: the block is taken, then DBVAL and DBCNT are cleared where CLRDB asks (R262). -/
def State.qstat (s : State) (st : Nat) (o : QOp) : State :=
  let h := o.head
  let b := s.qstatBlock st h.qnum
  let e := s.qEntry st h.qnum
  let s := if h.qclrdb then s.setQEntry st h.qnum (withField (withField e 196 16 0) 212 32 0) else s
  ((s.opArm st o).qeCnt st 0).qDone st o stOK (some [b]) false

/-- DBELL: the leader takes the value (R257, R263, R264). -/
def State.dbell (s : State) (st : Nat) (o : QOp) : State :=
  let h := o.head
  let l := s.leaderOf st h.qnum
  let e := s.qEntry st l
  let e := withField (withField e 196 16 (satAdd 16 (fieldOf e 196 16) 1)) 212 32
    (fieldOf e 212 32 ||| h.pay.toNat % 2 ^ 32)
  (((s.setQEntry st l e).qEvents st l (s.groupCount st l) false true o.ent).qeCnt st 0).qDone st o stOK none false

/-- The engine has halted (R259). -/
def State.qHalted (s : State) (st : Nat) : Bool := s.fld (stopReg st sQE_STAT) 0 2 == 2

/-- A slot of an ENQ that fails its CRC at the hand-over (R306). -/
def badSlot (p : Pkt) : Option Slot := p.find? (fun x => !x.crcOk)

/-- An operation starts, or goes on. -/
def State.opRun (s : State) (inp : QIn) (st : Nat) (o : QOp) : State :=
  let h := o.head
  if h.opc = opQSTAT then s.qstat st o
  else if h.opc = opDBELL then s.dbell st o
  else s.elemOp inp st o

/-- The checks have passed: the operation starts, under the definition now in force (R270). -/
def State.opStart (s : State) (inp : QIn) (st : Nat) (o : QOp) : State :=
  let n := ((s.qops st).map (·.seq)).foldl max 0 + 1
  let e := s.qEntry st (s.leaderOf st o.head.qnum)
  (s.updOp st o.pkt (fun x => { x with started := true, seq := n, ent := e })).opRun inp st
    { o with started := true, seq := n, ent := e }

/-- One attempt at an operation that nothing before it holds. The entry of its queue is read at its start (R260,
R269). -/
def State.opTry (s : State) (inp : QIn) (st : Nat) (o : QOp) : State :=
  if s.qHalted st then s.qDone st o stSLVERR none false
  else if o.started then s.elemOp inp st o
  else if s.qeOn st && o.qt == 2 then (s.qLost st o.head.qnum stSLVERR).qDone st o stSLVERR none false
  else
    let s := if s.qeOn st && o.qt == 1 then
        (s.raiseFlag (stopReg st sQE_STAT) 25).updOp st o.pkt (fun x => { x with qt := 0 }) else s
    let o := { o with qt := 0, ent := s.qEntry st (s.leaderOf st o.head.qnum) }
    match s.qCheck st o with
    | some (status, k, cause) => s.qRefuse st o status k cause
    | none =>
      match (if o.head.opc = opENQ then badSlot o.pkt else none) with
      | some x => (s.raise st (recHdr 2 sevCONTAINED caRING_CRC x.hdr)).qDone st o stSLVERR none false
      | none => s.opStart inp st o

/-- An earlier operation on the queue, or its group, is still in progress (R244). -/
def State.opBlocked (s : State) (st : Nat) (o : QOp) : Bool :=
  ((s.qops st).takeWhile (fun x => x.pkt != o.pkt)).any (fun x =>
    s.leaderOf st x.head.qnum == s.leaderOf st o.head.qnum)

/-- Insertion by the order of starts. -/
def insertStart (o : QOp) : List QOp → List QOp
  | [] => [o]
  | x :: xs => if o.seq ≤ x.seq then o :: x :: xs else x :: insertStart o xs

/-- Operations in the order in which they go on: the started ones as they started, then the others as they were taken
(R244, R281). -/
def goOrder (l : List QOp) : List QOp :=
  (l.filter (·.started)).foldr insertStart [] ++ l.filter (fun o => !o.started)

/-- One pass over the operations, as far as the first that completes: what it held is the next pass's to give out. -/
def State.opPass (s : State) (inp : QIn) (st : Nat) : State :=
  let n := (s.qops st).length
  (goOrder (s.qops st)).foldl (fun (s : State) x =>
    if (s.qops st).length < n then s
    else
      match s.opNow st x.pkt with
      | none => s
      | some o => if s.opBlocked st o then s else s.opTry inp st o) s

/-- A forced deletion discards the elements once no operation that touches them is in progress (R267). -/
def State.forceDiscard (s : State) (st : Nat) : State :=
  (Tab.get (fun _ => []) s.qe.forced st).foldl (fun (s : State) q =>
    if (s.qops st).any (fun o => o.started && s.leaderOf st o.head.qnum == q) then s
    else
      let n := s.groupCount st q
      let s := (s.groupOf st q).foldl (fun (s : State) j =>
        let e := s.qEntry st j
        s.setQEntry st j (withField (withField e 50 15 0) 22 14 (qeTail e))) s
      let s := { s with qe := { s.qe with
        forced := Tab.set (fun _ => []) s.qe.forced st ((Tab.get (fun _ => []) s.qe.forced st).erase q) } }
      (s.setFld (stopReg st sQCMD_STAT) 8 15 n).raise st (recGen 2 sevCONTAINED caQDISCARD
        (some (qeOwner (s.qEntry st q))) (specGen 0 0 0 0 q 0 n))) s

/-- The engine works until nothing more can go on. -/
def State.qRun (s : State) (inp : QIn) (st : Nat) : State :=
  (forUpTo ((s.qops st).length + 1) (fun _ s => s.opPass inp st) s).forceDiscard st

/-- No memory fault. -/
def calmQIn (fs : List MemFlt) : QIn := { flts := fs, uc := 0, qt := 0, seg := 0, tlbBad := false }

/-- The parts of the state that the queue engine may change. -/
def State.keepQe (s t : State) : State :=
  { s with regs := t.regs, mem := t.mem, store := t.store, recs := t.recs, ni := t.ni, pmu := t.pmu, qe := t.qe }

/-- The microcode's verdict (R259): an uncorrectable error halts the engine. -/
def State.qHalt (s : State) (inp : QIn) (st : Nat) : State :=
  if inp.uc.val = 2 ∧ !s.qHalted st then
    (s.setFld (stopReg st sQE_STAT) 0 2 2).raise st (recGen 2 sevCONTAINED caQE_HALT none 0)
  else s

/-- A queue operation that port 2 executes (R243). -/
def isQueueOp (opc : Nat) : Bool := opENQ ≤ opc && opc ≤ opSTEAL && opc != opNOTIFY

/-- The queue operation that the engine takes next: the first in the request store of port 2 (R243). -/
def State.nextOp (s : State) (st : Nat) : Option Deliv :=
  (s.inbox st 2).find? (fun d => isQueueOp (Pkt.head d.slots).opc)

/-- The engine takes an operation from the request store and works on (R243, R244), once the fill has completed
(R308). -/
def State.takeOp (s : State) (st opc : Nat) (p : Pkt) (inp : QIn) : State :=
  match s.nextOp st with
  | none => s
  | some d =>
    if d.slots ≠ p ∨ (Pkt.head p).opc ≠ opc ∨ 32 ≤ (s.qops st).length ∨ s.stopAbsent st ∨ s.fillBusy st
        ∨ (s.opNow st p).isSome then s
    else
      let s := s.setInbox st 2 ((s.inbox st 2).erase d)
      let o : QOp := { pkt := p, arr := d.arr, started := false, seq := 0,
                       late := qeState (s.qEntry st (Pkt.head p).qnum) == qDRAINING, qt := inp.qt.val,
                       seg := inp.seg.val, ent := 0, tr := [], miss := [], vict := none, dev := none }
      let s := s.setQops st (s.qops st ++ [o])
      let s := if inp.uc.val = 1 then s.raiseFlag (stopReg st sQE_STAT) 24 else s
      (s.qHalt inp st).qRun inp st

/-- ENQ (R243 to R265, R268 to R270, R273 to R284, R297 to R306): the engine takes an ENQ. -/
def execEnq (st : StopNo) (p : Pkt) (inp : QIn) (s : State) : Host.Outcome State Fault Refusal :=
  .next (s.keepQe (s.takeOp st.val opENQ p inp))

/-- DEQ (R243 to R245, R254 to R264, R268 to R270, R283). -/
def execDeq (st : StopNo) (p : Pkt) (inp : QIn) (s : State) : Host.Outcome State Fault Refusal :=
  .next (s.keepQe (s.takeOp st.val opDEQ p inp))

/-- PEEK (R254 to R258, R260, R268). -/
def execPeek (st : StopNo) (p : Pkt) (inp : QIn) (s : State) : Host.Outcome State Fault Refusal :=
  .next (s.keepQe (s.takeOp st.val opPEEK p inp))

/-- STEAL (R258, R260). -/
def execSteal (st : StopNo) (p : Pkt) (inp : QIn) (s : State) : Host.Outcome State Fault Refusal :=
  .next (s.keepQe (s.takeOp st.val opSTEAL p inp))

/-- QSTAT (R260, R262). -/
def execQstat (st : StopNo) (p : Pkt) (inp : QIn) (s : State) : Host.Outcome State Fault Refusal :=
  .next (s.keepQe (s.takeOp st.val opQSTAT p inp))

/-- DBELL (R257, R260, R263, R264). -/
def execDbell (st : StopNo) (p : Pkt) (inp : QIn) (s : State) : Host.Outcome State Fault Refusal :=
  .next (s.keepQe (s.takeOp st.val opDBELL p inp))

/-! ### Completions of the engine's own traffic -/

/-- The operation that waits for a page of a queue. -/
def State.waitsPage (s : State) (st q page : Nat) : Option QOp :=
  (s.qops st).find? (fun o => o.started && touchesElem o.head.opc && o.dev.isNone &&
    (let (j, i) := s.opTarget st o.head
     j == q && (elemPages (s.qEntry st j) i).contains page))

/-- A fault of a walk or a refill: the operation that waits gets it. -/
def State.pageFault (s : State) (st q page cause status : Nat) : State :=
  match s.waitsPage st q page with
  | some o => s.opFault st o cause status
  | none => s.qFault st q cause status

/-- A walk's answer (R277 to R279, R283, R287). -/
def State.walkDone (s : State) (st : Nat) (w : QWalk) (t : Txn) : State :=
  if w.gone then s
  else
  let v := fieldOf (t.data.headD 0) (64 * (w.page % 8)) 64
  let ok := t.status == stOK && s.pteValid st v
  if !ok then
    if w.pref then s.pgCnt st 6
    else
      (s.pgCnt st 7).pageFault st w.q w.page
        (if t.status = stWALKERR_DEV then 2 else if t.status = stOK then 3 else 1) t.status
  else
    let s := if w.dropped then s else s.install st w.q w.page v
    if w.pref then
      match pteLoc v with
      | .backed a =>
        if (s.poolFrames st).any (fun f => !s.frameBusy st f) then s.prefetchInto st w.q w.page a else s.pgCnt st 6
      | _ => s
    else
      match s.waitsPage st w.q w.page with
      | some o => s.updOp st o.pkt (fun x => { x with tr := x.tr ++ [(w.page, pteLoc v)] })
      | none => s

/-! ### The page table of a queue that is deleted -/

def State.rels (s : State) (st : Nat) : List QRel := Tab.get (fun _ => []) s.qe.rel st
def State.setRels (s : State) (st : Nat) (v : List QRel) : State :=
  { s with qe := { s.qe with rel := Tab.set (fun _ => []) s.qe.rel st v } }

/-- One page-table entry read at the release: its FRAME page is filled with zeros; a fault is recorded
(R289). -/
def State.releasePage (s : State) (st q v status : Nat) : State :=
  if status = stOK ∧ s.pteValid st v then
    match pteLoc v with
    | .frame f => s.zeroFrame st f
    | _ => s
  else
    let cause := if status = stWALKERR_DEV then 2 else if status = stOK then 3 else 1
    (s.pgCnt st 7).raise st (recGen 2 sevCONTAINED caQFAULT (some (qeOwner (s.qEntry st q)))
      (specGen 0 0 0 0 q status cause))

/-- The next page of a page table is read (R278, R289): one read at a time. -/
def State.relRead (s : State) (st : Nat) (r : QRel) : State :=
  match r.todo with
  | [] => s
  | j :: _ => s.walkRead st j r.page false true

/-- What is left of a release after a page. -/
def QRel.after (r : QRel) (pages : Nat) : QRel :=
  if r.page + 1 < pages then { r with page := r.page + 1 } else { r with todo := r.todo.tail, page := 0 }

/-- A read of a release is answered, and the next one starts. -/
def State.relDone (s : State) (st : Nat) (w : QWalk) (t : Txn) : State :=
  let s := s.releasePage st w.q (fieldOf (t.data.headD 0) (64 * (w.page % 8)) 64) t.status
  match (s.rels st).find? (fun r => r.todo.head? == some w.q) with
  | none => s
  | some r =>
    let n := r.after (sgPages (s.qSeg st w.q))
    (s.setRels st ((s.rels st).map (fun x => if x = r then n else x))).relRead st n

/-- WALK_COMPLETE (R278, R279, R286 to R289): the answer to the walk read with a tag is taken. -/
def execWalkComplete (st : StopNo) (tag : Fin 1024) (fs : List MemFlt) (s : State) :
    Host.Outcome State Fault Refusal :=
  let st := st.val
  match (s.walks st).find? (fun w => w.tag == tag.val), s.engineTxn st tag.val with
  | some w, some t =>
    let s1 := (s.engineTake st [tag.val]).setWalks st ((s.walks st).filter (fun x => x.tag != tag.val))
    .next (s.keepQe ((if w.rel then s1.relDone st w t else s1.walkDone st w t).qRun (calmQIn fs) st))
  | _, _ => .next s

/-- Frames that left the pool and hold nothing any more are gone from the list of leaving ones (R293). -/
def State.leftPool (s : State) (st : Nat) : State :=
  s.setLeaving st ((s.leavingAt st).filter (fun f => s.frameBusy st f))

/-- Blocks of a refilled page written, those with POIS in the poison form (R282). -/
def writeBlocks (st f : Nat) : List Txn → Nat → State → State
  | [], _, s => s
  | t :: ts, k, s =>
    let d := t.data.headD 0
    let p := t.status == stPOISON
    let s := s.writeRow st (frameWord f (2 * k)).1 (frameWord f (2 * k)).2 (BitVec.ofNat 256 d.toNat) p
    let s := s.writeRow st (frameWord f (2 * k + 1)).1 (frameWord f (2 * k + 1)).2
      (BitVec.ofNat 256 (d.toNat / 2 ^ 256)) p
    writeBlocks st f ts (k + 1) s

/-- A resident page in the scope of a flush in progress (R287). -/
def QInv.flushes (v : QInv) (r : Resid) : Bool :=
  bitOf v.word 2 && (fieldOf v.word 0 2 == 1 || (r.q == fieldOf v.word 8 8 && decide (v.lo ≤ r.page)
    && decide (r.page < v.lo + v.num)))

/-- A page move whose 16 completions are here (R281 to R285). -/
def State.moveDone (s : State) (st : Nat) (m : QMove) (ts : List Txn) : State :=
  let bad (ok : Nat → Bool) : Option Txn := ts.find? (fun t => !ok t.status)
  match m.kind with
  | .gone => s
  | .spill =>
    (match bad (· == stOK) with
     | some t =>
       let s := s.setResid st ((s.resid st).map (fun r => if r.frame = m.frame then { r with stuck := true } else r))
       let s := s.setInv st ((s.invAt st).map (fun v =>
         { v with bad := v.bad || v.flushes ⟨m.frame, m.q, m.page, 0, false, false⟩ }))
       (s.qRefresh st m.q).qFault st m.q 5 t.status
     | none =>
       ((s.pgCnt st 4).setResid st ((s.resid st).filter (fun r => r.frame != m.frame))).qRefresh st m.q)
  | k =>
    match bad (fun x => x == stOK || x == stPOISON) with
    | some t =>
      let s := s.qRefresh st m.q
      if k = .prefetch then s.pgCnt st 6 else s.pageFault st m.q m.page 5 t.status
    | none =>
      let s := writeBlocks st m.frame ts 0 s
      let r : Resid := ⟨m.frame, m.q, m.page, m.addr, false, false⟩
      (s.setResid st (s.resid st ++ [r])).qRefresh st m.q

/-- A resident page that has to leave its frame: a flush covers it, or its frame was removed from the pool
(R287, R293). -/
def State.mustLeave (s : State) (st : Nat) (r : Resid) : Bool :=
  (s.invAt st).any (fun v => v.flushes r) || (s.leavingAt st).contains r.frame

/-- Pages that must leave and that no operation holds: clean ones are freed at once, and the first dirty one
is spilled, one at a time. -/
def State.pushOut (s : State) (fs : List MemFlt) (st : Nat) : State :=
  let goes (r : Resid) : Bool := s.mustLeave st r && !r.stuck && !s.pageHeld st r.q r.page
    && !(s.moves st).any (fun m => m.frame == r.frame)
  let dirty := (s.resid st).find? (fun r => goes r && r.dirty)
  let busy := (s.moves st).any (fun m => m.kind == .spill)
  let s := s.setResid st ((s.resid st).filter (fun r => !(goes r && !r.dirty)))
  let s := match dirty with
    | some r => if busy then s else s.startSpill fs st r
    | none => s
  s.leftPool st

/-- PAGE_MOVE_COMPLETE (R281 to R286, R293): all 16 completions of the move that uses a frame have come. -/
def execPageMoveComplete (st : StopNo) (frame : Fin 128) (fs : List MemFlt) (s : State) :
    Host.Outcome State Fault Refusal :=
  let st := st.val
  match (s.moves st).find? (fun m => m.frame == frame.val) with
  | none => .next s
  | some m =>
    let ts := m.tags.filterMap (fun g => s.engineTxn st g)
    if ts.length < m.tags.length then .next s
    else
      let s1 := (s.engineTake st m.tags).setMoves st ((s.moves st).filter (fun x => x.frame != frame.val))
      .next (s.keepQe (((s1.moveDone st m ts).pushOut fs st).qRun (calmQIn fs) st))

/-- A device access that has its answer (R280, R285). -/
def State.devDone (s : State) (st : Nat) (o : QOp) (t : Txn) : State :=
  if t.status ≠ stOK then s.opFault st o 5 t.status
  else if o.head.opc = opENQ then s.enqDone st o
  else
    let v := joinNat 512 (t.data.map (·.toNat))
    s.readJudge st o (BitVec.ofNat 64 v) false (fun _ s => (v, false, s))

/-- DEV_ACCESS_COMPLETE (R280, R285, R286): the answer to an operation's device access is taken. -/
def execDevAccessComplete (st : StopNo) (tag : Fin 1024) (fs : List MemFlt) (s : State) :
    Host.Outcome State Fault Refusal :=
  let st := st.val
  match (s.qops st).find? (fun o => o.dev == some tag.val), s.engineTxn st tag.val with
  | some o, some t =>
    .next (s.keepQe (((s.engineTake st [tag.val]).devDone st o t).qRun (calmQIn fs) st))
  | _, _ => .next s

end Sys2Proof.Machine
end

