-- ==== Sys2Proof/Machine/QueueCtl.lean ====
section
/-! DEFINITION. Control of the queue engine: QCMD and deletion (R264, R267, R269, R289), the windows of the
queue table and the segment table (R271, R275), invalidation (R287), and the spill pool (R293). -/
namespace Sys2Proof.Machine
open Sys2Proof

/-! ### QCMD -/

/-- A QCMD has its result (Table 9.18). -/
def State.qcmdEnd (s : State) (st result reason : Nat) : State :=
  ((s.setFld (stopReg st sQCMD_STAT) 0 2 result).setFld (stopReg st sQCMD_STAT) 2 2 reason).setFld
    (stopReg st sQCMD) 31 1 0

/-- DELETE and FORCE_DELETE: the queue, or its group, enters DRAINING (R267). A queue whose entry is lost stays FAULTED
until FORCE_DELETE, and so does a DELETE of it stay under way (R269, log entry 141). -/
def State.qDelete (s : State) (st q : Nat) (force : Bool) : State :=
  let e := s.qEntry st q
  if qeState e = qDISABLED then s.qcmdEnd st 2 0
  else if qeType e = 3 then s.qcmdEnd st 2 1
  else if s.qIsLost st q && !force then s
  else
    let s := (s.groupOf st q).foldl (fun (s : State) j =>
      s.setQEntry st j (withField (s.qEntry st j) 0 3 qDRAINING)) s
    if force then
      let l := Tab.get (fun _ => []) s.qe.forced st
      { s with qe := { s.qe with forced := Tab.set (fun _ => []) s.qe.forced st (insertAsc q l) } }.forceDiscard st
    else s

/-- CLEAR_FAULT (R269, R285, R290): FCAUSE keeps its value, and pages of failed spills may be victims again. A queue
whose entry is lost stays FAULTED (log entry 141). -/
def State.qClear (s : State) (st q : Nat) : State :=
  let e := s.qEntry st q
  if qeState e = qDISABLED then s.qcmdEnd st 2 0
  else if qeState e ≠ qFAULTED then s.qcmdEnd st 2 3
  else if s.qIsLost st q then s.qcmdEnd st 1 0
  else
    let s := (s.setQEntry st q (withField e 0 3 qACTIVE)).qRefresh st q
    (s.setResid st ((s.resid st).map (fun r => if r.q = q then { r with stuck := false } else r))).qcmdEnd st 1 0

/-- A QCMD starts (Table 9.17). -/
def State.qcmd (s : State) (st q op : Nat) : State :=
  if op = 1 then s.qDelete st q false
  else if op = 2 then s.qDelete st q true
  else if op = 3 then s.qClear st q
  else if op = 4 then
    (if qeState (s.qEntry st q) = qDISABLED then s.qcmdEnd st 2 0 else (s.qArm st q (s.qEntry st (s.leaderOf st q))).qcmdEnd st 1 0)
  else s.setFld (stopReg st sQCMD) 31 1 0

/-- QCMD is written with GO: it starts, or waits for a commit to settle (R439, Table 9.12). -/
def State.qcmdWrite (s : State) (st q op : Nat) : State :=
  let w := packFields [(q, 8), (op, 3), (0, 20), (1, 1)]
  let s := s.setReg (stopReg st sQCMD) (BitVec.ofNat 32 w)
  if s.cmtOpen && 1 ≤ op && op ≤ 4 then
    { s with qe := { s.qe with cmdWait := Tab.set (fun _ => 0) s.qe.cmdWait st (op * 256 + q + 1) } }
  else s.qcmd st q op

/-- QCMDs that waited for a commit start (R439). -/
def State.qcmdRelease (s : State) : State :=
  s.qe.cmdWait.foldl (fun (s : State) e =>
    ({ s with qe := { s.qe with cmdWait := Tab.set (fun _ => 0) s.qe.cmdWait e.1 0 } }).qcmd e.1
      ((e.2 - 1) % 256) ((e.2 - 1) / 256)) s

/-- DELETE (R267, R269, R439). -/
def execDelete (st : StopNo) (q : QueueNo) (s : State) : Host.Outcome State Fault Refusal :=
  if !s.niOn st.val then .next s else
  .next (s.keepQe (s.qcmdWrite st.val q.val 1))

/-- FORCE_DELETE (R267, R269, R439). -/
def execForceDelete (st : StopNo) (q : QueueNo) (s : State) : Host.Outcome State Fault Refusal :=
  if !s.niOn st.val then .next s else
  .next (s.keepQe (s.qcmdWrite st.val q.val 2))

/-- CLEAR_FAULT (R269, R285, R290, R439). -/
def execClearFault (st : StopNo) (q : QueueNo) (s : State) : Host.Outcome State Fault Refusal :=
  if !s.niOn st.val then .next s else
  .next (s.keepQe (s.qcmdWrite st.val q.val 3))

/-- ARM (R264, R439). -/
def execArm (st : StopNo) (q : QueueNo) (s : State) : Host.Outcome State Fault Refusal :=
  if !s.niOn st.val then .next s else
  .next (s.keepQe (s.qcmdWrite st.val q.val 4))

/-! ### Release at deletion -/

/-- The pages of one queue are released, but for those that only its page table names (R267, R289). A prefetch is
abandoned and counted as discarded (R290, R295). -/
def State.releaseQueue (s : State) (st q : Nat) : State :=
  let g := s.qSeg st q
  let mine := (s.resid st).filter (fun r => r.q == q)
  let drop (w : QWalk) : Bool := w.q == q && !w.gone
  let dropM (m : QMove) : Bool := m.q == q && m.kind == .prefetch
  let n := ((s.walks st).filter drop).length + ((s.moves st).filter dropM).length
  let s := s.count (stopReg st (sPG_CNT + 24)) 0 32 n
  let s := s.setQtlb st ((s.qtlb st).filter (fun e => e.q != q))
  let s := s.setWalks st ((s.walks st).map (fun w => if drop w then { w with pref := true, dropped := true, gone := true } else w))
  let s := s.setMoves st ((s.moves st).map (fun m => if dropM m then { m with kind := .gone } else m))
  let s := s.setResid st ((s.resid st).filter (fun r => r.q != q))
  let s := mine.foldl (fun (s : State) r => s.zeroFrame st r.frame) s
  if sgMode g = 1 then forUpTo (sgPages g) (fun k s => s.zeroFrame st (sgFrame g + k)) s else s

/-- The entry is written to 0: the queue is DISABLED (R267). -/
def State.disable (s : State) (st q : Nat) : State :=
  { s.setQEntry st q 0 with qe := { (s.setQEntry st q 0).qe with
    ue := Tab.set (fun _ => false) s.qe.ue (st * 256 + q) false } }

/-- Deletion can end: COUNT is 0, no started operation and no refill or spill of the queue is left (R267,
R290). -/
def State.deleteReady (s : State) (st q : Nat) : Bool :=
  let g := s.groupOf st q
  qeState (s.qEntry st q) == qDRAINING && qeType (s.qEntry st q) != 3 && s.groupCount st q == 0
    && !(s.qops st).any (fun o => o.started && g.contains o.head.qnum)
    && !(s.moves st).any (fun m => g.contains m.q && m.kind != .prefetch && m.kind != .gone)
    && !(Tab.get (fun _ => []) s.qe.forced st).contains q

/-- QUEUE_DELETE_DONE (R267, R278, R289): the pages of a drained queue are released. Where a page table has to be
walked, the first call starts the walk, and one after its last answer ends it; then every entry becomes DISABLED. -/
def execQueueDeleteDone (x : Fin 16) (y : Fin 12) (q : QueueNo) (s : State) : Host.Outcome State Fault Refusal :=
  let st := (stopXY x y).val
  if !s.deleteReady st q.val then .next s
  else
    let g := s.groupOf st q.val
    let finish (s : State) : State :=
      let s := s.setRels st ((s.rels st).filter (fun r => r.q != q.val))
      (((g.foldl (fun (s : State) j => s.disable st j) s).qcmdEnd st 1 0).leftPool st).qRun (calmQIn []) st
    match (s.rels st).find? (fun r => r.q == q.val) with
    | some r => .next (if r.todo.isEmpty then s.keepQe (finish s) else s)
    | none =>
      let todo := g.filter (fun j => sgMode (s.qSeg st j) == 2)
      let t := g.foldl (fun (s : State) j => s.releaseQueue st j) s
      .next (s.keepQe (if todo.isEmpty then finish t
        else (t.setRels st (t.rels st ++ [⟨q.val, todo, 0⟩])).relRead st ⟨q.val, todo, 0⟩))

/-! ### Windows -/

/-- `n` words of registers from `a` on, as one number. -/
def State.wordsAt (s : State) (a n : Nat) : Nat :=
  joinNat 32 ((List.range n).map (fun k => (s.reg (a + 4 * k)).toNat))

/-- The selected entry: the active one, or the shadow definition. -/
def State.qtSelected (s : State) (st : Nat) (sel : Word32) : BitVec 256 :=
  let q := fieldOf sel 0 8
  if bitOf sel 8 then Tab.get (fun _ => 0) s.qe.shadow (st * 256 + q) else s.qEntry st q

/-- QT_RDATA takes the selected entry whole (R271). -/
def State.qtLatch (s : State) (st : Nat) (sel : Word32) : State :=
  let v := s.qtSelected st sel
  forUpTo 8 (fun j s => s.setReg (stopReg st (sQT_RDATA + 4 * j)) (BitVec.ofNat 32 (v.toNat / 2 ^ (32 * j)))) s

/-- A definition is written through the window: `s` has QT_SEL already. -/
def State.qtEntry (s : State) (st : Nat) (sel : Word32) : State :=
  if !bitOf sel 8 then s.raiseFlag (stopReg st sQE_STAT) 2
  else if s.cmtFrozen st 7 then s.cmtWr st
  else
    let v := BitVec.ofNat 256 (s.wordsAt (stopReg st sQT_WDATA) 8)
    let e := withField (v &&& qStaticMask) 0 3 (if fieldOf v 0 3 = 1 then 1 else 0)
    { s with qe := { s.qe with shadow := Tab.set (fun _ => 0) s.qe.shadow (st * 256 + fieldOf sel 0 8) e } }

/-- QT_ENTRY_WRITE (R271, R433): QT_SEL is written; with WR set the entry is written too, and QT_RDATA takes the entry
that is now selected. -/
def execQtEntryWrite (st : StopNo) (sel : Word32) (s : State) : Host.Outcome State Fault Refusal :=
  if !s.niOn st.val then .next s else
  let st := st.val
  let s1 := s.setReg (stopReg st sQT_SEL) (BitVec.ofNat 32 (fieldOf sel 0 9))
  .next (s.keepQe ((if bitOf sel 31 then s1.qtEntry st sel else s1).qtLatch st sel))

/-- Bits of a segment entry that are not reserved (Table 10.1). -/
def segMask : BitVec 128 := BitVec.ofNat 128 ((2 ^ 22 - 1) + (2 ^ 78 - 2 ^ 32))

def State.shadowDef (s : State) (st q : Nat) : BitVec 256 := Tab.get (fun _ => 0) s.qe.shadow (st * 256 + q)

/-- SEG_ENTRY_WRITE (R275): SEG_SEL is written with WR set. -/
def execSegEntryWrite (st : StopNo) (sel : Word32) (s : State) : Host.Outcome State Fault Refusal :=
  if !s.niOn st.val then .next s else
  let st := st.val
  let q := fieldOf sel 0 8
  let s1 := s.setReg (stopReg st sSEG_SEL) (BitVec.ofNat 32 q)
  if !bitOf sel 31 then .next (s.keepQe s1)
  else if qeState (s.qEntry st q) ≠ qDISABLED ∨ (s.cmtFrozen st 7 ∧ fieldOf (s.shadowDef st q) 0 3 = 1) then
    .next (s.keepQe (s1.raiseFlag (stopReg st sQTLB_STAT) 9))
  else
    let v := BitVec.ofNat 128 (s.wordsAt (stopReg st sSEG_WDATA) 4) &&& segMask
    let s2 := { s1 with qe := { s1.qe with segs := Tab.set (fun _ => 0) s1.qe.segs (st * 256 + q) v } }
    .next (s.keepQe ((s2.setQtlb st ((s2.qtlb st).filter (fun e => e.q != q))).setResid st
      ((s2.resid st).filter (fun r => r.q != q))))

/-! ### Invalidation -/

/-- An entry of the QTLB is in the scope of an invalidation word (R287). -/
def invCovers (w : Word32) (e : QtlbEnt) : Bool :=
  let op := fieldOf w 0 2
  op == 1 || (op == 2 && e.q == fieldOf w 8 8) || (op == 3 && e.covers (fieldOf w 8 8) (fieldOf w 16 10))

/-- A queue's pages in the scope: from page `lo`, `num` of them. -/
def invHas (w : Word32) (lo num q page : Nat) : Bool :=
  fieldOf w 0 2 == 1 || (q == fieldOf w 8 8 && decide (lo ≤ page) && decide (page < lo + num))

/-- QTLB_INV is written with GO (R287, R292). The run that a walk under way will install is not known yet, so with OP 3
no walk of the queue installs one. -/
def State.invStart (s : State) (fs : List MemFlt) (st : Nat) (w : Word32) : State :=
  let a := stopReg st sQTLB_INV
  if s.flag a 31 then s
  else
    let (lo, num) := if fieldOf w 0 2 = 3 then
        (match (s.qtlb st).find? (fun e => invCovers w e) with
         | some e => (e.base, 2 ^ e.n)
         | none => (fieldOf w 16 10, 1))
      else (0, 1024)
    let ops := ((s.qops st).filter (fun o => o.started &&
      o.tr.any (fun t => invHas w lo num (s.opTarget st o.head).1 t.1))).map (·.pkt)
    let s := s.setReg a w
    let s := s.setQtlb st ((s.qtlb st).filter (fun e => !invCovers w e))
    let s := s.setWalks st ((s.walks st).map (fun x =>
      if invHas w lo num x.q x.page || (fieldOf w 0 2 == 3 && x.q == fieldOf w 8 8) then { x with dropped := true } else x))
    (s.setInv st [⟨w, lo, num, ops, false⟩]).pushOut fs st

/-- The word of QTLB_INV with GO set. -/
def invWord (op : Nat) (flush : Bool) (q page : Nat) : Word32 :=
  BitVec.ofNat 32 (packFields [(op, 2), (boolNat flush, 1), (0, 5), (q, 8), (page, 10), (0, 5), (1, 1)])

/-- QTLB_INV_ALL (R287, R292). -/
def execQtlbInvAll (st : StopNo) (flush : Bool) (fs : List MemFlt) (s : State) :
    Host.Outcome State Fault Refusal :=
  if !s.niOn st.val then .next s else
  .next (s.keepQe (s.invStart fs st.val (invWord 1 flush 0 0)))

/-- QTLB_INV_QUEUE (R287, R292). -/
def execQtlbInvQueue (st : StopNo) (q : QueueNo) (flush : Bool) (fs : List MemFlt) (s : State) :
    Host.Outcome State Fault Refusal :=
  if !s.niOn st.val then .next s else
  .next (s.keepQe (s.invStart fs st.val (invWord 2 flush q.val 0)))

/-- QTLB_INV_PAGE (R287, R292). -/
def execQtlbInvPage (st : StopNo) (q : QueueNo) (page : Fin 1024) (flush : Bool) (fs : List MemFlt) (s : State) :
    Host.Outcome State Fault Refusal :=
  if !s.niOn st.val then .next s else
  .next (s.keepQe (s.invStart fs st.val (invWord 3 flush q.val page.val)))

/-- The invalidation's scope has drained (R287): its operations are done, and no page of a flush is left but
those whose spill failed. -/
def State.invReady (s : State) (st : Nat) (v : QInv) : Bool :=
  !(s.qops st).any (fun o => v.ops.contains o.pkt)
    && !(s.resid st).any (fun r => v.flushes r && !r.stuck)
    && !(s.moves st).any (fun m => v.flushes ⟨m.frame, m.q, m.page, 0, false, false⟩)

/-- QTLB_INV_DONE (R285, R287): GO clears once the scope has drained. Pages of a flush that still wait are
taken on. -/
def execQtlbInvDone (st : StopNo) (fs : List MemFlt) (s : State) : Host.Outcome State Fault Refusal :=
  let st := st.val
  let s1 := s.pushOut fs st
  match s1.invAt st with
  | [] => .next s
  | v :: _ =>
    if s1.invReady st v then
      .next (s.keepQe (((s1.setInv st []).setFld (stopReg st sQTLB_INV) 31 1 0).setFld (stopReg st sQTLB_INV_STAT) 0 2
        (if v.bad || (s1.resid st).any (fun r => v.flushes r && r.stuck) then 2 else 1)))
    else .next (s.keepQe s1)

/-! ### The spill pool -/

/-- POOL_WRITE (R293): QS_POOL_j is written. -/
def execPoolWrite (st : StopNo) (j : Fin 4) (v : Word32) (fs : List MemFlt) (s : State) :
    Host.Outcome State Fault Refusal :=
  if !s.niOn st.val then .next s else
  let st := st.val
  let a := stopReg st (sQS_POOL + 4 * j.val)
  let old := s.reg a
  let direct := (List.range 32).filter (fun k =>
    bitOf v k && !bitOf old k && (s.directOwner st (32 * j.val + k)).isSome)
  let new := direct.foldl (fun (w : Word32) k => withField w k 1 0) v
  let s1 := s.setReg a new
  let s2 := if direct.isEmpty then s1 else s1.raiseFlag (stopReg st sQTLB_STAT) 12
  let gone := ((List.range 32).filter (fun k => bitOf old k && !bitOf new k)).map (fun k => 32 * j.val + k)
  let kept := (s.leavingAt st).filter (fun f => !(f / 32 == j.val && bitOf new (f % 32)))
  .next (s.keepQe (((s2.setLeaving st (kept ++ gone.filter (fun f => s.frameBusy st f))).pushOut fs st).qRun
    (calmQIn fs) st))

/-- POOL_FRAME_LEAVE (R281, R293): a removed frame that no operation holds leaves, its page spilled first if
dirty. -/
def execPoolFrameLeave (st : StopNo) (f : Fin 128) (fs : List MemFlt) (s : State) :
    Host.Outcome State Fault Refusal :=
  if (s.leavingAt st.val).contains f.val then .next (s.keepQe (s.pushOut fs st.val)) else .next s

end Sys2Proof.Machine
end

