-- ==== Sys2Proof/Machine/Redecode.lean ====
section
/-! DEFINITION. The end of a map's replacement at the NIs (R217, R218), and the second decoding of what has not been
injected (R219, R440). -/
namespace Sys2Proof.Machine
open Sys2Proof

/-- What a source NI has of a piece: its injection not begun and not begun as a granted re-send. -/
def Piece.unsent (c : Piece) : Bool := c.injected == 0 && !c.resent

/-- A pending list holds the piece of transaction `t` of port `p` (R183). -/
def State.pendingPiece (s : State) (st p : Nat) (t : Txn) (c : Piece) : Bool :=
  (s.pend st (recNo c.die c.stop)).any (fun e => e.port == p && e.tag == t.tag && e.addr == c.addr && !e.void)

/-- RESID that a GWR packet named (R99). -/
def QPkt.flow (e : QPkt) : Nat :=
  match e.mark with
  | .flow r => r
  | _ => 0

/-- A GWR packet that waits for injection goes back to a captured request with the pieces given. -/
def State.takeBackGwr (s : State) (st q : Nat) (e : QPkt) (pieces : List Piece) (redec : Bool) : State :=
  let h := Pkt.head e.slots
  let p := e.port
  let ts := s.txns st p
  let ord := (ts.map (·.order)).foldl max 0 + 1
  let t := newTxn s st p h.tag h.opc h.addr (64 * (h.plen + 1) - h.addr % 64 - 1) h.plen h.attr h.part
    e.flow 0 (e.slots.map (fun x => (x.pay, x.ext)))
  let t : Txn := { t with tag := h.tag, order := ord, timer := false, pieces := pieces, redec := redec }
  (s.setTxns st p (ts ++ [t])).setInjq st q ((s.injq st q).filter (fun x => x != e))

/-! ### Decoding again -/

/-- Two pieces go to the same place with the same slots. -/
def Piece.same (c d : Piece) : Bool :=
  c.addr == d.addr && c.plen == d.plen && c.die == d.die && c.stop == d.stop && c.port == d.port

def samePieces (cs ds : List Piece) : Bool :=
  cs.length == ds.length && (cs.zip ds).all (fun e => e.1.same e.2)

/-- A piece that may be decoded again: nothing of it has gone out, and it waits in no pending list. -/
def State.mayRedec (s : State) (st p : Nat) (t : Txn) (c : Piece) : Bool :=
  c.unsent && c.status.isNone && !s.pendingPiece st p t c

/-- The whole request goes back before step 2 of R175, with its tag, its timer and its reservation. -/
def State.takeBack (s : State) (st p n : Nat) (t : Txn) : State :=
  let s := t.pieces.foldl (fun (s : State) c => s.withdraw st p t.tag c.addr false) s
  s.putTxn st p n (some { t with phase := .captured, pieces := [], redec := true, ack := false })

/-- First byte of the piece after piece `i`, or the end of the request: a split request's pieces follow one another. -/
def Txn.pieceEnd (t : Txn) (i : Nat) : Nat :=
  match t.pieces[i + 1]? with
  | some d => d.addr
  | none => t.addr + t.len + 1

/-- One piece of a split request decoded by itself: itself where nothing changes, the pieces that take its place, or
itself with the status of a refusal. -/
def State.redecPiece (s : State) (st p : Nat) (t : Txn) (i : Nat) (c : Piece) : List Piece × State :=
  match s.decode c.addr (t.pieceEnd i - c.addr - 1) t.attr with
  | .bad status cause cnt =>
    let s := (s.withdraw st p t.tag c.addr false).decCnt st cnt
    ([{ c with released := true, status := some status }], if cause = 0 then s else s.decRec st p t cause 0)
  | .good _ ds =>
    let cs := ds.map (destPiece t)
    if samePieces [c] cs then ([c], s)
    else if ds.any (fun e => !s.reachable e.die e.stop false) then
      ([{ c with released := true, status := some stDECERR }],
        ((s.withdraw st p t.tag c.addr false).decCnt st 0).decRec st p t caDEC_MISS (peerOf c.die c.stop c.port))
    else (cs, s.withdraw st p t.tag c.addr false)

/-- The pieces of a partly injected request, one after the other. -/
def redecPieces (st p : Nat) (t : Txn) : List (Piece × Nat) → State → List Piece × State
  | [], s => ([], s)
  | (c, i) :: rest, s =>
    let (cs, s) := if s.mayRedec st p t c then s.redecPiece st p t i c else ([c], s)
    let (ds, s) := redecPieces st p t rest s
    (cs ++ ds, s)

/-- A request of which something has not been injected is decoded again against the new map. Queue operations and
snoops carry no address to decode. -/
def State.redecodeTxn (s : State) (st p n : Nat) (t : Txn) : State :=
  if t.isMsg || t.opc == opSNP || !t.pieces.any (fun c => s.mayRedec st p t c)
      || t.phase == .ready || t.phase == .haunt || t.phase == .stale then s
  else if t.pieces.all (fun c => s.mayRedec st p t c) then
    match s.decode t.addr t.len t.attr with
    | .good _ ds =>
      if samePieces t.pieces (ds.map (destPiece t)) then s.decCnt st 3 else s.takeBack st p n t
    | .bad _ _ _ => s.takeBack st p n t
  else
    let (cs, s) := redecPieces st p t t.pieces.zipIdx (s.decCnt st 3)
    let u : Txn := { t with pieces := cs, phase := if cs.all (·.released) then t.phase else .released }
    if cs.any (fun c => c.status.isNone) then s.putTxn st p n (some u)
    else
      match u.settle with
      | none => s.putTxn st p n none
      | some v => s.finish st p n v

/-- A GWR packet that waits in its queue is decoded again: one that the new map sends elsewhere goes back to be
checked. -/
def State.redecodeGwr (s : State) (st q : Nat) (e : QPkt) : State :=
  let h := Pkt.head e.slots
  match s.decode h.addr (64 * (h.plen + 1) - h.addr % 64 - 1) h.attr with
  | .good _ ds =>
    if ds.all (fun d => d.die == h.ddie && d.stop == h.dstop && d.port == h.dport) then s.decCnt st 3
    else s.takeBackGwr st q e [] true
  | .bad _ _ _ => s.takeBackGwr st q e [] true

/-- Everything of the die that has not been injected is decoded again. -/
def State.redecode (s : State) : State :=
  let s := s.ni.txns.foldl (fun (s : State) e =>
    (List.range e.2.length).reverse.foldl (fun (s : State) n =>
      match (s.txns (e.1 / 4) (e.1 % 4))[n]? with
      | none => s
      | some t => s.redecodeTxn (e.1 / 4) (e.1 % 4) n t) s) s
  s.ni.injq.foldl (fun (s : State) q =>
    q.2.foldl (fun (s : State) e =>
      if (Pkt.head e.slots).opc = opGWR ∧ e.next = 0 then s.redecodeGwr (q.1 / 512) (q.1 % 512) e else s) s) s

/-- The replacement of the map ends 64 rc after it began: every NI holds the new map whole, requests are decoded
again, and the apply is done (R217 to R219, Tables 8.10 and 8.11). -/
def State.mapEnd (s : State) : State :=
  if s.mapWhole || s.frame.rcs < s.ni.mapFrom + 64 then s
  else
    let s := { s with ni := { s.ni with mapOld := [] } }.redecode
    if s.flag gADDR_MAP_CTRL 0 then
      (((s.setFld gADDR_MAP_STAT 0 2 1).setFld gADDR_MAP_STAT 2 9 0).setFld gADDR_MAP_STAT 11 1 0).setFld
        gADDR_MAP_CTRL 0 1 0
    else s

end Sys2Proof.Machine
end

