-- ==== Sys2Proof/Machine/Fence.lean ====
section
/-! DEFINITION. Routes over the die grid (R388, R389), what a source NI does when a FENCE reaches it and
when it acknowledges (R356, R357). -/
namespace Sys2Proof.Machine
open Sys2Proof

/-! ### Routes over the die grid -/

/-- The edge by which a die is left toward another (R388): requests X then Y, responses Y then X; 1 E, 2 W,
3 S, 4 N. -/
def dieEdge (own d : Nat) (rsp : Bool) : Nat :=
  let h := if own % 4 < d % 4 then 1 else if d % 4 < own % 4 then 2 else 0
  let v := if own / 4 < d / 4 then 3 else if d / 4 < own / 4 then 4 else 0
  if rsp then (if v ≠ 0 then v else h) else (if h ≠ 0 then h else v)

/-- The edge a port is on (Table 14.1). -/
def portEdge (p : Nat) : Nat := if p < 2 then 2 else if p < 4 then 1 else if p < 6 then 4 else 3

/-- The port a valid active detour names (Table 14.11). -/
def State.detourFor (s : State) (d : Nat) (rsp : Bool) : Option Nat :=
  ((List.range 8).map (fun i => s.reg (gDETOUR + 4 * i))).findSome? (fun w =>
    if bitOf w 0 && fieldOf w 1 4 == d && bitOf w 5 == rsp then some (fieldOf w 6 3) else none)

/-- The half of DIE_ROUTE_d for requests or responses: edge, fixed, port (R388, R389). -/
def State.routeHalf (s : State) (d : Nat) (rsp : Bool) : Nat × Nat × Nat :=
  if d = s.die then (0, 0, 0)
  else if !s.flag gDIE_MAP d then (7, 0, 0)
  else
    match s.detourFor d rsp with
    | some p => if s.dpUp p then (portEdge p, 1, p) else (7, 1, p)
    | none =>
      let e := dieEdge s.die d rsp
      let (ev, od) := edgePorts e
      if s.dpUp ev && s.dpUp od then (e, 0, 0)
      else if s.dpUp ev then (e, 1, ev)
      else if s.dpUp od then (e, 1, od)
      else (7, 0, 0)

/-- The word of DIE_ROUTE_d as the map, the ports and the detours give it. -/
def State.routeWord (s : State) (d : Nat) : Word32 :=
  let q := s.routeHalf d false
  let r := s.routeHalf d true
  BitVec.ofNat 32 (packFields [(q.1, 3), (r.1, 3), (q.2.1, 1), (q.2.2, 3), (r.2.1, 1), (r.2.2, 3)])

/-- Every route is worked out again. -/
def State.setRoutes (s : State) : State :=
  (List.range 16).foldl (fun (t : State) d => t.setReg (gDIE_ROUTE + 4 * d) (s.routeWord d)) s

/-- The dies whose route differs from the one in force. -/
def State.routesChanged (s : State) : List Nat :=
  (List.range 16).filter (fun d => s.reg (gDIE_ROUTE + 4 * d) != s.routeWord d)

/-! ### FENCE at a source NI -/

/-- The pending entries of one piece become void (R185, Table 13.4). -/
def State.voidPiece (s : State) (st p : Nat) (t : Txn) (c : Piece) : State :=
  let k := recNo c.die c.stop
  s.setPend st k ((s.pend st k).map (fun e =>
    if e.port = p ∧ e.tag = t.tag ∧ e.addr = c.addr then { e with void := true } else e))

/-- A piece bound for a fenced destination is held, or fails, at its source (Table 13.4). -/
def State.fencePiece (s : State) (st p n : Nat) (t : Txn) (i : Nat) (c : Piece) : State :=
  let wakes := wakeable (opClass t.opc) c.port
  let hold (s : State) (u : Txn) : State :=
    (s.putTxn st p n (some (if t.opc = opGWR then u else s.armed st u))).wakeFor st c.die c.stop c.port
  if !c.released then
    (if wakes then hold s t else s.fenceFail st p n t i c)
  else if s.pendingPiece st p t c then
    let s := s.voidPiece st p t c
    if wakes then hold s (t.unrelease i c) else s.fenceFail st p n t i c
  else if c.unsent then
    let s := s.withdraw st p t.tag c.addr false
    if wakes then hold s (t.unrelease i c) else s.fenceFail st p n t i c
  else s

/-- Every piece that the set covers of the transaction at index `n`, one after the other. -/
def fencePieces (set : FSet) (st p n tag : Nat) : List Nat → State → State
  | [], s => s
  | i :: is, s =>
    match (s.txns st p)[n]? with
    | none => s
    | some t =>
      match t.pieces[i]? with
      | none => s
      | some c =>
        if t.tag = tag && (t.phase == .captured || t.phase == .released || t.phase == .posted)
            && c.status.isNone && s.fsetHas set c.die c.stop c.port then
          fencePieces set st p n tag is (s.fencePiece st p n t i c)
        else fencePieces set st p n tag is s

/-- A GWR packet that waits for injection goes back to a captured request, held (Table 13.4). -/
def State.holdGwr (s : State) (st q : Nat) (e : QPkt) : State :=
  let h := Pkt.head e.slots
  (s.takeBackGwr st q e [newPiece h.addr h.plen h.ddie h.dstop h.dport 0] false).wakeFor st h.ddie h.dstop h.dport

/-- GWR packets of a stop bound for the set and not begun. -/
def State.fenceGwr (s : State) (set : FSet) (st : Nat) : State :=
  (s.queuesOf st).foldl (fun (s : State) q =>
    q.2.foldl (fun (s : State) e =>
      let h := Pkt.head e.slots
      if h.opc = opGWR && e.next == 0 && s.fsetHas set h.ddie h.dstop h.dport then s.holdGwr st q.1 e else s) s) s

/-- FENCE reaches source stop `st` (R356, R361). -/
def State.fenceAt (s : State) (st : Nat) (set : FSet) : State :=
  let fs := s.fences st
  let us := Tab.get (fun _ => []) s.pw.unacked st
  let s := { s with pw := { s.pw with
    fences := Tab.set (fun _ => []) s.pw.fences st (if fs.contains set then fs else fs ++ [set])
    unacked := Tab.set (fun _ => []) s.pw.unacked st (if us.contains set then us else us ++ [set]) } }
  let s := (List.range 4).foldl (fun (s : State) p =>
    (s.txns st p).zipIdx.reverse.foldl (fun (s : State) t =>
      fencePieces set st p t.2 t.1.tag (List.range t.1.pieces.length) s) s) s
  s.fenceGwr set st

/-- No packet to the set is left in the injection queues, receive stages or pending lists of a source NI, and
none is part-way through injection (R357). -/
def State.fenceClear (s : State) (st : Nat) (set : FSet) : Bool :=
  let hit (p : Pkt) : Bool :=
    let h := Pkt.head p
    h.cls != clsRSP && h.cls != clsMGMT && s.fsetHas set h.ddie h.dstop h.dport
  !(s.queuesOf st).any (fun q => q.2.any (fun e => hit e.slots))
    && !(List.range 4).any (fun p => (s.heldAt st p).any (fun h => hit h.slots))
    && !(List.range 4).any (fun p => (s.txns st p).any (fun t => t.pieces.any (fun c =>
      c.status.isNone && s.fsetHas set c.die c.stop c.port && s.pendingPiece st p t c)))

end Sys2Proof.Machine
end

