-- ==== Sys2Proof/Machine/Power.lean ====
section
/-! DEFINITION. Hearth's power and fence sequencer (R352 to R371), Kind B changes (R427, R440), the change of
the address map and of REMAP_CTRL (R213, R217), detours (R390) and the ring clock (R344). -/
namespace Sys2Proof.Machine
open Sys2Proof

/-! ### Registers and states -/

def dmON : Nat := 0
def dmFENCING : Nat := 1
def dmDRAINED : Nat := 2
def dmISOLATED : Nat := 3
def dmOFF : Nat := 4
def dmWAKING : Nat := 5

/-- State of fabric domain `f` (Table 13.12). -/
def State.setDom (s : State) (f v : Nat) : State := s.setFld (gPWR_DOMAIN_STATE + 4 * (f / 8)) (4 * (f % 8)) 4 v

/-- State of a domain by its number (Table 13.1). -/
def State.domNum (s : State) (d : Nat) : Nat :=
  if d < 256 then Tab.get (fun _ => 0) s.pw.apds d else s.domState (d - 256)

def State.setDomNum (s : State) (d v : Nat) : State :=
  if d < 256 then { s with pw := { s.pw with apds := Tab.set (fun _ => 0) s.pw.apds d v } }
  else s.setDom (d - 256) v

/-- The fence set of a domain (R351). -/
def domSet (d : Nat) : FSet := if d < 256 then .apd d else if d < 304 then .ng (d - 256) else .dp (d - 304)

/-- Status codes of Table 13.3. -/
def pwDONE : Nat := 0
def pwREFUSED_DEP : Nat := 1
def pwREFUSED_QUEUE : Nat := 2
def pwFORCED : Nat := 3
def pwABORTED : Nat := 4
def pwPG_FAIL : Nat := 5
def pwINVALID : Nat := 6

/-- Other dies of the fabric. -/
def State.otherDies (s : State) : List Nat := (List.range 16).filter (fun d => d != s.die && s.flag gDIE_MAP d)

/-- The stops of an NG domain. -/
def ngStops (k : Nat) : List Nat := (List.range 192).filter (fun st => ngOf st == k)

/-- PHASE and BUSY of FENCE_STATUS. -/
def State.setPhase (s : State) (n : Nat) : State :=
  (s.setFld gFENCE_STATUS 0 1 (if n = 0 then 0 else 1)).setFld gFENCE_STATUS 1 3 n

/-- Hearth has halted (R423): BOOT_STAT.HSAFE. -/
def State.hsafe (s : State) : Bool := s.flag gBOOT_STAT 21

/-- The operation in progress, as a Hearth that still runs works on it (R423). -/
def State.pwNow (s : State) : Option PwOp := if s.hsafe then none else s.pw.op

/-- The operation in progress changes. -/
def State.setOp (s : State) (o : Option PwOp) : State :=
  { s with pw := { s.pw with op := o } }.setPhase (match o with
    | some o => o.phase
    | none => 0)

/-- DOM and RESULT of FENCE_STATUS (Table 13.9). -/
def State.setResult (s : State) (dom status : Nat) : State :=
  (s.setFld gFENCE_STATUS 4 9 dom).setFld gFENCE_STATUS 13 3 status

/-- Hearth answers a request of the power controller (R353). -/
def State.pwAnswer (s : State) (dom status : Nat) : State :=
  { s with pw := { s.pw with rsps := s.pw.rsps ++ [(dom, status)] } }.setResult dom status

/-- A refusal (R354). -/
def State.pwRefuse (s : State) (dom status : Nat) : State := (s.pwAnswer dom status).raiseFlag gPWR_STAT 0

/-! ### Starting an operation -/

/-- FENCE is broadcast over a set: step 1 of R355. -/
def State.fenceStart (s : State) (kind : PwKind) (dom : Nat) (set : FSet) (change : Option KbChange) : State :=
  let o : PwOp := { kind := kind, dom := dom, set := set, phase := 1, lift := false, seen := [], acks := [],
                    dies := s.otherDies, cross := !s.otherDies.isEmpty, settle := 0, from_ := 0, change := change }
  let s := s.setFld gFENCE_STATUS 16 16 (s.fld gFENCE_STATUS 16 16 + 1)
  let s := if kind = .kindB then s else (s.setDomNum dom dmFENCING).setFld gFENCE_STATUS 4 9 dom
  (s.setOp (some o)).broadcast

/-- UNFENCE is broadcast over a set (R365, R366, R440). -/
def State.liftStart (s : State) (o : PwOp) : State :=
  (s.setOp (some { o with phase := 1, lift := true, seen := [] })).broadcast

/-- An agent port of a stop is FENCED, CLOSED or absent (R354). -/
def State.portShut (s : State) (st k : Nat) : Bool :=
  portGen st k == 0 || (s.port st k).state == 0 || (s.port st k).state == 3

/-- A stop holds a queue that is not DISABLED. -/
def State.liveQueue (s : State) (st : Nat) : Bool :=
  s.qe.table.any (fun e => st * 256 ≤ e.1 && e.1 < st * 256 + 256 && qeState e.2 != qDISABLED)

/-- The refusal an OFF request meets, if any (R354, R424). -/
def State.offRefusal (s : State) (d : Nat) : Option Nat :=
  if 312 ≤ d || s.domNum d != dmON || s.fabState != fabOPEN then some pwINVALID
  else if 256 ≤ d ∧ d < 304 then
    let sts := ngStops (d - 256)
    if !s.flag gRESTORE_STAT 0 || sts.any (fun st => !s.portShut st 0 || !s.portShut st 1) then some pwREFUSED_DEP
    else if sts.any (fun st => s.liveQueue st) then some pwREFUSED_QUEUE
    else none
  else none

/-- Agent ports of the die that belong to an APD (R350). -/
def State.apdPorts (s : State) (n : Nat) : List (Nat × Nat) :=
  ((List.range 192).flatMap (fun st => [(st, 0), (st, 1)])).filter (fun e =>
    portGen e.1 e.2 != 0 && s.apdOf e.1 e.2 == some n)

/-- The refusal an ON request meets, if any (R354, R374). -/
def State.onRefusal (s : State) (d : Nat) : Option Nat :=
  if 312 ≤ d || s.domNum d == dmON || s.fabState != fabOPEN then some pwINVALID
  else if d < 256 then
    (if (s.apdPorts d).any (fun e => s.domState (ngOf e.1) != dmON) then some pwREFUSED_DEP else none)
  else if 304 ≤ d && !bitOf (BitVec.ofNat 8 s.d2d.present) (d - 304) then some pwINVALID
  else if s.domNum d != dmOFF && s.domNum d != dmDRAINED then some pwINVALID
  else none

/-- A domain's weak and strong switch stages and its isolation (R360, R366). -/
def State.setSw1 (s : State) (f : Nat) (v : Bool) : State :=
  { s with pw := { s.pw with sw1 := Tab.set (fun _ => false) s.pw.sw1 f v } }
def State.setSw2 (s : State) (f : Nat) (v : Bool) : State :=
  { s with pw := { s.pw with sw2 := Tab.set (fun _ => false) s.pw.sw2 f v } }
def State.setIso (s : State) (f : Nat) (v : Bool) : State :=
  { s with pw := { s.pw with iso := Tab.set (fun _ => true) s.pw.iso f v } }

/-- A stage of the switching of a domain begins; it is over after `n` hc. -/
def State.setStage (s : State) (q : PwSeq) (stage : PwStage) (n : Nat) : State :=
  { s with pw := { s.pw with seq := some { q with stage := stage, due := s.her.boot.hcs + n } } }

/-- A domain is switched on: WAKING, the weak stage (R366 step 1). -/
def State.wakeStart (s : State) (f : Nat) : State :=
  ((s.setDom f dmWAKING).setSw1 f true).setStage
    { dom := f, stage := .weak, due := 0, good := false, whole := true, ans := 0 } .weak 64

/-- A domain is switched off, which begins an hc later (R360); `ans` is to be answered once it is OFF. -/
def State.offStart (s : State) (f ans : Nat) : State :=
  s.setStage { dom := f, stage := .isolate, due := 0, good := false, whole := true, ans := ans } .isolate 1

/-- A power request starts. -/
def State.pwStart (s : State) (d : Nat) (on : Bool) : State :=
  match (if on then s.onRefusal d else s.offRefusal d) with
  | some r => s.pwRefuse d r
  | none =>
    if !on then s.fenceStart .off d (domSet d) none
    else
      let o : PwOp := { kind := .on, dom := d, set := domSet d, phase := 5, lift := false, seen := [], acks := [],
                        dies := [], cross := false, settle := 0, from_ := 0, change := none }
      let s := s.setFld gFENCE_STATUS 4 9 d
      if d < 256 ∨ s.domNum d = dmDRAINED then s.liftStart o
      else (s.wakeStart (d - 256)).setOp (some o)

/-- FENCE_CTRL starts (R371). A fence needs a domain that is ON, an unfence one that is DRAINED. -/
def State.fcStart (s : State) (d : Nat) (un : Bool) : State :=
  let go (s : State) : State := s.setFld gFENCE_CTRL 31 1 0
  if 312 ≤ d then go (s.setResult d pwINVALID)
  else if un then
    if s.domNum d = dmDRAINED then
      s.liftStart { kind := .unfence, dom := d, set := domSet d, phase := 1, lift := true, seen := [], acks := [],
                    dies := [], cross := false, settle := 0, from_ := 0, change := none }
    else go (s.setResult d pwINVALID)
  else if s.domNum d = dmON then s.fenceStart .fence d (domSet d) none
  else go (s.setResult d pwINVALID)

/-! ### Kind B changes -/

/-- Destinations a region names (R217): a fabric configuration space names port 3 of every stop of its dies
(Table 8.2). -/
def regionDests (e : Region) : List (Nat × Nat × Nat) :=
  if !rgEn e then []
  else if rgKind e = 2 then
    (List.range (min 16 ((rgLimit e + 1 - rgBase e) / 0x4000))).flatMap (fun d =>
      (List.range nStops).map (fun st => (d, st, 3)))
  else
    let d := rgStop e / 256
    (if rgKind e = 0 then [(d, rgStop e % 256, rgPort e)] else []) ++
      (if rgKind e = 1 || rgBoot e then
        ((List.range 16).filter (fun k => bitOf e (104 + k))).map (fun k => (d, mcStop k, 0)) else [])

/-- Destinations of every region that differs between the checked copy and the active map. -/
def State.mapDests (s : State) (es : List Region) : List (Nat × Nat × Nat) :=
  (es.zip (s.regions gACTIVE_MAP)).flatMap (fun e =>
    if e.1 = e.2 then [] else regionDests e.1 ++ regionDests e.2)

/-- The boot-ROM target and the interleave members of the boot window (R213). -/
def State.bootDests (s : State) : List (Nat × Nat × Nat) :=
  ((s.regions gACTIVE_MAP).filter rgBoot).flatMap regionDests

/-- The affected set of a change (Table 16.4). -/
def State.kbSet (s : State) : KbChange → FSet
  | .map es => .dests (s.mapDests es)
  | .remap _ => .dests s.bootDests
  | .detour => .dies ((s.routesChanged).filter (fun d => d != s.die))
  | .sibling _ => .dies ((s.routesChanged).filter (fun d => d != s.die))
  | .rclk => .dies [s.die]

/-- The staged detours become active (R390, R403). -/
def State.detourCopy (s : State) : State :=
  forUpTo 8 (fun i s => s.setReg (gDETOUR + 4 * i) (s.reg (gDETOUR_STG + 4 * i))) s

/-- The restore image, where there is one, is behind the change just made (R424, R436, R440). -/
def State.imgStale (s : State) : State :=
  if s.flag gRESTORE_STAT 0 then { s with pw := { s.pw with img := true } } else s

/-- A change is applied at every NI of the die (R440, R441), and the restore image follows. A map is whole at every NI 64 rc later (R218). -/
def State.kbApply (s : State) : KbChange → State
  | .map es => (s.mapCopy es).imgStale
  | .remap v => (((s.setReg gREMAP_CTRL (BitVec.ofNat 32 (v.toNat - fieldOf v 1 3 * 2)))).redecode).imgStale
  | .detour => ((s.detourCopy.setRoutes.setFld gDETOUR_CTRL 0 1 0).setFld gDETOUR_CTRL 1 2 1).imgStale
  | .sibling _ => s.setRoutes.imgStale
  | .rclk => s

/-- A Kind B change starts. A detour's set is worked out from the staged entries. -/
def State.kbStart (s : State) (c : KbChange) : State :=
  let set := match c with
    | .detour => s.detourCopy.kbSet c
    | _ => s.kbSet c
  let s := if c = .rclk then
      { s.setFab fabQUIESCING with cdc := { s.cdc with ret := s.fabState, lost := [] } } else s
  s.fenceStart .kindB 0 set (some c)

/-- Power requests may not start: a commit is open (R439). -/
def State.pwBlocked (s : State) : Bool := s.cmtOpen || s.pw.op.isSome || s.hsafe

/-- The next thing that waits starts: FENCE_CTRL, a Kind B change, a power request (R346, R354, R370, R439). -/
def pwNext : Nat → State → State
  | 0, s => s
  | n + 1, s =>
    if s.pwBlocked then s
    else
      match s.pw.fcs, s.pw.kbs, s.pw.reqs with
      | (d, un) :: rest, _, _ => pwNext n ({ s with pw := { s.pw with fcs := rest } }.fcStart d un)
      | [], c :: rest, _ =>
        if s.fabState = fabOPEN then pwNext n ({ s with pw := { s.pw with kbs := rest } }.kbStart c)
        else if s.fabState = fabQUIESCING ∨ s.fabState = fabQUIESCED then s
        else pwNext n ({ s with pw := { s.pw with kbs := rest } }.kbApply c)
      | [], [], (d, on) :: rest => if s.pw.img then s else pwNext n ({ s with pw := { s.pw with reqs := rest } }.pwStart d on)
      | [], [], [] => s

/-- Whatever waits and may start does. -/
def State.pwGo (s : State) : State := pwNext (s.pw.fcs.length + s.pw.kbs.length + s.pw.reqs.length + 1) s

/-- The operation in progress is over. -/
def State.opEnd (s : State) : State := (s.setOp none).pwGo

/-- The parts of the state that the sequencer may change. -/
def State.keepPw (s t : State) : State :=
  { s with regs := t.regs, ni := t.ni, recs := t.recs, pmu := t.pmu, pw := t.pw, cdc := t.cdc, qe := t.qe
           mem := t.mem, store := t.store, d2d := t.d2d, ring := t.ring }

/-! ### Requests -/

/-- `fab_pwr_req_ready` (R354, R424, R439). -/
def State.pwReady (s : State) : Bool :=
  (s.fabState == fabOPEN || s.fabState == fabDEGRADED) && !s.cmtOpen && !s.hsafe && !s.pw.img && s.pw.reqs.isEmpty &&
    (match s.pw.op with
     | none => true
     | some o => o.kind == .off && s.domNum o.dom != dmOFF)

/-- A request transfers (R352, R354): it starts, waits, or cancels the OFF of its domain (R370). -/
def State.pwRequest (s : State) (d : Nat) (on : Bool) : State :=
  if !s.pwReady then s
  else
    match s.pw.op with
    | none => ({ s with pw := { s.pw with rsps := [] } }.pwStart d on).pwGo
    | some o =>
      if on && o.kind == .off && o.dom == d && s.domNum d == dmFENCING then
        (s.pwAnswer d pwABORTED).liftStart { o with kind := .on }
      else { s with pw := { s.pw with reqs := s.pw.reqs ++ [(d, on)] } }

/-- POWER_OFF_REQUEST (R352 to R355, R439). -/
def execPowerOffRequest (d : Fin 512) (s : State) : Host.Outcome State Fault Refusal :=
  .next (s.keepPw (s.pwRequest d.val false))

/-- POWER_ON_REQUEST (R353, R354, R365, R366, R370, R439). -/
def execPowerOnRequest (d : Fin 512) (s : State) : Host.Outcome State Fault Refusal :=
  .next (s.keepPw (s.pwRequest d.val true))

/-- FENCE_CTRL is written with GO (R371). -/
def State.fcWrite (s : State) (d : Nat) (un : Bool) : State :=
  if s.flag gFENCE_CTRL 31 then s
  else
    let s := s.setReg gFENCE_CTRL (BitVec.ofNat 32 (packFields [(d, 9), (boolNat un, 1)]))
    if s.fabState ≠ fabOPEN then s
    else ({ s with pw := { s.pw with fcs := s.pw.fcs ++ [(d, un)] } }.setFld gFENCE_CTRL 31 1 1).pwGo

/-- FENCE (R355, R370, R371, R439). -/
def execFence (d : Fin 512) (s : State) : Host.Outcome State Fault Refusal :=
  .next (s.keepPw (s.fcWrite d.val false))

/-- UNFENCE (R365, R371, R439). -/
def execUnfence (d : Fin 512) (s : State) : Host.Outcome State Fault Refusal :=
  .next (s.keepPw (s.fcWrite d.val true))

/-! ### The broadcast and its acknowledgements -/

/-- Steps 2 and 3 of R355: PHASE follows, and when every stop and die has answered the settle begins. -/
def State.fenceStep (s : State) : State :=
  match s.pwNow with
  | none => s
  | some o =>
    if o.lift ∨ 2 < o.phase then s
    else if o.seen.length = 192 ∧ o.acks.length = 192 ∧ o.dies.isEmpty then
      let f := 48 * s.frame.flen48
      let hold := s.fld (stopReg hearthStop sDEFL_CTRL) 16 16
      let x := if o.cross then s.fld gD2D_CTRL 0 16 else 0
      s.setOp (some { o with phase := 3, settle := s.frame.rcs + f + hold + x })
    else if o.seen.length = 192 then s.setOp (some { o with phase := 2 })
    else s

/-- FENCE_RECEIVE (R105, R355, R356, R361, R398): FENCE reaches source stop `st`. `far` says that another
die's Hearth sent it. -/
def execFenceReceive (st : StopNo) (set : FSet) (far : Bool) (s : State) : Host.Outcome State Fault Refusal :=
  let t := s.fenceAt st.val set
  if far then .next (s.keepPw t)
  else
    match s.pwNow with
    | none => .next s
    | some o =>
      if o.set = set ∧ !o.lift then
        .next (s.keepPw ((t.mgmtTake st.val opMG_LAP).setOp (some { o with seen := insertAsc st.val o.seen })).fenceStep)
      else .next s

/-- FENCE_ACK (R105, R357, R398): a source NI acknowledges, or another die does. -/
def execFenceAck (who : AckFrom) (s : State) : Host.Outcome State Fault Refusal :=
  match who with
  | .die d =>
    (match s.pwNow with
     | some o =>
       if o.lift then .next s
       else .next (s.keepPw (s.setOp (some { o with dies := o.dies.filter (fun x => x != d.val) })).fenceStep)
     | none => .next s)
  | .stop st set =>
    let us := Tab.get (fun _ => []) s.pw.unacked st.val
    if us.contains set && s.fenceClear st.val set then
      let s1 := { s with pw := { s.pw with
        unacked := Tab.set (fun _ => []) s.pw.unacked st.val (us.filter (fun x => x != set)) } }
      let s1 := (s1.ackUp st.val).mgmtTake hearthStop opMG_ACK
      match s.pwNow with
      | some o =>
        if o.set = set ∧ !o.lift then
          .next (s.keepPw (s1.setOp (some { o with acks := insertAsc st.val o.acks })).fenceStep)
        else .next (s.keepPw s1)
      | none => .next (s.keepPw s1)
    else .next s

/-- FENCE_SETTLE_DONE (R344, R355, R390, R398, R440): the settle is over. The drain begins; a Kind B change is
applied first, and a ring-clock change stops the clock instead. -/
def execFenceSettleDone (s : State) : Host.Outcome State Fault Refusal :=
  match s.pwNow with
  | none => .next s
  | some o =>
    if o.phase ≠ 3 ∨ s.frame.rcs < o.settle then .next s
    else
      match o.change with
      | some .rclk =>
        let t := (s.setFab fabQUIESCED).setOp (some { o with phase := 5 })
        .next (s.keepPw { t with cdc := { t.cdc with hold := true, done := false, lost := [] } })
      | some c => .next (s.keepPw ((s.kbApply c).setOp (some { o with phase := 4 })))
      | none => .next (s.keepPw (s.setOp (some { o with phase := 4, from_ := s.her.boot.hcs })))

/-! ### Draining -/

/-- A packet bound for port `k`. -/
def pktTo (k : Nat) (p : Pkt) : Bool := (Pkt.head p).dport == k

/-- The conditions of R358 for one agent port. -/
def State.portDrained (s : State) (st k : Nat) : Bool :=
  !(s.txns st k).any Txn.holdsTag && (s.ttxns st k).isEmpty && (s.inbox st k).isEmpty
    && !(s.reasm st).any (fun r => pktTo k r.slots) && !(s.rspIn st).any (pktTo k)
    && (s.port st k).ntf.isEmpty && (s.port st k).lockedBy.isNone && (s.port st k).holdsLock.isNone

/-- Agent ports of this die that a set covers. -/
def State.setPorts (s : State) (set : FSet) : List (Nat × Nat) :=
  ((List.range 192).flatMap (fun st => [(st, 0), (st, 1)])).filter (fun e =>
    portGen e.1 e.2 != 0 && s.fsetHas set s.die e.1 e.2)

/-- The conditions of R358 for a stop of an NG domain, apart from its agent ports. -/
def State.stopDrained (s : State) (st : Nat) : Bool :=
  (s.qops st).isEmpty && (s.moves st).isEmpty && (List.range 4).all (fun b => (s.merge st b).isEmpty)
    && (s.queuesOf st).all (fun q => q.1 == clsMGMT || q.2.isEmpty) && (List.range 4).all (fun p => (s.heldAt st p).isEmpty)
    && (List.range 3).all (fun p => (s.inbox st p).isEmpty) && !(s.reasm st).any (fun r => r.store != 3)
    && (s.rspIn st).isEmpty && s.keepUsed st == 0
    && !(s.retriesOf st).any (fun e => e.2.count != 0 || e.2.gout)

/-- What the operation drains has drained (R358). A Kind B change has reached every NI by then (R440). -/
def State.drained (s : State) (o : PwOp) : Bool :=
  let ports := (s.setPorts o.set).all (fun e => s.portShut e.1 e.2 || s.portDrained e.1 e.2)
  match o.set with
  | .ng k => ports && (ngStops k).all (fun st => s.stopDrained st)
  | .dp p => (s.dp p).egress.isEmpty && (s.dp p).ingress.isEmpty
  | _ => ports && (s.mapWhole || o.kind != .kindB)

/-- While a set drains, each of its ports enters FENCED once its own conditions hold (R358). -/
def State.fenceDrained (s : State) : State :=
  match s.pwNow with
  | none => s
  | some o =>
    if o.phase ≠ 4 ∨ o.kind = .kindB then s
    else (s.setPorts o.set).foldl (fun (s : State) e =>
      if s.portShut e.1 e.2 || !s.portDrained e.1 e.2 then s
      else s.setPort e.1 e.2 { s.port e.1 e.2 with state := 3 }) s

/-- The ports of the set that are open enter FENCED (R358). A Kind B change closes none. -/
def State.fencePorts (s : State) (o : PwOp) : State :=
  if o.kind = .kindB then s
  else
    (s.setPorts o.set).foldl (fun (s : State) e =>
      if s.portShut e.1 e.2 then s else s.setPort e.1 e.2 { s.port e.1 e.2 with state := 3 }) s

/-- A sparse table without the keys from `lo` on, `n` of them. -/
def cutKeys {α : Type} (t : Tab α) (lo n : Nat) : Tab α := t.filter (fun e => e.1 < lo || lo + n ≤ e.1)

/-- What the NI of a stop loses when its domain loses power (R309, R358, R366, Table 20.6). Stop management and its
queue, queue 7, stay on (R104, R364). -/
def State.niLose (s : State) (st : Nat) : State :=
  { s with
    ni := { s.ni with
      injq := cutKeys (cutKeys s.ni.injq (st * 512) clsMGMT) (st * 512 + 8) 504, held := cutKeys s.ni.held (st * 4) 4
      reasm := cutKeys s.ni.reasm st 1, guar := cutKeys s.ni.guar st 1
      inbox := cutKeys s.ni.inbox (st * 4) 3, rspIn := cutKeys s.ni.rspIn st 1
      ports := cutKeys s.ni.ports (st * 2) 2, txns := cutKeys s.ni.txns (st * 4) 3
      ttxns := cutKeys s.ni.ttxns (st * 2) 2, retry := cutKeys s.ni.retry (st * 3072) 3072, aged := cutKeys s.ni.aged st 1
      grot := cutKeys s.ni.grot st 1, pend := cutKeys s.ni.pend (st * 3072) 3072
      lastG := cutKeys s.ni.lastG (st * 3072) 3072, oseq := cutKeys s.ni.oseq (st * 4 * 3072) 12288
      oexp := cutKeys s.ni.oexp (st * 12288) 12288, credit := cutKeys s.ni.credit (st * 64) 64
      hwm := cutKeys s.ni.hwm (st * 512) 512, gframe := cutKeys s.ni.gframe st 1
      gstale := cutKeys s.ni.gstale st 1 }
    qe := { s.qe with
      table := cutKeys s.qe.table (st * 256) 256, shadow := cutKeys s.qe.shadow (st * 256) 256
      qtlb := cutKeys s.qe.qtlb st 1, resid := cutKeys s.qe.resid st 1, ops := cutKeys s.qe.ops st 1
      walks := cutKeys s.qe.walks st 1, moves := cutKeys s.qe.moves st 1, leaving := cutKeys s.qe.leaving st 1
      inv := cutKeys s.qe.inv st 1, forced := cutKeys s.qe.forced st 1, cmdWait := cutKeys s.qe.cmdWait st 1
      ue := cutKeys s.qe.ue (st * 256) 256, rel := cutKeys s.qe.rel st 1 } }

/-- Registers that a restore image brings back as they were: what an image may set, the banked tables and
ACU_CTRL (R424, Table 20.6). -/
def restored (r : RegRow) : Bool :=
  r.img || [sCLASS_WT, sCTX_PARAM, sCTX_PARAM + 4, sFLOW_TABLE, sFLOW_TABLE + 4, sGATE_LIST, sGL_CFG, sGL_START,
    0x1900].contains r.off

/-- Bits that say which bank is in force: they come back with the banks. UC_VER comes back with the microcode, which
Hearth loads again (R259). -/
def bankBits (o : Nat) : Nat :=
  if o = sQE_STAT then 0xFF0000
  else if o = sFLOW_STAT ∨ o = sGL_STAT ∨ o = sSCHED_STAT ∨ o = 0x1908 ∨ o = 0x1988 ∨ o = 0x1A08 then 1 else 0

/-- One register word of a stop after its NG domain's power-up (R517). -/
def ngWord (a : Nat) (v : Word32) : Word32 :=
  let o := (a % 0x10000000 - 0x100000) % 0x4000
  match rowAt rowsStop o with
  | none => regReset a
  | some r =>
    if r.aon then v
    else
      let m : Word32 := BitVec.ofNat 32 (if restored r then r.rw else bankBits o)
      (v &&& m) ||| (regReset a &&& ~~~m)

/-- The registers of a stop after its domain's power-up. -/
def State.ngRegs (s : State) (st : Nat) : State :=
  let mine (a : Nat) : Bool := a % 0x10000000 / 0x4000 == 64 + st
  (s.regs.filter (fun e => mine e.1)).foldl (fun (t : State) e => t.setReg e.1 (ngWord e.1 e.2)) s

/-- A die-to-die port's buffers and its block, but for DP_CTRL, at reset values (Table 20.6). -/
def State.dpLose (s : State) (p : Nat) : State :=
  let s := s.setDp p (defDp p)
  [dSTAT, dERR, dRSV, dRSV + 4, dRSV + 8].foldl (fun (s : State) o => s.setReg (dpReg p o) (regReset (dpReg p o)))
    (forUpTo 8 (fun k s => s.setReg (dpReg p (dCNT_CLR + 4 + 4 * k)) 0) s)

/-- A fabric domain loses its contents: its reset is asserted (R360 step 2). -/
def State.domLose (s : State) (f : Nat) : State :=
  if f < 48 then (ngStops f).foldl (fun (s : State) st => s.niLose st) s
  else (s.dpLose (f - 48)).setFld (dpReg (f - 48) dSTAT) 0 3 1

/-- Power good has not come: both stages drop, and the domain stays OFF (R366 step 3). -/
def State.switchBack (s : State) (f : Nat) : State :=
  let s := ((s.setSw1 f false).setSw2 f false).setIso f true
  ({ s with pw := { s.pw with seq := none } } : State).setDom f dmOFF

/-- The drain is over: DRAINED, and what follows it: the answer, or the switching of a fabric domain (R355, R360,
R440). -/
def State.drainEnd (s : State) (o : PwOp) (status : Nat) : State :=
  let s := s.fencePorts o
  match o.kind with
  | .kindB => s.liftStart o
  | .off =>
    if o.dom < 256 then ((s.setDomNum o.dom dmDRAINED).pwAnswer o.dom status).opEnd
    else ((s.setDomNum o.dom dmDRAINED).setOp (some { o with phase := 5 })).offStart (o.dom - 256) status
  | .fence => (((s.setDomNum o.dom dmDRAINED).setResult o.dom status).setFld gFENCE_CTRL 31 1 0).opEnd
  | _ => s

/-- DRAIN_COMPLETE (R355, R358, R360): the drain of the operation in progress is complete. -/
def execDrainComplete (s : State) : Host.Outcome State Fault Refusal :=
  match s.pwNow with
  | none => .next s
  | some o =>
    if o.phase = 4 && s.drained o then .next (s.keepPw (s.drainEnd o pwDONE)) else .next s

/-- Everything a port still waits for is discarded, each packet counted in TXN_CNT_8 (R362). -/
def State.forcePort (s : State) (st k : Nat) : State :=
  let s := s.settleTarget st k true
  let n := ((s.txns st k).filter Txn.holdsTag).length + (s.inbox st k).length
    + ((s.reasm st).filter (fun r => pktTo k r.slots)).length + ((s.rspIn st).filter (pktTo k)).length
    + (s.port st k).ntf.length
  let s := s.count (stopReg st (sTXN_CNT + 32)) 0 32 n
  let s := (s.setTxns st k ((s.txns st k).filter (fun t => !t.holdsTag))).setInbox st k []
  let s := (s.setReasm st ((s.reasm st).filter (fun r => !pktTo k r.slots))).setRspIn st
    ((s.rspIn st).filter (fun p => !pktTo k p))
  s.setPort st k { s.port st k with ntf := [], holdsLock := none }

/-- The stop of an NG domain is emptied (R362). -/
def State.forceStop (s : State) (st : Nat) : State :=
  let n := (s.qops st).length + ((s.queuesOf st).map (fun q => q.2.length)).sum
    + ((List.range 4).map (fun p => (s.heldAt st p).length)).sum
    + ((List.range 3).map (fun p => (s.inbox st p).length)).sum + (s.reasm st).length + (s.rspIn st).length
  let s := s.count (stopReg st (sTXN_CNT + 32)) 0 32 n
  let s := forUpTo 4 (fun b s => s.setMerge st b []) s
  let keep := s.ni.inbox
  let t := s.niLose st
  { t with ni := { t.ni with ports := s.ni.ports, inbox := cutKeys keep (st * 4) 3 }
           qe := { t.qe with table := s.qe.table, shadow := s.qe.shadow } }

/-- DRAIN_TO has passed since the end of the settle (R362). -/
def State.drainLate (s : State) (o : PwOp) : Bool :=
  decide (o.from_ + 400 * s.fld gPWR_CTRL 0 16 ≤ s.her.boot.hcs)

/-- DRAIN_TO (R198, R201, R362): DRAIN_TO has passed in step 5, and Hearth forces the drain. A Kind B change drains
nothing. -/
def execDrainTo (s : State) : Host.Outcome State Fault Refusal :=
  match s.pwNow with
  | none => .next s
  | some o =>
    if o.phase ≠ 4 ∨ o.kind = .kindB ∨ s.drainLate o = false then .next s
    else
      let ports := (s.setPorts o.set).filter (fun e => !s.portShut e.1 e.2)
      let t := ports.foldl (fun (t : State) e => t.forcePort e.1 e.2) s
      let t := match o.set with
        | .ng k => (ngStops k).foldl (fun (t : State) st => t.forceStop st) t
        | .dp p =>
          let n := (t.dp p).egress.length + (t.dp p).ingress.length
          (t.count (stopReg (dpStop p) (sTXN_CNT + 32)) 0 32 n).setDp p { t.dp p with egress := [], ingress := [] }
        | _ => t
      let t := (t.raiseFlag gPWR_STAT 1).raiseHearth sevCONTAINED caDRAIN_TO (specGen 0 0 0 0 o.dom pwFORCED 0)
      .next (s.keepPw (t.drainEnd o pwFORCED))

/-! ### UNFENCE and power-up -/

/-- An UNFENCE reaches a stop: its fence ends, and its own ports of the set leave FENCED (R365). -/
def State.unfenceAt (s : State) (st : Nat) (set : FSet) : State :=
  let s := { s with pw := { s.pw with
    fences := Tab.set (fun _ => []) s.pw.fences st ((s.fences st).filter (fun f => f != set))
    unacked := Tab.set (fun _ => []) s.pw.unacked st
      ((Tab.get (fun _ => []) s.pw.unacked st).filter (fun f => f != set)) } }
  (List.range 2).foldl (fun (s : State) k =>
    if (s.port st k).state = 3 && s.fsetHas set s.die st k && !s.fenced st s.die st k then
      (s.setPort st k { s.port st k with state := 0 }).tryResync st k
    else s) s

/-- A ring-clock change is complete (R344 step 6). -/
def State.rclkEnd (s : State) : State :=
  (s.setFld gRCLK_STAT 16 16 (s.fld gRCLK_STAT 16 16 + 1)).setFld gRCLK_CTRL 0 1 0

/-- UNFENCE has reached every stop: the operation is answered (R365, R366, R440). -/
def State.liftEnd (s : State) (o : PwOp) : State :=
  match o.kind with
  | .kindB =>
    (match o.change with
     | some .rclk => ((s.setFab s.cdc.ret).rclkEnd).opEnd
     | _ => s.opEnd)
  | .unfence => (((s.setDomNum o.dom dmON).setResult o.dom pwDONE).setFld gFENCE_CTRL 31 1 0).opEnd
  | _ => ((s.setDomNum o.dom dmON).pwAnswer o.dom pwDONE).opEnd

/-- UNFENCE_RECEIVE (R361, R365, R366): UNFENCE reaches stop `st`. `far` says that another die's Hearth sent
it. -/
def execUnfenceReceive (st : StopNo) (set : FSet) (far : Bool) (s : State) : Host.Outcome State Fault Refusal :=
  let t := s.unfenceAt st.val set
  if far then .next (s.keepPw t)
  else
    match s.pwNow with
    | none => .next s
    | some o =>
      if o.set = set ∧ o.lift then
        let o := { o with seen := insertAsc st.val o.seen }
        let t := t.setOp (some o)
        .next (s.keepPw (if o.seen.length = 192 then t.liftEnd o else t))
      else .next s

/-- PWR_CYC of a domain rises (R368). -/
def State.cycUp (s : State) (f : Nat) : State :=
  { s with pw := { s.pw with cyc := Tab.set (fun _ => 0) s.pw.cyc f (satAdd 32 (Tab.get (fun _ => 0) s.pw.cyc f) 1) } }


/-- FAILED (R416, R422), with its cause. -/
def State.fail (s : State) (cause : Nat) : State := (s.setFab fabFAILED).setFld gFAB_STATE 8 4 cause

/-- Step 3 of start-up is at domain `f`: it is being switched on before the die opens (R416, R531). -/
def State.bootDom (s : State) (f : Nat) : Bool :=
  !s.her.rstLow && s.her.boot.dom == f && (s.fabState == fabINIT || s.fabState == fabCALIBRATING)

/-- The next domain of step 3 from `f` on: every NG domain, and the DP domains of wired ports (R374); 56 at the
end. -/
def State.nextDom (s : State) (f : Nat) : Nat :=
  ((List.range 56).find? (fun g => f ≤ g && (g < 48 || bitOf (BitVec.ofNat 8 s.d2d.present) (g - 48)))).getD 56

/-- The next domain of step 3 is switched on (Table 15.8). -/
def State.bootDomStart (s : State) (f : Nat) : State := if f < 56 then s.wakeStart f else s

/-- Step 3 of start-up goes on to the first domain from `f` on (R366, R416). -/
def State.bootDomNext (s : State) (f : Nat) : State :=
  let g := s.nextDom f
  ({ s with her := { s.her with boot := { s.her.boot with dom := g } } } : State).bootDomStart g

/-- A domain of step 3 is ON: NG stops run their fill, which is the last of the steps of R366 that count there; wired
DP ports train, and the next domain follows (R308, R391, R416). -/
def State.bootDomOn (s : State) (f : Nat) : State :=
  let s := s.setDom f dmON
  if f < 48 then (ngStops f).foldl (fun (s : State) st => s.fillStop st) s
  else
    let up := bitOf (BitVec.ofNat 8 s.d2d.present) (f - 48) && s.flag (dpReg (f - 48) dCTRL) 0 && !s.her.test.mode
    (s.setFld (dpReg (f - 48) dSTAT) 0 3 (if up then 2 else 1)).bootDomNext (f + 1)

/-- A change of the power state that may move step 3 of start-up on. -/
def State.keepDom (s t : State) : State :=
  { s.keepPw t with her := { s.her with boot := { s.her.boot with dom := t.her.boot.dom } } }

/-- A domain of an ON request is no longer isolated (R366 steps 4 and 5): the registers of an NG domain take their
values and its stores fill; a wired die-to-die port trains, and UNFENCE follows. -/
def State.wakeDomOn (s : State) (q : PwSeq) : State :=
  if q.dom < 48 then
    ((ngStops q.dom).foldl (fun (t : State) st => (t.ngRegs st).fillStop st) s).setStage q .fill 0
  else
    let up := bitOf (BitVec.ofNat 8 s.d2d.present) (q.dom - 48) && s.flag (dpReg (q.dom - 48) dCTRL) 0
    let t := s.setFld (dpReg (q.dom - 48) dSTAT) 0 3 (if up then 2 else 1)
    match s.pwNow with
    | some o => t.liftStart o
    | none => t

/-- The isolation of a domain falls (R366 step 4). -/
def State.poweredUp (s : State) (q : PwSeq) : State :=
  let s : State := ({ s with pw := { s.pw with seq := none } } : State)
  let s := (s.setIso q.dom false).cycUp q.dom
  if s.bootDom q.dom then s.bootDomOn q.dom else s.wakeDomOn q

/-- A domain is OFF: the request is answered (R360), and the sibling of a die-to-die port takes over (R399). -/
def State.offEnd (s : State) (q : PwSeq) : State :=
  let s : State := ({ s with pw := { s.pw with seq := none } } : State)
  let s := ((s.setSw1 q.dom false).setDom q.dom dmOFF).pwAnswer (256 + q.dom) q.ans
  (if 48 ≤ q.dom then { s with pw := { s.pw with kbs := s.pw.kbs ++ [.sibling (q.dom - 48)] } } else s).opEnd

/-- The stage of a domain's switching is over, and the next one begins (R360, R366). -/
def State.nextStage (s : State) (q : PwSeq) : State :=
  match q.stage with
  | .weak => if q.good then (s.setSw2 q.dom true).setStage q .good 16 else (s.setSw2 q.dom true).setStage q .strong 4096
  | .good => s.poweredUp q
  | .isolate => ((s.setIso q.dom true).setDom q.dom dmISOLATED).setStage q .hold 1
  | .hold => (s.domLose q.dom).setStage q .sw2 1
  | .sw2 => (s.setSw2 q.dom false).setStage q .sw1 1
  | .sw1 => s.offEnd q
  | .strong => s
  | .fill => s

/-- Hearth works on the switching of a domain: it runs, and the die is starting up or an operation is in progress. -/
def State.switching (s : State) (f : Nat) : Bool := s.bootDom f || s.pwNow.isSome

/-- One hc of the switching of a domain (R360, R366). -/
def State.switchHc (s : State) : State :=
  match s.pw.seq with
  | none => s
  | some q => if s.switching q.dom && decide (q.due ≤ s.her.boot.hcs) then s.nextStage q else s

/-- PGOOD_RISE (R309, R361, R366 to R368, R374, R391, R416, R424): the filtered power good of a domain being switched
on rises. `restore` says that the restore image reads back whole. -/
def execPgoodRise (f : DomNo) (restore : Bool) (s : State) : Host.Outcome State Fault Refusal :=
  match s.pw.seq with
  | none => .next s
  | some q =>
    if q.dom ≠ f.val ∨ s.switching q.dom = false then .next s
    else
      let q := { q with good := true, whole := restore }
      if q.stage = .strong then .next (s.keepPw (s.setStage q .good 16))
      else if q.stage = .weak then .next (s.keepPw { s with pw := { s.pw with seq := some q } })
      else .next s

/-- PWR_PG_FAIL (R366, R416): power good has not risen within 4,096 hc of the strong stage. -/
def execPwrPgFail (f : DomNo) (s : State) : Host.Outcome State Fault Refusal :=
  match s.pw.seq with
  | none => .next s
  | some q =>
    if q.dom ≠ f.val ∨ q.stage ≠ .strong ∨ s.switching q.dom = false ∨ s.her.boot.hcs < q.due then .next s
    else
      let t := ((s.raiseFlag gPWR_STAT 2).raiseHearth sevCONTAINED caPWR_PG_FAIL
        (specGen 0 0 0 0 (256 + f.val) 0 0)).switchBack f.val
      .next (s.keepPw (if s.bootDom f.val then t.fail 2 else (t.pwAnswer (256 + f.val) pwPG_FAIL).opEnd))

/-- The ports of a stop whose fill is over may open (R308, R366 step 7). -/
def State.fillOpen (s : State) (st : Nat) : State :=
  (List.range 2).foldl (fun (s : State) k => if portGen st k = 0 then s else s.tryResync st k) s

/-- The fill of a stop is over: FILL_BUSY falls; a bank that the fuses give more than 8 rows has SPARE_FULL_EV set
(R304, R407). -/
def State.fillEnd (s : State) (st : Nat) : State :=
  let s := s.setFld (stopReg st sQS_STAT) 0 1 0
  if (List.range 4).any (fun b => decide (8 < (s.her.fuseRemap.filter (fun e => e.1 == st && e.2.1 == b)).length)) then
    s.raiseFlag (stopReg st sQS_ERR) 4 else s

/-- The fill of an NG domain is over at each of its stops, which its ports and engine were waiting for. -/
def State.fillsEnd (s : State) (k : Nat) : State :=
  let due := (ngStops k).filter (fun st => s.filling st)
  due.foldl (fun (t : State) st => t.fillOpen st) (due.foldl (fun (t : State) st => t.fillEnd st) s)

/-- The spare rows that the accepted copy names at the stops of a domain are added again after a fill at run time
(R313). -/
def State.imageSpares (s : State) (k : Nat) : State :=
  (s.her.imgRemap.filter (fun e => ngOf e.1 == k)).foldl (fun (s : State) e => s.remapAdd [] e.1 e.2.1 e.2.2 1) s

/-- FILL_DONE (R304, R308, R313, R366, R416, R424): the fill of an NG domain has run, and its engines and ports may
start. A waking domain is unfenced next, or switched off where its restore image is damaged; in start-up the next domain
is switched on. -/
def execFillDone (k : Fin 48) (s : State) : Host.Outcome State Fault Refusal :=
  let k := k.val
  let t := s.fillsEnd k
  if s.bootDom k && s.domState k == dmON then .next (s.keepDom (t.bootDomNext (k + 1)))
  else
  match s.pw.seq, s.pwNow with
  | some q, some o =>
    if q.dom = k ∧ q.stage = .fill then
      let t : State := { t with pw := { t.pw with seq := none } }
      if q.whole then .next (s.keepPw ((t.imageSpares k).liftStart o))
      else
        .next (s.keepPw (((t.raiseFlag gRESTORE_STAT 1).raiseHearth sevCONTAINED caRESTORE_FAIL
          (specGen 0 0 0 0 (256 + k) 0 0)).offStart k pwPG_FAIL))
    else .next (s.keepPw t)
  | _, _ => .next (s.keepPw t)

/-- WAKE_REQUEST (R332, R363): the lowest domain with a pending wake event transfers on `fab_wake`. -/
def execWakeRequest (s : State) : Host.Outcome State Fault Refusal :=
  .next (s.keepPw { s with pw := { s.pw with wake := s.pw.wake.tail } })

/-! ### The address map, the boot window and detours -/

/-- A change waits for its turn: as a Kind B change in OPEN, for the state to return while QUIESCING or
QUIESCED; anywhere else it is applied at once (R213, R217, R346, R439). -/
def State.kbRequest (s : State) (c : KbChange) : State :=
  if s.fabState = fabOPEN ∨ s.fabState = fabQUIESCING ∨ s.fabState = fabQUIESCED then
    { s with pw := { s.pw with kbs := s.pw.kbs ++ [c] } }.pwGo
  else s.kbApply c

/-- ADDR_MAP_APPLY (R217 to R219, R237): ADDR_MAP_CTRL.APPLY is written. -/
def execAddrMapApply (s : State) : Host.Outcome State Fault Refusal :=
  if s.fabState = fabFAILED ∨ s.flag gADDR_MAP_CTRL 0 then .next s
  else
    match s.mapCheck with
    | some (i, c) =>
      .next (s.keepPw (((s.setFld gADDR_MAP_STAT 0 2 2).setFld gADDR_MAP_STAT 2 3 c).setFld gADDR_MAP_STAT 5 6 i))
    | none =>
      .next (s.keepPw (((s.raiseFlag gADDR_MAP_CTRL 0).raiseFlag gADDR_MAP_STAT 11).kbRequest
        (.map (s.regions gSTAGE_MAP))))

/-- REMAP_WRITE (R211, R213, R236): REMAP_CTRL is written. -/
def execRemapWrite (v : Word32) (s : State) : Host.Outcome State Fault Refusal :=
  if s.fabState = fabFAILED ∨ s.flag gREMAP_CTRL 1 then .next s
  else .next (s.keepPw ((s.raiseFlag gREMAP_CTRL 1).kbRequest (.remap v)))

/-- A staged detour that cannot reach its die: it names this die, an absent die, or a port that is not
wired. -/
def State.detourBad (s : State) (w : Word32) : Bool :=
  bitOf w 0 && (fieldOf w 1 4 == s.die || !s.flag gDIE_MAP (fieldOf w 1 4)
    || !bitOf (BitVec.ofNat 8 s.d2d.present) (fieldOf w 6 3))

/-- DETOUR_APPLY (R390, R402, R403, R440): DETOUR_CTRL.APPLY is written. `pass` is the outcome of the conditions
of R390 over the tables of every die. -/
def execDetourApply (pass : Bool) (s : State) : Host.Outcome State Fault Refusal :=
  if s.fabState = fabFAILED ∨ s.flag gDETOUR_CTRL 0 then .next s
  else if !pass || (List.range 8).any (fun i => s.detourBad (s.reg (gDETOUR_STG + 4 * i))) then
    .next (s.keepPw (s.setFld gDETOUR_CTRL 1 2 2))
  else .next (s.keepPw ((s.raiseFlag gDETOUR_CTRL 0).kbRequest .detour))

/-! ### The ring clock -/

/-- The clock is held (R344 step 3). -/
def State.clockHold (s : State) : State := { s with cdc := { s.cdc with hold := true, done := false, lost := [] } }

/-- RING_CLOCK_CHANGE (R344, R346, R439): RCLK_CTRL.REQ is written. -/
def execRingClockChange (s : State) : Host.Outcome State Fault Refusal :=
  if s.flag gRCLK_CTRL 0 then .next s
  else if s.fabState = fabCONFIGURED then
    .next (s.keepPw { (s.raiseFlag gRCLK_CTRL 0).clockHold with cdc := { s.cdc with
      hold := true, done := false, lost := [], ret := fabCONFIGURED } })
  else if s.fabState = fabOPEN then .next (s.keepPw ((s.raiseFlag gRCLK_CTRL 0).kbRequest .rclk))
  else .next (s.keepPw (s.raiseFlag gRCLK_STAT 2))

/-- Every ring's sweep starts again at point 1; TRIM and votes stay (R456). -/
def TemSt.restart (t : TemSt) : TemSt :=
  { links := t.links.map (fun e => (e.1, { e.2 with point := 0, inPoint := 0 }))
    lanes := t.lanes.map (fun e => (e.1, { e.2 with failed := 0, ended := false })) }

/-- RCLK_DONE (R331, R333, R344, R456): `fab_rclk_done` is seen while the clock is held. The change is complete once the
fences are lifted; from CONFIGURED there are none. -/
def execRclkDone (s : State) : Host.Outcome State Fault Refusal :=
  if !s.cdc.hold then .next s
  else
    let t := { s with cdc := { s.cdc with
      hold := false, done := true, tail := 16, us := s.cdc.us + s.cdc.ticks, ticks := 0
      hct := s.cdc.hct + s.cdc.hticks, hticks := 0 } }
    match s.pwNow with
    | some o =>
      if o.change = some .rclk then .next { s.keepPw (t.liftStart o) with tem := s.tem.restart }
      else .next { s.keepPw t.rclkEnd with tem := s.tem.restart }
    | none => .next { s.keepPw t.rclkEnd.pwGo with tem := s.tem.restart }

end Sys2Proof.Machine
end

