-- ==== Sys2Proof/Machine/D2d.lean ====
section
/-! DEFINITION. Die-to-die ports: flit pairs (R377 to R380), credits and reservations (R381 to R387), the
ingress side (R386), and links going up and down (R391, R399 to R401, R520). -/
namespace Sys2Proof
open Sys2Proof.Machine

/-- A slot whose packet makes a reservation as it passes a port: the first slot of a request (R383). -/
def Slot.reserves (x : Slot) : Bool := x.pseq == 0 && decide (clsSNP ≤ x.cls) && decide (x.cls ≤ clsBULK)

/-- Entries a request reserves: the completion size of R176, and 1 for a posted write's PWACK (R383). -/
def Slot.rsvSize (x : Slot) : Nat :=
  if opPosted x.opc then 1
  else if opCmpdPlen x.opc then x.plen + 1
  else if x.opc = opDEQ ∨ x.opc = opPEEK ∨ x.opc = opSTEAL then x.qlen / 64 + 1
  else 1

/-- The reservation of a request; `due` is when it expires. -/
def Slot.rsvOf (x : Slot) (due : Nat) : Rsv := { src := x.src, n := x.rsvSize, cls := x.cls, passed := 0, due := due }

/-- Bits [735:0] of a slot (R377). -/
def Slot.image (x : Slot) : BitVec 736 := BitVec.ofNat 736 x.content

/-- PCRC of a pair (Table 14.3): over bytes 0 to 3 and then 8 to 467. -/
def PairIn.need (p : PairIn) : Word32 :=
  let c := crcLoop 4 p.w0.toNat 0xFFFFFFFF
  let c := (List.range 5).foldl (fun c j => crcLoop 92 (p.images.getD j 0).toNat c) c
  BitVec.ofNat 32 (c ^^^ 0xFFFFFFFF)

def PairIn.nslot (p : PairIn) : Nat := fieldOf p.w0 0 3

end Sys2Proof

namespace Sys2Proof.Machine
open Sys2Proof

/-! ### Registers of a port -/

def lsABSENT : Nat := 0
def lsDOWN : Nat := 1
def lsTRAINING : Nat := 2
def lsHELLO : Nat := 3
def lsUP : Nat := 4

def State.lstate (s : State) (p : Nat) : Nat := s.fld (dpReg p dSTAT) 0 3
def State.setLstate (s : State) (p v : Nat) : State := s.setFld (dpReg p dSTAT) 0 3 v

/-- Count in DP_CNT_k (Table 14.17). -/
def State.dpCnt (s : State) (p k n : Nat) : State := s.count (dpReg p (dCNT + 4 * k)) 0 32 n

/-- A record of a port: the stop's port 3, with the port's number in INDEX. -/
def State.dpRaise (s : State) (p sev cause : Nat) : State := s.raise (dpStop p) (recIdx sev cause p 0)

/-- Ingress region of a credit class, in slots (Table 14.4). -/
def ingRegion (c : Nat) : Nat := [128, 256, 128, 128, 256, 64, 64, 16].getD c 0

/-- Entries of the reserved RSP regions (Table 14.4). -/
def rsvRegion : Nat := 2048

/-- Hearth or a port tells its neighbours something. -/
def State.tell (s : State) (ms : List (Nat × HMsg)) : State := { s with d2d := { s.d2d with sent := ms } }

/-- Ports that are UP, as a list. -/
def State.upPorts (s : State) : List Nat := (List.range 8).filter (fun p => s.dpUp p)

/-! ### Reservations -/

/-- Entries reserved in a region. -/
def rsvUsed (l : List Rsv) : Nat := (l.map (·.n)).sum

/-- A region has room for the reservation of a request. -/
def rsvFits (l : List Rsv) (x : Slot) : Bool := decide (rsvUsed l + x.rsvSize ≤ rsvRegion)

/-- When a reservation made now expires: the port stop's completion limit of the class, and 100 µs (R383). -/
def State.rsvDue (s : State) (p : Nat) (x : Slot) : Nat := s.usClock + 400 * (s.ctoLimit (dpStop p) x.opc + 100)

/-- A slot of a completion passes: with its packet's last slot the reservation is released (R383). -/
def rsvPass (x : Slot) : List Rsv → List Rsv
  | [] => []
  | r :: rest =>
    if r.src = x.reqKey then
      (if x.plen ≤ r.passed then rest else { r with passed := r.passed + 1 } :: rest)
    else r :: rsvPass x rest

/-! ### Sending -/

/-- The ingress port whose transit credit a transit entry holds: where the packet's answers leave, or, for
CTL, where its request left (R385, R386). -/
def State.transitFrom (s : State) (x : Slot) : Option Nat :=
  if x.cls = clsRSP then s.routePort x.sdie x.sstop false else s.routePort x.sdie x.dstop true

/-- The credit of a transit entry goes back to its ingress port (R385). -/
def State.transitBack (s : State) (e : Nat) (x : Slot) : State :=
  match s.transitFrom x with
  | none => s
  | some i =>
    let d := s.dp i
    let k := e * 8 + x.ccls
    s.setDp i { d with transit := Tab.set (fun _ => 0) d.transit k (Tab.get (fun _ => 0) d.transit k + 1) }

/-- The head of a class FIFO may be sent (R382, R383). Class 8 is RSP. -/
def DpSt.maySend (d : DpSt) (c : Nat) (x : Slot) : Bool :=
  (c == 8 || decide (0 < d.credit.getD c 0)) && (!x.reserves || rsvFits d.rsvIn x)

/-- The first class in rotation with a slot that may be sent (R378). -/
def DpSt.nextSend (d : DpSt) : Option (Nat × EgEnt) :=
  ((List.range 9).map (fun i => (d.clsRot + 1 + i) % 9)).findSome? (fun c =>
    match d.egress.find? (fun e => e.ccls == c) with
    | none => none
    | some e => if d.maySend c e.slot then some (c, e) else none)

/-- A slot leaves the egress buffer on its way out. -/
def State.egLeave (s : State) (p c : Nat) (e : EgEnt) : State :=
  let d := s.dp p
  let d := { d with
    egress := d.egress.erase e
    clsRot := c
    credit := if c < 8 then d.credit.set c (d.credit.getD c 0 - 1) else d.credit
    rsvIn := if e.slot.reserves then d.rsvIn ++ [e.slot.rsvOf (s.rsvDue p e.slot)] else d.rsvIn
    rsvEg := if c = 8 then rsvPass e.slot d.rsvEg else d.rsvEg }
  let s := s.setDp p d
  if e.transit ∧ c < 6 then s.transitBack p e.slot else s

/-- A slot fails its ring CRC at egress and is left out (R379). -/
def State.egBad (s : State) (p : Nat) (e : EgEnt) : State :=
  let s := s.setDp p { s.dp p with egress := (s.dp p).egress.erase e }
  let s := if e.transit ∧ e.ccls < 6 then s.transitBack p e.slot else s
  let st := dpStop p
  (s.count (stopReg st (sRING_CNT + 4 * (e.lring % 8))) 0 12 1).raise st
    (recHdr 3 sevCONTAINED caRING_CRC e.slot.hdr)

/-- Slots of one pair, up to `room` of them. -/
def gatherPair : Nat → Nat → Nat → List Slot → State → List Slot × State
  | 0, _, _, acc, s => (acc, s)
  | fuel + 1, p, room, acc, s =>
    if room = 0 then (acc, s)
    else
      match (s.dp p).nextSend with
      | none => (acc, s)
      | some (c, e) =>
        if e.slot.crcOk then gatherPair fuel p (room - 1) (acc ++ [e.slot]) (s.egLeave p c e)
        else gatherPair fuel p room acc (s.egBad p e)

/-- The slot of an image, with its ring CRC (R377, R380). -/
def slotOfImage (b : BitVec 736) : Slot :=
  Slot.seal { hdr := BitVec.ofNat 160 (fieldOf b 0 160), pay := BitVec.ofNat 512 (fieldOf b 160 512),
              ext := BitVec.ofNat 64 (fieldOf b 672 64), crc := 0 }

/-- A pair from its slots and the credit it returns. -/
def mkPair (xs : List Slot) (ccls ccnt : Nat) : PairIn :=
  let p : PairIn := { w0 := BitVec.ofNat 32 (packFields [(xs.length, 3), (0, 1), (ccls, 3), (ccnt, 8)]), pcrc := 0,
                      images := xs.map Slot.image }
  { p with pcrc := p.need }

/-- The ROTATE slot of a new set (R454). -/
def rotateSlot (die st peer set : Nat) : Slot :=
  let h : HdrIn := { ddie := die, dstop := peer, dport := 3, sdie := die, sstop := st, sport := 3,
                     cls := clsMGMT, opc := opMG_UNI }
  Pkt.head (mkPkt h [(0, seqExt 0 0 (packFields [(0, 16), (0xC, 4), (set, 4)]))])

/-- The next module of a set in ascending order after `m` (R378). -/
def nextModule (set m : Nat) : Nat :=
  (((List.range 4).map (fun i => (m + 1 + i) % 4)).find? (fun k => bitOf (BitVec.ofNat 4 set) k)).getD m

/-- The stop of the port that port p links to (Table 14.1). -/
def dpPartner (p : Nat) : Nat := ([2, 3, 0, 1, 6, 7, 4, 5]).getD p 0

/-- A ROTATE that waits goes out with the pair that is being formed, when MGMT credit allows (R454). -/
def State.rotateOut (s : State) (p : Nat) : List Slot × State :=
  let d := s.dp p
  match d.rotate with
  | none => ([], s)
  | some set =>
    if d.credit.getD 7 0 = 0 then ([], s)
    else
      let w := d.window.map (fun w => if bitOf (BitVec.ofNat 4 set) w.m then w
        else { w with sent := true, sentAt := s.her.boot.hcs })
      ([rotateSlot s.die (dpStop p) (dpStop (dpPartner p)) set],
        s.setDp p { d with credit := d.credit.set 7 (d.credit.getD 7 0 - 1), rotate := none, window := w })

/-- A pair is formed (R378, R379): its slots, the credit owed for one class, and the module it takes. -/
def State.sendPair (s : State) (p : Nat) : State :=
  let (rot, s) := s.rotateOut p
  let newSet := match rot with
    | x :: _ => some (fieldOf x.ext 30 4)
    | [] => none
  let (xs, s) := gatherPair (5 + (s.dp p).egress.length) p (5 - rot.length) rot s
  let d := s.dp p
  let c := ((List.range 8).find? (fun c => 0 < d.owed.getD c 0)).getD 0
  let n := min (d.owed.getD c 0) 255
  if xs.isEmpty ∧ n = 0 then s
  else
    let d := { d with
      owed := d.owed.set c (d.owed.getD c 0 - n)
      granted := d.granted.set c (d.granted.getD c 0 + n)
      modRot := nextModule d.modsTx d.modRot
      modsTx := newSet.getD d.modsTx
      tx := some (mkPair xs c n) }
    let s := (s.setDp p d).dpCnt p 0 xs.length
    if xs.isEmpty then s.dpCnt p 7 1 else s

/-- FLIT_PAIR_SEND (R377 to R379, R382, R383, R385, R454): the FDI of the next module takes a pair of port `p`. -/
def execFlitPairSend (p : DpNo) (s : State) : Host.Outcome State Fault Refusal :=
  if s.dpUp p.val ∧ (s.dp p.val).modsTx ≠ 0 then .next (s.keepPw (s.sendPair p.val)) else .next s

/-! ### A port goes DOWN -/

/-- The slots of the egress buffer of a port that goes DOWN (R400): requests are answered with FENCED, each once, and
the others are discarded. -/
def egLost (p : Nat) : List EgEnt → List Src → State → State
  | [], _, s => s
  | e :: rest, seen, s =>
    let st := dpStop p
    let s := if e.transit ∧ e.ccls < 6 then s.transitBack p e.slot else s
    if clsSNP ≤ e.slot.cls ∧ e.slot.cls ≤ clsBULK then
      (if seen.contains e.slot.src then egLost p rest seen s
       else egLost p rest (e.slot.src :: seen) (s.refuseWith st e.slot stFENCED))
    else egLost p rest seen (s.count (stopReg st (sTXN_CNT + 32)) 0 32 1)

/-- The port's buffers, credits, reservations and window are emptied, and its link state becomes DOWN. -/
def State.dpEmpty (s : State) (p : Nat) : State :=
  let d := s.dp p
  let s := egLost p d.egress [] s
  let s := s.count (stopReg (dpStop p) (sTXN_CNT + 32)) 0 32 d.ingress.length
  let z := List.replicate 8 0
  let s := s.setDp p { s.dp p with
    egress := [], ingress := [], egAlloc := [], credit := z, owed := z, granted := z
    rsvIn := [], rsvEg := [], modsTx := 0, modsRx := 0, window := none, rotate := none }
  let a := dpReg p dSTAT
  ((s.setLstate p lsDOWN).setFld a 4 4 0).setFld a 15 1 0

/-- A port goes DOWN (R400): the sibling takes over by a Kind B change. -/
def State.goDown (s : State) (p : Nat) : State :=
  if s.lstate p < lsTRAINING then s
  else
    let s := (s.dpEmpty p).raiseFlag (dpReg p dERR) 4
    let s := (s.dpRaise p sevCONTAINED caD2D_LINK).setFld (dpReg p dCTRL) 1 1 0
    s.kbRequest (.sibling p)

/-- A port may train: it is enabled and wired, its DP domain is ON (R374, R391), the die does not run alone (R393) nor
in test mode (R531). -/
def State.mayTrain (s : State) (p : Nat) : Bool :=
  s.flag (dpReg p dCTRL) 0 && bitOf (BitVec.ofNat 8 s.d2d.present) p && s.domState (48 + p) == dmON
    && !s.flag gDIE_COORD 10 && !s.her.test.mode

/-- DP_CTRL.RETRAIN, and a PCRC failure (R401): the port goes DOWN and trains again. -/
def State.retrain (s : State) (p : Nat) : State :=
  let s := s.goDown p
  if s.mayTrain p then (s.setLstate p lsTRAINING).raiseFlag (dpReg p dCTRL) 1
  else s

/-- D2D_LINK (R400): an adapter reports the link of port `p` down. -/
def execD2dLink (p : DpNo) (s : State) : Host.Outcome State Fault Refusal :=
  .next (s.keepPw (s.goDown p.val))

/-- RETRAIN (R401): DP_CTRL.RETRAIN of port `p` is written. -/
def execRetrain (p : DpNo) (s : State) : Host.Outcome State Fault Refusal :=
  .next (s.keepPw (s.retrain p.val))

/-- Module `m` of a port is retired (R399). -/
def State.retireModule (s : State) (p m : Nat) : State :=
  let a := dpReg p dSTAT
  let mods := modDrop (s.fld a 4 4) m
  let d := s.dp p
  let s := s.setDp p { d with
    modsOut := modAdd d.modsOut m
    modsTx := modDrop d.modsTx m, modsRx := modDrop d.modsRx m
    rotate := d.rotate.map (fun x => modDrop x m)
    window := d.window.filter (fun w => w.m != m) }
  let s := ((s.raiseFlag (dpReg p dERR) 3).setFld a 4 4 mods).dpRaise p sevCORRECTED caD2D_MODULE
  if mods = 0 then s.goDown p else s

/-- D2D_MODULE (R399, R400): an adapter reports module `m` of port `p` not usable. -/
def execD2dModule (p : DpNo) (m : Fin 4) (s : State) : Host.Outcome State Fault Refusal :=
  if bitOf (BitVec.ofNat 4 (s.fld (dpReg p.val dSTAT) 4 4)) m.val then
    .next (s.keepPw (s.retireModule p.val m.val))
  else .next s

/-! ### Receiving -/

/-- A ROTATE is taken: pairs that follow rotate over the new set (R454, R455). -/
def State.rotateIn (s : State) (p set : Nat) : State :=
  let d := s.dp p
  let w := d.window.map (fun w => if bitOf (BitVec.ofNat 4 set) w.m then w else { w with rcvd := true })
  s.setDp p { d with modsRx := set % 16, window := w }

/-- A ROTATE slot for this port's stop (R454). -/
def isRotate (st : Nat) (x : Slot) : Bool :=
  x.cls == clsMGMT && x.opc == opMG_UNI && x.dport == 3 && x.dstop == st && fieldOf x.ext 26 4 == 0xC

/-- Credit class FIFO entry: one slot of a good pair (R380, R382, R383, R454). -/
def State.takeSlot (s : State) (p : Nat) (x : Slot) : State :=
  let d := s.dp p
  let c := x.ccls
  if c < 8 ∧ d.granted.getD c 0 = 0 then
    (s.raiseFlag (dpReg p dERR) 1).dpRaise p sevCONTAINED caD2D_CREDIT
  else
    let d := if c < 8 then { d with granted := d.granted.set c (d.granted.getD c 0 - 1) } else d
    if isRotate (dpStop p) x then
      (s.setDp p { d with owed := d.owed.set 7 (d.owed.getD 7 0 + 1) }).rotateIn p (fieldOf x.ext 30 4)
    else
      let rsv := if x.reserves && rsvFits d.rsvEg x then d.rsvEg ++ [x.rsvOf (s.rsvDue p x)] else d.rsvEg
      s.setDp p { d with ingress := d.ingress ++ [{ ccls := c, slot := x }], rsvEg := rsv }

/-- FLIT_PAIR_RECEIVE (R378, R380, R382, R383, R401, R402, R454): a pair arrives at port `p`. -/
def execFlitPairReceive (p : DpNo) (x : PairIn) (s : State) : Host.Outcome State Fault Refusal :=
  let p := p.val
  if !s.dpUp p then .next s
  else if x.pcrc ≠ x.need ∨ 5 < x.nslot then
    let t := ((s.raiseFlag (dpReg p dERR) 0).dpCnt p 6 1).dpRaise p sevCONTAINED caD2D_PCRC
    .next (s.keepPw (t.retrain p))
  else
    let c := fieldOf x.w0 4 3
    let d := s.dp p
    let t := s.setDp p { d with credit := d.credit.set c (d.credit.getD c 0 + fieldOf x.w0 7 8) }
    let xs := (List.range x.nslot).map (fun j => slotOfImage (x.images.getD j 0))
    .next (s.keepPw ((xs.foldl (fun (t : State) y => t.takeSlot p y) t).dpCnt p 1 x.nslot))

/-- ROTATE (R454): the ROTATE slot of a pair that port `p` takes. -/
def execRotate (p : DpNo) (set : Fin 16) (s : State) : Host.Outcome State Fault Refusal :=
  let p := p.val
  if s.dpUp p then .next (s.keepPw (s.takeSlot p (rotateSlot s.die (dpStop (dpPartner p)) (dpStop p) set.val))) else .next s

/-! ### Injection on the receiving die -/

/-- The header of an ingress slot as it is injected: OCC 1, DEFL and TURNED 0 (R386). -/
def ingressSlot (x : Slot) : Slot :=
  Slot.seal { x with hdr := withField (withField (withField x.hdr 3 1 1) 75 4 0) 151 1 0 }

/-- The transit credit an ingress slot needs, as a key of its port's table (R385). -/
def State.transitNeed (s : State) (c : Nat) (x : Slot) : Option Nat :=
  if x.ddie = s.die ∨ 5 < c then none
  else
    let rsp := x.cls == clsRSP
    (s.routePort x.ddie (if rsp then x.sstop else x.dstop) rsp).map (fun e => e * 8 + c)

/-- The reservation of a request that waits at the head of its ingress FIFO is made, when there is room. -/
def DpSt.reserveHead (d : DpSt) (x : Slot) (due : Nat) : Option DpSt :=
  if !x.reserves || d.rsvEg.any (fun r => r.src == x.src) then some d
  else if rsvFits d.rsvEg x then some { d with rsvEg := d.rsvEg ++ [x.rsvOf due] }
  else none

/-- What the port notes as a slot of class region `c` goes in (R382, R383, R385, R386). -/
def State.ingressLeave (s : State) (p c : Nat) (e : IgEnt) : State :=
  let d := s.dp p
  let d := { d with
    ingress := d.ingress.erase e
    lastInj := if c < 8 then d.lastInj.set c (s.frame.rcs + 1) else d.lastInj
    owed := if c < 8 then d.owed.set c (d.owed.getD c 0 + 1) else d.owed
    rsvIn := if c = 8 then rsvPass e.slot d.rsvIn else d.rsvIn
    transit := match s.transitNeed c e.slot with
      | some k => Tab.set (fun _ => 0) d.transit k (Tab.get (fun _ => 0) d.transit k - 1)
      | none => d.transit }
  s.setDp p d

/-- The slot goes into ring slot `y` of local ring `l` at the port's stop. -/
def State.ingressFill (s : State) (st l : Nat) (y x : Slot) : State :=
  let r := ringAt st l
  let z := y.fill x
  (s.setSlot r (ringCoord r st) z).ev st 0x04 l 3 z.hdr

/-- The register of local ring `l` at a stop. -/
def State.regAt (s : State) (st l : Nat) : Slot := s.slot (ringAt st l) (ringCoord (ringAt st l) st)

/-- A best-effort slot waits one more rc, or goes in by one of the two tracks (R41, R44, R73). -/
def State.ingressBE (s : State) (st t : Nat) (x : Slot) : Option State × State :=
  let d := injDir st t
  let v := s.dir st d
  let a := s.mayInject st d (2 * d) x.cls (s.regAt st (2 * d))
  let b := s.mayInject st d (2 * d + 1) x.cls (s.regAt st (2 * d + 1))
  let put (s : State) (l : Nat) : State :=
    (escFilled st l (s.regAt st l) s).ingressFill st l (s.regAt st l) x
  let done (s : State) (tog : Bool) : State := (s.setDir st d { s.dir st d with toggle := tog }).starveEnd st d s.frame.rcs
  if a && b then (some (done (put s (2 * d + (if v.toggle then 1 else 0))) (!v.toggle)), s)
  else if a then (some (done (put s (2 * d)) v.toggle), s)
  else if b then (some (done (put s (2 * d + 1)) v.toggle), s)
  else (none, s.starveTick st d s.frame.rcs)

/-- The INJ entry that names a GUAR packet's next target on this die (R386). -/
def State.ingressFlow (s : State) (st t : Nat) : Option Nat :=
  let b := s.fld (stopReg st sFLOW_STAT) 0 1
  let find (b : Nat) : Option Nat :=
    ((List.range 64).map (fun n => stopReg st (sFLOW_TABLE + 0x200 * b + 8 * n))).find? fun a =>
      s.flag a 0 && s.fld a 1 2 == 0 && s.fld (a + 4) 8 12 == s.die * 256 + t
  match find b with
  | some a => some a
  | none => if s.swapFrame 1 then find (1 - b) else none

/-- A GUAR slot into its run: slot PSEQ = k into slot k of a run that holds the whole packet, by an INJ entry of the
run's own frame (R99, R386, R438). -/
def State.ingressGuar (s : State) (st t : Nat) (x : Slot) : Option State :=
  (List.range 8).findSome? fun l =>
    let y := s.regAt st l
    let r := ringAt st l
    let lag := ringDist r (ringCoord r st) + 1
    let entry := s.flowAt lag st 0 y.resid (fun a => s.fld a 13 3 == l && s.fld (a + 4) 8 12 == s.die * 256 + t)
    if y.isEmpty && y.stype == stGUAR && entry.isSome
        && s.runBack lag r y.resid 64 (s.passPos lag) == x.pseq
        && decide (x.plen + 1 ≤ x.pseq + s.runFrom lag r y.resid 64 (s.passPos lag)) then
      some ((s.ingressFill st l y x).starveEnd st (l / 2) s.frame.rcs)
    else none

/-- A MGMT slot into a MGMT slot of the ring it is bound along (R104, R394). -/
def State.ingressMgmt (s : State) (st t : Nat) (x : Slot) : Option State :=
  let d := injDir st t
  let ok (l : Nat) : Bool := (s.regAt st l).isEmpty && (s.regAt st l).stype == stMGMT && (s.regAt st l).resid == 0
  let put (l : Nat) : State := (s.ingressFill st l (s.regAt st l) x).starveEnd st d s.frame.rcs
  if ok (2 * d) then some (put (2 * d))
  else if ok (2 * d + 1) then some (put (2 * d + 1))
  else none

/-- A slot for the port's own stop passes through the ejection buffer (R39 case 4). -/
def State.ingressLoop (s : State) (st : Nat) (y x : Slot) : Option State :=
  let x := y.fill x
  match s.eject st x (128 - s.reqUsed st) false with
  | (.take k, _, t) => some (t.setEj st (t.ej st ++ [{ age := 1, lring := 8, slot := x, store := k }]))
  | (.absorb, _, t) => some t
  | (.handoff, _, t) => some t
  | (.deflect, _, _) => none

/-- GUAR packets without an entry are dropped with GUAR_NOFLOW (Table 4.9). -/
def State.ingressNoFlow (s : State) (st : Nat) (x : Slot) : State :=
  if x.pseq = 0 then
    (s.count (stopReg st (sGUAR_CNT + 8)) 0 32 1).raise st
      (recGen 3 sevCONTAINED caGUAR_NOFLOW (some x.part)
        (specGen x.addr x.opc x.tag (peerOf x.sdie x.sstop x.sport) x.resid 0 0))
  else s

/-- The head of a class region goes in, if it may (R386). -/
def State.ingressTry (s : State) (p c : Nat) (e : IgEnt) : State :=
  let st := dpStop p
  let x := ingressSlot e.slot
  let d := s.dp p
  let holds := x.grnt && x.pseq == 0 && d.lastInj.getD c 0 != 0
    && decide (s.frame.rcs + 1 < d.lastInj.getD c 0 + s.fld (stopReg st sDEFL_CTRL) 16 16)
  let credit := match s.transitNeed c x with
    | some k => decide (0 < Tab.get (fun _ => 0) d.transit k)
    | none => true
  match s.target x, d.reserveHead x (s.rsvDue p x) with
  | some t, some d =>
    if holds || !credit || !s.frame.running then s.setDp p d
    else
      let s := s.setDp p d
      let fin : Option State → State
        | some u => u.ingressLeave p c e
        | none => s
      if c = 6 then
        (match s.ingressFlow st t with
         | none => (s.ingressNoFlow st x).ingressLeave p c e
         | some a =>
           if t = st then fin (s.ingressLoop st (emptySlot stGUAR (s.fld a 3 10)) x) else fin (s.ingressGuar st t x))
      else if t = st then fin (s.ingressLoop st (emptySlot stBE 0) x)
      else if c = 7 then fin (s.ingressMgmt st t x)
      else
        match s.ingressBE st t x with
        | (some u, _) => u.ingressLeave p c e
        | (none, u) => u
  | _, _ => s

/-- D2D_INGRESS_INJECT (R62, R99, R382, R383, R385, R386): the head of class region `c` of port `p`; 8 is RSP. -/
def execD2dIngressInject (p : DpNo) (c : Fin 9) (s : State) : Host.Outcome State Fault Refusal :=
  match (s.dp p.val).ingress.find? (fun e => e.ccls == c.val) with
  | none => .next s
  | some e => .next (s.keepPw (s.ingressTry p.val c.val e))

/-- A slot of the completion that a reservation waits for is in the port's buffers: it wins over the expiry (R402). -/
def DpSt.answering (d : DpSt) (r : Rsv) : Bool :=
  let hit (x : Slot) : Bool := x.cls == clsRSP && x.ccls == 8 && x.reqKey == r.src
  d.egress.any (fun e => hit e.slot) || d.ingress.any (fun e => hit e.slot)

/-- D2D_RSV_EXPIRE (R383, R402): a reservation of port `p` was not released in time. `eg` names the egress RSP
region. -/
def execD2dRsvExpire (p : DpNo) (eg : Bool) (src : Src) (s : State) : Host.Outcome State Fault Refusal :=
  let d := s.dp p.val
  match (if eg then d.rsvEg else d.rsvIn).find? (fun r =>
      r.src == src && decide (r.due ≤ 400 * s.cdc.us) && !d.answering r) with
  | none => .next s
  | some r =>
    let d := if eg then { d with rsvEg := d.rsvEg.erase r } else { d with rsvIn := d.rsvIn.erase r }
    .next (s.keepPw ((s.setDp p.val d).dpCnt p.val 5 1))

/-! ### Training and HELLO -/

/-- Coordinates of the neighbour over port `p` (R392). -/
def neighbourAt (c : Int × Int) (p : Nat) : Int × Int :=
  match portEdge p with
  | 1 => (c.1 + 1, c.2)
  | 2 => (c.1 - 1, c.2)
  | 3 => (c.1, c.2 + 1)
  | _ => (c.1, c.2 - 1)

/-- Discovery may go on: it has not finished, and the die has not opened (R392, R418). -/
def State.discovering (s : State) : Bool :=
  !s.flag gDIE_COORD 8 && (s.fabState == fabINIT || s.fabState == fabCALIBRATING)

/-- Modules a port accepts at training, and their rate (R520). -/
def acceptModules (ms : List ModRep) : Nat × Nat :=
  let ok (m : ModRep) : Bool := m.active && m.stream && m.flit
  match ms.find? ok with
  | none => (0, 0)
  | some f =>
    (((ms.take 4).zipIdx.map (fun e => if ok e.1 && e.1.rate == f.rate then 2 ^ e.2 else 0)).sum, f.rate.val)

/-- The link of a port is in training: it is enabled, wired and ON, and not UP already. A port that found the wrong
partner stays DOWN (R391). -/
def State.training (s : State) (p : Nat) : Bool :=
  s.mayTrain p && (s.lstate p == lsTRAINING || (s.lstate p == lsDOWN && !s.flag (dpReg p dERR) 2))

/-- What a port says once its partner is known: the coordinates its neighbour is to take (R392). -/
def State.assignTo (s : State) (p : Nat) : List (Nat × HMsg) :=
  match (if s.d2d.root then some (0, 0) else s.d2d.rel) with
  | none => []
  | some c => if s.d2d.toRoot = some p then [] else [(p, .assign (neighbourAt c p).1 (neighbourAt c p).2)]

/-- LINK_TRAINED (R376, R391, R401, R520): the adapters of port `p` report. HELLO follows. -/
def execLinkTrained (p : DpNo) (ms : List ModRep) (s : State) : Host.Outcome State Fault Refusal :=
  let p := p.val
  if s.training p = false then .next s
  else
    let (set, rate) := acceptModules ms
    if set = 0 then
      .next (s.keepPw (((s.setLstate p lsDOWN).setFld (dpReg p dCTRL) 1 1 0).dpRaise p sevCONTAINED caD2D_LINK))
    else
      let a := dpReg p dSTAT
      let t := ((s.setLstate p lsHELLO).setFld a 4 4 set).setFld a 16 6 rate
      let t := t.setDp p { t.dp p with modsTx := set, modsRx := set, modsOut := 0, window := none, rotate := none }
      .next (s.keepPw (t.tell [(p, .hello p s.d2d.root (if s.flag gDIE_COORD 8 then some s.die else none))]))

/-- HELLO (R382, R391 to R393): the partner's HELLO reaches port `p`. During discovery ASSIGN follows. -/
def execHello (p : DpNo) (peer : Fin 8) (root : Bool) (die : Option (Fin 16)) (s : State) :
    Host.Outcome State Fault Refusal :=
  let p := p.val
  if s.lstate p ≠ lsHELLO then .next s
  else if peer.val ≠ dpPartner p then
    let t := ((s.setLstate p lsDOWN).raiseFlag (dpReg p dERR) 2).dpRaise p sevCONTAINED caD2D_WIRING
    .next (s.keepPw (t.setFld (dpReg p dCTRL) 1 1 0))
  else
    let a := dpReg p dSTAT
    let t := (((s.setLstate p lsUP).setFld a 12 3 peer.val).setFld a 15 1 1).setFld a 8 4
      ((die.map (·.val)).getD 0)
    let full := (List.range 8).map ingRegion
    let t := t.setDp p { t.dp p with credit := full, granted := full, owed := List.replicate 8 0 }
    let t := if root then { t with d2d := { t.d2d with rootAt := insertAsc p t.d2d.rootAt } } else t
    let t := (t.setFld (dpReg p dCTRL) 1 1 0).kbRequest (.sibling p)
    .next (s.keepPw (if t.discovering then t.tell (t.assignTo p) else t))

end Sys2Proof.Machine
end

