-- ==== Sys2Proof/Machine/DieNet.lean ====
section
/-! DEFINITION. What the Hearths of a fabric do together: discovery (R392, R393, R418), timestamp exchange
over the links (R395, R466), the strobe time (R396, R418), and the module windows of Temper (R453 to R455). -/
namespace Sys2Proof.Machine
open Sys2Proof

/-! ### Discovery -/

/-- Two roots were seen (R393): a root has a root for a neighbour, or root flags came in over two edges. -/
def State.twoRoots (s : State) : Bool :=
  match s.d2d.rootAt with
  | [] => false
  | p :: ps => s.d2d.root || ps.any (fun q => portEdge q != portEdge p)

/-- Coordinates lie in the 4 × 4 grid (R10, R392). -/
def inGrid (c : Int × Int) : Bool :=
  decide (0 ≤ c.1) && decide (c.1 ≤ 3) && decide (0 ≤ c.2) && decide (c.2 ≤ 3)

/-- Die ID of coordinates (R10). -/
def dieIdOf (c : Int × Int) : Nat := 4 * c.2.toNat + c.1.toNat

/-- DIE_COORD and DIE_MAP are set, and with them the die's identity and routes (R10, R388, R392, R393). -/
def State.setDie (s : State) (c : Int × Int) (map : Nat) (alone : Bool) : State :=
  let s := { s with d2d := { s.d2d with dieId := dieIdOf c } }
  let a := gDIE_COORD
  let s := ((((s.setFld a 0 2 c.1.toNat).setFld a 2 2 c.2.toNat).setFld a 4 4 (dieIdOf c)).setFld a 8 1 1).setFld a 10 1
    (boolNat alone)
  let s := s.setReg gDIE_MAP (BitVec.ofNat 32 (map % 2 ^ 16))
  let s := s.upPorts.foldl (fun (s : State) p => s.setFld (dpReg p dSTAT) 8 4 (dieIdOf (neighbourAt c p))) s
  s.setRoutes

/-- The die runs alone as die 0, every port closed (R393). -/
def State.goAlone (s : State) : State :=
  let s := (List.range 8).foldl (fun (s : State) p => if s.lstate p < lsTRAINING then s else s.dpEmpty p) s
  s.setDie (0, 0) 1 true

/-- The ports that are UP as one bit each. -/
def State.upMask (s : State) : Nat := (s.upPorts.map (fun p => 2 ^ p)).sum

/-- ASSIGN over every UP port but `p` (R392). -/
def State.assignOn (s : State) (c : Int × Int) (p : Nat) : List (Nat × HMsg) :=
  (s.upPorts.filter (fun q => q != p)).map (fun q => (q, .assign (neighbourAt c q).1 (neighbourAt c q).2))

/-- ASSIGN (R392, R402): a die receives ASSIGN over port `p`. Coordinates that differ from those it has are
reported too, for the root's check. -/
def execAssign (p : DpNo) (dx dy : Int) (s : State) : Host.Outcome State Fault Refusal :=
  if !s.discovering || s.d2d.root || !s.dpUp p.val then .next s
  else
    match s.d2d.rel with
    | none =>
      let t := { s with d2d := { s.d2d with rel := some (dx, dy), toRoot := some p.val } }
      .next (s.keepPw (t.tell ((p.val, .report dx dy s.upMask) :: s.assignOn (dx, dy) p.val)))
    | some c =>
      if c = (dx, dy) then .next s
      else .next (s.keepPw (s.tell [((s.d2d.toRoot).getD p.val, .report dx dy s.upMask)]))

/-- DISCOVERY_REPORT (R392, R394): the root receives a die's coordinates and UP ports; any other die passes them on
toward the root. -/
def execDiscoveryReport (dx dy : Int) (up : BitVec 8) (s : State) : Host.Outcome State Fault Refusal :=
  if !s.discovering then .next s
  else if s.d2d.root then
    .next (s.keepPw { s with d2d := { s.d2d with
      reports := s.d2d.reports ++ [((dx, dy), up.toNat)], quietAt := s.her.boot.hcs } })
  else
    match s.d2d.toRoot with
    | some p => .next (s.keepPw (s.tell [(p, .report dx dy up.toNat)]))
    | none => .next s

/-- Step 7 of start-up runs, and no report has come for 100 µs (R392, R418). -/
def State.reportsQuiet (s : State) : Bool :=
  s.her.boot.phase == 3 && decide (max s.d2d.discAt s.d2d.quietAt + 40000 ≤ s.her.boot.hcs)

/-- The coordinates of every die the root knows, its own first, after the smallest are subtracted. -/
def State.gridOf (s : State) : List (Int × Int) :=
  let cs := (0, 0) :: s.d2d.reports.map (·.1)
  let mx := (cs.map (·.1)).foldl min 0
  let my := (cs.map (·.2)).foldl min 0
  cs.map (fun c => (c.1 - mx, c.2 - my))

/-- A die that breaks the check of step 2. -/
def breaksGrid (cs : List (Int × Int)) (c : Int × Int) : Bool := !inGrid c || decide (1 < cs.count c)

/-- DISCOVERY_FINISH (R392, R393, R418): no report has come for 100 µs, and the root finishes. -/
def execDiscoveryFinish (s : State) : Host.Outcome State Fault Refusal :=
  if !s.discovering || !s.d2d.root || !s.reportsQuiet then .next s
  else if s.twoRoots then .next (s.keepPw s.goAlone)
  else
    let cs := s.gridOf
    let own := cs.headD (0, 0)
    let good := cs.filter (fun c => !breaksGrid cs c)
    let t := if good.length = cs.length then s
      else
        let t := (s.upPorts.filter (fun p => cs.contains (neighbourAt own p) && breaksGrid cs (neighbourAt own p))).foldl
          (fun (t : State) p => t.goDown p) s
        (t.raiseFlag gDIE_COORD 11).raiseHearth sevFATAL caD2D_DISC 0
    if breaksGrid cs own then .next (s.keepPw t.goAlone)
    else
      let map := (good.map (fun c => 2 ^ dieIdOf c)).sum
      let t := t.setDie own map false
      .next (s.keepPw (t.tell ((good.filter (fun c => c != own)).map (fun c =>
        (16 + dieIdOf c, .final (-own.1) (-own.2) map)))))

/-- FINAL (R10, R392, R393): the offset and the map reach a die. -/
def execFinal (ox oy : Int) (map : BitVec 16) (s : State) : Host.Outcome State Fault Refusal :=
  if !s.discovering || s.d2d.root then .next s
  else
    match s.d2d.rel with
    | none => .next s
    | some c =>
      let g := (c.1 - ox, c.2 - oy)
      if s.twoRoots then .next (s.keepPw s.goAlone)
      else if inGrid g then .next (s.keepPw (s.setDie g map.toNat false))
      else .next s

/-- DISC_TO (R393): no FINAL has come within D2D_CTRL.DISC_TO of the start of step 7. The root waits for none. -/
def execDiscTo (s : State) : Host.Outcome State Fault Refusal :=
  if s.discovering && !s.d2d.root && s.her.boot.phase == 3
      && decide (s.d2d.discAt + 400000 * s.fld gD2D_CTRL 16 8 ≤ s.her.boot.hcs) then .next (s.keepPw s.goAlone)
  else .next s

/-! ### Time over the links -/

/-- Superframe count of the die, one more than the number (R466). -/
def State.superframe (s : State) : Nat := s.frame.frameCnt.toNat / 64 + 1

/-- SYNC (R395, R466): SYNC reaches a child over its port toward the root; it answers ECHO with the stamps of
its receipt and of the answer's transfer. `ofs` is the offset that the parent made of the exchange before. -/
def execSync (p : DpNo) (t2 t3 : BitVec 64) (ofs : Option Int) (s : State) : Host.Outcome State Fault Refusal :=
  if s.d2d.toRoot ≠ some p.val || !s.dpUp p.val || s.hsafe then .next s
  else
    let time := match ofs with
      | none => s.time
      | some o => { s.time with offset := some o, synced := s.superframe }
    .next { s with time := time, d2d := { s.d2d with sent := [(p.val, .echo t2.toNat t3.toNat)] } }

/-- The difference of two stamps, as a signed number. -/
def stampDiff (a b : BitVec 64) : Int := (a - b).toInt

/-- Half of a difference; where it is odd the manual states no rounding, and either neighbour may come. -/
def State.halfOf (s : State) (d : Int) : Int × State :=
  if d % 2 = 0 then (d / 2, s)
  else
    let (k, s) := s.freeNext
    (d / 2 + (Config.freeNat k % 2 : Nat), s)

/-- ECHO (R395, R418): the parent has the four stamps of an exchange. A round trip more than 2 ns, 8 units, above
the smallest is discarded; before the strobe only a smaller round trip than any before is kept. -/
def execEcho (p : DpNo) (t1 t2 t3 t4 : BitVec 64) (s : State) : Host.Outcome State Fault Refusal :=
  let p := p.val
  if !s.dpUp p || s.hsafe || s.d2d.toRoot == some p then .next s
  else
    let rtt := (stampDiff t4 t1 - stampDiff t3 t2).toNat
    let d := s.dp p
    let least := match d.minRtt with
      | none => rtt
      | some m => min m rtt
    let t := s.setDp p { d with minRtt := some least }
    let late := match d.minRtt with
      | none => false
      | some m => if s.frame.running then decide (m + 8 < rtt) else decide (m ≤ rtt)
    if late then
      .next (s.keepPw (if s.frame.running then t.raiseFlag (dpReg p dERR) 5 else t))
    else
      let (o, t) := t.halfOf (stampDiff t2 t1 - stampDiff t4 t3)
      let t' := (t.setReg (dpReg p dTSYNC_OFS) (BitVec.ofInt 32 o)).setReg (dpReg p dTSYNC_RTT) (BitVec.ofNat 32 rtt)
      .next { s.keepPw (t'.tell [(p, .sync)]) with free := t.free }

/-- STROBE_TIME (R396, R418): the root names a strobe time at least 200 µs ahead, and sends it to every die; any
other die receives it. -/
def execStrobeTime (t : BitVec 64) (s : State) : Host.Outcome State Fault Refusal :=
  if s.frame.running then .next s
  else if s.d2d.root then
    if s.time.master.toNat + 800000 ≤ t.toNat then
      .next { s with
        her := { s.her with strobeAt := some t.toNat }
        d2d := { s.d2d with sent := s.otherDies.map (fun d => (16 + d, .strobe t.toNat)) } }
    else .next s
  else .next { s with her := { s.her with strobeAt := some t.toNat } }

/-! ### Module windows -/

/-- Modules of a set. -/
def modCount (set : Nat) : Nat := ((List.range 4).filter (fun m => bitOf (BitVec.ofNat 4 set) m)).length

/-- Modules a port has that are not retired (DP_STAT.MODS). -/
def State.dpMods (s : State) (p : Nat) : Nat := s.fld (dpReg p dSTAT) 4 4

/-- The interval of port `p`'s windows is over: D2D_CAL_CTRL.INT ms, of 400,000 hc each (R453). -/
def State.winDue (s : State) (p : Nat) : Bool :=
  decide ((s.dp p).winAt + s.fld gD2D_CAL_CTRL 0 8 * 400000 ≤ s.her.boot.hcs)

/-- D2D_WINDOW_DUE (R453, R455, R456): the interval of port `p` is over. T_w is 100 µs and `more` units after the
timestamp of this Hearth. A window that cannot be opened is skipped until the next interval. -/
def execD2dWindowDue (p : DpNo) (more : Nat) (s : State) : Host.Outcome State Fault Refusal :=
  let p := p.val
  let d := { s.dp p with winAt := s.her.boot.hcs }
  let mods := s.dpMods p
  if !s.winDue p then .next s
  else if s.flag gTEMPER_CTRL 2 && s.dpUp p && !s.hsafe && decide (s.die < s.fld (dpReg p dSTAT) 8 4)
      && d.window.isNone && decide (1 < modCount mods) then
    let m := nextModule mods (d.winMod.getD 3)
    let tw := s.time.master.toNat + 400000 + more
    let w : ModWin := { m := m, tw := tw, acked := false, sent := false, rcvd := false, initiator := true, sentAt := 0 }
    .next (s.keepPw ((s.setDp p { d with window := some w }).tell [(p, .win m tw)]))
  else .next (s.keepPw (s.setDp p d))

/-- WIN (R453, R455): the partner's Hearth receives WIN for module `m` and acknowledges. -/
def execWin (p : DpNo) (m : Fin 4) (tw : BitVec 64) (s : State) : Host.Outcome State Fault Refusal :=
  let p := p.val
  let d := s.dp p
  let mods := s.dpMods p
  if s.dpUp p && !s.hsafe && d.window.isNone && bitOf (BitVec.ofNat 4 mods) m.val && decide (1 < modCount mods) then
    let w : ModWin :=
      { m := m.val, tw := tw.toNat, acked := true, sent := false, rcvd := false, initiator := false, sentAt := 0 }
    .next (s.keepPw ((s.setDp p { d with window := some w }).tell [(p, .winAck m.val)]))
  else .next s

/-- WIN_ACK (R455): the initiating Hearth receives the acknowledgement before T_w. -/
def execWinAck (p : DpNo) (s : State) : Host.Outcome State Fault Refusal :=
  let d := s.dp p.val
  match d.window with
  | none => .next s
  | some w =>
    if w.initiator ∧ s.time.master.toNat < w.tw then
      .next (s.keepPw (s.setDp p.val { d with window := some { w with acked := true } }))
    else .next s

/-- D2D_WIN_CANCEL (R455): T_w has come without an acknowledgement. The module is tried again. -/
def execD2dWinCancel (p : DpNo) (s : State) : Host.Outcome State Fault Refusal :=
  let d := s.dp p.val
  match d.window with
  | none => .next s
  | some w =>
    if w.initiator && !w.acked && decide (w.tw ≤ s.time.master.toNat) then
      let t := (s.setDp p.val { d with window := none }).raiseFlag gD2D_CAL_STAT 16
      .next (s.keepPw (t.raiseHearth sevCORRECTED caD2D_WIN_CANCEL (specGen 0 0 0 0 p.val 0 0)))
    else .next s

/-- A window ends in failure: its module is retired (R455). -/
def State.winFail (s : State) (p m : Nat) : State :=
  ((s.setDp p { s.dp p with winMod := some m }).retireModule p m).tell [(p, .winEnd m false)]

/-- MODULE_RECAL_DONE (R399, R454, R455): the adapter reports the module of the window usable or unusable. -/
def execModuleRecalDone (p : DpNo) (usable : Bool) (s : State) : Host.Outcome State Fault Refusal :=
  let p := p.val
  let d := s.dp p
  match d.window with
  | none => .next s
  | some w =>
    if !w.sent || !w.rcvd then .next s
    else if usable then
      let t := s.setDp p { d with window := none, winMod := some w.m, rotate := some (modAdd d.modsTx w.m) }
      .next (s.keepPw ((t.setFld gD2D_CAL_STAT 0 16 (t.fld gD2D_CAL_STAT 0 16 + 1)).tell [(p, .winEnd w.m true)]))
    else .next (s.keepPw (s.winFail p w.m))

/-- DWIN_MAX µs, of 400 hc each, have passed since ROTATE without the module was sent (R455). -/
def State.winOver (s : State) (w : ModWin) : Bool :=
  w.sent && decide (w.sentAt + s.fld gD2D_CAL_CTRL 8 16 * 400 ≤ s.her.boot.hcs)

/-- D2D_WIN_OVER (R399, R455): the window's limit has come before its module is back. -/
def execD2dWinOver (p : DpNo) (s : State) : Host.Outcome State Fault Refusal :=
  match (s.dp p.val).window with
  | none => .next s
  | some w =>
    if s.winOver w then .next (s.keepPw ((s.winFail p.val w.m).raiseFlag gD2D_CAL_STAT 17)) else .next s

end Sys2Proof.Machine
end

