-- ==== Sys2Proof/Machine/Checks.lean ====
section
/-! DEFINITION. What a stop checks of its shadow banks (R88, R90, R97, R124, R125, R226, R252, R266, R275),
the CRC of each table kind (Table 16.2, R429), and the schedule conditions that Hearth scans (R74, R93). -/
namespace Sys2Proof.Machine
open Sys2Proof

/-! ### CRC over words and bytes -/

/-- The CRC register after some 32-bit words, each little-endian (R429). -/
def crcWords (ws : List Nat) (c : Nat) : Nat := ws.foldl (fun c w => crcLoop 4 w c) c

/-- The CRC register after some bytes. -/
def crcBytes (bs : List Nat) (c : Nat) : Nat := bs.foldl crcByte c

/-- A finished CRC: of nothing it is 0 (R429). -/
def crcEnd (c : Nat) : Word32 := BitVec.ofNat 32 (c ^^^ 0xFFFFFFFF)

/-! ### Stamping -/

/-- Shadow bank of ring `r`. -/
def State.stampShadow (s : State) (r : Nat) : Nat := 1 - s.fld (ringReg r rSTAMP_STAT) 0 1

/-- STYPE and RESID of an entry of a bank. -/
def State.stampOf (s : State) (r b p : Nat) : Nat × Nat :=
  (s.fld (stampReg r b p) 0 3, s.fld (stampReg r b p) 4 10)

/-- A valid stamping entry (Table 4.2). -/
def stampValid (e : Nat × Nat) : Bool :=
  (e.1 == stBE && (e.2 == 0 || e.2 == 0x3FF)) || (e.1 == stGUAR && e.2 != 0x3FF)
    || ((e.1 == stESC || e.1 == stCAL || e.1 == stMGMT) && e.2 == 0)

/-- The directional rings whose origin is stop `st`, in ascending local ring number. -/
def originRings (st : Nat) : List Nat :=
  ((List.range 8).map (fun l => ringAt st l)).filter (fun r => originStop r == st)

/-- Largest gap in rc between consecutive MGMT passes of a frame of `len` positions, `p` telling the passes (R106). -/
def passGap (p : Nat → Bool) (len : Nat) : Nat :=
  match (List.range len).filter p with
  | [] => 0
  | a :: rest => (rest.foldl (fun (acc : Nat × Nat) x => (x, max acc.2 (x - acc.1))) (a, 0)
      |> fun e => max e.2 (a + len - e.1))

/-- MGMT passes of a ring in the active schedule. -/
def State.mgmtPass (s : State) (r p : Nat) : Bool :=
  (s.stampOf r (s.fld (ringReg r rSTAMP_STAT) 0 1) p).1 == stMGMT

/-- The largest gap of the rings from `r` on, `n` of them. -/
def State.mgmtGap (s : State) (r n : Nat) : Nat :=
  ((List.range n).map (fun i => passGap (s.mgmtPass (r + i)) s.frameLen)).foldl max 0

/-- B_MG from the largest row and column gaps: rc within which a broadcast reaches every port 3 buffer (R106). -/
def bMg (gRow gCol : Nat) : Nat := gRow + gCol + 29

/-- B_MG of the active schedule. Rings 0 to 47 are row rings. -/
def State.bMg (s : State) : Nat := Sys2Proof.Machine.bMg (s.mgmtGap 0 48) (s.mgmtGap 48 64)

/-- Number of GUAR entries of the shadow bank below `f`. -/
def State.guarShare (s : State) (r f : Nat) : Nat :=
  ((List.range f).filter (fun p => (s.stampOf r (s.stampShadow r) p).1 == stGUAR)).length

/-- The check of R90 for one ring: 0, or the cause and the first failing position. -/
def State.stampFault (s : State) (r f : Nat) : Nat × Nat :=
  match firstBelow f (fun p => !stampValid (s.stampOf r (s.stampShadow r) p)) with
  | some p => (1, p)
  | none => if f / 2 < s.guarShare r f then (2, 0) else (0, 0)

/-- The result of a ring's check, in STAMP_STAT and STAMP_GUAR. -/
def State.stampResult (s : State) (r f : Nat) (v : Nat × Nat) : State :=
  let a := ringReg r rSTAMP_STAT
  let s := ((s.setFld a 2 2 (if v.1 = 0 then 1 else 2)).setFld a 4 4 v.1).setFld a 8 13 v.2
  s.setFld (ringReg r rSTAMP_GUAR) 16 13 (s.guarShare r f)

/-- CRC of table kind 0 at a stop. -/
def State.stampCrc (s : State) (st f : Nat) : Word32 :=
  crcEnd ((originRings st).foldl (fun c r =>
    crcWords ((List.range f).map (fun p => (s.reg (stampReg r (s.stampShadow r) p)).toNat)) c) 0xFFFFFFFF)

/-! ### The other tables -/

/-- Word offset of entry `n` of the shadow flow table. -/
def State.flowShadow (s : State) (st n : Nat) : Nat :=
  stopReg st (sFLOW_TABLE + 0x200 * (1 - s.fld (stopReg st sFLOW_STAT) 0 1) + 8 * n)

/-- The check of R97. -/
def State.flowBad (s : State) (st : Nat) : Bool :=
  let es := ((List.range 64).map (fun n => s.flowShadow st n)).filter (fun a => s.flag a 0)
  let key (a : Nat) : Nat := s.fld a 1 12
  es.any (fun a => s.fld a 1 2 == 3)
    || es.any (fun a => es.any (fun b => a != b && key a == key b))
    || decide (64 < ((es.filter (fun a => s.fld a 1 2 == 2)).map (fun a => s.fld (a + 4) 0 6 + 1)).sum)

def State.flowCrc (s : State) (st : Nat) : Word32 :=
  crcEnd (crcWords ((List.range 64).flatMap (fun n =>
    [(s.reg (s.flowShadow st n)).toNat, (s.reg (s.flowShadow st n + 4)).toNat])) 0xFFFFFFFF)

/-- The check of R124. -/
def State.schedBad (s : State) (st : Nat) : Bool :=
  let b := 1 - s.pactive st
  (List.range 64).any (fun n => s.fld (paramReg st b n + 4) 2 6 != 0 && s.fld (paramReg st b n) 0 16 == 0)

def State.schedCrc (s : State) (st : Nat) : Word32 :=
  let b := 1 - s.pactive st
  let c := crcBytes ((List.range 4096).map (fun p =>
    s.pmap st b p % 64 + 128 * (s.pmap st b p / 64))) 0xFFFFFFFF
  crcEnd (crcWords ((s.reg (stopReg st (sCLASS_WT + 4 * b))).toNat :: (List.range 64).flatMap (fun n =>
    [(s.reg (paramReg st b n)).toNat, (s.reg (paramReg st b n + 4)).toNat])) c)

/-- Words of a bank of the gate list in use: GL_CFG, GL_START and the entries. -/
def State.gateWords (s : State) (st b : Nat) : List Nat :=
  let g := stopReg st (sGL_CFG + 8 * b)
  [g, g + 4] ++ (List.range (s.fld g 0 6 + 1)).map (fun i => stopReg st (sGATE_LIST + 0x100 * b + 4 * i))

/-- The check of R125. -/
def State.gateBad (s : State) (st : Nat) : Bool :=
  ((s.gateWords st (1 - s.glBank st)).drop 2).any (fun a => s.fld a 8 19 == 0)

def State.gateCrc (s : State) (st : Nat) : Word32 :=
  crcEnd (crcWords ((s.gateWords st (1 - s.glBank st)).map (fun a => (s.reg a).toNat)) 0xFFFFFFFF)

def State.acuCrc (s : State) (st a : Nat) : Word32 :=
  if !acuThere st a then 0
  else
    crcEnd (crcWords ((List.range 32).flatMap (fun i =>
      let v := (s.acuSet st a (1 - s.acuActive st a) i).toNat
      [v % 2 ^ 32, v / 2 ^ 32 % 2 ^ 32, v / 2 ^ 64 % 2 ^ 32, v / 2 ^ 96])) 0xFFFFFFFF)

/-! ### Queue definitions -/

/-- A shadow entry holds a definition. -/
def State.shadowOn (s : State) (st q : Nat) : Bool := fieldOf (s.shadowDef st q) 0 3 == 1

/-- The shadow entry creates a queue. -/
def State.creates (s : State) (st q : Nat) : Bool := s.shadowOn st q && qeState (s.qEntry st q) == qDISABLED

/-- TYPE of queue `q` after the commit; 4 where there is none. -/
def State.typeAfter (s : State) (st q : Nat) : Nat :=
  if s.creates st q then qeType (s.shadowDef st q)
  else if qeState (s.qEntry st q) = qDISABLED then 4
  else qeType (s.qEntry st q)

/-- The group that queue `q` would belong to is whole: a leader at a multiple of 8 and seven members, created
together (R257, R266). -/
def State.groupBad (s : State) (st q : Nat) : Bool :=
  let l := q / 8 * 8
  let ty := s.typeAfter st q
  (ty == 1 && q % 8 != 0) ||
    ((ty == 1 || ty == 3) &&
      (s.typeAfter st l != 1 || (List.range 8).any (fun k => k != 0 && s.typeAfter st (l + k) != 3)
        || (List.range 8).any (fun k => s.creates st (l + k) != s.creates st l)))

/-- Frames of a DIRECT segment. -/
def segFrames (g : BitVec 128) : List Nat := (List.range (sgPages g)).map (fun k => sgFrame g + k)

/-- A DIRECT segment runs past frame 127, touches the spill pool, or shares a frame (R275). -/
def State.directBad (s : State) (st q : Nat) (g : BitVec 128) : Bool :=
  let fs := segFrames g
  fs.any (fun f => decide (127 < f) || s.inPool st f) ||
    (List.range 256).any (fun j =>
      let h := s.qSeg st j
      j != q && (qeState (s.qEntry st j) != qDISABLED || s.creates st j) && sgMode h == 1
        && (segFrames h).any (fun f => fs.contains f))

/-- CHK_CAUSE of a shadow entry with STATE 1; 0 when it passes (R266, R275, Table 9.15). -/
def State.defCause (s : State) (st q : Nat) : Nat :=
  let n := s.shadowDef st q
  let o := s.qEntry st q
  let g := s.qSeg st q
  if !s.creates st q && fieldOf n 3 19 != fieldOf o 3 19 then 1
  else if qeEsz n = 7 ∨ qeNtfMode n = 3 then 2
  else if s.creates st q && (!sgValid g || sgMode g == 0 || sgMode g == 3
      || (sgMode g == 1 && s.directBad st q g)) then 2
  else if 1024 * sgPages g < qeCap n * qeSize n then 3
  else if s.groupBad st q then 4
  else if bitOf (BitVec.ofNat 4 (qeNtfEv n)) 1 && qeThresh n == 0 then 5
  else if qeNtfMode n = 2 ∧ 2 ≤ fieldOf n 110 2 then 6
  else 0

/-- The check of R266 and R275: the first failing queue and its cause. -/
def State.queueFault (s : State) (st : Nat) : Option (Nat × Nat) :=
  (firstBelow 256 (fun q => s.shadowOn st q && s.defCause st q != 0)).map (fun q => (q, s.defCause st q))

def State.queueCrc (s : State) (st : Nat) : Word32 :=
  crcEnd (crcWords (((List.range 256).filter (fun q => s.shadowOn st q)).flatMap (fun q =>
    (List.range 8).map (fun j => fieldOf (s.shadowDef st q) (32 * j) 32))) 0xFFFFFFFF)

/-! ### PREPARE at a stop -/

/-- SCHED_STAT.CHK and CHK_CAUSE. -/
def State.schedResult (s : State) (st cause : Nat) : State :=
  let a := stopReg st sSCHED_STAT
  (s.setFld a 4 2 (if cause = 0 then 1 else 2)).setFld a 6 2 cause

/-- The content check of table kind `t`: whether it passes, with the result in the table's own fields. `f` is
the frame length the commit brings. -/
def State.contentCheck (s : State) (st t f : Nat) : Bool × State :=
  if t = 0 then
    let rs := originRings st
    let s' := rs.foldl (fun (u : State) r => u.stampResult r f (s.stampFault r f)) s
    (rs.all (fun r => (s.stampFault r f).1 == 0), s')
  else if t = 1 then (!s.flowBad st, s)
  else if t = 2 then (!s.schedBad st, s.schedResult st (if s.schedBad st then 1 else 0))
  else if t = 3 then
    (!s.gateBad st, if s.gateBad st then s.schedResult st 2 else s)
  else if t < 7 then
    if acuThere st (t - 4) then
      ((s.shadowFault st (t - 4)).isNone, s.shadowCheck st (t - 4))
    else (true, s)
  else
    let a := stopReg st sQE_STAT
    match s.queueFault st with
    | none => (true, ((s.setFld a 3 2 1).setFld a 5 3 0).setFld a 8 8 0)
    | some (q, c) => (false, ((s.setFld a 3 2 2).setFld a 5 3 c).setFld a 8 8 q)

/-- The CRC of table kind `t` (Table 16.2). -/
def State.tableCrc (s : State) (st t f : Nat) : Word32 :=
  match t with
  | 0 => s.stampCrc st f
  | 1 => s.flowCrc st
  | 2 => s.schedCrc st
  | 3 => s.gateCrc st
  | 4 => s.acuCrc st 0
  | 5 => s.acuCrc st 1
  | 6 => s.acuCrc st 2
  | _ => s.queueCrc st

/-- A CRC mismatch marks the tables whose CHK_CAUSE has a code for it (R433). -/
def State.crcMark (s : State) (st t : Nat) : State :=
  if t = 0 then
    (originRings st).foldl (fun (s : State) r =>
      let a := ringReg r rSTAMP_STAT
      ((s.setFld a 2 2 2).setFld a 4 4 3).setFld a 8 13 0) s
  else if t = 2 then s.schedResult st 3
  else s

/-- Table kinds one after the other: the first failure as table and cause (R433). -/
def State.tableChecks (st f : Nat) : List Nat → State → Option (Nat × Nat) × State
  | [], s => (none, s)
  | t :: ts, s =>
    let (ok, s) := s.contentCheck st t f
    if !ok then (some (t, 1), s)
    else if s.tableCrc st t f ≠ s.reg (stopReg st (sSTOP_CMT_CRC + 4 * t)) then (some (t, 2), s.crcMark st t)
    else State.tableChecks st f ts s

/-! ### Conditions on a schedule -/

/-- Entries of a ring's bank below F in the order of one physical slot's passes: slot `k` of a ring of `n`
stages passes its origin at positions k, k + n, … (R45). -/
def slotPasses (n f k : Nat) : List Nat := (List.range f).filter (fun p => p % n == k)

/-- A pass of a scheduled slot (R93). -/
def scheduledEntry (e : Nat × Nat) : Bool :=
  e.1 == stGUAR || e.1 == stMGMT || e.1 == stCAL || (e.1 == stBE && e.2 == 0x3FF)

/-- The successor rule of Table 4.5; a GUAR entry counts as crossing its origin when `cross` says so. -/
def mayFollow (cross : Nat → Bool) (x y : Nat × Nat) : Bool :=
  let closed := y.1 == stBE && y.2 == 0x3FF
  if x.1 = stMGMT then y.1 == stMGMT || closed
  else if x.1 = stGUAR ∧ cross x.2 then closed
  else true

/-- Consecutive entries, the last followed by the first of the next frame. -/
def followAll (cross : Nat → Bool) : (Nat × Nat) → List (Nat × Nat) → Bool
  | _, [] => true
  | x, y :: ys => mayFollow cross x y && followAll cross y ys

/-- One physical slot is open or scheduled (R93). -/
def slotKindOk (cross : Nat → Bool) (es : List (Nat × Nat)) : Bool :=
  es.all (fun e => e.1 == stBE && e.2 == 0) || es.all (fun e => e.1 == stESC)
    || (es.all scheduledEntry &&
        (match es.reverse with
         | [] => true
         | l :: _ => followAll cross l es))

/-- Every physical slot of a ring's bank meets R93. -/
def State.ringKinds (s : State) (cross : Nat → Bool) (r b f : Nat) : Bool :=
  (List.range (ringLen r)).all (fun k =>
    slotKindOk cross ((slotPasses (ringLen r) f k).map (fun p => s.stampOf r b p)))

/-- Physical slots of a ring stamped ESC at every pass. -/
def State.escSlots (s : State) (r b f : Nat) : List Nat :=
  (List.range (ringLen r)).filter (fun k => (slotPasses (ringLen r) f k).all (fun p => (s.stampOf r b p).1 == stESC))

/-- R74 for the entries of a bank, in every epoch of `e` rc: each row direction has an ESC slot on one of its
tracks, and at every crossing every row slot meets an ESC column slot of each direction within the epoch. A
column slot's arrival meets a row slot's whenever their arrival times agree modulo 4, so the ESC slots of a
column direction, its two tracks together, have to cover every remainder modulo 4. -/
def State.coverage (s : State) (bank : Nat → Nat) (f : Nat) : Bool :=
  (List.range 12).all (fun y => (List.range 2).all (fun d =>
    (List.range 2).any (fun t => !(s.escSlots (4 * y + 2 * d + t) (bank (4 * y + 2 * d + t)) f).isEmpty)))
  && (List.range 16).all (fun x => (List.range 2).all (fun d =>
    let r := 48 + 4 * x + 2 * d
    let ks := s.escSlots r (bank r) f ++ s.escSlots (r + 1) (bank (r + 1)) f
    (List.range 4).all (fun m => ks.any (fun k => k % 4 == m))))

end Sys2Proof.Machine
end

