-- ==== Sys2Proof/Machine/Temper.lean ====
section
/-! DEFINITION. Temper at the receivers of the links (R445 to R451) and the commands of its sweeps
and blocks (R449, R451). -/
namespace Sys2Proof.Machine
open Sys2Proof

/-- A link that has received nothing; PROBE and MWIN are the reset values (R457). -/
def defLink (_ : Nat) : LinkSt :=
  { passes := 0, inPoint := 0, point := 0, hard := 0, sat := false, lmargin := 0, llane := 0,
    swept := false, due := false, probe := 4, mwin := 0x600 }

def State.link (s : State) (r p : Nat) : LinkSt := Tab.get defLink s.tem.links (slotKey r p)

def State.setLink (s : State) (r p : Nat) (v : LinkSt) : State :=
  { s with tem := { s.tem with links := Tab.set defLink s.tem.links (slotKey r p) v } }

/-- A lane at reset: TRIM and vote 0 (log entry 3). -/
def defLane (_ : Nat) : LaneSt :=
  { trim := 0, vote := 0, failed := 0, ended := false, prev := 0, prevEnded := false }

def laneKey (r p n : Nat) : Nat := slotKey r p * 768 + n

def State.lane (s : State) (r p n : Nat) : LaneSt := Tab.get defLane s.tem.lanes (laneKey r p n)

def State.setLane (s : State) (r p n : Nat) (v : LaneSt) : State :=
  { s with tem := { s.tem with lanes := Tab.set defLane s.tem.lanes (laneKey r p n) v } }

/-- Margin of a lane in the last completed sweep (R448). -/
def laneMargin (swept : Bool) (v : LaneSt) : Nat :=
  if !swept then 0 else if v.prevEnded then 0 else if v.prev = 0 then 31 else v.prev - 1

/-- The lanes at which a mask has a one. -/
def lanesOf (m : BitVec 768) : List Nat := (List.range 768).filter (fun n => bitOf m n)

/-- Lowest lane of a mask. -/
def lowLane (m : BitVec 768) : Nat := (lanesOf m).headD 0

/-- A vote at one lane; past 15 either way TRIM moves one step and the vote returns to 0 (R447). -/
def voteLane (r p n : Nat) (up : Bool) (s : State) : State :=
  let v := s.lane r p n
  let w := if up then v.vote - 1 else v.vote + 1
  if w = 16 ∨ w = -16 then
    let t := max (-32) (min 31 (if up then v.trim - 1 else v.trim + 1))
    let hit : Bool := t == -32 || t == 31
    let s := s.setLane r p n { v with vote := 0, trim := t, ended := v.ended || hit }
    if hit then s.setLink r p { s.link r p with sat := true } else s
  else s.setLane r p n { v with vote := w }

/-- Temper raises a record about a ring: the ring, the link by its receiving stop, the lowest lane
(R449). -/
def State.temperRec (s : State) (sev cause r p lane : Nat) : State :=
  s.raiseHearth sev cause (specGen 0 0 0 (peerOf s.die (ringStop r p) 0) r 0 lane)

/-- The hardware blocks a ring (R451). -/
def State.blockRing (s : State) (r p lane : Nat) : State :=
  ((s.raiseFlag (gTEMPER_BLK + 4 * (r / 32)) (r % 32)).raiseFlag gTEMPER_STAT 18).temperRec
    sevCONTAINED caTRK_BLOCK r p lane

/-- The lanes of a link that hold anything. -/
def State.lanesAt (s : State) (r p : Nat) : List (Nat × LaneSt) :=
  (s.tem.lanes.filter (fun e => laneKey r p 0 ≤ e.1 && e.1 < laneKey r p 0 + 768)).map
    (fun e => (e.1 - laneKey r p 0, e.2))

/-- The sweep of a link is over: margins latched, LMARGIN and LLANE found (R448, R449). -/
def State.linkSwept (s : State) (r p : Nat) : State :=
  let s := (s.lanesAt r p).foldl (fun s e =>
    s.setLane r p e.1 { e.2 with prev := e.2.failed, prevEnded := e.2.ended, failed := 0, ended := false }) s
  let worst := (s.lanesAt r p).foldl (fun (b : Nat × Nat) e =>
    let m := laneMargin true e.2
    if m < b.1 then (m, e.1) else b) (31, 0)
  let v := s.link r p
  s.setLink r p
    { v with point := 0, inPoint := 0, swept := true, due := true, lmargin := worst.1, llane := worst.2 }

/-- One step of the PRBS-23 generator x^23 + x^18 + 1 (R446): the next register, whose bit 0 is the new output bit
(log entry 155). -/
def prbs23 (a : Nat) : Nat := a * 2 % 2 ^ 23 + (a / 2 ^ 22 + a / 2 ^ 17) % 2

/-- `n` output bits of the generator, the first in bit 0. -/
def prbsBits : Nat → Nat → Nat
  | 0, _ => 0
  | n + 1, a => prbs23 a % 2 + 2 * prbsBits n (prbs23 a)

/-- The calibration pattern of the pass at position `p` of a frame with superframe count `sf` (R446). -/
def calPattern (p sf : Nat) : BitVec 768 := BitVec.ofNat 768 (prbsBits 768 (1 + p + 8064 * sf))

/-- The pattern that a receiver at distance `d` expects in this rc: position and frame of the pass at the ring's
origin, d + 1 rc ago (R446). -/
def State.calExpect (s : State) (d : Nat) : BitVec 768 :=
  let f := s.frame
  if d + 1 ≤ f.fpos then calPattern (f.fpos - (d + 1)) f.sframe
  else calPattern (f.fpos + s.frameLen - (d + 1)) ((f.sframe + 63) % 64)

/-- What a receiver's comparison gives: the lanes at which the main, the upper and the lower samplers err. -/
structure CalErr where
  main : BitVec 768
  up   : BitVec 768
  lo   : BitVec 768

/-- The comparison lane by lane, with the auxiliary samplers P steps away (R445 to R448). -/
def calErr (sent : BitVec 768) (dist : Nat) (o : CalObs) : CalErr :=
  let (u, l) := o.aux.getD (dist - 1) (sent, sent)
  { main := o.main ^^^ sent, up := u ^^^ sent, lo := l ^^^ sent }

/-- P of the receiver's next CAL transfer, a margin pass or a track pass (R447, R448, R457). -/
def State.calDist (s : State) (r p : Nat) (margin : Bool) : Nat :=
  let v := s.link r p
  if !margin then max 1 v.probe else max 1 v.point

/-- A margin pass (R448). -/
def marginPass (r p : Nat) (o : Option CalErr) (s : State) : State :=
  let v := s.link r p
  let v := if v.point = 0 then
      { v with point := 1, inPoint := 0, hard := 0, probe := s.fld gTEMPER_CTRL 3 5,
               mwin := s.fld gTEMPER_CTRL 8 16 } else v
  let s := s.setLink r p v
  let s := match o with
    | none => s
    | some o => (lanesOf (o.up ||| o.lo)).foldl (fun s n =>
        let l := s.lane r p n
        if l.failed = 0 then s.setLane r p n { l with failed := v.point } else s) s
  if v.inPoint + 1 < v.mwin then s.setLink r p { s.link r p with inPoint := v.inPoint + 1 }
  else if v.point < 31 then s.setLink r p { s.link r p with inPoint := 0, point := v.point + 1 }
  else s.linkSwept r p

/-- A hard error (R450). -/
def hardError (r p : Nat) (o : CalErr) (s : State) : State :=
  if o.main = 0 then s
  else
    let v := s.link r p
    let n := min 3 (v.hard + 1)
    let s := (s.setLink r p { v with hard := n }).raiseFlag gTEMPER_STAT 19
    if 2 ≤ n ∧ s.flag gTEMPER_CTRL 1 ∧ !s.ringBlocked r then s.blockRing r p (lowLane o.main) else s

/-- A CAL transfer taken off by the receiving stop (R107, R446, R447). Transfers of a frame whose
length the last commit changed are counted and not compared (Table 17.2). -/
def calReceive (obs : List CalObs) (r p : Nat) (x : Slot) (s : State) : State :=
  if !(x.isEmpty && x.stype == stCAL && x.resid == 0) || !s.frame.running then s
  else
    let v := s.link r p
    let s := s.setLink r p { v with passes := v.passes + 1 }
    let margin := (v.passes + 1) % 2 == 0 && s.flag gTEMPER_CTRL 0
    let seen := if s.frame.fNew ∧ s.frame.fpos < ringDist r p + 1 then none
      else obs.find? (fun o => o.ring.val == r && o.pos == p)
    let o := seen.map (calErr (s.calExpect (ringDist r p)) (s.calDist r p margin))
    let s := match o with
      | some o => hardError r p o s
      | none => s
    if !margin then
      match o with
      | none => s
      | some o =>
        let s := (lanesOf (o.up &&& ~~~o.lo)).foldl (fun s n => voteLane r p n true s) s
        (lanesOf (o.lo &&& ~~~o.up)).foldl (fun s n => voteLane r p n false s) s
    else marginPass r p o s

/-- Distances of a ring's receiving stops, with the margin and lane of each link. -/
def State.ringWorst (s : State) (r : Nat) : Nat × Nat × Nat :=
  (List.range (ringLen r)).foldl (fun (b : Nat × Nat × Nat) p =>
    let v := s.link r p
    if v.lmargin < b.1 ∨ (v.lmargin = b.1 ∧ ringDist r p < ringDist r b.2.1) then (v.lmargin, p, v.llane)
    else b) (32, 0, 0)

/-- The parts of the state that Temper may change. -/
def State.keepTem (s t : State) : State :=
  { s with regs := t.regs, tem := t.tem, recs := t.recs, ni := t.ni }

/-- Temper evaluates a ring's sweep (R449, Table 17.1). -/
def State.sweepEnd (s : State) (r : Nat) : State :=
  let (m, p, lane) := s.ringWorst r
  let a := ringReg r rTRK_STAT
  let s := ((s.setFld a 2 5 m).setFld a 7 1 1).setFld a 8 4 (ringDist r p)
  let s := s.setFld gTEMPER_STAT 0 16 (s.fld gTEMPER_STAT 0 16 + 1)
  if s.fld gTEMPER_THR 0 5 ≤ m then s
  else if s.fld gTEMPER_THR 8 5 ≤ m then
    (s.raiseFlag gTEMPER_STAT 16).temperRec sevCORRECTED caTRK_MARGIN r p lane
  else
    let s := ((s.raiseFlag (gTEMPER_RET + 4 * (r / 32)) (r % 32)).raiseFlag gTEMPER_STAT 17).temperRec
      sevCONTAINED caTRK_RETIRE_REQ r p lane
    if m < s.fld gTEMPER_THR 16 5 ∧ s.flag gTEMPER_CTRL 1 then s.blockRing r p lane else s

/-- Every link of a ring has a sweep behind it that Temper has not read. -/
def State.sweepOver (s : State) (r : Nat) : Bool :=
  (List.range (ringLen r)).all (fun p => (s.link r p).due)

/-- SWEEP_END (R448, R449): every link of the ring is past point 31; Temper reads them and acts. -/
def execSweepEnd (r : RingNo) (s : State) : Host.Outcome State Fault Refusal :=
  if s.sweepOver r.val then
    let t := (s.sweepEnd r.val)
    .next (s.keepTem (forUpTo (ringLen r.val) (fun p t => t.setLink r.val p { t.link r.val p with due := false }) t))
  else .next s

/-- TEMPER_BLK_WRITE (R451): a host write to TEMPER_BLK_j; bits of rings 112 and above are
reserved. A ring that the hardware has blocked in the same rc, by a bit in `c.ev`, stays blocked. -/
def execTemperBlkWrite (j : Fin 4) (c : ClrIn 32) (s : State) : Host.Outcome State Fault Refusal :=
  let a := gTEMPER_BLK + 4 * j.val
  let w := c.v ||| (c.ev &&& s.reg a)
  .next (s.keepTem (s.setReg a (if j.val = 3 then w &&& 0xFFFF else w)))

end Sys2Proof.Machine
end

