-- ==== Sys2Proof/Machine/Cycle.lean ====
section
/-! DEFINITION. One ring-clock cycle of the whole die (RING_CYCLE), and the events of its counters:
the frame-start strobe (R84), frame boundaries (R83, R108, R129, R493), epochs (R71, R75),
starvation (R70) and the reassembly limit (R51). -/
namespace Sys2Proof.Machine
open Sys2Proof

/-- What the first pass over the stops leaves for the second: the row slots that turn gates send on,
and the row slots as ejection left them, both by ring stage. -/
structure Mid where
  gate  : Tab Slot
  rowIn : Tab Slot

/-- The slot that leaves coordinate `p` of ring `r` in this rc. -/
def Mid.leaving (m : Mid) (old : State) (r p : Nat) : Slot :=
  Tab.get (fun _ => old.slot r p) m.gate (slotKey r p)

/-- The slots that arrive at a stop before any turn gate acts: every local ring whose slot upstream
is not turn-pending. -/
def arrivals (us : List Upset) (old : State) (st : Nat) : List (Nat × Slot) :=
  (List.range 8).filterMap fun l =>
    let r := ringAt st l
    let pp := ringPrev r (ringCoord r st)
    if old.turnPending (ringStop r pp) l then none
    else some (l, linkIn us r (ringCoord r st) (old.slot r pp))

/-- The slot of a local ring in a list by local ring. -/
def slotIn (xs : List (Nat × Slot)) (l : Nat) : Slot :=
  match xs.find? (fun e => e.1 == l) with
  | some e => e.2
  | none => closedSlot

/-- CAL transfers taken off by a stop (R107). -/
def calAt (obs : List CalObs) (old : State) (st : Nat) (s : State) : State :=
  (List.range 8).foldl (fun s l =>
    let r := ringAt st l
    calReceive obs r (ringCoord r st) (old.slot r (ringPrev r (ringCoord r st))) s) s

/-- Step 2 of a module window (R455): at the first CAL pass of the port stop's row rings at or after T_w, the
port has ROTATE without the module to send. -/
def windowCal (old : State) (st : Nat) (s : State) : State :=
  match stopDp st with
  | none => s
  | some p =>
    let d := s.dp p
    match d.window with
    | none => s
    | some w =>
      let cal := (List.range 4).any (fun l =>
        (old.slot (ringAt st l) (ringPrev (ringAt st l) (stopX st))).stype == stCAL)
      if w.acked && !w.sent && d.rotate.isNone && cal && decide (w.tw ≤ (s.localTs st).count.toNat) then
        s.setDp p { d with rotate := some (modDrop d.modsTx w.m) }
      else s

/-- The turn-pending packets of a stop's row registers. -/
def pendingTurns (old : State) (st : Nat) : List (Nat × Slot) :=
  (List.range 4).filterMap fun l =>
    if old.turnPending st l then some (l, old.slot (ringAt st l) (stopX st)) else none

/-- First pass at a stop: ejection from all eight rings, the column rings' origin work, the turn
gates, and column injection (R42, R43). `base` is the state at the start of the rc. -/
def colPass (inp : RcIn) (base old : State) (st : Nat) (acc : Mid × State) : Mid × State :=
  let (m, s) := acc
  let s := windowCal old st (calAt inp.cal old st s)
  let (ys, s) := ejectAll base st (arrivals inp.upsets old st) s
  let rowIn := (ys.filter (fun e => e.1 < 4)).foldl (fun t e =>
    Tab.insert t (slotKey (ringAt st e.1) (stopX st)) e.2) m.rowIn
  let (c4, s) := atOrigin (ringAt st 4) st 4 (slotIn ys 4) s
  let (c5, s) := atOrigin (ringAt st 5) st 5 (slotIn ys 5) s
  let (c6, s) := atOrigin (ringAt st 6) st 6 (slotIn ys 6) s
  let (c7, s) := atOrigin (ringAt st 7) st 7 (slotIn ys 7) s
  let (cs, sent, s) := turnGates st (pendingTurns old st) [c4, c5, c6, c7] s
  let gate := sent.foldl (fun t e => Tab.insert t (slotKey (ringAt st e.1) (stopX st)) e.2) m.gate
  let (ss, s) := injectDir base st 2 (cs.getD 0 closedSlot, cs.getD 1 closedSlot) s
  let (ns, s) := injectDir base st 3 (cs.getD 2 closedSlot, cs.getD 3 closedSlot) s
  let y := stopY st
  ({ gate := gate, rowIn := rowIn },
    (((s.setSlot (ringAt st 4) y ss.1).setSlot (ringAt st 5) y ss.2).setSlot (ringAt st 6) y ns.1).setSlot
      (ringAt st 7) y ns.2)

/-- A row slot that arrives at a stop: as ejection left it, or from the turn gate upstream. A slot
that leaves a gate is bound for the gate's own column, so ejection meets it only when the link upset
its header. -/
def rowArrive (inp : RcIn) (base old : State) (m : Mid) (st l : Nat) (s : State) : Slot × State :=
  let r := ringAt st l
  let x := stopX st
  match m.rowIn.find? (fun e => e.1 == slotKey r x) with
  | some e => atOrigin r st l e.2 s
  | none =>
    let (y, _, s) := ejectAt base [] st l (linkIn inp.upsets r x (m.leaving old r (ringPrev r x))) s
    atOrigin r st l y s

/-- Second pass at a stop: the row rings' origin work and row injection. -/
def rowPass (inp : RcIn) (base old : State) (m : Mid) (st : Nat) (s : State) : State :=
  let (a0, s) := rowArrive inp base old m st 0 s
  let (a1, s) := rowArrive inp base old m st 1 s
  let (a2, s) := rowArrive inp base old m st 2 s
  let (a3, s) := rowArrive inp base old m st 3 s
  let (es, s) := injectDir base st 0 (a0, a1) s
  let (ws, s) := injectDir base st 1 (a2, a3) s
  let x := stopX st
  (((s.setSlot (ringAt st 0) x es.1).setSlot (ringAt st 1) x es.2).setSlot (ringAt st 2) x ws.1).setSlot
    (ringAt st 3) x ws.2

/-- GATE_OVERSIZE at the head of every queue (R128). -/
def oversizeAll (s : State) : State :=
  (s.ni.injq.map (·.1)).foldl (fun s k => s.oversizeAt (k / 512) (k % 512)) s

/-! ### The ports' crossings -/

/-- A packet of an inward FIFO is captured. -/
def State.captureIn (s : State) (st k : Nat) : InPkt → State
  | .req r => s.captureReq st k r
  | .msg m => s.captureMsg st k m
  | .rsp r => s.captureRsp st k r

/-- The first packet that waits in an inward FIFO is read and captured, if the NI reads that FIFO (R329, R345). -/
def State.drainIn (st k : Nat) (c : Chan) (s : State) : State :=
  let v := s.port st k
  match v.inq.find? (fun p => inChan p == c) with
  | none => s
  | some p =>
    if v.state < 2 || !s.reads st k p then s
    else (s.setPort st k { v.passIn p false true with inq := v.inq.erase p }).captureIn st k p

/-- One beat of an outward channel transfers, unless the agent's ready is low (R143). On the sideband a beat that the
agent finds bad is sent again (R160). -/
def State.transferOut (inp : RcIn) (st : StopNo) (k : PortNo) (c : Chan) (s : State) : State :=
  let v := s.port st.val k.val
  let g := portGen st.val k.val
  match v.offered g c with
  | none => s
  | some b =>
    if v.state != 2 || inp.stall.contains (st, k, c) then s
    else if c == .ntf && inp.again.contains (st, k) then
      (s.portErr st.val k.val 0 0).portRec st.val k.val sevCORRECTED caPORT_PARITY (s.curPart st.val k.val) 0 0 0 0
    else
      let s := s.setPort st.val k.val (v.take g c b)
      if c == .orsp then s.portEv st.val k.val 0x32 else s

/-- A dat beat that comes ahead of its header is held (R145). -/
def State.earlyBeat (s : State) (st k : Nat) (b : Beat) : State :=
  if s.ready st k .dat then
    (s.setPort st k { s.port st k with early := (s.port st k).early ++ [b] }).portEv st k 0x31
  else s

/-- The crossing of one port in an rc (R143, R145, R156, R329, R333): what waits to be counted crosses, the agent takes a
beat of each outward channel, freed entries fill, dat beats come, waiting packets are captured, and a partition
change's acknowledgement has been high for its ac. -/
def State.portRc (inp : RcIn) (s : State) (st : StopNo) (k : PortNo) : State :=
  let s := s.portEvCross st.val k.val
  let s := outChans.foldl (fun s c => s.transferOut inp st k c) s
  let s := s.fillOut st.val k.val
  let s := (inp.early.filter (fun e => e.1 == st && e.2.1 == k)).foldl (fun (s : State) e => s.earlyBeat st.val k.val e.2.2) s
  let s := [Chan.req, .msg, .rsp].foldl (fun s c => s.drainIn st.val k.val c) s
  s.setPort st.val k.val { s.port st.val k.val with pchgAck := false, pchgErr := false }

/-- Every listed port's. A port that is not listed is CLOSED, with nothing in its crossing. -/
def State.portsRc (inp : RcIn) (s : State) : State :=
  (s.ni.ports.map (·.1)).foldl (fun (s : State) n =>
    if h : n / 2 < 192 then s.portRc inp ⟨n / 2, h⟩ ⟨n % 2, Nat.mod_lt n (by decide)⟩ else s) s

/-- The control packets of every stop (R177). -/
def State.ctlAll (s : State) : State := (s.ni.rspIn.map (·.1)).foldl (fun (s : State) st => s.ctlSweep st) s

/-- Packets that wait in receive stages do not enter here: INJ_QUEUE_ADMIT does that. The rc's work
on everything but the frame counters. -/
def rcWork (inp : RcIn) (s : State) : State :=
  let base := s
  let s := oversizeAll s.ctlAll.mapEnd
  let old := s
  let (m, s) := forUpTo nStops (colPass inp base old) ({ gate := [], rowIn := [] }, s)
  let s := forUpTo nStops (rowPass inp base old m) s
  let s := forUpTo nStops (loopBack base) s
  let s := (s.ring.ejpipe.map (·.1)).foldl (fun s st => s.ejAdvance st) s
  let s := (s.ni.guar.map (·.1)).foldl (fun s st => s.ageGuarMarks st) s
  let s := (s.portsRc inp).shaperUpdate.fenceDrained
  s.pmcSweep (fun st l => m.leaving old (ringAt st l) (ringCoord (ringAt st l) st))

/-- Length of an epoch in rc (R71). -/
def Frame.epochLen (f : Frame) : Nat := 48 * (f.epochSel + 1)

/-- The counters advance by one rc (R71, R83, R494). -/
def Frame.tick (f : Frame) : Frame :=
  if !f.running then { f with rcs := f.rcs + 1, rcnt := (f.rcnt + 1) % 2 ^ 20 }
  else
    { f with
      rcs := f.rcs + 1
      rcnt := (f.rcnt + 1) % 2 ^ 20
      fpos := if f.fpos + 1 < 48 * f.flen48 then f.fpos + 1 else f.fpos
      due := decide (48 * f.flen48 ≤ f.fpos + 1)
      epochPos := if f.epochPos + 1 < f.epochLen then f.epochPos + 1 else f.epochPos
      epochDue := decide (f.epochLen ≤ f.epochPos + 1) }

/-- The parts of the state that an rc may change. -/
def State.keepCycle (s t : State) : State :=
  { s with frame := t.frame, regs := t.regs, ring := t.ring, ni := t.ni, recs := t.recs,
           pmu := t.pmu, tem := t.tem, pw := t.pw, d2d := t.d2d }

/-- The ring clock runs: it is not held for a change (R344), and the fabric is out of reset. -/
def State.rcRuns (s : State) : Bool := !s.her.rstLow && !s.cdc.hold

/-- Frame `n` has begun, by signed distance. -/
def State.frameReached (s : State) (n : Word32) : Bool := decide (0 ≤ (s.frame.frameCnt - n).toInt)

/-- A decided commit takes effect in this rc, the first of frame N_c (R436); or the late swap of an in-doubt die
does (R437). -/
def State.swapDue (s : State) : Bool :=
  !s.frame.due && s.frame.fpos == 0 &&
    ((s.fld gCOMMIT_STATUS 0 3 == 2 && s.frame.frameCnt == s.reg gCOMMIT_FRAME)
      || (s.fld gCOMMIT_STATUS 0 3 == 5 && (match s.her.cmt.late with
        | some n => s.frameReached (BitVec.ofNat 32 n)
        | none => false)))

/-- RING_CYCLE (R42 and the rules it rests on): one rc at all 192 stops. A frame or epoch boundary
that is due comes first, and so does the swap of a commit. -/
def execRingCycle (inp : RcIn) (s : State) : Host.Outcome State Fault Refusal :=
  if s.her.test.broken then .fault .isolated
  else if s.frame.due || s.frame.epochDue || s.swapDue || !s.rcRuns then .next s
  else
    let t := rcWork inp s
    .next (s.keepCycle { t with frame := s.frame.tick })

/-- The die's timestamp has not reached the strobe time the root sent (R396, R418). -/
def State.strobeEarly (s : State) : Bool :=
  match s.her.strobeAt with
  | some t => decide (s.time.master.toNat < t)
  | none => false

/-- FRAME_START_STROBE (R84, R85, R111, R396, R447, R467, R494): Hearth has loaded every stop's count from the master,
and every stop starts its counters together. The strobe is issued once. -/
def execFrameStartStrobe (s : State) : Host.Outcome State Fault Refusal :=
  if s.frame.running || s.strobeEarly then .next s
  else
    let f : Frame :=
      { s.frame with running := true, fpos := 0, sframe := 0, frameCnt := 0, due := false, epoch := 0,
                     flen48 := if 10 ≤ s.fld gFRAME_CTRL 8 8 ∧ s.fld gFRAME_CTRL 8 8 ≤ 168 then
                       s.fld gFRAME_CTRL 8 8 else s.frame.flen48,
                     epochPos := 0, epochDue := false,
                     epochSel := s.fld (stopReg hearthStop sDEFL_CTRL) 2 2,
                     rcnt := 0, fNew := false }
    let now : LocalTs := { count := s.time.master, hold := 0, slew := 0, mark := none }
    .next { s with
      frame := f
      time := { s.time with locals := if now = defLocal 0 then [] else (List.range nStops).map (fun st => (st, now)) }
      tem := { s.tem with links := s.tem.links.map (fun e => (e.1, { e.2 with passes := 0 })) } }

/-- A helper of one stop overran its frame (R108). `back` is how far the gate states of that frame lay back. -/
def State.overrun (s : State) (src st back : Nat) : State :=
  let s := if s.flag gFRAME_STAT 1 then s else s.setFld gFRAME_STAT 8 3 src
  let s := (s.raiseFlag gFRAME_STAT 1).count gFRAME_STAT 16 16 1
  let s := s.raise st (recIdx sevCORRECTED caFRAME_OVERRUN 0 src)
  if src = 1 then
    { s with ni := { s.ni with gstale := Tab.set (fun _ => 0) s.ni.gstale st (back + 1) } }
  else s

/-- Copy every counter into the snapshot registers (R493). -/
def State.snapshot (s : State) (st : Nat) (cnt : Nat) : State :=
  let s := forUpTo 16 (fun n s =>
    (s.setReg (stopReg st (sPMC_SNAP + 8 * n)) (BitVec.ofNat 32 (s.pmc st n))).setReg
      (stopReg st (sPMC_SNAP + 8 * n + 4)) (BitVec.ofNat 32 (s.pmc st n / 2 ^ 32))) s
  let a := stopReg st sSNAP_STAT
  (s.setFld a 0 16 cnt).setFld a 16 16 (s.fld a 16 16 + 1)

/-- A host value of DEFL_CTRL takes force at the boundary Hearth named (R79): all but ESC_EPOCH. -/
def State.deflApply (s : State) (cnt : Word32) : State :=
  match s.frame.deflNxt with
  | none => s
  | some (v, n) =>
    if n = cnt then
      forUpTo nStops (fun st s =>
        let a := stopReg st sDEFL_CTRL
        s.setReg a (withField v 2 2 (s.fld a 2 2))) s
    else s

/-- The frame as the boundary leaves it (R83, R79, R71). -/
def Frame.boundary (f : Frame) : Frame :=
  let c := f.frameCnt + 1
  let (nxt, ep) := match f.deflNxt with
    | some (v, n) => if n = c then (none, some (fieldOf v 2 2)) else (some (v, n), f.epochNxt)
    | none => (none, f.epochNxt)
  { f with fpos := 0, due := false, flenPrev := f.flen48, sframe := (f.sframe + 1) % 64, frameCnt := c, fNew := false,
           deflNxt := nxt, epochNxt := ep }

/-- FRAME_BOUNDARY (R83, R108, R129, R130, R493): F − 1 is over and FPOS returns to 0. `late` lists
the helpers that had not finished the ended frame's work, with the stop of each. -/
def execFrameBoundary (late : List (Fin 8 × StopNo)) (s : State) : Host.Outcome State Fault Refusal :=
  if !s.frame.due then .next s
  else
    let f := s.frame.boundary
    let t := s.deflApply f.frameCnt
    let t := { t with ni := { t.ni with gstale := [] } }
    let t := forUpTo nStops (fun st t =>
      let k := (Tab.get (fun _ => 0) t.ni.gframe st + 1) % t.gcycle st
      { t with ni := { t.ni with gframe := Tab.set (fun _ => 0) t.ni.gframe st k } }) t
    let t : State := late.foldl (fun (t : State) o => t.overrun o.1.val o.2.val (Tab.get (fun _ => 0) s.ni.gstale o.2.val)) t
    let t : State := if t.flag gSNAP_CTRL 0 ∧ f.frameCnt.toNat % 2 ^ t.fld gSNAP_CTRL 1 4 = 0 then
        forUpTo nStops (fun st t => t.snapshot st (f.frameCnt.toNat % 2 ^ 16)) t else t
    .next { s with frame := f, regs := t.regs, ni := t.ni, recs := t.recs }

/-- ESC_GAP at one stop's column direction (R75). The record names the ring of track A (log entry 147). -/
def State.escGap (s : State) (st d : Nat) : State :=
  if Tab.get (fun _ => false) s.ring.escSeen (st * 2 + d) || s.fld gFAB_STATE 0 4 == 7 then s
  else
    ((s.raiseFlag (stopReg st sDEFL_STAT) 5).deflCnt st 7).raise st
      (recIdx sevCONTAINED caESC_GAP (ringAt st (4 + 2 * d)) s.frame.epoch)

/-- EPOCH_BOUNDARY (R71, R75): the escape count advances; a changed ESC_EPOCH takes force. -/
def execEpochBoundary (s : State) : Host.Outcome State Fault Refusal :=
  if !s.frame.epochDue || s.frame.due || s.swapDue then .next s
  else
    let t := forUpTo nStops (fun st t => (t.escGap st 0).escGap st 1) s
    let t := match s.frame.epochNxt with
      | none => t
      | some e => forUpTo nStops (fun st t => t.setFld (stopReg st sDEFL_CTRL) 2 2 e) t
    .next { s with
      frame := { s.frame with epoch := (s.frame.epoch + 1) % 48, epochPos := 0, epochDue := false,
                              epochSel := (s.frame.epochNxt.getD s.frame.epochSel) % 4, epochNxt := none }
      regs := t.regs
      recs := t.recs
      ring := { s.ring with escSeen := [] } }

/-- STARVATION (R70): a direction's counter has reached STARVE_LIMIT. -/
def execStarvation (st : StopNo) (d : Fin 4) (s : State) : Host.Outcome State Fault Refusal :=
  let v := s.dir st.val d.val
  if s.fld (stopReg st.val sDEFL_CTRL) 4 12 ≤ v.starve ∧ !v.starved then
    let t := (s.setDir st.val d.val { v with starved := true }).deflCnt st.val 6
    .next { s with ring := t.ring, regs := t.regs }
  else .next s

/-- What becomes of an incomplete packet (R51): a posted write whose PWACK is sent expects no other
response, and no source is known of a packet of which no slot was checked. -/
def State.dropReasm (s : State) (st : Nat) (r : Reasm) : State :=
  let s := s.setReasm st ((s.reasm st).filter (fun q => !(q.src == r.src && q.store == r.store)))
  let s := s.count (stopReg st sRING_STAT) 0 16 1
  match r.slots with
  | x :: _ =>
    let x := r.slots.getLastD x
    if r.store = 1 ∧ !(opPosted x.opc && x.opc != opNOTIFY && decide (x.dport < 2)) then s.refuseWith st x stTIMEOUT
    else s.raise st (recGen x.dport sevCONTAINED caREASM (some x.part)
      (specGen 0 x.opc r.src.tag (peerOf r.src.die r.src.stop r.src.port) 0 0 0))
  | [] => s.raise st (recGen 3 sevCONTAINED caREASM none (specGen 0 0 0 0 0 0 0))

/-- Every slot of an incomplete packet has been admitted: those still missing are in the ejection stage (R51). -/
def State.allHere (s : State) (st : Nat) (r : Reasm) : Bool :=
  let here := (s.ej st).filter (fun e => e.store == r.store && e.slot.src == r.src && e.slot.crcOk)
  (List.range (r.plen + 1)).all (fun k => r.slots.any (·.pseq == k) || here.any (·.slot.pseq == k))

/-- REASM_DROP (R51): a packet is still incomplete when the rc that lies REASM_LIMIT after the admission of its first
slot is over. A last slot admitted by then wins. -/
def execReasmDrop (st : StopNo) (src : Src) (s : State) : Host.Outcome State Fault Refusal :=
  match (s.reasm st.val).find? (fun r => r.src == src
      && decide (s.fld (stopReg st.val sRING_CTRL) 0 20 < s.frame.rcs - r.born) && !s.allHere st.val r) with
  | none => .next s
  | some r => .next (s.keepRec (s.dropReasm st.val r))

end Sys2Proof.Machine
end

