-- ==== Sys2Proof/Machine/RegStore.lean ====
section
/-! DEFINITION. How a written word lands in a register that has no rule of its own: RW fields are stored, "stored
as" values and documented ranges hold, W1C flags clear, RSV and RO bits stay (R4, R5, R6, R481). -/
namespace Sys2Proof.Machine
open Sys2Proof

/-- A field with a documented range narrower than its width: block (0 global, 1 stop, 2 die-to-die port), first
offset, how many, how far apart, bit, width, least and largest value, and whether a value outside is stored as
the nearer of the two. -/
structure FieldRule where
  blk   : Nat
  off   : Nat
  n     : Nat
  step  : Nat
  lo    : Nat
  w     : Nat
  min   : Nat
  max   : Nat
  clamp : Bool
  deriving DecidableEq, Repr

/-- Fields of the global block. -/
def globalRules : List FieldRule :=
  [⟨0, gPWR_CTRL, 1, 4, 0, 16, 1, 0xFFFF, true⟩, ⟨0, gPWR_CYC_SEL, 1, 4, 0, 6, 0, 55, false⟩,
   ⟨0, gD2D_CTRL, 1, 4, 16, 8, 1, 0xFF, true⟩, ⟨0, gCOMMIT_CFG, 1, 4, 0, 16, 1, 0xFFFF, true⟩,
   ⟨0, gCOMMIT_CFG, 1, 4, 16, 16, 1, 0xFFFF, true⟩, ⟨0, gCMT_LIST_N, 1, 4, 0, 7, 0, 64, true⟩,
   ⟨0, gTEMPER_CTRL, 1, 4, 3, 5, 1, 31, true⟩, ⟨0, gTEMPER_CTRL, 1, 4, 8, 16, 1, 0xFFFF, true⟩,
   ⟨0, gD2D_CAL_CTRL, 1, 4, 0, 8, 1, 0xFF, true⟩, ⟨0, gD2D_CAL_CTRL, 1, 4, 8, 16, 1, 0xFFFF, true⟩,
   ⟨0, gERR_LOG_CTRL, 1, 4, 1, 4, 0, 10, true⟩, ⟨0, gSAMPLE_BUF_SIZE, 1, 4, 0, 4, 0, 14, true⟩]

/-- Fields of a stop block. -/
def stopRules : List FieldRule :=
  [⟨1, sRING_CTRL, 1, 4, 0, 20, 0x100, 0xFFFFF, true⟩, ⟨1, sDEFL_CTRL, 1, 4, 4, 12, 0x10, 0xFFF, true⟩,
   ⟨1, sCLASS_WT, 2, 4, 0, 8, 1, 0xFF, true⟩, ⟨1, sCLASS_WT, 2, 4, 8, 8, 1, 0xFF, true⟩,
   ⟨1, sCLASS_WT, 2, 4, 16, 8, 1, 0xFF, true⟩, ⟨1, sCLASS_WT, 2, 4, 24, 8, 1, 0xFF, true⟩,
   ⟨1, sCTX_PARAM + 4, 64, 8, 10, 10, 64, 512, true⟩,
   ⟨1, 0x410, 2, 0x80, 0, 16, 1, 0xFFFF, true⟩, ⟨1, 0x410, 2, 0x80, 16, 16, 1, 0xFFFF, true⟩,
   ⟨1, 0x420, 2, 0x80, 0, 16, 1, 0xFFFF, true⟩,
   ⟨1, sTXN_CTRL, 1, 4, 0, 16, 1, 0xFFFF, true⟩, ⟨1, sGRANT_CTRL, 1, 4, 0, 20, 0x1000, 0xFFFFF, true⟩,
   ⟨1, sCTO_A, 2, 4, 0, 16, 1, 0xFFFF, true⟩, ⟨1, sCTO_A, 2, 4, 16, 16, 1, 0xFFFF, true⟩,
   ⟨1, sRSV_LIM_A, 2, 4, 0, 11, 0x40, 0x400, true⟩, ⟨1, sRSV_LIM_A, 2, 4, 16, 11, 0x40, 0x400, true⟩,
   ⟨1, sRTY_REC_SEL, 1, 4, 0, 12, 0, 3071, false⟩,
   ⟨1, sQS_CTRL, 1, 4, 8, 8, 2, 0xFF, true⟩, ⟨1, sQS_CTRL, 1, 4, 16, 8, 1, 0xFF, true⟩,
   ⟨1, sPMF, 4, 0x20, 0, 2, 0, 2, false⟩, ⟨1, sPMC_CFG, 16, 4, 17, 3, 0, 4, false⟩,
   ⟨1, sSMP_CTRL, 1, 4, 3, 3, 0, 4, false⟩, ⟨1, sSMP_CTRL, 1, 4, 6, 4, 0, 8, false⟩]

/-- Block of a register offset, and the offset within it: 0 global, 1 stop, 2 die-to-die port, 3 ring, 4 none. -/
def regBlock (a : Nat) : Nat × Nat :=
  let b := a % 0x10000000
  if b < 0x100000 then (0, b)
  else if b < 0x400000 then (1, (b - 0x100000) % 0x4000)
  else if b < 0x480000 then (2, (b - 0x400000) % 0x10000)
  else if 0x800000 ≤ b ∧ b < 0xF00000 then (3, (b - 0x800000) % 0x10000)
  else (4, b)

/-- The row of a register. -/
def regRow (a : Nat) : Option RegRow :=
  match regBlock a with
  | (0, o) => rowAt rowsGlobal o
  | (1, o) => rowAt rowsStop o
  | (2, o) => rowAt rowsDp o
  | (3, o) => rowAt rowsRing o
  | _ => none

def FieldRule.at (f : FieldRule) (o : Nat) : Bool :=
  f.off ≤ o && (o - f.off) % f.step == 0 && (o - f.off) / f.step < f.n

/-- The range rules of a register. -/
def fieldRules (a : Nat) : List FieldRule :=
  let (b, o) := regBlock a
  if b = 0 then globalRules.filter (fun f => f.at o) else if b = 1 then stopRules.filter (fun f => f.at o) else []

/-- One field's range applied to the word to be stored, `old` being the word before; and whether the field kept
its old value. -/
def FieldRule.apply (f : FieldRule) (old : Word32) (w : Word32 × Bool) : Word32 × Bool :=
  let x := fieldOf w.1 f.lo f.w
  if f.min ≤ x ∧ x ≤ f.max then w
  else if f.clamp then (withField w.1 f.lo f.w (if x < f.min then f.min else f.max), w.2)
  else (withField w.1 f.lo f.w (fieldOf old f.lo f.w), true)

/-- The word that a write of `v` stores at a register, and whether a range failed (R481): an event code that
Table 19.1 does not list, and a period too short for its jitter (R495), count among the ranges. -/
def State.storedWord (s : State) (a : Nat) (v : Word32) : Word32 × Bool :=
  match regRow a with
  | none => (s.reg a, false)
  | some r =>
    let old := s.reg a
    let rw : Word32 := BitVec.ofNat 32 r.rw
    let wc : Word32 := BitVec.ofNat 32 r.w1c
    let w := (old &&& ~~~rw &&& ~~~(v &&& wc)) ||| (v &&& rw)
    let (w, bad) := (fieldRules a).foldl (fun w f => f.apply old w) (w, false)
    let (b, o) := regBlock a
    if b = 1 ∧ sPMC_CFG ≤ o ∧ o < sPMC ∧ !evListed (fieldOf v 0 8) then
      (withField w 0 8 (fieldOf old 0 8), true)
    else if b = 1 ∧ o = sSMP_PERIOD ∧ 2 * (fieldOf v 0 20 + 1) ≤ 2 ^ s.fld (a - sSMP_PERIOD + sSMP_CTRL) 6 4
        ∧ s.fld (a - sSMP_PERIOD + sSMP_CTRL) 6 4 ≠ 0 then (old, true)
    else (w, bad)

/-- What carried a register write: the stop of the port 3 that performed it, and the PART of its packet; none for a
write of Hearth's own. -/
abbrev Via := Option (Nat × Option Nat)

/-- A range failure: ERR_STAT.REG_RANGE, and a record with the register's offset in DETAIL (R469, R481), raised by the
stop whose port 3 carried the write, or by Hearth. -/
def State.rangeFail (s : State) (via : Via) (a : Nat) : State :=
  let s := s.raiseFlag gERR_STAT 4
  let spec := specGen 0 0 0 0 0 0 (a % 0x4000000)
  match via with
  | none => s.raiseHearth sevCORRECTED caREG_RANGE spec
  | some (st, part) => s.raise st (recGen 3 sevCORRECTED caREG_RANGE part spec)

/-- The LFSR of a stop is seeded when SMP_CTRL.EN is written 1 (R495). -/
def State.lfsrSeed (s : State) (st : Nat) : State :=
  { s with pmu := { s.pmu with lfsr := Tab.set (fun _ => 0) s.pmu.lfsr st (1 + 256 * s.die + st) } }

/-- A plain write of one word. Setting QE_CTRL.EN ends raw mode (R316); setting SMP_CTRL.EN seeds the LFSR
(R495). -/
def State.regPut (s : State) (via : Via) (a : Nat) (v : Word32) : State :=
  let (w, bad) := s.storedWord a v
  let s := s.setReg a w
  let s := if regBlock a = (1, sQE_CTRL) ∧ bitOf v 0 then s.endRaw ((a - 0x100000) / 0x4000) else s
  let s := if regBlock a = (1, sSMP_CTRL) ∧ bitOf v 0 then s.lfsrSeed ((a - 0x100000) / 0x4000) else s
  if bad then s.rangeFail via a else s

end Sys2Proof.Machine
end

