-- ==== Sys2Proof/Machine/Commit.lean ====
section
/-! DEFINITION. Commits: the Kind A change of configuration (R427 to R444). -/
namespace Sys2Proof.Machine
open Sys2Proof

/-! ### State of a commit -/

/-- The root die, or a die running alone (R428). -/
def State.isRoot (s : State) : Bool := s.d2d.root || s.flag gDIE_COORD 10

/-- COMMIT_STATUS.STATE. -/
def State.cmtState (s : State) : Nat := s.fld gCOMMIT_STATUS 0 3
def cmIDLE : Nat := 0
def cmPREPARING : Nat := 1
def cmDECIDED : Nat := 2
def cmCOMMITTED : Nat := 3
def cmABORTED : Nat := 4
def cmIN_DOUBT : Nat := 5

def State.setCmtState (s : State) (v : Nat) : State := s.setFld gCOMMIT_STATUS 0 3 v
def State.setCmtCause (s : State) (v : Nat) : State := s.setFld gCOMMIT_STATUS 3 4 v

/-- COMMIT_STATUS.SEQ. -/
def State.cmtSeq (s : State) : Nat := s.fld gCOMMIT_STATUS 25 7

/-- FAIL_DIE, FAIL_STOP and FAIL_TABLE. -/
def State.setCmtFail (s : State) (d st t : Nat) : State :=
  ((s.setFld gCOMMIT_STATUS 9 4 d).setFld gCOMMIT_STATUS 13 8 st).setFld gCOMMIT_STATUS 21 4 t

/-- The fields of a commit at Hearth change. -/
def State.setCmt (s : State) (c : CmtSt) : State := { s with her := { s.her with cmt := c } }

/-- The parts of the state that a commit may change besides the frame's counters. -/
def State.keepCmt (s t : State) : State :=
  { s.keepPw t with her := t.her, acu := t.acu, tem := t.tem }

/-- What holds requests back has gone: the commit has settled (R439). -/
def State.cmtSettle (s : State) : State :=
  let s := forUpTo nStops (fun st s => s.setFld (stopReg st sSTOP_CMT_STAT) 9 1 0) s
  let s := { s with her := { s.her with prep := [] } }
  (((s.setFld gCOMMIT_CTRL 0 1 0).qcmdRelease).pwGo)

/-- The commit ends ABORTED on this die: a record, and nothing else changes (R434). -/
def State.cmtAbort (s : State) (cause : Nat) : State :=
  (((s.setCmtState cmABORTED).setCmtCause cause).raiseHearth sevCORRECTED caCOMMIT_ABORT
    (specGen 0 0 0 0 0 0 s.cmtSeq)).cmtSettle

/-- The root sends ABORT (R434). -/
def State.rootAbort (s : State) (cause : Nat) : State :=
  let n := (s.reg gCOMMIT_FRAME).toNat
  let s := s.setCmt { s.her.cmt with kept := some (s.cmtSeq, false, n) }
  (s.cmtAbort cause).tell (s.otherDies.map (fun d => (16 + d, .abort s.cmtSeq)))

/-! ### The register list -/

def itValue (e : BitVec 64) : Nat := fieldOf e 0 32
def itOffset (e : BitVec 64) : Nat := fieldOf e 32 14
def itStop (e : BitVec 64) : Nat := fieldOf e 46 8
def itKind (e : BitVec 64) : Nat := fieldOf e 54 2
def itDie (e : BitVec 64) : Nat := fieldOf e 56 4
def itAll (e : BitVec 64) : Bool := bitOf e 60

/-- CMT_LIST_i. -/
def State.listItem (s : State) (i : Nat) : BitVec 64 :=
  BitVec.ofNat 64 ((s.reg (gCMT_LIST i)).toNat + (s.reg (gCMT_LIST i + 4)).toNat * 2 ^ 32)

/-- The list of the commit. -/
def State.listNow (s : State) : List (BitVec 64) := (List.range (s.fld gCMT_LIST_N 0 7)).map (fun i => s.listItem i)

/-- Registers that the list may write (R430). -/
def listRegs : List Nat := [sDEFL_CTRL, sSCHED_CTRL, 0x1900, 0x1980, 0x1A00, sQE_CTRL]

/-- Two entries go to the same stops of the same dies. -/
def sameScope (e f : BitVec 64) : Bool :=
  itStop e == itStop f && itAll e == itAll f && (itAll e || itDie e == itDie f)

/-- One entry is sound (R430). -/
def State.itemOk (s : State) (es : List (BitVec 64)) (e : BitVec 64) : Bool :=
  (itStop e < 192 || itStop e == 255) && (itAll e || s.flag gDIE_MAP (itDie e)) &&
    (if itKind e = 0 then listRegs.contains (itOffset e)
     else if itKind e = 1 then
       itOffset e < 64 && decide (itOffset e / 16 < 3) &&
         (List.range 4).all (fun w => es.any (fun f =>
           itKind f == 1 && sameScope e f && itOffset f == itOffset e / 4 * 4 + w))
     else false)

/-- The list is sound. -/
def State.listOk (s : State) (es : List (BitVec 64)) : Bool := es.all (fun e => s.itemOk es e)

/-- Stops of this die that an entry writes. -/
def State.itemStops (s : State) (e : BitVec 64) : List Nat :=
  if !itAll e && itDie e != s.die then []
  else if itStop e = 255 then List.range 192
  else [itStop e]

/-- One entry is written (R430, R436). ESC_EPOCH waits for an epoch boundary (R71); a default-map entry locked in
`old`, the state before the list, stays (R230). -/
def State.itemWrite (old s : State) (e : BitVec 64) : State :=
  let v := BitVec.ofNat 32 (itValue e)
  let o := itOffset e
  (s.itemStops e).foldl (fun (s : State) st =>
    if itKind e = 1 then
      let a := o / 16
      let i := o / 4 % 4
      if !acuThere st a then s
      else if acuLock (old.acuDef st a i) then s.raiseFlag (acuReg st a 8) 12
      else s.setAcuDef st a i (withField (s.acuDef st a i) (32 * (o % 4)) 32 (itValue e))
    else if o = sDEFL_CTRL then
      let a := stopReg st o
      let w := (s.storedWord a v).1
      { s.setReg a (withField w 2 2 (s.fld a 2 2)) with
        frame := { s.frame with epochNxt := some (fieldOf v 2 2) } }
    else if 0x1900 ≤ o ∧ o ≤ 0x1A00 ∧ !acuThere st ((o - 0x1900) / 0x80) then s
    else s.regPut none (stopReg st o) v) s

/-! ### Choosing T -/

/-- rc from the start of this frame to the rc now beginning. -/
def Frame.posNow (f : Frame) : Nat := if f.due then 48 * f.flen48 else f.fpos

/-- 0.25 ns units turned into rc of `fs` femtoseconds, rounded down. -/
def rcIn (units fs : Nat) : Nat := units * 250000 / max fs 1

/-- Steps 1 to 3 of R431, as rc from now to T and frames from now to the boundary that ends the frame of T: the
later of T_req and now + MARGIN, the next frame midpoint at or after it, and whole frames until the gap to the
boundary `last` is met. -/
def Frame.chooseT (f : Frame) (ahead fs gap : Nat) (last : Option Nat) : Nat × Nat :=
  let len := 48 * f.flen48
  let p := f.posNow
  let m0 := (ahead * 250000 + max fs 1 - 1) / max fs 1
  let m1 := m0 + (len / 2 + len - (p + m0) % len) % len
  let k1 := (p + m1) / len + 1
  let bound := f.rcs + k1 * len - p
  let need := match last with
    | some r => r + gap - bound
    | none => 0
  let x := (need + len - 1) / len
  (m1 + x * len, k1 + x)

/-- COMMIT_T and COMMIT_FRAME. -/
def State.setCmtT (s : State) (t : Nat) (n : Word32) : State :=
  ((s.setReg gCOMMIT_T_LO (BitVec.ofNat 32 t)).setReg gCOMMIT_T_HI (BitVec.ofNat 32 (t / 2 ^ 32))).setReg
    gCOMMIT_FRAME n

def State.cmtT (s : State) : Nat := (s.reg gCOMMIT_T_LO).toNat + (s.reg gCOMMIT_T_HI).toNat * 2 ^ 32

/-- A commit opens at a Hearth: a new SEQ, nothing recorded yet. -/
def State.cmtOpenNew (s : State) (c : CmtSt) (scope : Nat) : State :=
  let s := s.setFld gCOMMIT_STATUS 25 7 (s.cmtSeq + 1)
  let s := ((s.setCmtCause 0).setCmtFail 0 0 15).setCmtState cmPREPARING
  { s with her := { s.her with
    prep := [], scope := scope
    cmt := { c with acked := [], fail := none, late := none, asked := none } } }

/-- COMMIT_GO is refused (R428). -/
def State.goRefused (s : State) : Bool :=
  !s.isRoot || (s.fabState != fabCONFIGURED && s.fabState != fabOPEN) || s.cmtOpen || !s.pw.kbs.isEmpty
    || (match s.pw.op with
        | some o => o.kind == .kindB
        | none => false)

/-- The commit starts at the root (R430 to R433). `fs` is the period of the ring clock in femtoseconds. -/
def State.cmtStart (s : State) (fs : Nat) : State :=
  let w := s.reg gCOMMIT_CTRL
  let items := if bitOf w 11 then s.listNow else []
  let c : CmtSt := { s.her.cmt with
    dies := s.otherDies, frame := bitOf w 10, list := bitOf w 11, flen := s.fld gFRAME_CTRL 8 8, items := items }
  let s := (s.setFld gCOMMIT_CTRL 0 1 1).cmtOpenNew c (fieldOf w 2 8)
  let now := s.time.master.toNat
  let req := (s.reg gCOMMIT_TS_LO).toNat + (s.reg gCOMMIT_TS_HI).toNat * 2 ^ 32
  if !s.listOk items then (s.setCmtFail s.die 0 9).cmtAbort 3
  else if now + 2 ^ 32 < req then s.cmtAbort 5
  else
    let s := s.broadcast
    let base := max req (now + s.fld gCOMMIT_CFG 0 16 * 4000)
    let (m, k) := s.frame.chooseT (base - now) fs (s.fld gCOMMIT_GAP 0 20) s.her.cmt.last
    let t := now + m * max fs 1 / 250000
    let s := s.setCmtT t (s.frame.frameCnt + BitVec.ofNat 32 k)
    let s := if req < t then s.raiseFlag gCOMMIT_STATUS 7 else s
    s.tell (s.otherDies.map (fun d => (16 + d, .prepare s.cmtSeq (s.reg gCOMMIT_FRAME).toNat)))

/-- COMMIT_GO (R428, R430 to R433): COMMIT_CTRL is written with GO. -/
def execCommitGo (w : Word32) (fs : Nat) (s : State) : Host.Outcome State Fault Refusal :=
  let t := s.setFld gCOMMIT_CTRL 2 10 (fieldOf w 2 10)
  if s.hsafe then .next (s.keepCmt t)
  else if s.goRefused then .next (s.keepCmt (t.raiseFlag gCOMMIT_STATUS 8))
  else .next (s.keepCmt (t.cmtStart fs))

/-- COMMIT_HOST_ABORT (R434): COMMIT_CTRL.ABORT before the decision. -/
def execCommitHostAbort (s : State) : Host.Outcome State Fault Refusal :=
  if s.isRoot && !s.hsafe && s.cmtState == cmPREPARING then .next (s.keepCmt (s.rootAbort 6)) else .next s

/-! ### PREPARE -/

/-- A die other than the root receives PREPARE and maps T to its own frames (R432, R433). -/
def State.prepStart (s : State) (p : PrepMsg) (fs : Nat) : State :=
  let flen := s.fld gFRAME_CTRL 8 8
  let c : CmtSt := { s.her.cmt with dies := [], frame := p.frame, list := p.list, flen := p.flen.toNat, items := p.items }
  let s := (s.cmtOpenNew c p.scope.toNat).broadcast
  let len := 48 * s.frame.flen48
  let k := (s.frame.posNow + rcIn (p.t.toNat - s.time.master.toNat) fs) / len + 1
  let s := s.setCmtT p.t.toNat (s.frame.frameCnt + BitVec.ofNat 32 k)
  if p.frame && flen != p.flen.toNat then
    (s.setCmt { s.her.cmt with fail := some (s.die, hearthStop, 8) }).setCmtFail s.die hearthStop 8
  else s

/-- A stop is included in the commit (R436). -/
def State.cmtIncludes (s : State) (st : Nat) : Bool := decide (s.domState (ngOf st) < dmISOLATED)

/-- Table kinds of the scope that a stop checks, in ascending order. -/
def State.cmtTables (s : State) (st : Nat) : List Nat :=
  (List.range 8).filter (fun t => s.her.scope / 2 ^ t % 2 == 1 && (t == 0 || s.flag (stopReg st sSTOP_CMT_STAT) 9))

/-- The result of a stop joins those of its die; the first failure stays (R433, R442). -/
def State.mergeResult (s : State) (st : Nat) (r : Option (Nat × Nat)) : State :=
  let c := s.her.cmt
  let fail := match c.fail, r with
    | none, some (t, _) => some (s.die, st, t)
    | f, _ => f
  let s := s.setCmt { c with acked := insertAsc st c.acked, fail := fail }
  match c.fail, fail with
  | none, some (d, x, t) => s.setCmtFail d x t
  | _, _ => s

/-- The frame length that the commit brings, in rc. -/
def State.newFlen (s : State) : Nat := 48 * (if s.her.cmt.frame then s.her.cmt.flen else s.frame.flen48)

/-- A stop has made its checks (R433): STOP_CMT_STAT, and the result to Hearth. -/
def State.prepChecks (s : State) (st : Nat) : State :=
  let (r, s) := State.tableChecks st s.newFlen (s.cmtTables st) s
  let a := stopReg st sSTOP_CMT_STAT
  let s := match r with
    | none =>
      if s.flag a 9 then ((s.setFld a 0 2 1).setFld a 2 4 15).setFld a 6 2 0 else s
    | some (t, cause) => ((s.setFld a 0 2 2).setFld a 2 4 t).setFld a 6 2 cause
  s.mergeResult st r

/-- PREPARE reaches a stop. A stop that is excluded gives no acknowledgement; its stamping tables, which are always
on, are checked in its place (R367, R436). -/
def State.prepStop (s : State) (st : Nat) : State :=
  let a := stopReg st sSTOP_CMT_STAT
  let s := ({ s with her := { s.her with prep := insertAsc st s.her.prep } } : State).mgmtTake st opMG_LAP
  if s.cmtIncludes st then s.setFld a 9 1 1
  else ((((s.setFld a 9 1 0).setFld a 0 2 0).setFld a 2 4 15).setFld a 6 2 3).prepChecks st

/-- A die other than the root reports once every stop has answered, or once one has failed (R433). -/
def State.prepReport (s : State) (before : Bool) : State :=
  let bad := s.her.cmt.fail.isSome
  if !s.isRoot && ((bad && !before) || (!bad && s.her.cmt.acked.length == 192)) then
    s.tell [(s.d2d.toRoot.getD 0, .prepAck !bad)]
  else s

/-- PREPARE (R433, R436, R442): PREPARE reaches stop `st`. At a die other than the root, `msg` is what the root
sent, which opens the commit there. -/
def execPrepare (st : StopNo) (msg : Option PrepMsg) (fs : Nat) (s : State) : Host.Outcome State Fault Refusal :=
  if s.hsafe then .next s
  else
    let t := match msg with
      | some p => if s.isRoot || s.cmtOpen then s else s.prepStart p fs
      | none => s
    let before := s.cmtOpen && s.her.cmt.fail.isSome
    if t.cmtState = cmPREPARING ∧ !t.her.prep.contains st.val then
      .next (s.keepCmt ((t.prepStop st.val).prepReport before))
    else .next (s.keepCmt t)

/-- The root's deadline D is past: T − LEAD (R434). -/
def State.cmtLate (s : State) : Bool := decide (s.cmtT < s.time.master.toNat + s.fld gCOMMIT_CFG 16 16 * 4000)

/-- PREPARE_ACK (R433, R434): a stop's checks are done, or a die's merged result reaches the root. What reaches the
root after D does not count. -/
def execPrepareAck (from_ : PrepFrom) (s : State) : Host.Outcome State Fault Refusal :=
  if s.hsafe || s.cmtState != cmPREPARING then .next s
  else
    match from_ with
    | .stop st =>
      if s.her.prep.contains st.val && !s.her.cmt.acked.contains st.val && !(s.isRoot && s.cmtLate) then
        let t := ((s.prepChecks st.val).ackUp st.val).mgmtTake hearthStop opMG_ACK
        .next (s.keepCmt (t.prepReport s.her.cmt.fail.isSome))
      else .next s
    | .die d fail =>
      let c := s.her.cmt
      if s.isRoot && c.dies.contains d.val && !s.cmtLate then
        let t := s.setCmt { c with dies := c.dies.filter (fun x => x != d.val) }
        match c.fail, fail with
        | none, some (st, k) =>
          let t := t.setCmt { t.her.cmt with fail := some (d.val, st.val, k.val) }
          .next (s.keepCmt (t.setCmtFail d.val st.val k.val))
        | _, _ => .next (s.keepCmt t)
      else .next s

/-! ### The decision -/

/-- Every die and every stop has reported (R434). -/
def State.cmtAll (s : State) : Bool := s.her.cmt.acked.length == 192 && s.her.cmt.dies.isEmpty

/-- The first missing acknowledgement, as die and stop: the least die first. Of another die the root knows no
stop. -/
def State.cmtMissing (s : State) : Nat × Nat :=
  let own := (firstBelow 192 (fun st => !s.her.cmt.acked.contains st)).map (fun st => (s.die, st))
  match own, s.her.cmt.dies.head? with
  | some o, some d => if o.1 < d then o else (d, 0)
  | some o, none => o
  | none, some d => (d, 0)
  | none, none => (0, 0)

/-- COMMIT_DECIDE (R434, R442): the root decides, if there is ground to. An acknowledgement that arrives at D itself still
counts, so one is missing only past D. -/
def execCommitDecide (s : State) : Host.Outcome State Fault Refusal :=
  if s.hsafe || !s.isRoot || s.cmtState != cmPREPARING then .next s
  else
    match s.her.cmt.fail with
    | some _ => .next (s.keepCmt (s.rootAbort 1))
    | none =>
      if s.cmtAll then
        let n := (s.reg gCOMMIT_FRAME).toNat
        let t := (s.setCmtState cmDECIDED).setCmt { s.her.cmt with kept := some (s.cmtSeq, true, n) }
        .next (s.keepCmt (t.broadcast.tell (s.otherDies.map (fun d => (16 + d, .commit s.cmtSeq n)))))
      else if s.cmtLate then
        let (d, st) := s.cmtMissing
        .next (s.keepCmt ((s.setCmtFail d st 15).rootAbort 2))
      else .next s

/-- COMMIT_ABORT (R434, R437): ABORT reaches a die that takes part. -/
def execCommitAbort (s : State) : Host.Outcome State Fault Refusal :=
  if s.hsafe || s.isRoot || (s.cmtState != cmPREPARING && s.cmtState != cmIN_DOUBT) then .next s
  else .next (s.keepCmt (s.cmtAbort (s.fld gCOMMIT_STATUS 3 4)))

/-- First rc of frame N_c − 1 has come. -/
def State.doubtTime (s : State) : Bool := s.frameReached (s.reg gCOMMIT_FRAME - 1)

/-- The frame whose first rc takes the late swap of a COMMIT that arrives now: a boundary at least one frame away
(R437). -/
def State.lateFrame (s : State) : Nat :=
  let f := s.frame
  (f.frameCnt + (if f.fpos = 0 ∧ !f.due then 1 else 2)).toNat

/-- COMMIT (R435, R437): COMMIT(N_c) reaches a die that has acknowledged. -/
def execCommit (s : State) : Host.Outcome State Fault Refusal :=
  if s.hsafe || s.isRoot || s.her.cmt.acked.length != 192 then .next s
  else if s.cmtState = cmIN_DOUBT ∨ (s.cmtState = cmPREPARING ∧ s.doubtTime) then
    let t := s.setCmtState cmIN_DOUBT
    .next (s.keepCmt (if s.her.cmt.late.isSome then t else t.setCmt { s.her.cmt with late := some s.lateFrame }))
  else if s.cmtState = cmPREPARING then .next (s.keepCmt (s.setCmtState cmDECIDED).broadcast)
  else .next s

/-- The die has acknowledged PREPARE: every stop has answered, or one has failed (R433). -/
def State.hasAcked (s : State) : Bool := s.her.cmt.acked.length == 192 || s.her.cmt.fail.isSome

/-- 100 µs have passed since an in-doubt die last asked (R437). -/
def State.mayAsk (s : State) : Bool :=
  match s.her.cmt.asked with
  | none => true
  | some a => decide (a + 400000 ≤ s.time.master.toNat)

/-- IN_DOUBT (R437): a die that has acknowledged holds no decision at the first rc of frame N_c − 1, and asks the
root, every 100 µs. -/
def execInDoubt (s : State) : Host.Outcome State Fault Refusal :=
  if s.hsafe || s.isRoot || !s.hasAcked || !s.doubtTime || !s.mayAsk then .next s
  else if s.cmtState = cmPREPARING ∨ (s.cmtState = cmIN_DOUBT ∧ s.her.cmt.late.isNone) then
    let t := (s.setCmtState cmIN_DOUBT).setCmt { s.her.cmt with asked := some s.time.master.toNat }
    .next (s.keepCmt (t.tell [(s.d2d.toRoot.getD 0, .askDecision s.cmtSeq)]))
  else .next s

/-- DECISION_REQUEST (R437): the root answers an in-doubt die from its last decision. -/
def execDecisionRequest (d : Fin 16) (s : State) : Host.Outcome State Fault Refusal :=
  if s.hsafe || !s.isRoot then .next s
  else
    match s.her.cmt.kept with
    | none => .next s
    | some (q, yes, n) =>
      .next (s.keepCmt (s.tell [(16 + d.val, if yes then .commit q n else .abort q)]))

/-! ### The swap -/

/-- Every entry of a ring's active bank below F is closed (R452). -/
def State.ringClosed (s : State) (r f : Nat) : Bool :=
  (List.range f).all (fun p => s.stampOf r (s.fld (ringReg r rSTAMP_STAT) 0 1) p == (stBE, 0x3FF))

/-- A ring's sweep starts afresh (R452, Table 17.2). -/
def State.sweepDrop (s : State) (r : Nat) : State :=
  forUpTo (ringLen r) (fun p s =>
    let s := (s.lanesAt r p).foldl (fun (s : State) e => s.setLane r p e.1 { e.2 with failed := 0, ended := false }) s
    s.setLink r p { s.link r p with point := 0, inPoint := 0, hard := 0 }) s

/-- The stamping tables swap, all rings together. A ring newly closed throughout has its sweep abandoned; one
brought back has no margin until its next sweep ends (R452). -/
def State.swapStamp (f f' : Nat) (s : State) : State :=
  forUpTo nRings (fun r s =>
    let a := ringReg r rSTAMP_STAT
    let g := ringReg r rSTAMP_GUAR
    let was := s.ringClosed r f
    let n0 := s.fld g 0 13
    let n1 := s.fld g 16 13
    let s := ((s.setFld a 0 1 (1 - s.fld a 0 1)).setFld g 0 13 n1).setFld g 16 13 n0
    let is := s.ringClosed r f'
    if is && !was then s.sweepDrop r
    else if was && !is then s.setFld (ringReg r rTRK_STAT) 7 1 0
    else s) s

/-- EJ_ALLOC: entries owned by the EJECT entries in force (R103). -/
def State.ejAlloc (s : State) (st : Nat) : State :=
  let b := s.fld (stopReg st sFLOW_STAT) 0 1
  let es := ((List.range 64).map (fun n => stopReg st (sFLOW_TABLE + 0x200 * b + 8 * n))).filter
    (fun a => s.flag a 0 && s.fld a 1 2 == 2)
  s.setFld (stopReg st sFLOW_STAT) 1 7 ((es.map (fun a => s.fld (a + 4) 0 6 + 1)).sum)

/-- The active bank has an INJ entry for a waiting GWR: its port, RESID and destination (R99). -/
def State.hasFlow (s : State) (st port resid : Nat) (h : Slot) : Bool :=
  (s.flowEntry st 0 resid (fun a => s.fld a 22 2 == port && s.fld (a + 4) 8 12 == h.ddie * 256 + h.dstop)).isSome

/-- A GWR that waits at its source and whose INJ entry is gone is dropped (Table 4.9, R438). -/
def State.flowDrop (s : State) (st port resid : Nat) (h : Slot) : State :=
  (s.count (stopReg st (sGUAR_CNT + 8)) 0 32 1).raise st
    (recGen port sevCONTAINED caGUAR_NOFLOW (some h.part) (specGen h.addr h.opc h.tag 0 resid 0 0))

/-- The waiting GWRs of a stop after a swap of its flow table. One that is part-way in goes on in its own frame. -/
def State.flowSweep (s : State) (st : Nat) : State :=
  let s := (s.queuesOf st).foldl (fun (s : State) q =>
    let gone (e : QPkt) : Bool := match e.mark with
      | .flow r => e.next == 0 && !s.hasFlow st e.port r (Pkt.head e.slots)
      | _ => false
    (q.2.filter gone).foldl (fun (t : State) e => t.flowDrop st e.port e.flow (Pkt.head e.slots))
      (s.setInjq st q.1 (q.2.filter (fun e => !gone e)))) s
  (List.range 4).foldl (fun (s : State) p =>
    let gone (h : Held) : Option Nat := match h.mark with
      | .flow r => if s.hasFlow st p r (Pkt.head h.slots) then none else some r
      | _ => none
    (s.heldAt st p).foldl (fun (t : State) h =>
      match gone h with
      | some r => t.flowDrop st p r (Pkt.head h.slots)
      | none => t) (s.setHeld st p ((s.heldAt st p).filter (fun h => (gone h).isNone)))) s

/-- The flow table of a stop swaps. -/
def State.swapFlow (s : State) (st : Nat) : State :=
  let a := stopReg st sFLOW_STAT
  ((s.setFld a 0 1 (1 - s.fld a 0 1)).ejAlloc st).flowSweep st

/-- The scheduler set swaps; credit above a new cap becomes the cap (Table 5.4). -/
def State.swapSched (s : State) (st : Nat) : State :=
  let a := stopReg st sSCHED_STAT
  let s := s.setFld a 0 1 (1 - s.fld a 0 1)
  forUpTo 64 (fun n s =>
    let cap : Int := (256 * 64 * s.ctxParam st n 16 8 : Nat)
    if cap < s.credit st n then s.setCredit st n cap else s) s

/-- What follows from the gate list in force and F: GL_MAXWIN and LEN_MISMATCH (R125, R128). -/
def State.gateRefresh (s : State) (st f : Nat) : State :=
  let len := s.gcycle st * f
  let l := s.gateList st
  let s := (List.range 4).foldl (fun (s : State) c =>
    s.setFld (stopReg st (sGL_MAXWIN + 4 * c)) 0 20 (gateMaxWin (clsREQ + c) len (gateFit len l))) s
  if (l.map (·.2)).sum = len then s else s.raiseFlag (stopReg st sGL_STAT) 2

/-- The gate list swaps and starts in frame (N − GSTART) mod GCYCLE of its cycle (R129). -/
def State.swapGate (s : State) (st f : Nat) : State :=
  let a := stopReg st sGL_STAT
  let s := s.setFld a 0 1 (1 - s.fld a 0 1)
  let d := (s.frame.frameCnt - s.reg (stopReg st (sGL_START + 8 * s.glBank st))).toInt
  let k := (d.emod (s.gcycle st : Nat)).toNat
  { s with ni := { s.ni with
      gframe := Tab.set (fun _ => 0) s.ni.gframe st k
      gstale := Tab.set (fun _ => 0) s.ni.gstale st 0 } }.gateRefresh st f

/-- What a definition replaces at a queue that is not DISABLED: PRIV_REQ, SEC_REQ, PEER_R, ANY_R, the notification
fields and THRESH (R266, Table 9.4). -/
def qLiveMask : BitVec 256 :=
  BitVec.ofNat 256 ((2 ^ 68 - 2 ^ 66) + (2 ^ 124 - 2 ^ 92) + (2 ^ 142 - 2 ^ 128) + (2 ^ 196 - 2 ^ 147))

/-- Queue definitions apply at a stop (R266). -/
def State.applyDefs (s : State) (st : Nat) : State :=
  ((List.range 256).filter (fun q => s.shadowOn st q)).foldl (fun (s : State) q =>
    let n := s.shadowDef st q
    let o := s.qEntry st q
    let e := if qeState o = qDISABLED then withField (withField (n &&& qStaticMask) 0 3 qACTIVE) 65 1 1
      else
        (o &&& ~~~qLiveMask) ||| (n &&& qLiveMask)
    let s := s.setQEntry st q e
    { s with qe := { s.qe with shadow := Tab.set (fun _ => 0) s.qe.shadow (st * 256 + q) (withField n 0 3 0) } }) s

/-- The tables of one stop swap. At an excluded stop the swap goes to its restore copy, which is where this model
keeps the tables of a stop without power (R367); no queue exists there. -/
def State.swapStop (st f : Nat) (fNew : Bool) (s : State) : State :=
  let on (t : Nat) : Bool := s.her.scope / 2 ^ t % 2 == 1
  let s := if on 1 then s.swapFlow st else s
  let s := if on 2 then s.swapSched st else s
  let s := if on 3 then s.swapGate st f else if fNew then s.gateRefresh st f else s
  let s := (List.range 3).foldl (fun (s : State) a => if on (4 + a) && acuThere st a then s.acuSwap st a else s) s
  if on 7 && s.flag (stopReg st sSTOP_CMT_STAT) 9 then s.applyDefs st else s

/-- Everything that happens in the first rc of the frame (R436). -/
def State.swapAll (s : State) : State :=
  let f' := s.newFlen
  let fNew := f' != s.frameLen
  let s := if s.her.scope % 2 = 1 then s.swapStamp s.frameLen f' else s
  let s := forUpTo nStops (fun st s => (s.swapStop st f' fNew).mgmtTake st opMG_LAP) s
  let s := s.her.cmt.items.foldl (fun (t : State) e => State.itemWrite s t e) s
  let s := { s with frame := { s.frame with flen48 := f' / 48, fNew := fNew } }
  let s := s.setCmt { s.her.cmt with last := some s.frame.rcs }
  ((s.setCmtState cmCOMMITTED).imgStale).cmtSettle

/-- A swap changes the frame length, ESC_EPOCH's next value, and what a commit may change. -/
def State.keepSwap (s t : State) : State :=
  { s.keepCmt t with frame := { s.frame with
      flen48 := if 10 ≤ t.frame.flen48 ∧ t.frame.flen48 ≤ 168 then t.frame.flen48 else s.frame.flen48
      fNew := t.frame.fNew, epochNxt := t.frame.epochNxt } }

/-- COMMIT_SWAP (R436): the first rc of frame N_c. -/
def execCommitSwap (s : State) : Host.Outcome State Fault Refusal :=
  if s.swapDue ∧ s.cmtState = cmDECIDED then .next (s.keepSwap s.swapAll) else .next s

/-- COMMIT_LATE (R437): an in-doubt die that has its COMMIT swaps late, and says so. -/
def execCommitLate (s : State) : Host.Outcome State Fault Refusal :=
  if s.swapDue ∧ s.cmtState = cmIN_DOUBT then
    let t := s.swapAll.setCmtCause 7
    .next (s.keepSwap (t.raiseHearth sevFATAL caCOMMIT_LATE (specGen 0 0 0 0 0 0 s.frame.frameCnt.toNat)))
  else .next s

end Sys2Proof.Machine
end

