-- ==== Sys2Proof/Machine/Crypto.lean ====
section
/-! DEFINITION. The digest and the signature of the configuration image (R411 to R414): SHA-384, and ECDSA on the curve
P-384, both as their published standards have them (PRESUMED, log entry 175). -/
namespace Sys2Proof.Machine
open Sys2Proof

/-! ### SHA-384 -/

/-- The additive constants of the 80 rounds. -/
def shaK : List (BitVec 64) :=
  [0x428a2f98d728ae22, 0x7137449123ef65cd, 0xb5c0fbcfec4d3b2f, 0xe9b5dba58189dbbc,
   0x3956c25bf348b538, 0x59f111f1b605d019, 0x923f82a4af194f9b, 0xab1c5ed5da6d8118,
   0xd807aa98a3030242, 0x12835b0145706fbe, 0x243185be4ee4b28c, 0x550c7dc3d5ffb4e2,
   0x72be5d74f27b896f, 0x80deb1fe3b1696b1, 0x9bdc06a725c71235, 0xc19bf174cf692694,
   0xe49b69c19ef14ad2, 0xefbe4786384f25e3, 0x0fc19dc68b8cd5b5, 0x240ca1cc77ac9c65] ++
  [0x2de92c6f592b0275, 0x4a7484aa6ea6e483, 0x5cb0a9dcbd41fbd4, 0x76f988da831153b5,
   0x983e5152ee66dfab, 0xa831c66d2db43210, 0xb00327c898fb213f, 0xbf597fc7beef0ee4,
   0xc6e00bf33da88fc2, 0xd5a79147930aa725, 0x06ca6351e003826f, 0x142929670a0e6e70,
   0x27b70a8546d22ffc, 0x2e1b21385c26c926, 0x4d2c6dfc5ac42aed, 0x53380d139d95b3df,
   0x650a73548baf63de, 0x766a0abb3c77b2a8, 0x81c2c92e47edaee6, 0x92722c851482353b] ++
  [0xa2bfe8a14cf10364, 0xa81a664bbc423001, 0xc24b8b70d0f89791, 0xc76c51a30654be30,
   0xd192e819d6ef5218, 0xd69906245565a910, 0xf40e35855771202a, 0x106aa07032bbd1b8,
   0x19a4c116b8d2d0c8, 0x1e376c085141ab53, 0x2748774cdf8eeb99, 0x34b0bcb5e19b48a8,
   0x391c0cb3c5c95a63, 0x4ed8aa4ae3418acb, 0x5b9cca4f7763e373, 0x682e6ff3d6b2b8a3,
   0x748f82ee5defb2fc, 0x78a5636f43172f60, 0x84c87814a1f0ab72, 0x8cc702081a6439ec] ++
  [0x90befffa23631e28, 0xa4506cebde82bde9, 0xbef9a3f7b2c67915, 0xc67178f2e372532b,
   0xca273eceea26619c, 0xd186b8c721c0c207, 0xeada7dd6cde0eb1e, 0xf57d4f7fee6ed178,
   0x06f067aa72176fba, 0x0a637dc5a2c898a6, 0x113f9804bef90dae, 0x1b710b35131c471b,
   0x28db77f523047d84, 0x32caab7b40c72493, 0x3c9ebe0a15c9bebc, 0x431d67c49c100d4c,
   0x4cc5d4becb3e42b6, 0x597f299cfc657e2a, 0x5fcb6fab3ad6faec, 0x6c44198c4a475817]

/-- The eight words of the hash. -/
structure ShaSt where
  a : BitVec 64
  b : BitVec 64
  c : BitVec 64
  d : BitVec 64
  e : BitVec 64
  f : BitVec 64
  g : BitVec 64
  h : BitVec 64

/-- The initial hash of SHA-384. -/
def shaInit : ShaSt :=
  { a := 0xcbbb9d5dc1059ed8, b := 0x629a292a367cd507, c := 0x9159015a3070dd17, d := 0x152fecd8f70e5939
    e := 0x67332667ffc00b31, f := 0x8eb44a8768581511, g := 0xdb0c2e0d64f98fa7, h := 0x47b5481dbefa4fa4 }

/-- Three rotations of a word, added modulo 2. -/
def rot3 (i j k : Nat) (x : BitVec 64) : BitVec 64 := x.rotateRight i ^^^ x.rotateRight j ^^^ x.rotateRight k

/-- One round with its constant and its word of the schedule. -/
def shaRound (v : ShaSt) (kw : BitVec 64 × BitVec 64) : ShaSt :=
  let t1 := v.h + rot3 14 18 41 v.e + ((v.e &&& v.f) ^^^ (~~~v.e &&& v.g)) + kw.1 + kw.2
  let t2 := rot3 28 34 39 v.a + ((v.a &&& v.b) ^^^ (v.a &&& v.c) ^^^ (v.b &&& v.c))
  { a := t1 + t2, b := v.a, c := v.b, d := v.c, e := v.d + t1, f := v.e, g := v.f, h := v.g }

/-- The next word of the schedule, the words before it newest first. -/
def shaNext (ws : List (BitVec 64)) : BitVec 64 :=
  let w (i : Nat) : BitVec 64 := ws.getD i 0
  ((w 1).rotateRight 19 ^^^ (w 1).rotateRight 61 ^^^ (w 1 >>> 6)) + w 6
    + ((w 14).rotateRight 1 ^^^ (w 14).rotateRight 8 ^^^ (w 14 >>> 7)) + w 15

/-- The schedule of a block: `n` words more, newest first. -/
def shaWords : Nat → List (BitVec 64) → List (BitVec 64)
  | 0, ws => ws
  | n + 1, ws => shaWords n (shaNext ws :: ws)

/-- One block of 16 words. -/
def shaBlock (v : ShaSt) (block : List (BitVec 64)) : ShaSt :=
  let r := (shaK.zip (shaWords 64 block.reverse).reverse).foldl shaRound v
  { a := v.a + r.a, b := v.b + r.b, c := v.c + r.c, d := v.d + r.d
    e := v.e + r.e, f := v.f + r.f, g := v.g + r.g, h := v.h + r.h }

/-- The blocks of a padded message, `n` of them. -/
def shaBlocks : Nat → List (BitVec 64) → ShaSt → ShaSt
  | 0, _, v => v
  | n + 1, ws, v => shaBlocks n (ws.drop 16) (shaBlock v (ws.take 16))

/-- The bytes of a word in the opposite order. -/
def swapBytes (w : Word32) : Word32 :=
  BitVec.ofNat 32 (fieldOf w 24 8 + fieldOf w 16 8 * 2 ^ 8 + fieldOf w 8 8 * 2 ^ 16 + fieldOf w 0 8 * 2 ^ 24)

/-- Words of 32 bits in pairs, the first of a pair above. -/
def wordPairs : List Word32 → List (BitVec 64)
  | a :: b :: ws => (a ++ b) :: wordPairs ws
  | _ => []

/-- The digest of a message given as little-endian words (R3): its first byte is the uppermost. -/
def sha384 (ws : List Word32) : BitVec 384 :=
  let n := ws.length
  let fill := (59 - n % 32) % 32
  let len := BitVec.ofNat 64 (32 * n)
  let ps := wordPairs (ws.map swapBytes ++ 0x80000000 :: List.replicate fill 0 ++ [0, 0])
  let v := shaBlocks ((n + fill + 5) / 32) (ps ++ [len]) shaInit
  v.a ++ v.b ++ v.c ++ v.d ++ v.e ++ v.f

/-- A digest as its bytes are stored, in little-endian words. -/
def digestWords (d : BitVec 384) : List Word32 :=
  (List.range 12).map (fun i => swapBytes (BitVec.ofNat 32 (fieldOf d (352 - 32 * i) 32)))

/-! ### ECDSA on P-384 -/

/-- The prime of the field. -/
def ecP : Nat := 2 ^ 384 - 2 ^ 128 - 2 ^ 96 + 2 ^ 32 - 1
/-- The constant term of the curve y^2 = x^3 - 3x + b. -/
def ecB : Nat := 0xb3312fa7e23ee7e4988e056be3f82d19181d9c6efe8141120314088f5013875ac656398d8a2ed19d2a85c8edd3ec2aef
/-- The order of the base point. -/
def ecN : Nat := 0xffffffffffffffffffffffffffffffffffffffffffffffffc7634d81f4372ddf581a0db248b0a77aecec196accc52973

/-- A point in Jacobian coordinates; z = 0 is the point at infinity. -/
structure EcPt where
  x : Nat
  y : Nat
  z : Nat

/-- The base point. -/
def ecG : EcPt :=
  { x := 0xaa87ca22be8b05378eb1c71ef320ad746e1d3b628ba79b9859f741e082542a385502f25dbf55296c3a545e3872760ab7
    y := 0x3617de4a96262c6f5d9e98bf9292dc29f8f41dbd289a147ce9da3113b5f0b8c00a60b1ce1d7e819d7a431d7c90ea0e5f
    z := 1 }

/-- Product, sum and difference in the field. -/
def fMul (a b : Nat) : Nat := a * b % ecP
def fAdd (a b : Nat) : Nat := (a + b) % ecP
def fSub (a b : Nat) : Nat := (a + ecP - b) % ecP

/-- `b` to the power `e`, below 2^384, modulo `m`. -/
def powMod (m b e : Nat) : Nat :=
  (List.range 384).foldl (fun a i =>
    let q := a * a % m
    if e / 2 ^ (383 - i) % 2 = 1 then q * b % m else q) 1

/-- Twice a point. -/
def ecDbl (p : EcPt) : EcPt :=
  let d := fMul p.z p.z
  let g := fMul p.y p.y
  let b := fMul p.x g
  let a := fMul 3 (fMul (fSub p.x d) (fAdd p.x d))
  let x := fSub (fMul a a) (fMul 8 b)
  { x := x
    y := fSub (fMul a (fSub (fMul 4 b) x)) (fMul 8 (fMul g g))
    z := fMul 2 (fMul p.y p.z) }

/-- The sum of two points. -/
def ecAdd (p q : EcPt) : EcPt :=
  if p.z = 0 then q
  else if q.z = 0 then p
  else
    let zp := fMul p.z p.z
    let zq := fMul q.z q.z
    let u := fMul p.x zq
    let s := fMul p.y (fMul zq q.z)
    let h := fSub (fMul q.x zp) u
    let r := fSub (fMul q.y (fMul zp p.z)) s
    if h = 0 then (if r = 0 then ecDbl p else { x := 1, y := 1, z := 0 })
    else
      let hh := fMul h h
      let hc := fMul hh h
      let v := fMul u hh
      let x := fSub (fSub (fMul r r) hc) (fMul 2 v)
      { x := x, y := fSub (fMul r (fSub v x)) (fMul s hc), z := fMul h (fMul p.z q.z) }

/-- `a` times the base point and `b` times `q`, together. -/
def ecMul2 (a b : Nat) (q : EcPt) : EcPt :=
  let gq := ecAdd ecG q
  (List.range 384).foldl (fun (t : EcPt) i =>
    let t := ecDbl t
    match a / 2 ^ (383 - i) % 2, b / 2 ^ (383 - i) % 2 with
    | 0, 0 => t
    | 0, _ => ecAdd t q
    | _, 0 => ecAdd t ecG
    | _, _ => ecAdd t gq) { x := 1, y := 1, z := 0 }

/-- A point of the curve. -/
def onCurve (x y : Nat) : Bool :=
  decide (x < ecP) && decide (y < ecP) && fMul y y == fAdd (fSub (fMul x (fMul x x)) (fMul 3 x)) ecB

/-- The signature (r, s) of the digest `z` is good under the public key (x, y). -/
def ecdsaOk (z : BitVec 384) (r s x y : Nat) : Bool :=
  let w := powMod ecN s (ecN - 2)
  let t := ecMul2 (z.toNat * w % ecN) (r * w % ecN) { x := x, y := y, z := 1 }
  decide (0 < r) && decide (r < ecN) && decide (0 < s) && decide (s < ecN) && onCurve x y
    && t.z != 0 && fMul t.x (powMod ecP (fMul t.z t.z) (ecP - 2)) % ecN == r

end Sys2Proof.Machine
end

