-- ==== Sys2Proof/Machine/Image.lean ====
section
/-! DEFINITION. The configuration image: headers and sections (R411), the checks of a copy (R412, R413), and the
writing of its sections (R414, R415). -/
namespace Sys2Proof.Machine
open Sys2Proof

/-! ### Copy headers (Table 15.4) -/

/-- Bytes lo up to lo + n of a little-endian header, as a number. -/
def hdrBytes {w : Nat} (h : BitVec w) (lo n : Nat) : Nat := fieldOf h (8 * lo) (8 * n)

def hdSeq (h : BitVec 2048) : Nat := hdrBytes h 12 4
def hdLength (h : BitVec 2048) : Nat := hdrBytes h 16 4
def hdNsect (h : BitVec 2048) : Nat := hdrBytes h 20 2
def hdDieSet (h : BitVec 2048) : Nat := hdrBytes h 22 2
def hdBuild (h : BitVec 2048) : Nat := hdrBytes h 24 4
def hdHold (h : BitVec 2048) : Bool := bitOf h 80
def hdPartial (h : BitVec 2048) : Bool := bitOf h 81

/-- Check 1 of Table 15.7. -/
def headerOk (minEpoch : Nat) (h : BitVec 2048) : Bool :=
  hdrBytes h 0 4 == 0x4D49564B && hdrBytes h 4 2 == 1 && hdrBytes h 6 2 == 0x1612 && hdrBytes h 8 1 == 3
    && decide (minEpoch ≤ hdrBytes h 9 1) && decide (hdrBytes h 10 2 < 4)
    && hdLength h % 4 == 0 && decide (448 ≤ hdLength h) && decide (hdLength h ≤ 4194304)
    && decide (1 ≤ hdNsect h) && decide (hdNsect h ≤ 256)
    && hdrBytes h 28 68 == 0 && hdrBytes h 192 64 == 0

/-! ### Sections (Table 15.5) -/

end Sys2Proof.Machine

namespace Sys2Proof
open Sys2Proof.Machine

def ImgSect.type (e : ImgSect) : Nat := hdrBytes e.hdr 0 2
def ImgSect.len (e : ImgSect) : Nat := hdrBytes e.hdr 4 4
def ImgSect.dies (e : ImgSect) : Nat := hdrBytes e.hdr 8 2
def ImgSect.index (e : ImgSect) : Nat := hdrBytes e.hdr 10 2
def ImgSect.mask (e : ImgSect) : Nat := hdrBytes e.hdr 12 24
/-- Stops in STOPMASK. -/
def ImgSect.stops (e : ImgSect) : List Nat := (List.range 192).filter (fun s => bitOf e.hdr (96 + s))
/-- A common section. -/
def ImgSect.common (e : ImgSect) : Bool := e.dies == 0xFFFF
/-- The section applies on die `d`. -/
def ImgSect.onDie (e : ImgSect) (d : Nat) : Bool := bitOf e.hdr (64 + d)
/-- Body word `i`, 0 past the end. -/
def ImgSect.word (e : ImgSect) (i : Nat) : Nat := (e.body.getD i 0).toNat
/-- `n` body words from word `i` on, as a number. -/
def ImgSect.words (e : ImgSect) (i n : Nat) : Nat :=
  ((List.range n).map (fun k => e.word (i + k) * 2 ^ (32 * k))).sum
/-- Bytes of the section with its header. -/
def ImgSect.size (e : ImgSect) : Nat := 48 + 4 * e.body.length

end Sys2Proof

namespace Sys2Proof.Machine
open Sys2Proof

def scUCODE : Nat := 1
def scGREG : Nat := 2
def scSREG : Nat := 3
def scPREG : Nat := 4
def scSTAMP : Nat := 5
def scPMAP : Nat := 6
def scSCHED : Nat := 7
def scGATE : Nat := 8
def scFLOW : Nat := 9
def scACU : Nat := 10
def scAMAP : Nat := 11
def scQDEF : Nat := 12
def scQREMAP : Nat := 13
def scDETOUR : Nat := 14

/-- Types that name stops. -/
def scStopped (t : Nat) : Bool := [scSREG, scPMAP, scSCHED, scGATE, scFLOW, scACU, scQDEF].contains t

/-- TYPE, INDEX and STOPMASK are as Table 15.6 has them, and UCODE is section 0 (check 2). -/
def sectShape (i : Nat) (e : ImgSect) : Bool :=
  let t := e.type
  decide (1 ≤ t) && decide (t ≤ 14) && (t == scUCODE) == (i == 0)
    && (if t = scSTAMP then e.index < 112 else if t = scPREG then e.index < 8
        else if t = scACU then e.index < 3 else e.index == 0xFFFF)
    && (if scStopped t then e.mask != 0 else e.mask == 0)

/-- SCRC (check 3). -/
def sectCrc (e : ImgSect) : Bool :=
  hdrBytes e.hdr 44 4 == (crcEnd (crcWords ((List.range 11).map (fun i => hdrBytes e.hdr (4 * i) 4)
    ++ e.body.map (fun w => w.toNat)) 0xFFFFFFFF)).toNat

/-- The first `n` bytes of a header after byte `lo`, as words. -/
def hdrWords {w : Nat} (h : BitVec w) (lo n : Nat) : List Word32 :=
  (List.range (n / 4)).map (fun i => BitVec.ofNat 32 (hdrBytes h (lo + 4 * i) 4))

/-- A section as it stands in the flash: its header and its padded body. -/
def sectWords (e : ImgSect) : List Word32 := hdrWords e.hdr 0 48 ++ e.body

/-- The digest that Hearth keeps of a section (R414). -/
def sectDigest (e : ImgSect) : BitVec 384 := sha384 (sectWords e)

/-- The public key of a copy matches KEY_HASH, fuse words 0 to 11 (R411, Table 15.7 check 6). -/
def keyMatches (fuses : List Word32) (h : BitVec 2048) : Bool :=
  digestWords (sha384 (hdrWords h 96 96)) == fuses.take 12

/-- The signature `sig`, the trailer of the copy, is good over all that stands before it, under the public key that the
copy carries (R411, Table 15.7 check 7). -/
def copySigned (h : BitVec 2048) (es : List ImgSect) (sig : BitVec 768) : Bool :=
  ecdsaOk (sha384 (hdrWords h 0 256 ++ es.flatMap sectWords)) (hdrBytes sig 0 48) (hdrBytes sig 48 48)
    (hdrBytes h 96 48) (hdrBytes h 144 48)

/-- The sections that apply on die `d` alone, each with its number in the copy (R414). -/
def dieSects (es : List ImgSect) (d : Nat) : List (ImgSect × Nat) :=
  es.zipIdx.filter (fun e => !e.1.common && e.1.onDie d)

/-- The number of the first die-specific section that differs, read again, from its kept digest (R414). -/
def sectChanged (own : List (ImgSect × Nat)) (again : List ImgSect) : Option Nat :=
  (own.zipIdx.find? (fun x => match again[x.2]? with
    | none => true
    | some e => sectDigest e != sectDigest x.1.1)).map (fun x => x.1.2)

/-- The sections of a copy with the die-specific ones as they were read again. -/
def sectsAgain (es : List ImgSect) (d : Nat) (again : List ImgSect) : List ImgSect :=
  ((dieSects es d).zip again).foldl (fun l x => l.set x.1.2 x.2) es

/-- The sections fit LENGTH and NSECT exactly, and the die-specific ones are at most 1 MiB together (check 2,
R414). -/
def sectsFit (h : BitVec 2048) (es : List ImgSect) : Bool :=
  es.length == hdNsect h && 352 + (es.map (fun e => e.size)).sum == hdLength h
    && es.all (fun e => e.body.length == (e.len + 3) / 4)
    && decide (((es.filter (fun e => !e.common)).map (fun e => e.size)).sum ≤ 1048576)

/-! ### Range checks (R413) -/

/-- Offset and value pairs of a register list. -/
def regPairs (e : ImgSect) : List (Nat × Word32) :=
  (List.range (e.body.length / 2)).map (fun i => (e.word (2 * i), BitVec.ofNat 32 (e.word (2 * i + 1))))

/-- The FCS offsets that one entry of a register list names. -/
def regTargets (e : ImgSect) (o : Nat) : List Nat :=
  if e.type = scGREG then [if o < 0x100000 then o else 0xFFFFFFF]
  else if e.type = scPREG then [if o < 0x10000 then dpReg e.index o else 0xFFFFFFF]
  else e.stops.map (fun st => if o < 0x4000 then stopReg st o else 0xFFFFFFF)

/-- F that a copy sets (R413). -/
def imageF (es : List ImgSect) : Nat :=
  match (es.filter (fun e => e.type == scGREG)).flatMap (fun e =>
      (regPairs e).filter (fun x => x.1 == gFRAME_CTRL)) with
  | [] => 2016
  | x :: _ => 48 * fieldOf x.2 8 8

/-- Reserved bits are 0. -/
def within (v mask : Nat) : Bool := decide (v < 2 ^ 256) && (BitVec.ofNat 256 v &&& ~~~BitVec.ofNat 256 mask) == 0

/-- A value fits a register: one that an image may set, reserved bits 0, every field in its range. -/
def State.regFits (s : State) (a : Nat) (v : Word32) : Bool :=
  match regRow a with
  | none => false
  | some r =>
    r.img && within v.toNat r.rw
      && (fieldRules a).all (fun f => decide (f.min ≤ fieldOf v f.lo f.w) && decide (fieldOf v f.lo f.w ≤ f.max))
      && !(s.storedWord a v).2
      && (if a = gFRAME_CTRL then decide (10 ≤ fieldOf v 8 8) && decide (fieldOf v 8 8 ≤ 168)
          else if a = gTEMPER_THR then decide (fieldOf v 16 5 ≤ fieldOf v 8 5) && decide (fieldOf v 8 5 ≤ fieldOf v 0 5)
          else if regBlock a = (1, 0x400) ∨ regBlock a = (1, 0x480) then
            decide (fieldOf v 16 10 ≤ fieldOf (regReset a) 16 10)
          else true)

def acuMask : Nat := (2 ^ 48 - 1) + (2 ^ 112 - 2 ^ 64) + (2 ^ 119 - 2 ^ 112)
def regionMask : Nat := (2 ^ 40 - 1) + (2 ^ 124 - 2 ^ 48)

/-- The zeros of a section header, and LEN a multiple of what its type asks for (Table 15.5, R413). -/
def sectZeros (e : ImgSect) : Bool :=
  hdrBytes e.hdr 2 2 == 0 && hdrBytes e.hdr 36 8 == 0 && e.len % (if e.type = scSTAMP then 2 else 4) == 0

/-- The body of a section has the length and the reserved zeros that its type asks for. `f` is F in rc. -/
def State.bodyOk (s : State) (f : Nat) (e : ImgSect) : Bool :=
  let t := e.type
  let n := e.len
  let ws (i k : Nat) : List Nat := (List.range k).map (fun j => e.word (i + j))
  if t = scUCODE then n == 4196
  else if t ≤ scPREG then
    n % 8 == 0 && (regPairs e).all (fun x => (regTargets e x.1).all (fun a => s.regFits a x.2))
  else if t = scSTAMP then
    n == 2 * f && (ws 0 e.body.length).all (fun w => w / 2 ^ 13 % 8 == 0 && w / 2 ^ 29 == 0)
  else if t = scPMAP then n == 4096 && (ws 0 1024).all (fun w => within w 0xBFBFBFBF)
  else if t = scSCHED then
    n == 516 && (List.range 4).all (fun i => e.word 0 / 256 ^ i % 256 != 0)
      && (List.range 64).all (fun i => within (e.word (2 + 2 * i)) 0xFFCFF
          && decide (64 ≤ e.word (2 + 2 * i) / 1024) && decide (e.word (2 + 2 * i) / 1024 ≤ 512))
  else if t = scGATE then
    decide (12 ≤ n) && within (e.word 0) 0x3F3F && n == 8 + 4 * (e.word 0 % 64 + 1)
      && (ws 2 (e.word 0 % 64 + 1)).all (fun w => within w 0x07FFFF0F)
  else if t = scFLOW then
    n % 8 == 0 && decide (n ≤ 512) && (List.range (n / 8)).all (fun i =>
      within (e.word (2 * i)) 0x3FFFFFFF && within (e.word (2 * i + 1)) 0xFFF3F)
  else if t = scACU then
    n == 580 && within (e.word 0) 7 && (List.range 36).all (fun i => within (e.words (1 + 4 * i) 4) acuMask)
  else if t = scAMAP then
    n == 1028 && within (e.word 0) 0xFFFFFFF1 && (List.range 64).all (fun i => within (e.words (1 + 4 * i) 4) regionMask)
  else if t = scQDEF then
    n % 52 == 0 && (List.range (n / 52)).all (fun i =>
      decide (e.word (13 * i) < 256) && within (e.words (13 * i + 1) 8) qStaticMask.toNat
        && within (e.words (13 * i + 9) 4) segMask.toNat)
  else if t = scQREMAP then (ws 0 e.body.length).all (fun w => w / 2 ^ 20 == 0 && decide (w % 256 < 192))
  else n == 32 && (ws 0 8).all (fun w => within w 0x1FF)

/-- Two sections of one TYPE and INDEX meet in STOPMASK and DIEMASK. -/
def sectMeet (a b : ImgSect) : Bool :=
  a.type == b.type && a.index == b.index && (List.range 16).any (fun d => a.onDie d && b.onDie d)
    && (a.mask == 0 || (List.range 192).any (fun st => bitOf a.hdr (96 + st) && bitOf b.hdr (96 + st)))

def noMeet : List ImgSect → Bool
  | [] => true
  | e :: es => !(es.any (fun x => sectMeet e x)) && noMeet es

/-! ### Writing sections -/

/-- The tables of one section are written to their shadow banks and staging copies (Table 15.6). -/
def State.writeSect (s : State) (e : ImgSect) : State :=
  let t := e.type
  let each (g : Nat → State → State) (s : State) : State := e.stops.foldl (fun s st => g st s) s
  if t = scSTAMP then
    forUpTo (e.len / 2) (fun p s =>
      let w := e.word (p / 2) / 2 ^ (16 * (p % 2)) % 2 ^ 16
      s.setReg (stampReg e.index (s.stampShadow e.index) p) (BitVec.ofNat 32 (w % 8 + w / 8 % 1024 * 16))) s
  else if t = scPMAP then
    each (fun st s => forUpTo 4096 (fun p s =>
      let b := e.word (p / 4) / 256 ^ (p % 4) % 256
      s.setPmap st (1 - s.pactive st) p (b / 128 * 64 + b % 64)) s) s
  else if t = scSCHED then
    each (fun st s =>
      let b := 1 - s.pactive st
      forUpTo 64 (fun n s =>
        (s.setReg (paramReg st b n) (BitVec.ofNat 32 (e.word (1 + 2 * n)))).setReg (paramReg st b n + 4)
          (BitVec.ofNat 32 (e.word (2 + 2 * n)))) (s.setReg (stopReg st (sCLASS_WT + 4 * b)) (BitVec.ofNat 32 (e.word 0)))) s
  else if t = scGATE then
    each (fun st s =>
      let b := 1 - s.glBank st
      let s := (s.setReg (stopReg st (sGL_CFG + 8 * b)) (BitVec.ofNat 32 (e.word 0))).setReg
        (stopReg st (sGL_START + 8 * b)) (BitVec.ofNat 32 (e.word 1))
      forUpTo (e.body.length - 2) (fun i s =>
        s.setReg (stopReg st (sGATE_LIST + 0x100 * b + 4 * i)) (BitVec.ofNat 32 (e.word (2 + i)))) s) s
  else if t = scFLOW then
    each (fun st s => forUpTo (e.body.length / 2) (fun n s =>
      let a := s.flowShadow st n
      (s.setReg a (BitVec.ofNat 32 (e.word (2 * n)))).setReg (a + 4) (BitVec.ofNat 32 (e.word (2 * n + 1)))) s) s
  else if t = scACU then
    each (fun st s => forUpTo 32 (fun i s =>
      s.setAcuSet st e.index (1 - s.acuActive st e.index) i (BitVec.ofNat 128 (e.words (1 + 4 * i) 4))) s) s
  else if t = scAMAP then
    forUpTo 64 (fun i s => s.setQuad (gSTAGE_MAP + 16 * i) (BitVec.ofNat 128 (e.words (1 + 4 * i) 4) &&& rgMask)) s
  else if t = scQDEF then
    each (fun st s => forUpTo (e.len / 52) (fun i s =>
      let k := st * 256 + e.word (13 * i) % 256
      let d : BitVec 256 := BitVec.ofNat 256 (e.words (13 * i + 1) 8)
      { s with qe := { s.qe with
        shadow := Tab.set (fun _ => 0) s.qe.shadow k (withField (d &&& qStaticMask) 0 3 1)
        segs := Tab.set (fun _ => 0) s.qe.segs k (BitVec.ofNat 128 (e.words (13 * i + 9) 4)) } }) s) s
  else if t = scDETOUR then
    forUpTo 8 (fun i s => s.setReg (gDETOUR_STG + 4 * i) (BitVec.ofNat 32 (e.word i))) s
  else s

/-- DP_CTRL is written: EN 0 takes the port down (R401), EN 1 has a DOWN port that may train do so (R391). -/
def State.dpCtrlPut (s : State) (p : Nat) (v : Word32) : State :=
  let s := s.setFld (dpReg p dCTRL) 0 1 (fieldOf v 0 1)
  if !bitOf v 0 && decide (lsTRAINING ≤ s.lstate p) then s.goDown p
  else if s.lstate p == lsDOWN && s.training p then s.setLstate p lsTRAINING
  else s

/-- The register list of one section is applied (R406, R412). EN of PORT_CFG and QE_CTRL waits for step 10
(R419). -/
def State.writeRegs (s : State) (e : ImgSect) : State :=
  if e.type = scGREG ∨ e.type = scSREG ∨ e.type = scPREG then
    (regPairs e).foldl (fun (s : State) x => (regTargets e x.1).foldl (fun (s : State) a =>
      if e.type = scPREG ∧ x.1 = dCTRL then s.dpCtrlPut e.index x.2
      else if e.type = scSREG ∧ (x.1 = 0x400 ∨ x.1 = 0x480) then
        let k := (x.1 - 0x400) / 0x80
        let st := (a - 0x100000) / 0x4000
        if portGen st k = 0 then s
        else
          let par := if portGen st k = 2 then fieldOf x.2 1 1 else s.fld a 1 1
          ((s.setFld a 1 1 par).setFld a 4 12 (fieldOf x.2 4 12)).setFld a 16 10 (fieldOf x.2 16 10)
      else if e.type = scSREG ∧ x.1 = sQE_CTRL then s.setFld a 1 1 (fieldOf x.2 1 1)
      else if e.type = scSREG ∧ 0x400 ≤ x.1 ∧ x.1 < 0x500 ∧ portGen ((a - 0x100000) / 0x4000) ((x.1 - 0x400) / 0x80) = 0 then s
      else s.regPut none a x.2) s) s
  else s

/-- What a section holds until activation: ACU_CTRL and the default map, REMAP_CTRL, the microcode version. -/
def State.writeHeld (s : State) (e : ImgSect) : State :=
  if e.type = scACU then
    e.stops.foldl (fun (s : State) st =>
      if !acuThere st e.index then s
      else
        forUpTo 4 (fun i s => s.setAcuDef st e.index i (BitVec.ofNat 128 (e.words (129 + 4 * i) 4)))
          (s.setReg (acuReg st e.index 0) (BitVec.ofNat 32 (e.word 0)))) s
  else if e.type = scAMAP then
    s.setReg gREMAP_CTRL (BitVec.ofNat 32 (e.word 0 / 16 * 16 + e.word 0 % 2))
  else if e.type = scUCODE then
    forUpTo nStops (fun st s => s.setFld (stopReg st sQE_STAT) 16 8 (e.word 0 % 256)) s
  else s

/-- The default schedule of R95, entry by entry: STYPE and RESID of position `p` on ring `r`. -/
def defaultStamp (r p : Nat) : Nat × Nat :=
  let k := p % ringLen r
  let a := ringTrack r == 0
  let closed := (stBE, 0x3FF)
  if isRow r then
    if k = 0 ∧ a then (stESC, 0)
    else if k = 8 then
      (if p % 128 = 8 then (stMGMT, 0) else if p % 256 = 72 then (stCAL, 0) else closed)
    else (stBE, 0)
  else if (a ∧ (k = 0 ∨ k = 2)) ∨ (!a ∧ (k = 1 ∨ k = 3)) then (stESC, 0)
  else if k = 6 then
    (if (List.range 16).any (fun j => p == 6 + 12 * (21 * j / 2)) then (stMGMT, 0)
     else if (List.range 8).any (fun j => p == 66 + 252 * j) then (stCAL, 0)
     else closed)
  else (stBE, 0)

/-- The default schedule is written to a ring's shadow bank (R415). -/
def State.writeDefault (s : State) (r : Nat) : State :=
  forUpTo 2016 (fun p s =>
    let e := defaultStamp r p
    s.setReg (stampReg r (s.stampShadow r) p) (BitVec.ofNat 32 (e.1 + e.2 * 16))) s

/-- Every STAMP section that applies on die `d`, by ring. -/
def stampRings (es : List ImgSect) (d : Nat) : List Nat :=
  (es.filter (fun e => e.type == scSTAMP && e.onDie d)).map (fun e => e.index)

/-- Rings without a STAMP section take the default schedule. -/
def State.writeDefaults (s : State) (es : List ImgSect) (d : Nat) : State :=
  forUpTo nRings (fun r s => if (stampRings es d).contains r then s else s.writeDefault r) s

/-! ### The contents against the checks of PREPARE (R413) -/

/-- A flow's segment on ring `r`, by the shadow flow tables, runs over the ring's origin (Table 4.5): the stop
where it leaves the ring lies before the stop where it joins it, counted from the origin. A slot that is ejected
at the origin is free before the origin stamps it. -/
def State.guarCross (s : State) (r resid : Nat) : Bool :=
  let has (st role : Nat) (own : Bool) : Bool := (List.range 64).any (fun n =>
    let a := s.flowShadow st n
    s.flag a 0 && s.fld a 1 2 == role && s.fld a 3 10 == resid && (!own || ringAt st (s.fld a 13 3) == r))
  let ps := (List.range (ringLen r)).map (fun p => ringStop r p)
  let d (st : Nat) : Nat := ringDist r (ringCoord r st)
  ps.any (fun x => (has x 0 true || (!isRow r && has x 1 true)) &&
    ps.any (fun y => (isRow r && has y 1 false && decide (d y < d x))
      || (has y 2 true && decide (d y < d x) && d y != 0)))

/-- The contents pass on die `d`. -/
def State.contentsOk (s : State) (es : List ImgSect) (f d : Nat) : Bool :=
  let t := (es.filter (fun e => e.onDie d)).foldl (fun (t : State) e => t.writeSect e)
    (if f = 2016 then s.writeDefaults es d else s)
  (List.range nStops).all (fun st => (List.range 8).all (fun k => (t.contentCheck st k f).1))
    && t.mapCheck.isNone
    && t.coverage (fun r => t.stampShadow r) f
    && (List.range nRings).all (fun r => t.ringKinds (fun i => t.guarCross r i) r (t.stampShadow r) f)
    && (f == 2016 || (List.range nRings).all (fun r => (stampRings es d).contains r))

/-- Check 4 of Table 15.7: `none`, or the section at fault; a fault of the whole is laid at section 0. `detours` is
the verdict on R390 over the fabric's routes. -/
def State.rangeFault (s : State) (h : BitVec 2048) (es : List ImgSect) (detours : Bool) : Option Nat :=
  let f := imageF es
  match es.zipIdx.find? (fun x => !sectZeros x.1 || !s.bodyOk f x.1) with
  | some x => some x.2
  | none =>
    if noMeet es && detours && (List.range 16).all (fun d => !bitOf (BitVec.ofNat 16 (hdDieSet h)) d || s.contentsOk es f d)
    then none else some 0

/-- The first failure of a copy read by Hearth, as cause code and section (Table 15.7). `err` is a flash read error
after the last section of `es`. -/
def State.copyFault (s : State) (h : BitVec 2048) (es : List ImgSect) (err detours : Bool) : Option (Nat × Nat) :=
  match es.zipIdx.find? (fun x => !sectShape x.2 x.1) with
  | some x => some (2, x.2)
  | none =>
    match es.zipIdx.find? (fun x => !sectCrc x.1) with
    | some x => some (3, x.2)
    | none =>
      if err then some (7, es.length)
      else if !sectsFit h es then some (2, es.length)
      else (s.rangeFault h es detours).map (fun i => (4, i))

end Sys2Proof.Machine
end

