-- ==== Sys2Proof/Machine/Boot.lean ====
section
/-! DEFINITION. Resets, start-up, the minimal configuration, the restore image and the flash (R405 to R426, R517,
R521, R524, R531). -/
namespace Sys2Proof.Machine
open Sys2Proof

def State.setBoot (s : State) (b : BootSt) : State := { s with her := { s.her with boot := b } }

/-- Start-up at Hearth changes: the parts of the state that a step of it may touch, besides the frame. -/
def State.keepBoot (s t : State) : State := s.keepCmt t

/-- Hearth runs its start-up: out of reset, not in test mode, before CONFIGURED. -/
def State.booting (s : State) : Bool :=
  !s.her.rstLow && !s.her.test.mode && (s.fabState == fabINIT || s.fabState == fabCALIBRATING)

/-- A fuse word, as read. -/
def State.fuseWord (s : State) (i : Nat) : Word32 := s.her.boot.fuses.getD i 0

/-- A fuse field of word 12, used only when the area's CRC passes (R407). -/
def State.fuse12 (s : State) (lo w : Nat) : Nat := if s.her.boot.fuseOk = some true then fieldOf (s.fuseWord 12) lo w else 0

/-- The part is unprovisioned. -/
def State.unprov (s : State) : Bool := s.her.boot.fuseOk == some true && fieldOf (s.fuseWord 12) 0 2 == 0

/-! ### Resets -/

/-- What a fabric reset leaves (Table 20.6): reset values, but for PWR_CYC; Hearth's memory, the queue of commands and
the model's own counters are no register. -/
def State.fabReset (s : State) : State :=
  { State.reset with
    pw := { State.reset.pw with cyc := s.pw.cyc }
    store := { State.reset.store with hmem := s.store.hmem }
    free := s.free
    pending := s.pending }

/-- FAB_RESET_ASSERT (R517, R524): `fab_rst_n` asserts after filtering. -/
def execFabResetAssert (s : State) : Host.Outcome State Fault Refusal := .next s.fabReset

/-- AON_POWER_ON (R517): the fabric supply comes up. -/
def execAonPowerOn (s : State) : Host.Outcome State Fault Refusal :=
  .next { State.reset with free := s.free, pending := s.pending }

/-- PORT_CFG.DBG follows the straps (R482). -/
def State.dbgPorts (s : State) (l : List (Nat × Nat)) : State :=
  l.foldl (fun (s : State) e => if portGen e.1 e.2 = 0 then s else s.setFld (portReg e.1 e.2 pCFG) 2 1 1) s

/-- FAB_RESET_DEASSERT (R405, R374, R375, R416, R482, R531): the straps are sampled, wired ports leave ABSENT,
Hearth starts from ROM and reads fuse word 0. In test mode Hearth stays in reset, and the first fabric domain is
switched on at once. -/
def execFabResetDeassert (x : Straps) (s : State) : Host.Outcome State Fault Refusal :=
  if !s.her.rstLow then .next s
  else
    let tie := x.dbg.map (fun e => (e.1.val, e.2.val))
    let t := { s with d2d := { s.d2d with
      root := x.root, present := x.present.toNat, fcsBase := x.fcsBase.toNat * 2 ^ 30, dbgTie := tie } }
    let t := forUpTo 8 (fun p t => t.setLstate p (if bitOf x.present p then lsDOWN else lsABSENT)) t
    let t := t.dbgPorts tie
    let t := { t with her := { t.her with
      rstLow := false
      boot := { t.her.boot with fuseReq := !x.test, fuseAt := t.her.boot.hcs }
      test := { t.her.test with mode := x.test } } }
    .next (s.keepBoot (if x.test then t.bootDomNext 0 else t))

/-! ### Fuses -/

/-- FUSE_ACK (R521): the fuse controller answers the read of the next word, in ascending order. -/
def execFuseAck (w : Word32) (s : State) : Host.Outcome State Fault Refusal :=
  let b := s.her.boot
  if b.fuseReq && s.booting then
    let fs := b.fuses ++ [w]
    .next (s.keepBoot (s.setBoot { b with fuses := fs, fuseReq := decide (fs.length < 64), fuseAt := b.hcs }))
  else .next s

/-- The secure-debug fuse (R407): the one field used even when the CRC fails. -/
def State.sdbgFuse (s : State) : State := s.setFld gDBG_STAT 0 1 (fieldOf (s.fuseWord 12) 12 1)

/-- A fuse word has had no answer within 100 hc; one in the hc of the limit still counts (R521, Table 21.12). -/
def State.fuseLate (s : State) : Bool := decide (s.her.boot.fuseAt + 100 < s.her.boot.hcs)

/-- FUSE_TIMEOUT (R407, R416, R521): no answer within 100 hc: the area counts as failing its CRC. Step 2 is over and
the first fabric domain is switched on. -/
def execFuseTimeout (s : State) : Host.Outcome State Fault Refusal :=
  let b := s.her.boot
  if b.fuseReq && s.booting && s.fuseLate then
    .next (s.keepBoot ((((s.setBoot { b with fuseReq := false, fuseOk := some false, degr := 2 }).raiseFlag
      gBOOT_STAT 20).sdbgFuse).bootDomNext 0))
  else .next s

/-- The fuse QREMAP entries in use, as stop, bank and row, repeats of a row dropped (R407). -/
def fuseRows (ws : List Word32) : List (Nat × Nat × Nat) :=
  ws.foldl (fun acc w =>
    let e := (fieldOf w 0 8, fieldOf w 8 2, fieldOf w 10 10)
    if w = 0xFFFFFFFF ∨ acc.contains e then acc else acc ++ [e]) []

/-- FUSE_READ_DONE (R407, R416): the 64 words are checked, and the remap entries loaded. NVM_MODE 3 means no flash. Step
2 is over and the first fabric domain is switched on. -/
def execFuseReadDone (s : State) : Host.Outcome State Fault Refusal :=
  let b := s.her.boot
  if !s.booting || b.fuses.length != 64 || b.fuseOk.isSome then .next s
  else
    let ok := crcEnd (crcWords ((b.fuses.take 63).map (fun w => w.toNat)) 0xFFFFFFFF) == b.fuses.getD 63 0
    let t := s.sdbgFuse
    if ok then
      let none_ := fieldOf (s.fuseWord 12) 10 2 == 3
      let t := t.setBoot { b with fuseOk := some true, degr := if none_ then 3 else b.degr, trapped := false }
      let t : State := { t with her := { t.her with fuseRemap := fuseRows ((b.fuses.drop 13).take 50) } }
      .next (s.keepBoot (t.bootDomNext 0))
    else
      .next (s.keepBoot (((t.setBoot { b with fuseOk := some false, degr := 2, trapped := false }).raiseFlag
        gBOOT_STAT 20).bootDomNext 0))

/-! ### The flash -/

/-- The read mode: 1 is 1-1-1, 2 quad, 3 octal (R409). -/
def nvmMode (force : Nat) (f : Sfdp) : Nat :=
  if !f.valid then 1
  else if force = 1 then (if f.quad then 2 else 1)
  else if force = 2 then (if f.octal then 3 else 1)
  else if f.octal then 3 else if f.quad then 2 else 1

/-- NVM_READY (R409): the flash has left reset, its SFDP is read and the read mode set. -/
def execNvmReady (f : Sfdp) (s : State) : Host.Outcome State Fault Refusal :=
  let b := s.her.boot
  if !s.booting || b.fuseOk.isNone || b.nvmUp || s.fuse12 10 2 == 3 then .next s
  else
    let t := s.setReg gNVM_STAT (BitVec.ofNat 32 (packFields
      [(nvmMode (s.fuse12 10 2) f, 2), (boolNat (f.valid && f.addr4), 1), (0, 5), (if f.valid then f.dens.toNat else 0, 8)]))
    .next (s.keepBoot (t.setBoot { b with nvmUp := true, trapped := false }))

/-- A_CAUSE or B_CAUSE, and FSECT (R412). -/
def State.setCause (s : State) (copy cause sect : Nat) : State :=
  (s.setFld gBOOT_STAT (2 + 4 * (copy - 1)) 4 cause).setFld gBOOT_STAT 10 8 sect

def State.causeOf (s : State) (copy : Nat) : Nat := s.fld gBOOT_STAT (2 + 4 * (copy - 1)) 4

/-- The header of a copy. -/
def State.headerOf (s : State) (copy : Nat) : BitVec 2048 :=
  match s.her.boot.hdrs with
  | none => 0
  | some (a, b) => if copy = 1 then a else b

/-- The copy to try: of those that have not failed, the one with the higher SEQ, A on a tie (R412). None left, and
the minimal configuration follows. -/
def State.nextCopy (s : State) : State :=
  let ok (c : Nat) : Bool := s.causeOf c == 0
  let c := if ok 1 && ok 2 then (if hdSeq (s.headerOf 1) < hdSeq (s.headerOf 2) then 2 else 1)
    else if ok 1 then 1 else if ok 2 then 2 else 0
  let b := s.her.boot
  s.setBoot { b with copy := c, phase := 0, sects := [], degr := if c = 0 then 1 else b.degr, trapped := false }

/-- HEADERS_READ (R412, R416, R425): both headers are read; `none` is a read error. FAB_STATE becomes
CALIBRATING when there is a copy to try. -/
def execHeadersRead (a b : Option (BitVec 2048)) (s : State) : Host.Outcome State Fault Refusal :=
  let st := s.her.boot
  if !s.booting || !st.nvmUp || st.hdrs.isSome || st.degr != 0 then .next s
  else
    let fault (h : Option (BitVec 2048)) : Nat := match h with
      | none => 7
      | some h => if headerOk (s.fuse12 2 8) h then 0 else 1
    let t := s.setBoot { st with hdrs := some (a.getD 0, b.getD 0) }
    let t := if fault a = 0 then t else t.setCause 1 (fault a) 0
    let t := if fault b = 0 then t else t.setCause 2 (fault b) 0
    if a.isNone && b.isNone then
      .next (s.keepBoot (t.setBoot { t.her.boot with degr := 3 }))
    else
      let t := t.nextCopy
      .next (s.keepBoot (if t.her.boot.copy = 0 then t else t.setFab fabCALIBRATING))

/-! ### Reading a copy -/

/-- Shadow banks, staging copies and buffers that an attempt wrote are discarded: bank 1 of every table, the
staging map and detours, the shadow definitions and segments (R412, R416). -/
def State.discard (s : State) : State :=
  let bank1 (a : Nat) : Bool :=
    let (b, o) := regBlock a
    (b == 3 && decide (0x8000 ≤ o)) || decide (0x10000000 ≤ a)
      || (b == 1 && ((decide (sFLOW_TABLE + 0x200 ≤ o) && decide (o < sGATE_LIST)) || o == sCLASS_WT + 4
        || (decide (sGATE_LIST + 0x100 ≤ o) && decide (o < sGL_CFG)) || o == sGL_CFG + 8 || o == sGL_START + 8))
      || (b == 0 && ((decide (gSTAGE_MAP ≤ o) && decide (o < gACTIVE_MAP))
        || (decide (gDETOUR_STG ≤ o) && decide (o < gDIE_ROUTE))))
  { s with
    regs := s.regs.filter (fun e => !bank1 e.1)
    ni := { s.ni with pmap := s.ni.pmap.filter (fun e => e.1 / 4096 % 2 == 0) }
    acu := { s.acu with sets := s.acu.sets.filter (fun e => e.1 / 32 % 2 == 0) }
    qe := { s.qe with shadow := [], segs := [] } }

/-- The copy on trial fails (R412): its cause is recorded, what it wrote is discarded, the other copy is next. -/
def State.copyFail (s : State) (cause sect : Nat) : State :=
  ((s.setCause s.her.boot.copy cause sect).discard).nextCopy

/-- COPY_READ_DONE (R412 to R414): the copy on trial has been read, up to a read error if `err`. Its common
sections are in their shadow banks. -/
def execCopyReadDone (es : List ImgSect) (err detours : Bool) (s : State) : Host.Outcome State Fault Refusal :=
  let b := s.her.boot
  if !s.booting || b.copy == 0 || b.phase != 0 || b.degr != 0 then .next s
  else
    match s.copyFault (s.headerOf b.copy) es err detours with
    | some (c, i) => .next (s.keepBoot (s.copyFail c i))
    | none =>
      let t := (es.filter (fun e => e.common)).foldl (fun (t : State) e => t.writeSect e) s
      .next (s.keepBoot (t.setBoot { b with phase := 1, sects := es, trapped := false }))

/-- The copy on trial is accepted: it is the copy in use, and its common register lists apply (R406, R412). -/
def State.accept (s : State) : State :=
  let b := s.her.boot
  let h := s.headerOf b.copy
  let s := ((s.setFld gBOOT_STAT 0 2 b.copy).setReg gIMG_SEQ (BitVec.ofNat 32 (hdSeq h))).setReg gIMG_BUILD
    (BitVec.ofNat 32 (hdBuild h))
  let s := if s.unprov then s.raiseFlag gBOOT_STAT 18 else s
  let s := (b.sects.filter (fun e => e.common)).foldl (fun (s : State) e => s.writeRegs e) s
  let s : State := { s with d2d := { s.d2d with discAt := b.hcs } }
  s.setBoot { b with phase := 3, trapped := false }

/-- SIGNATURE_DONE (R407, R411, R412): the signature unit has finished the UCODE signature, then the image's. `ok` is
its verdict on the first, whose key the ROM holds; `sig` is the trailer of the copy, the second. -/
def execSignatureDone (ok : Bool) (sig : BitVec 768) (s : State) : Host.Outcome State Fault Refusal :=
  let b := s.her.boot
  if !s.booting || b.copy == 0 || b.degr != 0 then .next s
  else if b.phase = 1 then
    .next (s.keepBoot (if ok then s.setBoot { b with phase := 2 } else s.copyFail 9 0))
  else if b.phase = 2 then
    let h := s.headerOf b.copy
    .next (s.keepBoot (if !s.unprov && !keyMatches b.fuses h then s.copyFail 8 0
      else if !copySigned h b.sects sig then s.copyFail 5 0 else s.accept))
  else .next s

/-! ### Calibration, discovery, die-specific sections -/

/-- INITIAL_CALIBRATION_DONE (R417, R452): the start-up sweep ends. Failed tracks are blocked; a ring direction
without a track stops start-up. -/
def execInitialCalibrationDone (bad : List RingNo) (trims : List TrimIn) (s : State) : Host.Outcome State Fault Refusal :=
  let b := s.her.boot
  if !s.booting || s.fabState != fabCALIBRATING || b.calDone then .next s
  else
    let rs := bad.map (fun r => r.val)
    let t := trims.foldl (fun (t : State) x =>
      t.setLane x.ring.val x.pos.val x.lane.val { t.lane x.ring.val x.pos.val x.lane.val with trim := x.trim.toInt }) s
    let t := rs.foldl (fun (t : State) r => t.raiseFlag (gTEMPER_BLK + 4 * (r / 32)) (r % 32)) t
    let t := if rs.isEmpty then t else t.raiseFlag gBOOT_STAT 19
    let t := if rs.any (fun r => r % 2 == 0 && rs.contains (r + 1)) then t.fail 3 else t
    .next (s.keepBoot (t.setBoot { b with calDone := true, trapped := false }))

/-- The die set as discovered against the one the image was built for (R418): 0 the same, 1 a proper subset that
the image allows, 2 anything else. -/
def dieSetVerdict (found want : Nat) (part : Bool) : Nat :=
  if found = want then 0
  else if part && (BitVec.ofNat 16 found &&& ~~~BitVec.ofNat 16 want) == 0 then 1
  else 2

/-- The die-specific sections of the die are written, their register lists applied, and every QREMAP entry added
(Table 15.8, step 8). -/
def State.writeDieSects (s : State) : State :=
  let mine := s.her.boot.sects.filter (fun e => e.onDie s.die)
  let own := mine.filter (fun e => !e.common)
  let s := own.foldl (fun (s : State) e => (s.writeSect e).writeRegs e) s
  let rows := (mine.filter (fun e => e.type == scQREMAP)).flatMap (fun e =>
    (e.body.take (e.len / 4)).map (fun w => (fieldOf w 0 8, fieldOf w 8 2, fieldOf w 10 10)))
  let s : State := { s with her := { s.her with imgRemap := rows } }
  rows.foldl (fun (s : State) e => s.remapAdd [] e.1 e.2.1 e.2.2 1) s

/-- DIE_SPECIFIC_READ_DONE (R414, R418, R425): after discovery, the die-specific sections have been read again, as
`again` has them, and are compared with their kept digests; `err` is a read error. -/
def execDieSpecificReadDone (again : List ImgSect) (err : Bool) (s : State) : Host.Outcome State Fault Refusal :=
  let b := s.her.boot
  if !s.booting || b.phase != 3 || b.degr != 0 || !s.flag gDIE_COORD 8 then .next s
  else
    let h := s.headerOf b.copy
    let v := dieSetVerdict (s.fld gDIE_MAP 0 16) (hdDieSet h) (hdPartial h)
    if v = 2 then
      .next (s.keepBoot ((s.setFld gBOOT_STAT 0 2 0).setBoot { b with degr := 4 }))
    else if err then .next (s.keepBoot ((s.setFld gBOOT_STAT 0 2 0).copyFail 7 0))
    else
     match sectChanged (dieSects b.sects s.die) again with
     | some i => .next (s.keepBoot ((s.setFld gBOOT_STAT 0 2 0).copyFail 3 i))
     | none =>
      let s := s.setBoot { b with sects := sectsAgain b.sects s.die again }
      let t := if v = 1 then s.raiseHearth sevCORRECTED caBOOT_DIESET (specGen 0 0 0 0 0 0 (s.fld gDIE_MAP 0 16)) else s
      .next (s.keepBoot (t.writeDieSects.setBoot { s.her.boot with phase := 4, trapped := false }))

/-! ### Activation -/

/-- Insertion into a list in ascending order. -/
def insertNat (x : Nat) : List Nat → List Nat
  | [] => [x]
  | y :: ys => if x ≤ y then x :: y :: ys else y :: insertNat x ys

/-- The debug source list (R232), `far` being the debug ports of the other dies. -/
def State.dbgList (s : State) (far : List Nat) : State :=
  let own := (s.d2d.dbgTie.filter (fun e => portGen e.1 e.2 != 0)).map (fun e => peerOf s.die e.1 e.2)
  let all := (own ++ far).foldl (fun acc x => if acc.contains x then acc else insertNat x acc) []
  let s := forUpTo 16 (fun i s => s.setReg (gDBG_SRC + 4 * i) (match all[i]? with
    | some x => BitVec.ofNat 32 (x + 2 ^ 14)
    | none => 0)) s
  if 16 < all.length then s.setFld gDBG_STAT 1 1 1 else s

/-- Bank 1 becomes active in every table of every stop and ring (R416). -/
def State.activate (f : Nat) (s : State) : State :=
  let s := forUpTo nRings (fun r s =>
    let g := ringReg r rSTAMP_GUAR
    let n := s.guarShare r f
    ((s.setFld (ringReg r rSTAMP_STAT) 0 1 1).setFld g 0 13 n).setFld g 16 13 0) s
  forUpTo nStops (fun st s =>
    let s := ((s.setFld (stopReg st sFLOW_STAT) 0 1 1).ejAlloc st).setFld (stopReg st sSCHED_STAT) 0 1 1
    let s := (s.setFld (stopReg st sGL_STAT) 0 1 1).gateRefresh st f
    let d := (0 - s.reg (stopReg st (sGL_START + 8))).toInt
    let k := (d.emod (s.gcycle st : Int)).toNat
    let s : State := { s with ni := { s.ni with gframe := Tab.set (fun _ => 0) s.ni.gframe st k } }
    let s := (List.range 3).foldl (fun (s : State) a =>
      if acuThere st a then (s.setFld (acuReg st a 8) 0 1 1).setFld (acuReg st a 8) 1 2 0 else s) s
    s.applyDefs st) s

/-- The frame-start strobe (R84, R85, R396, R447, R494), as FRAME_START_STROBE issues it. -/
def State.strobe (s : State) : State :=
  match execFrameStartStrobe s with
  | .next t => t
  | _ => s

/-- Transit credit as the shares give it (R385): never more, for one egress port and class, than its transit part
holds. -/
def State.shareOut (s : State) (xs : List ShareIn) : State :=
  let part (c : Nat) : Nat := if c = 5 then 32 else 64
  let total (e c : Nat) : Nat := ((xs.filter (fun x => x.eg.val == e && x.cls.val == c)).map (fun x => x.n.val)).sum
  xs.foldl (fun (s : State) x =>
    let e := x.eg.val
    let c := x.cls.val
    if part c < total e c then s
    else
      let d := s.dp x.ing.val
      let n := Tab.get (fun _ => 0) d.transit (e * 8 + c) + x.n.val
      s.setDp x.ing.val { d with transit := Tab.set (fun _ => 0) d.transit (e * 8 + c) n }) s

/-- Hearth loads every stop's count from the master before the strobe (R467). -/
def State.loadTimes (s : State) : State :=
  forUpTo nStops (fun st s =>
    s.setLocalTs st { count := s.time.master, hold := 0, slew := 0, mark := none }) s

/-- A change of the whole state but for the frame, which is given. -/
def State.keepAll (s t : State) : State :=
  { s.keepCmt t with time := t.time, frame := { s.frame with
      running := t.frame.running, fpos := 0, sframe := 0, frameCnt := 0, due := false, epoch := 0
      flen48 := if 10 ≤ t.frame.flen48 ∧ t.frame.flen48 ≤ 168 then t.frame.flen48 else s.frame.flen48
      epochPos := 0, epochDue := false, epochSel := t.frame.epochSel % 4, rcnt := 0, fNew := false } }

/-- ACTIVATION (R84, R385, R415, R416, R418): every shadow bank becomes active, rings without a section carrying
the default schedule; the staging map, the detours, the access checks and the queue definitions take effect; the
strobe is issued at its time. -/
def execActivation (shares : List ShareIn) (far : List (BitVec 14)) (s : State) : Host.Outcome State Fault Refusal :=
  let b := s.her.boot
  if !s.booting || b.phase != 4 || !b.calDone || b.dom != 56 || s.strobeEarly || b.degr != 0 || s.frame.running then .next s
  else
    let mine := b.sects.filter (fun e => e.onDie s.die)
    let f := imageF (b.sects.filter (fun e => e.onDie s.die))
    let t := if f = 2016 then s.writeDefaults b.sects s.die else s
    let t := mine.foldl (fun (t : State) e => t.writeHeld e) t
    let t := { t with her := { t.her with prep := [], scope := 0 } }
    let t := ((t.activate f).mapCopy (t.regions gSTAGE_MAP)).detourCopy.setRoutes
    let t := ((t.shareOut shares).dbgList (far.map (fun x => x.toNat))).setFab fabCONFIGURED
    let t := t.setBoot { b with phase := 5, trapped := false }
    .next (s.keepAll t.loadTimes.strobe)

/-! ### The minimal configuration -/

/-- Registers that a copy had set go back to reset values: all but flags, counters and what start-up itself
reports. -/
def State.minimalRegs (s : State) : State :=
  let keep (a : Nat) : Bool := match regRow a with
    | some r => !(r.img || a == gREMAP_CTRL || [0x1900, 0x1980, 0x1A00].contains (regBlock a).2 && (regBlock a).1 == 1)
        || regBlock a == (0, gERR_IRQ_EN)
    | none => true
  let s := s.discard
  { s with regs := s.regs.filter (fun e => keep e.1)
           acu := { s.acu with defs := [], sets := [] } }

/-- An entry of the map (Table 8.1) that is not a device, takes no secure check and is enabled. -/
def mapEntry (base limit kind stop members : Nat) (boot : Bool) : Region :=
  BitVec.ofNat 128 (base + limit * 2 ^ 48 + kind * 2 ^ 88 + stop * 2 ^ 90 + members * 2 ^ 104 + boolNat boot * 2 ^ 122
    + 2 ^ 123)

/-- The map of the minimal configuration (R16, R214): the boot window at port 0 of stop 7, and the fabric
configuration space of 16 dies at fcs_base (log entry 135). -/
def State.minimalMap (s : State) : State :=
  let fcs := s.d2d.fcsBase / 4096
  let es := [mapEntry 0 0xFFF 0 7 0xFFFF true, mapEntry fcs (fcs + 0x3FFFF) 2 0 0 false]
  (forUpTo 64 (fun i t => t.setQuad (gSTAGE_MAP + 16 * i) (es.getD i 0)) s).mapCopy es

/-- The access check units of the minimal configuration (R214): STRICT with no region, but for port 0 at the corners
and at stops 7, 8, 183 and 184. -/
def State.minimalAcus (s : State) : State :=
  forUpTo nStops (fun st t => (List.range 3).foldl (fun (t : State) a =>
    if !acuThere st a || (a == 0 && [0, 15, 176, 191, 7, 8, 183, 184].contains st) then t
    else t.setFld (acuReg st a 0) 0 1 1) t) s

/-- MINIMAL_CONFIGURATION (R84, R214, R421): every stamping entry BE with RESID 0 at F = 2,016 rc, no queue, only
port 0 of the U stops enabled, every die-to-die port down, the die alone as die 0; DEGRADED; the strobe. -/
def execMinimalConfiguration (s : State) : Host.Outcome State Fault Refusal :=
  let b := s.her.boot
  if !s.booting || b.degr == 0 || b.dom != 56 || s.frame.running then .next s
  else
    let t := (s.minimalRegs.minimalMap.minimalAcus).dbgPorts s.d2d.dbgTie
    let t := forUpTo nRings (fun r t => forUpTo 2016 (fun p t => t.setReg (stampReg r 1 p) 0) t) t
    let t := t.goAlone
    let t := t.activate 2016
    let t := (List.range nStops).foldl (fun (t : State) st =>
      if stopKind st = 4 then (t.setFld (portReg st 0 pCFG) 0 1 1).tryResync st 0 else t) t
    let t := ((t.setFab fabDEGRADED).setFld gFAB_STATE 4 4 b.degr).setReg gBOOT_TIME (BitVec.ofNat 32 (b.hcs / 400))
    let t := (t.setFld gBOOT_STAT 0 2 0).dbgList []
    let t := t.setBoot { b with sects := [], phase := 0, copy := 0 }
    .next (s.keepAll ({ t with her := { t.her with strobeAt := none } } : State).loadTimes.strobe)

/-! ### Opening -/

/-- The ports that the image enables, the last word of a list counting (R419, R512). -/
def State.imagePorts (s : State) : List (Nat × Nat) :=
  let mine := s.her.boot.sects.filter (fun e => e.type == scSREG && e.onDie s.die)
  let words := mine.flatMap (fun e => (regPairs e).flatMap (fun x =>
    if x.1 = 0x400 ∨ x.1 = 0x480 then e.stops.map (fun st => ((st, (x.1 - 0x400) / 0x80), bitOf x.2 0)) else []))
  ((List.range 192).flatMap (fun st => [(st, 0), (st, 1)])).filter (fun k =>
    portGen k.1 k.2 != 0 && (match (words.filter (fun w => w.1 == k)).reverse with
      | w :: _ => w.2
      | [] => false))

/-- Stops whose queue engine the image enables. -/
def State.imageEngines (s : State) : List Nat :=
  let mine := s.her.boot.sects.filter (fun e => e.type == scSREG && e.onDie s.die)
  (mine.flatMap (fun e => (regPairs e).flatMap (fun x => if x.1 = sQE_CTRL ∧ bitOf x.2 0 then e.stops else [])))

/-- EN of a port is set, and the port joins when its agent lets it (R168). -/
def State.enablePort (s : State) (e : Nat × Nat) : State :=
  (s.setFld (portReg e.1 e.2 pCFG) 0 1 1).tryResync e.1 e.2

/-- The die is OPEN, and BOOT_TIME stands (R419, R426). -/
def State.opened (s : State) : State :=
  (((s.setFab fabOPEN).setFld gFAB_STATE 12 1 0).setFld gOPEN_CTRL 0 1 0).setReg gBOOT_TIME
    (BitVec.ofNat 32 (s.her.boot.hcs / 400))

/-- PORTS_OPEN (R316, R419, R425): step 10. An engine that is enabled ends raw mode at its stop. -/
def execPortsOpen (s : State) : Host.Outcome State Fault Refusal :=
  let b := s.her.boot
  if s.fabState != fabCONFIGURED || b.phase != 5 || s.flag gFAB_STATE 12 || s.hsafe || s.her.test.mode then .next s
  else
    let t := (List.range nStops).foldl (fun (t : State) st =>
      if t.liveQueue st || s.imageEngines.contains st then (t.setFld (stopReg st sQE_CTRL) 0 1 1).endRaw st else t) s
    if hdHold (s.headerOf b.copy) || s.flag gBOOT_STAT 19 then
      let us := ((List.range nStops).filter (fun st => stopKind st == 4)).map (fun st => (st, 0))
      .next (s.keepBoot ((us.foldl (fun (t : State) e => t.enablePort e) t).setFld gFAB_STATE 12 1 1))
    else .next (s.keepBoot ((s.imagePorts.foldl (fun (t : State) e => t.enablePort e) t).opened))

/-- OPEN_GO (R419, R425): OPEN_CTRL.GO is written. Outside HOLDING it is ignored. -/
def execOpenGo (s : State) : Host.Outcome State Fault Refusal :=
  if !s.flag gFAB_STATE 12 || s.hsafe then .next s
  else .next (s.keepBoot ((s.imagePorts.foldl (fun (t : State) e => t.enablePort e) s).opened))

/-! ### The restore image and the flash at run time -/

/-- RESTORE_GO (R424, R425): RESTORE_CTRL.GO is written; Hearth writes the image. -/
def execRestoreGo (s : State) : Host.Outcome State Fault Refusal :=
  if s.flag gRESTORE_CTRL 0 || s.pw.img || s.hsafe then .next s else .next (s.keepBoot (s.raiseFlag gRESTORE_CTRL 0))

/-- RESTORE_WRITE_DONE (R424): the image is complete, or up to date again, and a power request that waited for it may
start. -/
def execRestoreWriteDone (s : State) : Host.Outcome State Fault Refusal :=
  if (s.flag gRESTORE_CTRL 0 || s.pw.img) && !s.hsafe then
    let t := (s.setFld gRESTORE_CTRL 0 1 0).raiseFlag gRESTORE_STAT 0
    .next (s.keepBoot ({ t with pw := { t.pw with img := false } } : State).pwGo)
  else .next s

/-- Host software may reach the flash (R410, R421). -/
def State.nvmOpen (s : State) : Bool :=
  s.fabState == fabOPEN || s.fabState == fabDEGRADED || s.flag gFAB_STATE 12

/-- Flash bytes that a program or an erase touches: first and last. -/
def nvmSpan (op : NvmOp) (blk : Bool) (len addr : Nat) : Nat × Nat :=
  match op with
  | .erase =>
    let z := if blk then 0x10000 else 0x1000
    (addr / z * z, addr / z * z + z - 1)
  | _ => (addr, addr + len)

/-- A span touches the copy in use (R410). -/
def State.nvmInUse (s : State) (x : Nat × Nat) : Bool :=
  let c := s.fld gBOOT_STAT 0 2
  let base := if c = 2 then 0x400000 else 0
  c != 0 && decide (base ≤ x.2) && decide (x.1 < base + hdLength (s.headerOf c))

/-- NVM_CMD is written with GO (R410, R425, R426). -/
def State.nvmCmd (s : State) (op : NvmOp) (blk : Bool) (len : Nat) : State :=
  let code := match op with
    | .read => 1
    | .program => 2
    | .erase => 3
  let w := s.reg gNVM_CMD
  let busy := bitOf w 31
  let s := if busy then s else s.setReg gNVM_CMD (BitVec.ofNat 32 (packFields [(code, 2), (boolNat blk, 1), (len, 8)]))
  let refused := busy || !s.nvmOpen || !s.her.boot.nvmUp || s.hsafe
    || (op != .read && s.nvmInUse (nvmSpan op blk len (s.reg gNVM_ADDR).toNat))
  if refused then s.setFld gNVM_CMD 11 2 2 else s.setFld gNVM_CMD 31 1 1

/-- NVM_READ (R410): up to 256 bytes into the data window. -/
def execNvmRead (len : BitVec 8) (s : State) : Host.Outcome State Fault Refusal :=
  .next (s.keepBoot (s.nvmCmd .read false len.toNat))

/-- NVM_PROGRAM (R410): a page from the data window. -/
def execNvmProgram (len : BitVec 8) (s : State) : Host.Outcome State Fault Refusal :=
  .next (s.keepBoot (s.nvmCmd .program false len.toNat))

/-- NVM_ERASE (R410): a sector, or a block. -/
def execNvmErase (blk : Bool) (s : State) : Host.Outcome State Fault Refusal :=
  .next (s.keepBoot (s.nvmCmd .erase blk 0))

/-- One byte of the data window. -/
def State.putNvmByte (s : State) (i : Nat) (b : BitVec 8) : State :=
  s.setFld (gNVM_DATA + 4 * (i / 4)) (8 * (i % 4)) 8 b.toNat

/-- NVM_CMD_DONE (R410): the flash operation completes; a read's bytes are in the data window. -/
def execNvmCmdDone (ok : Bool) (data : List (BitVec 8)) (s : State) : Host.Outcome State Fault Refusal :=
  let w := s.reg gNVM_CMD
  if !bitOf w 31 then .next s
  else
    let n := fieldOf w 3 8 + 1
    let t := if fieldOf w 0 2 = 1 ∧ ok then
        ((data.take n).zipIdx).foldl (fun (t : State) e => t.putNvmByte e.2 e.1) s else s
    .next (s.keepBoot ((t.setFld gNVM_CMD 31 1 0).setFld gNVM_CMD 11 2 (if ok then 1 else 3)))

/-! ### Traps -/

/-- The current step of start-up begins again (R423): the reading of the fuses, or of the copy on trial. -/
def State.stepAgain (s : State) : State :=
  let b := { s.her.boot with trapped := true }
  if b.fuseOk.isNone then s.setBoot { b with fuses := [], fuseReq := true, fuseAt := b.hcs }
  else if b.phase = 1 ∨ b.phase = 2 then s.discard.setBoot { b with phase := 0, sects := [] }
  else s.setBoot b

/-- The trap handler of the ROM (R423): a fetch trap, or the second trap of a step, fails the die before it opens; in
the running fabric Hearth halts. -/
def State.trap (s : State) (cause : Nat) : State :=
  if s.booting || s.fabState == fabCONFIGURED then
    (if cause = 1 || s.her.boot.trapped then s.fail 1 else s.stepAgain)
  else (s.raiseHearth sevFATAL caHEARTH_UE 0).raiseFlag gBOOT_STAT 21

/-- HEARTH_TRAP (R320, R321, R423): Hearth fetches, loads or stores at its memory, and traps where Table 11.7 says so.
A Hearth that is held in reset, has halted or has failed makes no access. -/
def execHearthTrap (x : HAcc) (s : State) : Host.Outcome State Fault Refusal :=
  if s.her.rstLow || s.her.test.mode || s.fabState == fabFAILED || s.hsafe then .next s
  else
    match s.hmAccess x with
    | (none, t) => .next (s.keepBoot t)
    | (some c, t) =>
      .next (s.keepBoot (({ t with her := { t.her with mcause := c, mtval := x.addr.toNat } } : State).trap c))

end Sys2Proof.Machine
end

