-- ==== Sys2Proof/Machine/Time.lean ====
section
/-! DEFINITION. Time: the master count and the local counts at each hc, the mark of each frame, corrections, and
loads of the master count (R463 to R467). -/
namespace Sys2Proof.Machine
open Sys2Proof

/-- One hc of a count: held, slewed by one unit, or plain (R463, R464). -/
def hcCount (c : BitVec 64) (hold : Nat) (slew : Int) : BitVec 64 × Nat × Int :=
  if 0 < hold then (c, hold - 1, slew)
  else if 0 < slew then (c + 11, 0, slew - 1)
  else if slew < 0 then (c + 9, 0, slew + 1)
  else (c + 10, 0, 0)

def LocalTs.hc (l : LocalTs) : LocalTs :=
  let (c, h, w) := hcCount l.count l.hold l.slew
  { l with count := c, hold := h, slew := w }

/-- The crossings in one hc (R331, R333): the tail of safe mode runs down, and the ticks cross. While the ring clock is
held they wait, 15 at the most; a tick that finds 15 is lost. -/
def CdcSt.hc (c : CdcSt) (hcs : Nat) : CdcSt :=
  let n := if hcs % 400 = 0 then 1 else 0
  let c := { c with tail := c.tail - 1 }
  if c.hold then { c with ticks := min 15 (c.ticks + n), hticks := min 15 (c.hticks + 1) }
  else { c with us := c.us + c.ticks + n, ticks := 0, hct := c.hct + c.hticks + 1, hticks := 0 }

/-- One hc (R463): every count advances; while `fab_rst_n` is low they stay at their reset values. -/
def State.tick (s : State) : State :=
  if s.her.rstLow then s
  else
    let t := s.time
    let (m, h, w) := hcCount t.master t.hold t.slew
    let ls := (List.range nStops).map (fun st => (st, (s.localTs st).hc))
    let b := s.her.boot
    let b : BootSt := { b with hcs := b.hcs + 1 }
    { s with
      time := { t with master := m, hold := h, slew := w
                       locals := ls.filter (fun e => e.2 != defLocal e.1) }
      cdc := s.cdc.hc b.hcs
      her := { s.her with boot := b } }

/-- A correction by `d` under `lim` (R464): slewed, added at once, or held for: the new count, hold and slew, and
whether it is a step. -/
def tsCorrect (c : BitVec 64) (d : Int) (lim : Nat) : BitVec 64 × Nat × Int × Bool :=
  if d.natAbs ≤ lim then (c, 0, d, false)
  else if 0 < d then (c + BitVec.ofInt 64 d, 0, 0, true)
  else
    let h := (d.natAbs + 9) / 10
    (c, h, ((10 * h - d.natAbs : Nat) : Int), true)

/-- TS_CTRL.STEP_MAX. -/
def State.stepMax (s : State) : Nat := s.fld gTS_CTRL 0 16

/-- A load of the master count (R467): at once when it moves forward; a load that moves it backward holds it until
TS_SET is reached. -/
def tsLoad (c v : BitVec 64) : BitVec 64 × Nat × Int :=
  let d := (v - c).toInt
  if 0 ≤ d then (v, 0, 0)
  else
    let h := (d.natAbs + 9) / 10
    (c, h, ((10 * h - d.natAbs : Nat) : Int))

/-- What the mark does to the master count, its value M being latched: TS_SET first, a cross-die offset else
(R466, R467, Table 18.9). -/
def State.masterAtMark (s : State) : State :=
  let t := { s.time with latchM := s.time.master, offset := none }
  if s.flag gTS_SET_CTRL 0 then
    let v := BitVec.ofNat 64 ((s.reg gTS_SET_LO).toNat + 2 ^ 32 * (s.reg gTS_SET_HI).toNat)
    let (c, h, w) := tsLoad t.master v
    ({ s with time := { t with master := c, hold := h, slew := w } } : State).setFld gTS_SET_CTRL 0 1 0
  else match s.time.offset with
    | none => { s with time := t }
    | some o =>
      let (c, h, w, big) := tsCorrect t.master (-o) s.stepMax
      let s : State := { s with time := { t with master := c, hold := h, slew := w } }
      if big then (s.raiseFlag gTS_STAT 16).raiseHearth sevCORRECTED caTS_STEP 0 else s

/-- What a timestamp command may change. -/
def State.keepTime (s t : State) : State := { s with regs := t.regs, recs := t.recs, ni := t.ni, time := t.time }

/-- TS_MARK (R105, R423, R464, R466, R467): every stop latches its count, the unit latches M, and M goes out in a
broadcast, unless Hearth has halted or the schedule has no MGMT slots. A count latched at an earlier mark that has had
no M is discarded. -/
def execTsMark (s : State) : Host.Outcome State Fault Refusal :=
  if !s.frame.running then .next s
  else
    let t := forUpTo nStops (fun st t => t.setLocalTs st { t.localTs st with mark := some (t.localTs st).count }) s
    let t := t.masterAtMark
    .next (s.keepTime (if s.hsafe || s.fabState == fabDEGRADED then t else t.broadcast))

/-- TS_CORRECTION (R464): M reaches a stop, which corrects its count by d = M − L. A halted
Hearth sends no M (R423). -/
def execTsCorrection (st : StopNo) (s : State) : Host.Outcome State Fault Refusal :=
  let st := st.val
  let l := s.localTs st
  match if s.hsafe then none else l.mark with
  | none => .next s
  | some k =>
    let d := (s.time.latchM - k).toInt
    let (c, h, w, big) := tsCorrect l.count d s.stepMax
    let t := (s.setLocalTs st { count := c, hold := h, slew := w, mark := none }).mgmtTake st opMG_LAP
    let adj := min d.natAbs 0xFFFF
    let t := if t.fld gTS_STAT 0 16 < adj then t.setFld gTS_STAT 0 16 adj else t
    .next (s.keepTime (if big then (t.raiseFlag gTS_STAT 16).raise st (recIdx sevCORRECTED caTS_STEP 0 0) else t))

/-- TS_SET (R467): TS_SET_CTRL.GO is written. -/
def execTsSet (s : State) : Host.Outcome State Fault Refusal :=
  .next (s.keepTime (if s.isRoot && s.fabState == fabCONFIGURED then s.raiseFlag gTS_SET_CTRL 0
    else s.raiseFlag gTS_STAT 17))

end Sys2Proof.Machine
end

