-- ==== Sys2Proof/Machine/View.lean ====
section
/-! DEFINITION. What a register reads as: the stored word, with the fields that other state gives laid over it, and
the interrupt lines (R476, R492). -/
namespace Sys2Proof.Machine
open Sys2Proof

/-- Fields laid over a word: bit, width and value. -/
def overlayFields (w : Word32) (fs : List (Nat × Nat × Nat)) : Word32 :=
  fs.foldl (fun w f => withField w f.1 f.2.1 f.2.2) w

/-! ### Interrupt lines -/

/-- An enabled interrupt flag of a stop is set: a captured fault or notice of an ACU (R224, R231), a queue fault
(R269), an error of the queue store (R302, R319). -/
def State.stopIrq (s : State) (st : Nat) : Bool :=
  let f (o : Nat) (i : Nat) : Bool := s.flag (stopReg st o) i
  (List.range 3).any (fun a =>
      (s.flag (acuReg st a 0) 1 && s.flag (acuReg st a 8) 13) || (s.flag (acuReg st a 0) 2 && s.flag (acuReg st a 8) 15))
    || (f sQE_CTRL 1 && f sQE_STAT 26) || (f sQS_CTRL 3 && f sQS_ERR 0) || (f sQS_CTRL 4 && f sQS_ERR 1)

/-- An interrupt flag of the global block is pending (R109, R449). -/
def State.globalIrq (s : State) : Bool :=
  (s.flag gFRAME_CTRL 17 && s.flag gFRAME_STAT 1) || s.flag gTEMPER_STAT 17

/-- ERR_STAT as read. -/
def State.errStat (s : State) : Word32 := withField (s.reg gERR_STAT) 5 1 (boolNat s.globalIrq)

/-- `fab_err_irq` (R476). -/
def State.errIrq (s : State) : Bool :=
  (List.range nStops).any (fun st => s.stopIrq st)
    || (s.errStat.toNat &&& (s.fld gERR_IRQ_EN 0 6)) != 0

/-- The merging crossings into hc take a phase (R332): the notices of the port 3 buffers, and the stops' error
interrupts, whose event is the rise of the level. -/
def State.mergeHc (s : State) : State :=
  let no := (fun _ => idleMerge)
  let irq (st : Nat) : Merge × Bool :=
    let (m, was) := Tab.get (fun _ => (idleMerge, false)) s.ni.irqs st
    let now := s.stopIrq st
    ((if now && !was then m.event else m).phase, now)
  { s with ni := { s.ni with
      notice := s.ni.notice.foldl (fun t e => Tab.set no t e.1 e.2.phase) s.ni.notice
      irqs := ((List.range nStops).map (fun st => (st, irq st))).filter (fun e => e.2 != (idleMerge, false)) } }

/-- Bit s of PMU_SRC (R492). -/
def State.pmuSrc (s : State) (st : Nat) : Bool :=
  (List.range 16).any (fun n => s.flag (stopReg st sPMU_OVF) n && s.flag (stopReg st (sPMC_CFG + 4 * n)) 21)

/-- `fab_pmu_irq` (R492). -/
def State.pmuIrq (s : State) : Bool :=
  (List.range nStops).any (fun st => s.pmuSrc st) || (s.flag gSAMPLE_STAT 0 && s.flag gSAMPLE_CTRL 12)

/-- `fab_ts_synced` and TS_STAT.SYNCED (R466): always on the root; elsewhere with an offset accepted in this
superframe or the one before. -/
def State.tsSynced (s : State) : Bool :=
  s.d2d.root || (s.time.synced != 0 && decide (s.superframe ≤ s.time.synced + 1))

/-! ### Words of tables -/

/-- 32 bits of a wider value, word `j`. -/
def wordAt {n : Nat} (v : BitVec n) (j : Nat) : Word32 := BitVec.ofNat 32 (v.toNat / 2 ^ (32 * j))

/-- One bit per stop of word `j`. -/
def stopBits (f : Nat → Bool) (j : Nat) : Word32 :=
  BitVec.ofNat 32 (((List.range 32).filter (fun r => 32 * j + r < nStops && f (32 * j + r))).map (fun r => 2 ^ r)).sum

/-- Word at offset `o` of the global block. -/
def State.viewGlobal (s : State) (o : Nat) : Word32 :=
  let w := s.reg o
  if o = gFRAME_CTRL then withField w 0 8 s.frame.flen48
  else if o = gFRAME_STAT then withField w 0 1 (boolNat s.frame.running)
  else if o = gFRAME_POS then BitVec.ofNat 32 (s.frame.fpos + s.frame.sframe * 2 ^ 16)
  else if o = gFRAME_CNT then s.frame.frameCnt
  else if o = gTS_NOW_LO then wordAt s.time.master 0
  else if o = gTS_STAT then withField w 18 1 (boolNat s.tsSynced)
  else if o = gERR_STAT then s.errStat
  else if gERR_SRC ≤ o ∧ o < gERR_SRC + 24 then stopBits s.stopIrq ((o - gERR_SRC) / 4)
  else if gERR_LOCAL ≤ o ∧ o < gERR_LOCAL + 0x1000 then
    wordAt (Tab.get (fun _ => 0) s.recs.ring ((o - gERR_LOCAL) / 64)) ((o - gERR_LOCAL) % 64 / 4)
  else if o = gRCLK_STAT then overlayFields w [(0, 1, boolNat s.cdc.hold), (1, 1, boolNat s.cdc.done)]
  else if o = gPWR_STAT then withField w 3 1 (boolNat (!s.pw.wake.isEmpty))
  else if o = gAPD_STAT then
    let n := s.fld gAPD_SEL 0 8
    overlayFields 0 [(0, 2, Tab.get (fun _ => 0) s.pw.apds n), (2, 9, (s.apdPorts n).length)]
  else if o = gPWR_CYC then BitVec.ofNat 32 (Tab.get (fun _ => 0) s.pw.cyc (s.fld gPWR_CYC_SEL 0 6))
  else if o = gDIE_COORD then withField w 9 1 (boolNat s.d2d.root)
  else if o = gBOOT_TIME then
    (if s.fabState = fabINIT ∨ s.fabState = fabCALIBRATING ∨ s.fabState = fabCONFIGURED then
      BitVec.ofNat 32 (s.her.boot.hcs / 400) else w)
  else if gPMU_SRC ≤ o ∧ o < gPMU_SRC + 24 then stopBits s.pmuSrc ((o - gPMU_SRC) / 4)
  else w

/-- PORT_STAT of a port (Table 6.17). -/
def State.viewPortStat (s : State) (st k : Nat) : Word32 :=
  let live := (s.txns st k).filter (fun t => t.phase != .haunt && t.phase != .stale)
  overlayFields (s.reg (portReg st k pSTAT))
    [(0, 3, (s.port st k).state), (5, 2, (s.port st k).tgen), (8, 11, live.length), (19, 11, (s.ttxns st k).length)]

/-- PORT_PART of a port (Table 6.22). -/
def State.viewPortPart (s : State) (st k : Nat) : Word32 :=
  overlayFields 0 [(0, 12, s.curPart st k), (12, 1, boolNat (s.port st k).pchg.isSome)]

/-- PORT_CDC_STAT of a port (Table 12.10). -/
def State.viewCdcStat (s : State) (st k : Nat) : Word32 :=
  let v := s.port st k
  let w := s.reg (portReg st k pCDC_STAT)
  overlayFields w [(0, 1, boolNat (s.safeMode st k)), (1, 1, boolNat v.stopLvl), (2, 1, boolNat (v.state == 4)), (3, 1, boolNat v.bellows),
    (4, 1, boolNat (v.rsReq || v.rsAck))]

/-- Words of a port's block. -/
def State.viewPort (s : State) (st k o : Nat) : Word32 :=
  if portGen st k = 0 then 0
  else if o = pSTAT then s.viewPortStat st k
  else if o = pPART then s.viewPortPart st k
  else if o = pCDC_STAT then s.viewCdcStat st k
  else s.reg (portReg st k o)

/-- INDEX and frame of the entry of the active gate list that governs this rc (Table 5.18). -/
def gateCur : Nat → Nat → List (Nat × Nat) → Nat
  | i, _, [] => i
  | i, _, [_] => i
  | i, p, (_, n) :: rest => if p < n then i else gateCur (i + 1) (p - n) rest

/-- Fields of the scheduler's block. -/
def State.viewSched (s : State) (st o : Nat) : Word32 :=
  let w := s.reg (stopReg st o)
  let sel := s.reg (stopReg st sINJQ_SEL)
  let q := 8 * fieldOf sel 0 6 + fieldOf sel 6 3
  let (ho, hw) := Tab.get (fun _ => (0, 0)) s.ni.hwm (st * 512 + q)
  if o = sPMAP_ACC then
    let e := s.pmap st (fieldOf w 12 1) (fieldOf w 0 12)
    overlayFields w [(16, 6, e % 64), (22, 1, e / 64)]
  else if o = sINJQ_OCC then overlayFields 0 [(0, 10, occOf (s.injq st q)), (16, 10, ho)]
  else if o = sINJQ_WAIT then BitVec.ofNat 32 (min hw 0xFFFFFF)
  else if o = sINJ_STORE then withField w 0 10 (s.injUsed st)
  else if sCTX_CREDIT ≤ o ∧ o < sCTX_CREDIT + 256 then BitVec.ofInt 32 (s.credit st ((o - sCTX_CREDIT) / 4))
  else if sCTX_PARAM ≤ o ∧ o < sCTX_PARAM + 512 then
    s.reg (stopReg st o + s.fld (stopReg st sSCHED_CTRL) 1 1 * 0x10000000)
  else if o = sGL_STAT then
    let k := s.gateFrame st
    let l := gateFit (s.gcycle st * s.frameLen) (s.gateList st)
    overlayFields w [(8, 6, gateCur 0 (k * s.frameLen + s.frame.fpos) l), (16, 6, Tab.get (fun _ => 0) s.ni.gframe st % s.gcycle st)]
  else w

/-- A word of an ACU's block; an ACU that is not there reads 0 (R220). -/
def State.viewAcu (s : State) (st a o : Nat) : Word32 := if acuThere st a then s.reg (acuReg st a o) else 0

/-- Frames in the pool: a removed frame is in it until it has left (R293, R294). -/
def State.poolNow (s : State) (st : Nat) : List Nat :=
  (List.range 128).filter (fun f => s.inPool st f || (s.leavingAt st).contains f)

/-- Fields of the queue engine's block, its translation and its store. -/
def State.viewQueue (s : State) (st o : Nat) : Word32 :=
  let w := s.reg (stopReg st o)
  if o = sQE_STAT then
    (if fieldOf w 0 2 = 2 then w else withField w 0 2 (s.fld (stopReg st sQE_CTRL) 0 1))
  else if sSEG_RDATA ≤ o ∧ o < sSEG_RDATA + 16 then
    wordAt (s.qSeg st (s.fld (stopReg st sSEG_SEL) 0 8)) ((o - sSEG_RDATA) / 4)
  else if o = sQTLB_STAT then
    overlayFields w [(0, 7, (s.qtlb st).length), (11, 1, boolNat (!(s.leavingAt st).isEmpty))]
  else if o = sQS_RES then
    let r := s.resid st
    overlayFields 0 [(0, 8, (s.poolNow st).length), (8, 8, r.length),
      (16, 8, (r.filter (fun x => x.dirty)).length), (24, 8, ((s.moves st).filter (fun m => m.kind != .gone)).length)]
  else if o = sQS_STAT then
    overlayFields w [(1, 1, boolNat (s.rawMode st)),
      (8, 4, (((List.range 4).filter (fun b => bitOf w (8 + b) || (s.freeSpare st b).isNone)).map (fun b => 2 ^ b)).sum)]
  else w

/-- Fields of the transaction layer's block (Tables 7.13 to 7.22). -/
def State.viewTxn (s : State) (st o : Nat) : Word32 :=
  let w := s.reg (stopReg st o)
  let i := s.fld (stopReg st sRTY_REC_SEL) 0 12
  let r := s.retry st i
  if o = sRSV_STAT then overlayFields 0 [(0, 11, s.rspUsed st), (16, 10, s.keepUsed st)]
  else if o = sRTY_STAT then
    overlayFields w [(0, 12, ((s.retriesOf st).filter (fun e => e.2.active)).length),
      (16, 8, ((s.retriesOf st).filter (fun e => e.2.gout)).length)]
  else if o = sRTY_REC then
    (if 3072 ≤ i then 0 else overlayFields 0 [(0, 13, r.count), (13, 1, boolNat r.gout), (14, 2, r.sz), (16, 4, r.gnum),
      (20, 1, boolNat r.age)])
  else if o = sRTY_REC_SLOTS then
    (if 3072 ≤ i then 0 else BitVec.ofNat 32 (BitVec.ofInt 16 r.slots).toNat)
  else if o = sLOCK_STAT ∨ o = sLOCK_STAT + 4 then
    match (s.port st ((o - sLOCK_STAT) / 4)).lockedBy with
    | some x => overlayFields 0 [(0, 1, 1), (1, 2, x.port), (3, 8, x.stop), (11, 4, x.die)]
    | none => 0
  else if o = sORD_STAT then BitVec.ofNat 32 (s.oosUsed st)
  else w

/-- Fields of counters, sampling and Temper's windows (R491, R501, R459). -/
def State.viewPmu (s : State) (st o : Nat) : Word32 :=
  let w := s.reg (stopReg st o)
  if sPMC ≤ o ∧ o < sPMC + 128 then
    let n := (o - sPMC) / 8
    if (o - sPMC) % 8 = 0 then BitVec.ofNat 32 (s.pmc st n)
    else BitVec.ofNat 32 (Tab.get (fun _ => 0) s.pmu.latch (st * 16 + n))
  else if o = sSMP_STAT then withField w 0 5 (s.tagged st)
  else if sCAL_LINK ≤ o ∧ o < sCAL_LINK + 32 then
    let r := ringAt st ((o - sCAL_LINK) / 4)
    let v := s.link r (ringCoord r st)
    overlayFields 0 [(0, 5, v.lmargin), (5, 10, v.llane), (15, 1, boolNat v.sat), (16, 5, v.point), (21, 2, v.hard)]
  else if o = sCAL_LDATA then
    let sel := s.reg (stopReg st sCAL_LSEL)
    let n := fieldOf sel 0 10
    let r := ringAt st (fieldOf sel 10 3)
    let p := ringCoord r st
    let v := s.lane r p n
    if 768 ≤ n then 0
    else overlayFields 0 [(0, 6, (BitVec.ofInt 6 v.trim).toNat), (6, 5, laneMargin (s.link r p).swept v),
      (11, 5, (BitVec.ofInt 5 v.vote).toNat)]
  else w

/-- Word at offset `o` of a stop's block. -/
def State.viewStop (s : State) (st o : Nat) : Word32 :=
  let w := s.reg (stopReg st o)
  if 0x400 ≤ o ∧ o < 0x480 then s.viewPort st 0 (o - 0x400)
  else if 0x480 ≤ o ∧ o < 0x500 then s.viewPort st 1 (o - 0x480)
  else if 0x800 ≤ o ∧ o < 0x1800 then s.viewSched st o
  else if 0x1900 ≤ o ∧ o < 0x1A80 then s.viewAcu st ((o - 0x1900) / 0x80) ((o - 0x1900) % 0x80)
  else if 0x2000 ≤ o ∧ o < 0x3000 then s.viewQueue st o
  else if 0x3000 ≤ o ∧ o < 0x3800 then s.viewPmu st o
  else if 0x3D00 ≤ o then s.viewPmu st o
  else if o = sSTOP_ERR_STAT then
    overlayFields w [(0, 4, (s.recBuf st).length), (16, 1, boolNat (s.stopIrq st))]
  else if 0x3800 ≤ o ∧ o < 0x3874 then s.viewTxn st o
  else w

/-- TRK_STAT.RETIRED (R452): the active bank is closed at every position below F. -/
def State.retired (s : State) (r : Nat) : Bool :=
  let b := s.fld (ringReg r rSTAMP_STAT) 0 1
  (List.range s.frameLen).all (fun p => s.stampOf r b p == (0, 0x3FF))

/-- Word of a ring's block. -/
def State.viewRing (s : State) (r o : Nat) : Word32 :=
  let w := s.reg (ringReg r o)
  if o = rTRK_STAT then
    overlayFields w [(0, 1, boolNat (s.retired r)), (1, 1, boolNat (s.flag (gTEMPER_BLK + 4 * (r / 32)) (r % 32)))]
  else w

/-- The fault that ACU `a` has captured names a LOCK region (Table 8.6): only a fault of one or more matching regions
names one. -/
def State.fltLocked (s : State) (st a : Nat) : Bool :=
  let w := s.quad (acuReg st a 0x10)
  [3, 4, 5].contains (fieldOf w 84 3) && acuLock (s.acuSet st a (fieldOf w 92 1) (fieldOf w 87 5))

/-- Words that a debug access reads as 0 while the secure-debug fuse is intact (R234). -/
def State.debugHides (s : State) (a : Nat) : Bool :=
  if s.flag gDBG_STAT 0 then false
  else
    match regBlock a with
    | (1, o) =>
      let st := (a % 0x10000000 - 0x100000) / 0x4000
      (sACU_RDATA ≤ o && decide (o < sACU_RDATA + 16) && acuLock (s.quad (stopReg st sACU_RDATA)))
        || (0x1900 ≤ o && decide (o < 0x1A80) && 0x10 ≤ (o - 0x1900) % 0x80 && decide ((o - 0x1900) % 0x80 < 0x20)
          && s.fltLocked st ((o - 0x1900) / 0x80))
    | _ => false

/-- What the register word at FCS offset `a` reads as (R509: an offset that holds no register reads 0). -/
def State.view (s : State) (a : Nat) : Word32 :=
  match regRow a with
  | none => 0
  | some _ =>
    if a < 0x100000 then s.viewGlobal a
    else if a < 0x400000 then s.viewStop ((a - 0x100000) / 0x4000) ((a - 0x100000) % 0x4000)
    else if a < 0x480000 then
      let p := (a - 0x400000) / 0x10000
      if (a - 0x400000) % 0x10000 = dRSV then
        let used (l : List Rsv) : Nat := (l.map (fun r => r.n)).sum
        overlayFields 0 [(0, 12, used (s.dp p).rsvIn), (16, 12, used (s.dp p).rsvEg)]
      else s.reg a
    else s.viewRing ((a - 0x800000) / 0x10000) ((a - 0x800000) % 0x10000)

end Sys2Proof.Machine
end

