-- ==== Sys2Proof/Machine/RegAccess.lean ====
section
/-! DEFINITION. Register access at port 3 (R503 to R516): the write of one word wherever it lands, the accesses of a
packet, reads with their side effects, and the commands that clear counters. -/
namespace Sys2Proof.Machine
open Sys2Proof

/-- The state a command leaves; a command that stops leaves it as it was. -/
def State.after (s : State) (o : Host.Outcome State Fault Refusal) : State :=
  match o with
  | .next t => t
  | _ => s

/-- What a register write may change: everything but the frame, of which only a spread DEFL_CTRL value. -/
def State.keepReg (s t : State) : State :=
  { s.keepCmt t with time := t.time, free := t.free, frame := { s.frame with deflNxt := t.frame.deflNxt } }

/-- Bit `k` of a clear mask. -/
def clears {n : Nat} (v : BitVec n) (k : Nat) : Bool := fieldOf v k 1 == 1

/-! ### Clears -/

/-- Counters `n` words from `a` on, cleared where the mask says; one that also counts in the same rc holds 1 (R61). -/
def State.clearWords {m : Nat} (s : State) (a n : Nat) (v ev : BitVec m) : State :=
  forUpTo n (fun k s => if clears v k then s.setReg (a + 4 * k) (BitVec.ofNat 32 (fieldOf ev k 1)) else s) s

/-- RING_CNT_CLR (R58, R61). -/
def State.ringCntClr (s : State) (st : Nat) (v ev : BitVec 9) : State :=
  let s := s.clearWords (stopReg st sRING_CNT) 8 v ev
  if clears v 8 then s.setReg (stopReg st sRING_STAT) (BitVec.ofNat 32 (fieldOf ev 8 1)) else s

/-- DEFL_CNT_CLR (R80): bit 8 clears the flags of DEFL_STAT. -/
def State.deflCntClr (s : State) (st : Nat) (v ev : BitVec 9) : State :=
  let s := s.clearWords (stopReg st sDEFL_CNT) 8 v ev
  if clears v 8 then s.setFld (stopReg st sDEFL_STAT) 0 4 0 else s

/-- DEC_CNT_CLR (R241). -/
def State.decCntClr (s : State) (st : Nat) (v ev : BitVec 4) : State :=
  forUpTo 4 (fun k s => if clears v k then s.setFld (stopReg st sDEC_CNT) (8 * k) 8 (fieldOf ev k 1) else s) s

/-- QS_CNT_CLR (R323). -/
def State.qsCntClr (s : State) (st : Nat) (v ev : BitVec 8) : State :=
  s.clearWords (stopReg st sQS_CE_CNT) 8 v ev

/-- INJQ_SEL.CLR (R136): the high-water marks of one queue start again, the occupancy from what stands there. -/
def State.injqHwmClr (s : State) (st q : Nat) : State :=
  { s with ni := { s.ni with
      hwm := Tab.set (fun _ => (0, 0)) s.ni.hwm (st * 512 + q) (occOf (s.injq st q), 0) } }

/-- PORT_CNT2.CLR (R170). -/
def State.portCnt2Clr (s : State) (st k : Nat) (ev : BitVec 2) : State :=
  let a := portReg st k pCNT2
  (s.setFld a 16 8 (fieldOf ev 0 1)).setFld a 24 7 (fieldOf ev 1 1)

/-- A register of the stop can be reached: it is always-on, or its NG domain is ON (R510). -/
def State.regOpen (s : State) (a : Nat) : Bool :=
  match regRow a with
  | none => true
  | some r =>
    match regBlock a with
    | (1, _) => r.aon || s.niOn ((a - 0x100000) / 0x4000)
    | (2, o) => o == dCTRL || o == dSTAT || s.domState (48 + (a - 0x400000) / 0x10000) == 0
    | _ => true

/-- A change that an unreachable register does not take. -/
def State.ifOpen (s : State) (a : Nat) (t : State) : State := if s.regOpen a then s.keepReg t else s

/-- RING_CNT_CLEAR (R58). -/
def execRingCntClear (st : StopNo) (c : ClrIn 9) (s : State) : Host.Outcome State Fault Refusal :=
  .next (s.keepReg (s.ringCntClr st.val c.v c.ev))

/-- DEFL_CNT_CLEAR (R80). -/
def execDeflCntClear (st : StopNo) (c : ClrIn 9) (s : State) : Host.Outcome State Fault Refusal :=
  .next (s.keepReg (s.deflCntClr st.val c.v c.ev))

/-- GUAR_CNT_CLEAR (R103). -/
def execGuarCntClear (st : StopNo) (c : ClrIn 3) (s : State) : Host.Outcome State Fault Refusal :=
  .next (s.ifOpen (stopReg st.val sFLOW_STAT) (s.clearWords (stopReg st.val sGUAR_CNT) 3 c.v c.ev))

/-- INJQ_HWM_CLEAR (R136): INJQ_SEL is written with CLR set. -/
def execInjqHwmClear (st : StopNo) (q : Fin 512) (s : State) : Host.Outcome State Fault Refusal :=
  let a := stopReg st.val sINJQ_SEL
  let t := s.setReg a (BitVec.ofNat 32 q.val)
  .next (s.ifOpen a (t.injqHwmClr st.val (8 * (q.val % 64) + q.val / 64)))

/-- INJ_STORE_HWM_CLEAR (R136). -/
def execInjStoreHwmClear (st : StopNo) (s : State) : Host.Outcome State Fault Refusal :=
  let a := stopReg st.val sINJ_STORE
  .next (s.ifOpen a (s.setFld a 16 10 (s.injUsed st.val)))

/-- PORT_CNT2_CLEAR (R170, R510). An absent port's block takes no write. -/
def execPortCnt2Clear (st : StopNo) (k : PortClr 2) (s : State) : Host.Outcome State Fault Refusal :=
  if portGen st.val k.k.val = 0 then .next s
  else .next (s.ifOpen (portReg st.val k.k.val pCNT2) (s.portCnt2Clr st.val k.k.val k.ev))

/-- TXN_CNT_CLEAR (R196). -/
def execTxnCntClear (st : StopNo) (c : ClrIn 11) (s : State) : Host.Outcome State Fault Refusal :=
  .next (s.ifOpen (stopReg st.val sTXN_CNT_CLR) (s.clearWords (stopReg st.val sTXN_CNT) 11 c.v c.ev))

/-- DEC_CNT_CLEAR (R241). -/
def execDecCntClear (st : StopNo) (c : ClrIn 4) (s : State) : Host.Outcome State Fault Refusal :=
  .next (s.ifOpen (stopReg st.val sDEC_CNT) (s.decCntClr st.val c.v c.ev))

/-- QE_CNT_CLEAR (R272). -/
def execQeCntClear (st : StopNo) (c : ClrIn 8) (s : State) : Host.Outcome State Fault Refusal :=
  .next (s.ifOpen (stopReg st.val sQE_CNT) (s.clearWords (stopReg st.val sQE_CNT) 8 c.v c.ev))

/-- PG_CNT_CLEAR (R295). -/
def execPgCntClear (st : StopNo) (c : ClrIn 8) (s : State) : Host.Outcome State Fault Refusal :=
  .next (s.ifOpen (stopReg st.val sPG_CNT) (s.clearWords (stopReg st.val sPG_CNT) 8 c.v c.ev))

/-- QS_CNT_CLEAR (R323). -/
def execQsCntClear (st : StopNo) (c : ClrIn 8) (s : State) : Host.Outcome State Fault Refusal :=
  .next (s.ifOpen (stopReg st.val sQS_CNT_CLR) (s.qsCntClr st.val c.v c.ev))

/-- ABS_CNT_CLEAR (R372). -/
def execAbsCntClear (st : StopClr) (s : State) : Host.Outcome State Fault Refusal :=
  .next (s.keepReg (s.setReg (stopReg st.st.val sABS_CNT) (BitVec.ofNat 32 (boolNat st.ev))))

/-- DP_CNT_CLEAR (R404). -/
def execDpCntClear (p : DpNo) (c : ClrIn 8) (s : State) : Host.Outcome State Fault Refusal :=
  .next (s.ifOpen (dpReg p.val dCNT_CLR) (s.clearWords (dpReg p.val dCNT) 8 c.v c.ev))

/-! ### Commands of single registers -/

/-- A host write of DEFL_CTRL (R79): in CONFIGURED Hearth accepts the value, names the second frame boundary from
now, and a later write replaces an earlier one; in every other state it is ignored. -/
def State.deflWrite (s : State) (v : Word32) : State :=
  if s.fabState ≠ fabCONFIGURED ∨ s.hsafe then s
  else
    let w := (s.storedWord (stopReg 0 sDEFL_CTRL) v).1
    { s with frame := { s.frame with deflNxt := some (w, s.frame.frameCnt + 2) } }

/-- DEFL_CTRL_WRITE (R79). -/
def execDeflCtrlWrite (v : Word32) (s : State) : Host.Outcome State Fault Refusal :=
  .next (s.keepReg (s.deflWrite v))

/-- PMAP_ACC is written (R135, R89's counterpart for the map, R433). -/
def State.pmapWrite (s : State) (st : Nat) (v : Word32) : State :=
  let b := fieldOf v 12 1
  let t := s.setReg (stopReg st sPMAP_ACC) (v &&& 0x1FFF)
  if !bitOf v 31 then t
  else if b = s.pactive st then t.raiseFlag (stopReg st sSCHED_STAT) 1
  else if s.cmtFrozen st 2 then t.cmtWr st
  else t.setPmap st b (fieldOf v 0 12) (fieldOf v 22 1 * 64 + fieldOf v 16 6)

/-- PMAP_ENTRY_WRITE (R115, R135). -/
def execPmapEntryWrite (st : StopNo) (v : Word32) (s : State) : Host.Outcome State Fault Refusal :=
  .next (s.ifOpen (stopReg st.val sPMAP_ACC) (s.pmapWrite st.val v))

/-- A counter is loaded from the write and the holding register (R491). -/
def State.pmcLoad (s : State) (st n : Nat) (v : Word32) : State :=
  s.setPmc st n (v.toNat + Tab.get (fun _ => 0) s.pmu.hold (st * 16 + n) % 2 ^ 16 * 2 ^ 32)

/-- PMC_LOAD (R491). -/
def execPmcLoad (st : StopNo) (n : Fin 16) (v : Word32) (s : State) : Host.Outcome State Fault Refusal :=
  .next (s.keepReg (s.pmcLoad st.val n.val v))

/-- PMC_HI is written: the holding register (R491). -/
def State.pmcHold (s : State) (st n : Nat) (v : Word32) : State :=
  { s with pmu := { s.pmu with hold := Tab.set (fun _ => 0) s.pmu.hold (st * 16 + n) (fieldOf v 0 16) } }

/-- SAMPLE_ENABLE (R495): SMP_CTRL is written with EN set. -/
def execSampleEnable (st : StopNo) (v : Word32) (s : State) : Host.Outcome State Fault Refusal :=
  .next (s.keepReg (s.regPut (some (st.val, none)) (stopReg st.val sSMP_CTRL) (withField v 0 1 1)))

/-- SAMPLE_BUF_BASE or SAMPLE_BUF_SIZE is written (R502). -/
def State.sampleBuf (s : State) (via : Via) (a : Nat) (v : Word32) : State :=
  ((s.regPut via a v).setFld gSAMPLE_HEAD 0 20 0).setFld gSAMPLE_TAIL 0 20 0

/-- SAMPLE_BUF_CONFIG (R502): the base, or the size. -/
def execSampleBufConfig (base : Bool) (v : Word32) (s : State) : Host.Outcome State Fault Refusal :=
  .next (s.keepReg (s.sampleBuf (some (hearthStop, none)) (if base then gSAMPLE_BUF_BASE else gSAMPLE_BUF_SIZE) v))

/-! ### The write of one word -/

/-- What a counter that a write clears holds afterwards: 1 where an event falls in the same cycle (R6). -/
def hitOf (x : RegEnv) (k : Nat) : Nat := fieldOf x.same k 1

/-- The marks of the write as a mask of `n` counters. -/
def hitsOf (x : RegEnv) (n : Nat) : BitVec n := BitVec.ofNat n x.same.toNat

/-- A word of the global block is written (R109, R110, R236, R324, R348, R371, R403, R426, R443, R457, R467, R486,
R502). -/
def State.writeGlobal (s : State) (via : Via) (x : RegEnv) (o : Nat) (v : Word32) : State :=
  let go := bitOf v 0
  let put := s.regPut via o v
  if o = gFRAME_CTRL then
    (if 10 ≤ fieldOf v 8 8 ∧ fieldOf v 8 8 ≤ 168 then put
     else (s.regPut via o (withField v 8 8 (s.fld o 8 8))).raiseFlag gFRAME_STAT 2)
  else if o = gFRAME_STAT then (if bitOf v 1 then put.setFld o 16 16 (hitOf x 1) else put)
  else if o = gREMAP_CTRL then s.after (execRemapWrite v s)
  else if o = gADDR_MAP_CTRL then (if go then s.after (execAddrMapApply s) else s)
  else if o = gHMEM_STAT then
    let t := if go then put.setFld o 8 8 (hitOf x 0) else put
    if bitOf v 1 then t.setFld o 16 8 (hitOf x 1) else t
  else if o = gRCLK_CTRL then (if go then s.after (execRingClockChange s) else s)
  else if o = gCDC_GSTAT then (if go then put.setFld o 16 16 (hitOf x 0) else put)
  else if o = gFENCE_CTRL then
    (if bitOf v 31 then s.fcWrite (fieldOf v 0 9) (bitOf v 9) else put)
  else if o = gDETOUR_CTRL then (if go then s.after (execDetourApply x.detour s) else s)
  else if o = gOPEN_CTRL then (if go then s.after (execOpenGo s) else s)
  else if o = gRESTORE_CTRL then (if go then s.after (execRestoreGo s) else s)
  else if o = gNVM_CMD then
    (if !bitOf v 31 then (if s.flag gNVM_CMD 31 then s else put)
     else match fieldOf v 0 2 with
      | 1 => s.nvmCmd .read (bitOf v 2) (fieldOf v 3 8)
      | 2 => s.nvmCmd .program (bitOf v 2) (fieldOf v 3 8)
      | 3 => s.nvmCmd .erase (bitOf v 2) (fieldOf v 3 8)
      | _ => if s.flag gNVM_CMD 31 then s else put)
  else if o = gCOMMIT_CTRL then
    let t := if go then s.after (execCommitGo v x.period s) else put
    if bitOf v 1 then t.after (execCommitHostAbort t) else t
  else if o = gTEMPER_THR then
    (if fieldOf v 16 5 ≤ fieldOf v 8 5 ∧ fieldOf v 8 5 ≤ fieldOf v 0 5 then put else s.raiseFlag gTEMPER_STAT 20)
  else if gTEMPER_BLK ≤ o ∧ o < gTEMPER_BLK + 16 then
    s.after (execTemperBlkWrite (Fin.ofNat 4 ((o - gTEMPER_BLK) / 4)) ⟨v, hitsOf x 32⟩ s)
  else if o = gTS_STAT then (if bitOf v 16 then put.setFld o 0 16 0 else put)
  else if o = gTS_SET_CTRL then (if go then s.after (execTsSet s) else s)
  else if o = gERR_LOG_CTRL then
    (if go && !s.flag o 0 then s.after (execLogEnable (fieldOf v 1 4) s) else put)
  else if o = gERR_STAT then (if bitOf v 1 then put.setReg gERR_LOG_LOST (BitVec.ofNat 32 (hitOf x 1)) else put)
  else if o = gPERR_LOST then s.setReg o (BitVec.ofNat 32 (hitOf x 0))
  else if o = gSAMPLE_BUF_BASE ∨ o = gSAMPLE_BUF_SIZE then s.sampleBuf via o v
  else if o = gSAMPLE_STAT then (if go then put.setFld o 16 16 (hitOf x 0) else put)
  else put

/-- PORT_CFG is written (R169): PAR_EN is writable on GLP-3 alone, TGT_MAX_M1 is held to its generation, and a
write that would change a field the port's state protects is ignored whole. -/
def State.portCfgWrite (s : State) (st k : Nat) (v : Word32) : State :=
  let a := portReg st k pCFG
  let old := s.reg a
  let par := if portGen st k = 2 then fieldOf v 1 1 else fieldOf old 1 1
  let w := withField (withField (withField (withField old 0 1 (fieldOf v 0 1)) 1 1 par) 4 12 (fieldOf v 4 12)) 16 10
    (min (fieldOf v 16 10) (fieldOf (portCfgReset st k) 16 10))
  let closed := (s.port st k).state == 0
  let fields (x : Word32) : Nat × Nat × Nat := (fieldOf x 1 1, fieldOf x 4 12, fieldOf x 16 10)
  if !closed && (fields w != fields old || !bitOf w 0) then s.raiseFlag (portReg st k pERR) 9
  else (s.setReg a w).tryResync st k

/-- PORT_ERR is written: the counters that the cleared flags name are cleared (R170). -/
def State.portErrWrite (s : State) (via : Via) (x : RegEnv) (st k : Nat) (v : Word32) : State :=
  let s := s.regPut via (portReg st k pERR) v
  let c := portReg st k pERRCNT
  let d := portReg st k pCNT2
  let on (is : List Nat) (a lo : Nat) (s : State) : State := 
    if is.any (fun i => bitOf v i) then s.setFld a lo 8 (boolNat (is.any (fun i => bitOf x.same i))) else s
  on [8] d 0 (on [5] d 8 (on [6, 7] c 24 (on [3] c 16 (on [2, 4] c 8 (on [0, 1] c 0 s)))))

/-- A word of an agent port's block is written (R169, R170, R337, R347, R372). -/
def State.writePort (s : State) (via : Via) (x : RegEnv) (st k : Nat) (kn : StopNo × PortNo) (o : Nat)
    (v : Word32) : State :=
  let a := portReg st k o
  if portGen st k = 0 then s
  else if o = pCFG then s.portCfgWrite st k v
  else if o = pERR then s.portErrWrite via x st k v
  else if o = pCNT2 then (if bitOf v 31 then s.portCnt2Clr st k (hitsOf x 2) else s)
  else if o = pAPD then
    (if s.fabState = fabCONFIGURED then s.regPut via a v else s.raiseFlag (portReg st k pERR) 9)
  else if o = pCDC_CMD then (if bitOf v 0 then s.after (execRecover (stopCol kn.1) (stopRow kn.1) kn.2 s) else s)
  else if o = pCDC_STAT then
    let t := s.regPut via a v
    if bitOf v 7 then t.setReg (portReg st k pCDC_LOST) (BitVec.ofNat 32 (hitOf x 7)) else t
  else if o = pCDC_CNT then (if bitOf v 31 then s.after (execPortCdcCntClear kn.1 ⟨kn.2, hitsOf x 3⟩ s) else s)
  else s.regPut via a v

/-- A word of a banked table is written: ignored with the table's ACT_WR in the active bank, ignored with CMT_WR
while a commit holds the shadow (R89, R97, R138, R139, R433), else stored. -/
def State.bankPut (s : State) (via : Via) (st kind : Nat) (active : Bool) (flagReg flagBit : Nat) (a : Nat)
    (v : Word32) : State :=
  if active then s.raiseFlag flagReg flagBit
  else if s.cmtFrozen st kind then s.cmtWr st
  else s.regPut via a v

/-- A word of the scheduler's, the flow table's or the gate list's block is written (R97, R132 to R139). -/
def State.writeSched (s : State) (via : Via) (x : RegEnv) (st o : Nat) (v : Word32) : State :=
  let a := stopReg st o
  let stat := stopReg st sSCHED_STAT
  if o = sSCHED_CTRL then
    (if s.fabState = fabCONFIGURED then s.regPut via a v else s.setFld a 1 1 (fieldOf v 1 1))
  else if o = sSCHED_STAT then
    let t := s.regPut via a v
    let t := if bitOf v 2 then t.setFld a 8 8 (hitOf x 2) else t
    if bitOf v 3 then t.setFld a 16 16 (hitOf x 3) else t
  else if o = sCLASS_WT ∨ o = sCLASS_WT + 4 then
    s.bankPut via st 2 ((o - sCLASS_WT) / 4 == s.pactive st) stat 1 a v
  else if o = sPMAP_ACC then s.pmapWrite st v
  else if o = sINJQ_SEL then
    let t := s.regPut via a v
    if bitOf v 31 then t.injqHwmClr st (8 * fieldOf v 0 6 + fieldOf v 6 3) else t
  else if o = sINJ_STORE then (if bitOf v 31 then s.setFld a 16 10 (s.injUsed st) else s)
  else if sCTX_PARAM ≤ o ∧ o < sCTX_PARAM + 512 then
    let b := s.fld (stopReg st sSCHED_CTRL) 1 1
    s.bankPut via st 2 (b == s.pactive st) stat 1 (a + b * 0x10000000) v
  else if sFLOW_TABLE ≤ o ∧ o < sFLOW_TABLE + 1024 then
    s.bankPut via st 1 ((o - sFLOW_TABLE) / 512 == s.fld (stopReg st sFLOW_STAT) 0 1) (stopReg st sFLOW_STAT) 11 a v
  else if sGATE_LIST ≤ o ∧ o < sGATE_LIST + 512 then
    s.bankPut via st 3 ((o - sGATE_LIST) / 256 == s.glBank st) (stopReg st sGL_STAT) 1 a v
  else if sGL_CFG ≤ o ∧ o < sGL_CFG + 16 then
    s.bankPut via st 3 ((o - sGL_CFG) / 8 == s.glBank st) (stopReg st sGL_STAT) 1 a v
  else s.regPut via a v

/-- A word of ACU `n`'s block is written (R79, R227, R240). -/
def State.writeAcu (s : State) (via : Via) (x : RegEnv) (stn : StopNo) (n o : Nat) (v : Word32) : State :=
  let st := stn.val
  let a := acuReg st n o
  if !acuThere st n then s
  else if o = 0 then (if s.fabState = fabCONFIGURED then s.regPut via a v else s)
  else if o = 4 then (if bitOf v 0 then s.after (execAcuSwap stn (Fin.ofNat 3 n) s) else s)
  else if o = 8 then
    let t := s.regPut via a v
    let t := if bitOf v 13 then t.setReg (acuReg st n 0x30) (BitVec.ofNat 32 (hitOf x 13)) else t
    if bitOf v 15 then t.setReg (acuReg st n 0x34) (BitVec.ofNat 32 (hitOf x 15)) else t
  else s

/-- QCMD is written (R267, R271): without GO, or with an OP that does nothing, only the fields are stored. -/
def State.qcmdPut (s : State) (via : Via) (st : Nat) (v : Word32) : State :=
  if bitOf v 31 && 1 ≤ fieldOf v 8 3 && fieldOf v 8 3 ≤ 4 then s.qcmdWrite st (fieldOf v 0 8) (fieldOf v 8 3)
  else s.regPut via (stopReg st sQCMD) v

/-- QTLB_INV is written (R287, R292): ignored while GO is set. -/
def State.invPut (s : State) (via : Via) (fs : List MemFlt) (st : Nat) (v : Word32) : State :=
  if s.flag (stopReg st sQTLB_INV) 31 then s
  else if bitOf v 31 && fieldOf v 0 2 != 0 then
    s.invStart fs st (invWord (fieldOf v 0 2) (bitOf v 2) (fieldOf v 8 8) (fieldOf v 16 10))
  else s.regPut via (stopReg st sQTLB_INV) v

/-- A word of the queue engine's, its translation's or its store's block is written (R79, R271, R291 to R295, R312
to R316, R323). -/
def State.writeQueue (s : State) (via : Via) (x : RegEnv) (stn : StopNo) (o : Nat) (v : Word32) : State :=
  let st := stn.val
  let a := stopReg st o
  if o = sQE_CTRL then (if s.fabState = fabCONFIGURED then s.regPut via a v else s)
  else if o = sQT_SEL then s.after (execQtEntryWrite stn v s)
  else if o = sQCMD then s.qcmdPut via st v
  else if o = sQE_CNT_CLR then s.clearWords (stopReg st sQE_CNT) 8 v x.same
  else if o = sSEG_SEL then s.after (execSegEntryWrite stn v s)
  else if o = sQTLB_INV then s.invPut via x.fs st v
  else if sQS_POOL ≤ o ∧ o < sQS_POOL + 16 then
    s.after (execPoolWrite stn (Fin.ofNat 4 ((o - sQS_POOL) / 4)) v x.fs s)
  else if o = sPG_CNT_CLR then s.clearWords (stopReg st sPG_CNT) 8 v x.same
  else if o = sQS_CNT_CLR then s.clearWords (stopReg st sQS_CE_CNT) 8 v x.same
  else if o = sQS_RAW_CTRL then s.after (execRawModeEnable stn (bitOf v 0) s)
  else if o = sQS_REMAP_ADD then
    s.after (execQsRemapAdd stn (Fin.ofNat 4 (fieldOf v 10 2)) (Fin.ofNat 1024 (fieldOf v 0 10)) x.fs s)
  else s.regPut via a v

/-- A word of the counters', the sampling unit's or Temper's window is written (R459, R491, R495, R501). -/
def State.writePmu (s : State) (via : Via) (x : RegEnv) (st o : Nat) (v : Word32) : State :=
  let a := stopReg st o
  if sPMC ≤ o ∧ o < sPMC + 128 then
    (if (o - sPMC) % 8 = 0 then s.pmcLoad st ((o - sPMC) / 8) v else s.pmcHold st ((o - sPMC) / 8) v)
  else if o = sPMU_CTRL then
    (if !bitOf v 0 && s.flag a 0 && hitOf x 0 == 1 then s else s.regPut via a v)
  else if o = sSMP_STAT then (s.setFld a 16 8 (hitOf x 0)).setFld a 24 8 (hitOf x 1)
  else if sCAL_LINK ≤ o ∧ o < sCAL_LINK + 32 then
    let r := ringAt st ((o - sCAL_LINK) / 4)
    let p := ringCoord r st
    if bitOf v 15 then s.setLink r p { s.link r p with sat := false } else s
  else s.regPut via a v

/-- A word of a stop's block is written (R514). -/
def State.writeStop (s : State) (via : Via) (x : RegEnv) (stn : StopNo) (o : Nat) (v : Word32) : State :=
  let st := stn.val
  let a := stopReg st o
  if sSTOP_CMT_CRC ≤ o ∧ o < sSTOP_CMT_CRC + 32 then
    (if s.her.prep.contains st then s.cmtWr st else s.regPut via a v)
  else if 0x400 ≤ o ∧ o < 0x480 then s.writePort via x st 0 (stn, 0) (o - 0x400) v
  else if 0x480 ≤ o ∧ o < 0x500 then s.writePort via x st 1 (stn, 1) (o - 0x480) v
  else if 0x800 ≤ o ∧ o < 0x1800 then s.writeSched via x st o v
  else if o = sACU_SEL then s.after (execAcuEntryWrite stn v s)
  else if 0x1900 ≤ o ∧ o < 0x1A80 then s.writeAcu via x stn ((o - 0x1900) / 0x80) ((o - 0x1900) % 0x80) v
  else if o = sDEC_CNT + 4 then s.decCntClr st (BitVec.ofNat 4 v.toNat) (hitsOf x 4)
  else if 0x2000 ≤ o ∧ o < 0x3000 then s.writeQueue via x stn o v
  else if (0x3000 ≤ o ∧ o < 0x3800) ∨ 0x3D00 ≤ o then s.writePmu via x st o v
  else if o = sTXN_CNT_CLR then s.clearWords (stopReg st sTXN_CNT) 11 v x.same
  else if o = sABS_CNT then (if bitOf v 31 then s.setReg a (BitVec.ofNat 32 (hitOf x 0)) else s)
  else if o = sSTOP_ERR_STAT then (if bitOf v 4 then (s.setFld a 4 1 (hitOf x 4)).setFld a 8 8 (hitOf x 4) else s)
  else if o = sRING_CNT_CLR then s.ringCntClr st (BitVec.ofNat 9 v.toNat) (hitsOf x 9)
  else if o = sDEFL_CTRL then s.deflWrite v
  else if o = sDEFL_CNT_CLR then s.deflCntClr st (BitVec.ofNat 9 v.toNat) (hitsOf x 9)
  else if o = sFLOW_STAT then (s.regPut via a v).clearWords (stopReg st sGUAR_CNT) 3 (BitVec.ofNat 3 (fieldOf v 8 3)) (BitVec.ofNat 3 (fieldOf x.same 8 3))
  else s.regPut via a v

/-- A word of a die-to-die port's block is written (R404). -/
def State.writeDp (s : State) (via : Via) (x : RegEnv) (p : DpNo) (o : Nat) (v : Word32) : State :=
  if o = dCTRL then
    let t := s.dpCtrlPut p.val v
    if bitOf v 1 then t.retrain p.val else t
  else if o = dCNT_CLR then s.clearWords (dpReg p.val dCNT) 8 v x.same
  else s.regPut via (dpReg p.val o) v

/-- A word of a ring's block is written (R87, R89, R433). -/
def State.writeRing (s : State) (via : Via) (r o : Nat) (v : Word32) : State :=
  let a := ringReg r o
  if o % 0x8000 < 0x7E00 then
    s.bankPut via (originStop r) 0 (o / 0x8000 == s.fld (ringReg r rSTAMP_STAT) 0 1) (ringReg r rSTAMP_STAT) 1 a v
  else s.regPut via a v

/-- One word is written at FCS offset `a`; an offset that holds no register takes nothing (R509). -/
def State.wordWrite (s : State) (via : Via) (x : RegEnv) (a : Nat) (v : Word32) : State :=
  if a < 0x100000 then s.writeGlobal via x a v
  else if a < 0x400000 then
    s.writeStop via x (Fin.ofNat 192 ((a - 0x100000) / 0x4000)) ((a - 0x100000) % 0x4000) v
  else if a < 0x480000 then s.writeDp via x (Fin.ofNat 8 ((a - 0x400000) / 0x10000)) ((a - 0x400000) % 0x10000) v
  else s.writeRing via ((a - 0x800000) / 0x10000) ((a - 0x800000) % 0x10000) v

/-- The write, and the W1C bits that a hardware event in the same cycle keeps set (R6). -/
def State.regWrite (s : State) (via : Via) (x : RegEnv) (a : Nat) (v : Word32) : State :=
  match regRow a with
  | none => s
  | some r =>
    let stays := s.reg a &&& x.same &&& BitVec.ofNat 32 r.w1c
    let t := s.wordWrite via x a v
    if stays = 0 then t else t.setReg a (t.reg a ||| stays)

/-! ### Accesses of a packet -/

/-- The first refusal that the words of an access meet (R507, R510). -/
def State.regRefusal (s : State) (h : Slot) (as : List Nat) : Option Nat :=
  let level := if !h.attrBit attrPriv then 0 else if h.attrBit attrSec then 2 else 1
  if as.any (fun a => !s.regOpen a) then some stFENCED
  else if as.any (fun a => match regRow a with
    | some r => decide (level < r.cls)
    | none => false) then some stACCERR
  else none

/-- The words that a write's slots cover: offset, data and the four byte enables of each. -/
def writeWords (p : Pkt) : List (Nat × Word32 × Nat) :=
  let a0 := (Pkt.head p).addr % 2 ^ 26 / 64 * 64
  (p.zipIdx.flatMap (fun e => (List.range 16).map (fun j =>
    (a0 + 64 * e.2 + 4 * j, BitVec.ofNat 32 (e.1.pay.toNat / 2 ^ (32 * j)), fieldOf e.1.ext (4 * j) 4)))).filter
    (fun w => w.2.2 != 0)

/-- An access at port 3 comes from a debug source that Hearth has listed (R232, R234). -/
def State.debugSrc (s : State) (h : Slot) : Bool :=
  (List.range 16).any (fun i => fieldOf (s.reg (gDBG_SRC + 4 * i)) 0 15 == 2 ^ 14 + peerOf h.sdie h.sstop h.sport)

/-- A read of one word, with its side effect (R467, R491). A debug access does not see what R234 hides. -/
def State.readWord32 (s : State) (dbg : Bool) (a : Nat) : Word32 × State :=
  let v := if dbg && s.debugHides a then 0 else s.view a
  if a = gTS_NOW_LO then (v, s.setReg gTS_NOW_HI (wordAt s.time.master 1))
  else match regBlock a with
    | (1, o) =>
      if sPMC ≤ o ∧ o < sPMC + 128 ∧ (o - sPMC) % 8 = 0 then
        let k := (a - 0x100000) / 0x4000 * 16 + (o - sPMC) / 8
        (v, { s with pmu := { s.pmu with
          latch := Tab.set (fun _ => 0) s.pmu.latch k (Tab.get (fun _ => 0) s.pmu.pmc k / 2 ^ 32) } })
      else (v, s)
    | _ => (v, s)

/-- The words of a read, in ascending order, those outside the bytes asked for as 0. -/
def readWords (dbg : Bool) (lo hi : Nat) : Nat → Nat → State → List Word32 × State
  | 0, _, s => ([], s)
  | n + 1, a, s =>
    let (v, s) := if lo ≤ a + 3 ∧ a ≤ hi then s.readWord32 dbg a else (0, s)
    let (vs, s) := readWords dbg lo hi n (a + 4) s
    (v :: vs, s)

/-- Words of 32 bits as payloads of 512. -/
def wordBlocks : Nat → List Word32 → List (BitVec 512)
  | 0, _ => []
  | n + 1, ws =>
    BitVec.ofNat 512 (((ws.take 16).zipIdx.map (fun e => e.1.toNat * 2 ^ (32 * e.2))).sum) :: wordBlocks n (ws.drop 16)

/-- Port 3 performs a read of registers and answers (R505, Table 20.1). -/
def State.regReadPkt (s : State) (st : Nat) (p : Pkt) : State :=
  let h := Pkt.head p
  let lo := h.addr % 2 ^ 26
  let hi := lo + h.rlen
  let as := ((List.range (16 * (h.plen + 1))).map (fun j => lo / 64 * 64 + 4 * j)).filter (fun a => lo ≤ a + 3 && a ≤ hi)
  match s.regRefusal h as with
  | some r => s.port3Answer st p r
  | none =>
    let (ws, t) := readWords (s.debugSrc h) lo hi (16 * (h.plen + 1)) (lo / 64 * 64) s
    (t.port3Take st p).offer st 3 (mkRsp t.die st (p.getLastD h) opCMP_D stOK false 0 (t.sampleNow st h) (wordBlocks (h.plen + 1) ws)) none false

/-- A packet is a register read: RD or RD_NC outside the raw windows. -/
def isRegRead (p : Pkt) : Bool :=
  ((Pkt.head p).opc == opRD || (Pkt.head p).opc == opRD_NC) && decide ((Pkt.head p).addr % 2 ^ 26 < 0x1000000)

/-- Port 3 performs a write, or refuses any other request (R505, R507, R510, Table 20.1). -/
def State.regWritePkt (s : State) (st : Nat) (p : Pkt) (x : RegEnv) : State :=
  let h := Pkt.head p
  let ws := writeWords p
  if h.opc ≠ opWR ∧ h.opc ≠ opWR_NC ∧ h.opc ≠ opWR_P then s.port3Answer st p stSLVERR
  else
    match s.regRefusal h (ws.map (fun w => w.1)) with
    | some r => s.port3Answer st p r
    | none =>
      if ws.any (fun w => w.2.2 != 0xF) then s.port3Answer st p stSLVERR
      else (ws.foldl (fun (t : State) w => t.regWrite (some (st, some h.part)) x w.1 w.2.1) s).port3Answer st p stOK

/-- REGISTER_WRITE (R505 to R511): port 3 performs a write that is its oldest access, or the test access path writes one
word. -/
def execRegisterWrite (acc : RegAcc) (x : RegEnv) (s : State) : Host.Outcome State Fault Refusal :=
  match acc with
  | .packet st p =>
    if isRegRead p || !s.port3First st.val p then .next s else .next (s.keepReg (s.regWritePkt st.val p x))
  | .test a v =>
    let a := a.toNat / 4 * 4
    if s.her.rstLow ∨ !s.regOpen a then .next s
    else .next (s.keepReg (s.regWrite none x a v))

/-- TS_NOW_READ (R467): TS_NOW_LO is read, by a packet at port 3 of Hearth's stop or over the test access path. -/
def execTsNowRead (p : Option Pkt) (s : State) : Host.Outcome State Fault Refusal :=
  match p with
  | some p =>
    if isRegRead p && s.port3First hearthStop p then .next (s.keepReg (s.regReadPkt hearthStop p)) else .next s
  | none => .next (if s.her.rstLow then s else s.keepReg (s.readWord32 true gTS_NOW_LO).2)

/-- PMC_READ (R491): PMC_LO_n is read, by a packet at port 3 of the stop or over the test access path. -/
def execPmcRead (st : StopNo) (n : Fin 16) (p : Option Pkt) (s : State) : Host.Outcome State Fault Refusal :=
  match p with
  | some p =>
    if isRegRead p && s.port3First st.val p then .next (s.keepReg (s.regReadPkt st.val p)) else .next s
  | none => .next (if s.her.rstLow then s else s.keepReg (s.readWord32 true (stopReg st.val (sPMC + 8 * n.val))).2)

/-- MGMT_BAD (R483): a packet of the port 3 buffer that is no MGMT operation, or whose fields fail the operation's
checks, is discarded. -/
def execMgmtBad (st : StopNo) (p : Pkt) (s : State) : Host.Outcome State Fault Refusal :=
  let st := st.val
  if !(s.mgmt st).contains p then .next s
  else
    let x := Pkt.head p
    let t := s.setMgmt st ((s.mgmt st).erase p)
    .next (s.keepReg (t.raise st (recGen 3 sevCONTAINED caMGMT_BAD (some x.part)
      (specGen x.addr x.opc x.tag (peerOf x.sdie x.sstop x.sport) 0 0 0))))

/-- Port 3 of every stop serves the oldest access waiting there when that is a register read (R505): the table has
no row for a read without a side effect of its own. -/
def State.serveReads (s : State) : State :=
  if s.fabState = fabFAILED then s else (List.range nStops).foldl (fun (s : State) st =>
    match s.inbox st 3 with
    | d :: _ => if isRegRead d.slots then s.regReadPkt st d.slots else s
    | [] => s) s

end Sys2Proof.Machine
end

