-- ==== Sys2Proof/Machine/TestAccess.lean ====
section
/-! DEFINITION. Test access: the IEEE 1500 wrapper and the memory-test controllers (R522, R531 to R533). The memories of
Table 21.11 are numbered by the model: queue-store bank b of stop s is 4s + b, then from 768 on by stop the queue
tables, the segment tables, the microcode stores, the retry-record SRAMs and the NI stores, then from 1728 on the
stamping tables by ring, and Hearth's SRAM 1840 and ROM 1841. -/
namespace Sys2Proof.Machine
open Sys2Proof

/-- The next `n` free values are taken: the first one's name, and the state after. -/
def State.freeTake (s : State) (n : Nat) : Nat × State := (s.free, { s with free := s.free + n })

/-- What a memory holds while and after its test: the manual does not say, so every word it is seen by is a free
value. -/
def State.testPattern (m : Nat) (s : State) : State :=
  if m < 768 then
    let (k, s) := s.freeTake (1032 * 36)
    forUpTo 1032 (fun row s => forUpTo 36 (fun i s =>
      s.setSym (m / 4) (m % 4) row i (BitVec.ofNat 8 (Config.freeNat (k + 36 * row + i)))) s) s
  else if m < 960 then
    let (k, s) := s.freeTake 512
    forUpTo 256 (fun q s =>
      let t := s.setQEntry (m - 768) q (BitVec.ofNat 256 (Config.freeNat (k + q)))
      { t with qe := { t.qe with
        shadow := Tab.set (fun _ => 0) t.qe.shadow ((m - 768) * 256 + q) (BitVec.ofNat 256 (Config.freeNat (k + 256 + q))) } }) s
  else if m < 1152 then
    let (k, s) := s.freeTake 256
    forUpTo 256 (fun q s =>
      let v := BitVec.ofNat 128 (Config.freeNat (k + q))
      { s with qe := { s.qe with segs := Tab.set (fun _ => 0) s.qe.segs ((m - 960) * 256 + q) v } }) s
  else if 1344 ≤ m ∧ m < 1536 then
    let (k, s) := s.freeTake 3072
    forUpTo 3072 (fun r s =>
      s.setRetry (m - 1344) r (Retry.ofWord (Config.freeNat (k + r)))) s
  else if 1728 ≤ m ∧ m < 1840 then
    let (k, s) := s.freeTake 16128
    forUpTo 2 (fun b s => forUpTo 8064 (fun p s =>
      let v := Config.freeNat (k + 8064 * b + p)
      s.setReg (stampReg (m - 1728) b p) (BitVec.ofNat 32 (v % 8 + v / 8 % 1024 * 16))) s) s
  else if m = 1840 then
    let (k, s) := s.freeTake 32768
    forUpTo 32768 (fun i s => s.setHmWord (32768 + i) (BitVec.ofNat 88 (Config.freeNat (k + i)))) s
  else s

/-- What a memory test may change. -/
def State.keepTest (s t : State) : State :=
  { s with regs := t.regs, mem := t.mem, ni := t.ni, qe := t.qe, store := t.store, her := t.her, free := t.free }

/-- MEMORY_TEST (R532): the controller of a memory is started. -/
def execMemoryTest (m : Fin 1842) (s : State) : Host.Outcome State Fault Refusal :=
  if s.her.test.running.contains m.val then .next s
  else
    let t := s.testPattern m.val
    let v := { t.her.test with running := t.her.test.running ++ [m.val] }
    .next (s.keepTest { t with her := { t.her with test := v } })

/-- MEMORY_TEST_DONE (R532): the controller reports PASS, or FAIL with the addresses of the first 8 failing words. -/
def execMemoryTestDone (m : Fin 1842) (bad : List (Fin 65536)) (s : State) : Host.Outcome State Fault Refusal :=
  if !s.her.test.running.contains m.val then .next s
  else
    let t := s.testPattern m.val
    let v := { t.her.test with
      running := t.her.test.running.filter (fun x => x != m.val)
      results := Tab.set (fun _ => (false, [])) t.her.test.results m.val (bad.isEmpty, (bad.map (fun x => x.val)).take 8) }
    .next (s.keepTest { t with her := { t.her with test := v } })

/-- WRAPPER_INSTRUCTION (R522, Table 21.12): 0 is WS_BYPASS, 1 WS_EXTEST, 2 WS_INTEST. -/
def execWrapperInstruction (w : Fin 3) (s : State) : Host.Outcome State Fault Refusal :=
  let v := { s.her.test with
    wrapper := w.val
    broken := s.her.test.broken || (w.val == 2 && !s.her.test.mode) }
  .next { s with her := { s.her with test := v } }

end Sys2Proof.Machine
end

