-- ==== Sys2Proof/Machine/Dispatch.lean ====
section
/-! DEFINITION. One arm per command: each is the one direct call of its meaning. -/
namespace Sys2Proof.Machine
open Sys2Proof

/-- The effect of a command on everything but the queue. -/
def exec (i : Instr) (s : State) : Host.Outcome State Fault Refusal :=
  match i with
  | .ringCycle inp => Sys2Proof.Machine.execRingCycle inp s
  | .frameStartStrobe => Sys2Proof.Machine.execFrameStartStrobe s
  | .frameBoundary late => Sys2Proof.Machine.execFrameBoundary late s
  | .epochBoundary => Sys2Proof.Machine.execEpochBoundary s
  | .starvation st d => Sys2Proof.Machine.execStarvation st d s
  | .reasmDrop st src => Sys2Proof.Machine.execReasmDrop st src s
  | .injQueueAdmit st p => Sys2Proof.Machine.execInjQueueAdmit st p s
  | .requestCapture st k r => Sys2Proof.Machine.execRequestCapture st k r s
  | .msgCapture st k m => Sys2Proof.Machine.execMsgCapture st k m s
  | .agentResponse st k r => Sys2Proof.Machine.execAgentResponse st k r s
  | .oreqDeliver st k => Sys2Proof.Machine.execOreqDeliver st k s
  | .omsgDeliver st k => Sys2Proof.Machine.execOmsgDeliver st k s
  | .ntfDeliver st k => Sys2Proof.Machine.execNtfDeliver st k s
  | .completionDeliver st p tag => Sys2Proof.Machine.execCompletionDeliver st p tag s
  | .sampleIndexAlloc => Sys2Proof.Machine.execSampleIndexAlloc s
  | .partitionChange st k part par => Sys2Proof.Machine.execPartitionChange st k part par s
  | .pchgSwap st k => Sys2Proof.Machine.execPchgSwap st k s
  | .glitch st k which => Sys2Proof.Machine.execGlitch st k which s
  | .hsTimeoutIn st k part => Sys2Proof.Machine.execHsTimeoutIn st k part s
  | .hsTimeoutOut st k c => Sys2Proof.Machine.execHsTimeoutOut st k c s
  | .portResetAssert x y k => Sys2Proof.Machine.execPortResetAssert x y k s
  | .portResetDeassert st k => Sys2Proof.Machine.execPortResetDeassert st k s
  | .resyncDone x y k => Sys2Proof.Machine.execResyncDone x y k s
  | .rsTimeout st k => Sys2Proof.Machine.execRsTimeout st k s
  | .cdcPtr st k c ptr => Sys2Proof.Machine.execCdcPtr st k c ptr s
  | .recover x y k => Sys2Proof.Machine.execRecover x y k s
  | .stopReq st k => Sys2Proof.Machine.execStopReq st k s
  | .portStopped st k => Sys2Proof.Machine.execPortStopped st k s
  | .stopRelease st k => Sys2Proof.Machine.execStopRelease st k s
  | .bellowsReq st k => Sys2Proof.Machine.execBellowsReq st k s
  | .bellowsAck st k => Sys2Proof.Machine.execBellowsAck st k s
  | .stopped st k => Sys2Proof.Machine.execStopped st k s
  | .requestRelease st p tag => Sys2Proof.Machine.execRequestRelease st p tag s
  | .retryReceive st p => Sys2Proof.Machine.execRetryReceive st p s
  | .grantIssue st => Sys2Proof.Machine.execGrantIssue st s
  | .grantReceive st p => Sys2Proof.Machine.execGrantReceive st p s
  | .resend st die stop => Sys2Proof.Machine.execResend st die stop s
  | .greleaseReceive st p => Sys2Proof.Machine.execGreleaseReceive st p s
  | .grantTo st rcd => Sys2Proof.Machine.execGrantTo st rcd s
  | .retrySweep sw => Sys2Proof.Machine.execRetrySweep sw s
  | .completionReceive st p => Sys2Proof.Machine.execCompletionReceive st p s
  | .pwackReceive st p => Sys2Proof.Machine.execPwackReceive st p s
  | .cto st p tag held => Sys2Proof.Machine.execCto st p tag held s
  | .lockBreak st k => Sys2Proof.Machine.execLockBreak st k s
  | .addrMapApply => Sys2Proof.Machine.execAddrMapApply s
  | .remapWrite v => Sys2Proof.Machine.execRemapWrite v s
  | .acuEntryWrite st sel => Sys2Proof.Machine.execAcuEntryWrite st sel s
  | .acuShadowCheck st a => Sys2Proof.Machine.execAcuShadowCheck st a s
  | .acuSwap st a => Sys2Proof.Machine.execAcuSwap st a s
  | .enq st p inp => Sys2Proof.Machine.execEnq st p inp s
  | .deq st p inp => Sys2Proof.Machine.execDeq st p inp s
  | .peek st p inp => Sys2Proof.Machine.execPeek st p inp s
  | .steal st p inp => Sys2Proof.Machine.execSteal st p inp s
  | .qstat st p inp => Sys2Proof.Machine.execQstat st p inp s
  | .dbell st p inp => Sys2Proof.Machine.execDbell st p inp s
  | .notify st k => Sys2Proof.Machine.execNotify st k s
  | .delete st q => Sys2Proof.Machine.execDelete st q s
  | .forceDelete st q => Sys2Proof.Machine.execForceDelete st q s
  | .clearFault st q => Sys2Proof.Machine.execClearFault st q s
  | .arm st q => Sys2Proof.Machine.execArm st q s
  | .queueDeleteDone x y q => Sys2Proof.Machine.execQueueDeleteDone x y q s
  | .qtEntryWrite st sel => Sys2Proof.Machine.execQtEntryWrite st sel s
  | .walkComplete st tag fs => Sys2Proof.Machine.execWalkComplete st tag fs s
  | .pageMoveComplete st frame fs => Sys2Proof.Machine.execPageMoveComplete st frame fs s
  | .devAccessComplete st tag fs => Sys2Proof.Machine.execDevAccessComplete st tag fs s
  | .segEntryWrite st sel => Sys2Proof.Machine.execSegEntryWrite st sel s
  | .qtlbInvAll st flush fs => Sys2Proof.Machine.execQtlbInvAll st flush fs s
  | .qtlbInvQueue st q flush fs => Sys2Proof.Machine.execQtlbInvQueue st q flush fs s
  | .qtlbInvPage st q page flush fs => Sys2Proof.Machine.execQtlbInvPage st q page flush fs s
  | .qtlbInvDone st fs => Sys2Proof.Machine.execQtlbInvDone st fs s
  | .poolWrite st j v fs => Sys2Proof.Machine.execPoolWrite st j v fs s
  | .poolFrameLeave st f fs => Sys2Proof.Machine.execPoolFrameLeave st f fs s
  | .scrubStep st fs => Sys2Proof.Machine.execScrubStep st fs s
  | .mergeDrain st b row fs => Sys2Proof.Machine.execMergeDrain st b row fs s
  | .rawWindowRead st p fs => Sys2Proof.Machine.execRawWindowRead st p fs s
  | .rawWindowWrite st p fs => Sys2Proof.Machine.execRawWindowWrite st p fs s
  | .rawModeEnable st en => Sys2Proof.Machine.execRawModeEnable st en s
  | .qsRemapAdd st b row fs => Sys2Proof.Machine.execQsRemapAdd st b row fs s
  | .qsFill k => Sys2Proof.Machine.execQsFill k s
  | .fillDone k => Sys2Proof.Machine.execFillDone k s
  | .hearthScrubStep data chk => Sys2Proof.Machine.execHearthScrubStep data chk s
  | .hearthTrap x => Sys2Proof.Machine.execHearthTrap x s
  | .ringClockChange => Sys2Proof.Machine.execRingClockChange s
  | .rclkDone => Sys2Proof.Machine.execRclkDone s
  | .tickLost st n => Sys2Proof.Machine.execTickLost st n s
  | .powerOffRequest d => Sys2Proof.Machine.execPowerOffRequest d s
  | .powerOnRequest d => Sys2Proof.Machine.execPowerOnRequest d s
  | .fenceReceive st set far => Sys2Proof.Machine.execFenceReceive st set far s
  | .fenceAck who => Sys2Proof.Machine.execFenceAck who s
  | .fenceSettleDone => Sys2Proof.Machine.execFenceSettleDone s
  | .drainComplete => Sys2Proof.Machine.execDrainComplete s
  | .drainTo => Sys2Proof.Machine.execDrainTo s
  | .unfenceReceive st set far => Sys2Proof.Machine.execUnfenceReceive st set far s
  | .pgoodRise f restore => Sys2Proof.Machine.execPgoodRise f restore s
  | .pwrPgFail f => Sys2Proof.Machine.execPwrPgFail f s
  | .wakeRequest => Sys2Proof.Machine.execWakeRequest s
  | .fence d => Sys2Proof.Machine.execFence d s
  | .unfence d => Sys2Proof.Machine.execUnfence d s
  | .flitPairSend p => Sys2Proof.Machine.execFlitPairSend p s
  | .flitPairReceive p x => Sys2Proof.Machine.execFlitPairReceive p x s
  | .d2dIngressInject p c => Sys2Proof.Machine.execD2dIngressInject p c s
  | .d2dRsvExpire p eg src => Sys2Proof.Machine.execD2dRsvExpire p eg src s
  | .d2dLink p => Sys2Proof.Machine.execD2dLink p s
  | .retrain p => Sys2Proof.Machine.execRetrain p s
  | .linkTrained p ms => Sys2Proof.Machine.execLinkTrained p ms s
  | .hello p peer root die => Sys2Proof.Machine.execHello p peer root die s
  | .assign p dx dy => Sys2Proof.Machine.execAssign p dx dy s
  | .discoveryReport dx dy up => Sys2Proof.Machine.execDiscoveryReport dx dy up s
  | .discoveryFinish => Sys2Proof.Machine.execDiscoveryFinish s
  | .final ox oy map => Sys2Proof.Machine.execFinal ox oy map s
  | .discTo => Sys2Proof.Machine.execDiscTo s
  | .sync p t2 t3 ofs => Sys2Proof.Machine.execSync p t2 t3 ofs s
  | .echo p t1 t2 t3 t4 => Sys2Proof.Machine.execEcho p t1 t2 t3 t4 s
  | .detourApply pass => Sys2Proof.Machine.execDetourApply pass s
  | .d2dWindowDue p more => Sys2Proof.Machine.execD2dWindowDue p more s
  | .win p m tw => Sys2Proof.Machine.execWin p m tw s
  | .rotate p set => Sys2Proof.Machine.execRotate p set s
  | .moduleRecalDone p usable => Sys2Proof.Machine.execModuleRecalDone p usable s
  | .d2dWinCancel p => Sys2Proof.Machine.execD2dWinCancel p s
  | .d2dWinOver p => Sys2Proof.Machine.execD2dWinOver p s
  | .fabResetAssert => Sys2Proof.Machine.execFabResetAssert s
  | .fabResetDeassert x => Sys2Proof.Machine.execFabResetDeassert x s
  | .fuseAck w => Sys2Proof.Machine.execFuseAck w s
  | .fuseTimeout => Sys2Proof.Machine.execFuseTimeout s
  | .fuseReadDone => Sys2Proof.Machine.execFuseReadDone s
  | .nvmReady f => Sys2Proof.Machine.execNvmReady f s
  | .headersRead a b => Sys2Proof.Machine.execHeadersRead a b s
  | .copyReadDone es err detours => Sys2Proof.Machine.execCopyReadDone es err detours s
  | .signatureDone ok sig => Sys2Proof.Machine.execSignatureDone ok sig s
  | .initialCalibrationDone bad trims => Sys2Proof.Machine.execInitialCalibrationDone bad trims s
  | .dieSpecificReadDone again err => Sys2Proof.Machine.execDieSpecificReadDone again err s
  | .activation shares far => Sys2Proof.Machine.execActivation shares far s
  | .minimalConfiguration => Sys2Proof.Machine.execMinimalConfiguration s
  | .portsOpen => Sys2Proof.Machine.execPortsOpen s
  | .openGo => Sys2Proof.Machine.execOpenGo s
  | .restoreGo => Sys2Proof.Machine.execRestoreGo s
  | .restoreWriteDone => Sys2Proof.Machine.execRestoreWriteDone s
  | .nvmRead len => Sys2Proof.Machine.execNvmRead len s
  | .nvmProgram len => Sys2Proof.Machine.execNvmProgram len s
  | .nvmErase blk => Sys2Proof.Machine.execNvmErase blk s
  | .nvmCmdDone ok data => Sys2Proof.Machine.execNvmCmdDone ok data s
  | .commitGo w fs => Sys2Proof.Machine.execCommitGo w fs s
  | .commitHostAbort => Sys2Proof.Machine.execCommitHostAbort s
  | .prepare st msg fs => Sys2Proof.Machine.execPrepare st msg fs s
  | .prepareAck frm => Sys2Proof.Machine.execPrepareAck frm s
  | .commitDecide => Sys2Proof.Machine.execCommitDecide s
  | .commitAbort => Sys2Proof.Machine.execCommitAbort s
  | .commit => Sys2Proof.Machine.execCommit s
  | .commitSwap => Sys2Proof.Machine.execCommitSwap s
  | .inDoubt => Sys2Proof.Machine.execInDoubt s
  | .commitLate => Sys2Proof.Machine.execCommitLate s
  | .sweepEnd r => Sys2Proof.Machine.execSweepEnd r s
  | .temperBlkWrite j c => Sys2Proof.Machine.execTemperBlkWrite j c s
  | .tsMark => Sys2Proof.Machine.execTsMark s
  | .tsCorrection st => Sys2Proof.Machine.execTsCorrection st s
  | .tsSet => Sys2Proof.Machine.execTsSet s
  | .tsNowRead p => Sys2Proof.Machine.execTsNowRead p s
  | .recordRaise st r => Sys2Proof.Machine.execRecordRaise st r s
  | .recordCollect => Sys2Proof.Machine.execRecordCollect s
  | .logWriteDone index tag => Sys2Proof.Machine.execLogWriteDone index tag s
  | .perrEnqDone tag => Sys2Proof.Machine.execPerrEnqDone tag s
  | .logEnable size => Sys2Proof.Machine.execLogEnable size s
  | .mgmtBad st p => Sys2Proof.Machine.execMgmtBad st p s
  | .registerWrite acc x => Sys2Proof.Machine.execRegisterWrite acc x s
  | .deflCtrlWrite v => Sys2Proof.Machine.execDeflCtrlWrite v s
  | .pmapEntryWrite st v => Sys2Proof.Machine.execPmapEntryWrite st v s
  | .pmcLoad st n v => Sys2Proof.Machine.execPmcLoad st n v s
  | .pmcRead st n p => Sys2Proof.Machine.execPmcRead st n p s
  | .sampleEnable st v => Sys2Proof.Machine.execSampleEnable st v s
  | .sampleBufConfig base v => Sys2Proof.Machine.execSampleBufConfig base v s
  | .ringCntClear st c => Sys2Proof.Machine.execRingCntClear st c s
  | .deflCntClear st c => Sys2Proof.Machine.execDeflCntClear st c s
  | .guarCntClear st c => Sys2Proof.Machine.execGuarCntClear st c s
  | .injqHwmClear st q => Sys2Proof.Machine.execInjqHwmClear st q s
  | .injStoreHwmClear st => Sys2Proof.Machine.execInjStoreHwmClear st s
  | .portCnt2Clear st k => Sys2Proof.Machine.execPortCnt2Clear st k s
  | .portCdcCntClear st k => Sys2Proof.Machine.execPortCdcCntClear st k s
  | .txnCntClear st c => Sys2Proof.Machine.execTxnCntClear st c s
  | .decCntClear st c => Sys2Proof.Machine.execDecCntClear st c s
  | .qeCntClear st c => Sys2Proof.Machine.execQeCntClear st c s
  | .pgCntClear st c => Sys2Proof.Machine.execPgCntClear st c s
  | .qsCntClear st c => Sys2Proof.Machine.execQsCntClear st c s
  | .absCntClear st => Sys2Proof.Machine.execAbsCntClear st s
  | .dpCntClear p c => Sys2Proof.Machine.execDpCntClear p c s
  | .d2dModule p m => Sys2Proof.Machine.execD2dModule p m s
  | .decisionRequest d => Sys2Proof.Machine.execDecisionRequest d s
  | .strobeTime t => Sys2Proof.Machine.execStrobeTime t s
  | .winAck p => Sys2Proof.Machine.execWinAck p s
  | .aonPowerOn => Sys2Proof.Machine.execAonPowerOn s
  | .memoryTest m => Sys2Proof.Machine.execMemoryTest m s
  | .memoryTestDone m bad => Sys2Proof.Machine.execMemoryTestDone m bad s
  | .wrapperInstruction w => Sys2Proof.Machine.execWrapperInstruction w s

end Sys2Proof.Machine
end

