-- ==== Sys2Proof/Machine/Step.lean ====
section
/-! DEFINITION. One step of the block: the command at the front of the queue, or one hc without a command. -/
namespace Sys2Proof.Machine
open Sys2Proof

/-- One hc in which nothing is commanded: the counts advance (R463), the switching of a fabric domain goes on (R360,
R366), and port 3 of each stop serves a register read that waits there (R505). -/
def State.idle (s : State) : State := s.keepReg s.tick.switchHc.mergeHc.serveReads

/-- One step: the command at the front of the queue takes effect on the state with the queue's rest; on an empty
queue an hc passes. -/
def step (s : State) : Host.Outcome State Fault Refusal :=
  match s.pending with
  | [] => .next s.idle
  | c :: rest => exec c { s with pending := rest }

/-- `s` with the command that the word spells at the front of its queue. -/
def State.withFetchWord (s : State) (nbits w : Nat) : State :=
  match decodeTableWord nbits w with
  | some c => { s with pending := c :: s.pending }
  | none => s

end Sys2Proof.Machine
end

