-- ==== Sys2Proof/Machine/Pins.lean ====
section
/-! DEFINITION. The block's outputs as the state gives them (R518, Tables 13.2, 21.1, 21.2, 21.5 and 21.8). -/
namespace Sys2Proof.Machine
open Sys2Proof

/-- Outputs of the die as a whole. -/
structure DiePins where
  errIrq   : Bool
  pmuIrq   : Bool
  fatal    : Bool
  degraded : Bool
  failed   : Bool
  fabState : Nat
  tick     : Bool
  ts       : BitVec 64
  synced   : Bool
  rclkHold : Bool
  pwrReady : Bool
  pwrRsp   : List (Nat × Nat)
  wake     : List Nat
  fuseReq  : Bool
  fuseAddr : Nat
  sw1      : Nat
  sw2      : Nat
  iso      : Nat
  deriving DecidableEq, Repr

/-- 56 outputs, one per fabric domain. -/
def domBits (f : Nat → Bool) : Nat := (((List.range 56).filter f).map (fun d => 2 ^ d)).sum

/-- The die's outputs. `fab_state` is 0 while `fab_rst_n` is asserted (Table 21.5); `fab_frame_tick` is high in the rc
2 after FPOS = 0 (R86). -/
def State.diePins (s : State) : DiePins :=
  { errIrq := !s.her.rstLow && s.errIrq
    pmuIrq := s.pmuIrq
    fatal := s.recs.fatal
    degraded := s.fabState == fabDEGRADED
    failed := s.fabState == fabFAILED
    fabState := if s.her.rstLow then 0 else s.fabState
    tick := s.frame.running && s.flag gFRAME_CTRL 16 && s.frame.fpos == 2
    ts := s.time.master
    synced := s.tsSynced
    rclkHold := s.cdc.hold
    pwrReady := !s.her.rstLow && s.pwReady
    pwrRsp := s.pw.rsps
    wake := s.pw.wake
    fuseReq := s.her.boot.fuseReq
    fuseAddr := s.her.boot.fuses.length
    sw1 := domBits (fun d => Tab.get (fun _ => false) s.pw.sw1 d)
    sw2 := domBits (fun d => Tab.get (fun _ => false) s.pw.sw2 d)
    iso := domBits (fun d => Tab.get (fun _ => true) s.pw.iso d) }

/-- Outputs of an agent port. -/
structure PortPins where
  reqReady : Bool
  datReady : Bool
  msgReady : Bool
  rspReady : Bool
  /-- The beats offered outward, one of a channel at most. -/
  out     : List OutBeat
  pchgAck : Bool
  pchgErr : Bool
  stopAck : Bool
  bellows : Bool
  deriving DecidableEq, Repr

/-- A port's outputs: its inbound readies, the beats it offers, in OPEN alone (Table 6.15), and its handshakes
(Table 21.2). -/
def State.portPins (s : State) (st : StopNo) (k : PortNo) : PortPins :=
  let v := s.port st.val k.val
  { reqReady := s.ready st.val k.val .req
    datReady := s.ready st.val k.val .dat
    msgReady := s.ready st.val k.val .msg
    rspReady := s.ready st.val k.val .rsp
    out := if v.state = 2 then outChans.filterMap (v.offered (portGen st.val k.val)) else []
    pchgAck := v.pchgAck
    pchgErr := v.pchgErr
    stopAck := v.state == 4
    bellows := v.bellows }

end Sys2Proof.Machine
end

