-- ==== Sys2Proof/Safety.lean ====
section
/-! DEFINITION. The terms the claims are stated in: sound states, completion, and which parts of the state each
command may change. -/
namespace Sys2Proof.Machine
open Sys2Proof

/-- The frame counters lie in the ranges of R71, R83 and R494: FPOS below F, SFRAME below 64, F from 480 to 8,064 rc,
the epoch count below 48, the place in the epoch below its length, RCNT of 20 bits. -/
structure Frame.Ok (f : Frame) : Prop where
  fpos  : f.fpos < 48 * f.flen48
  sframe : f.sframe < 64
  low   : 10 ≤ f.flen48
  high  : f.flen48 ≤ 168
  epoch : f.epoch < 48
  sel   : f.epochSel < 4
  place : f.epochPos < f.epochLen
  rcnt  : f.rcnt < 2 ^ 20

/-- The queue stores are listed in rising order of address, and no listed symbol equals what an unlisted one reads
as. -/
abbrev Memory.wf (m : List Host.Cell) : Prop := Tab.wf memDef m = true

/-- A step that goes on. -/
def goesOn (s : State) : Bool :=
  match step s with
  | .next _ => true
  | _ => false

/-- The command completes: it answers a next state, of which `P` holds. -/
def completes (c : Instr) (s : State) (P : State → Prop) : Prop := ∃ t, exec c s = .next t ∧ P t

/-- Every register outside `as` reads in `t` as it did in `s`. -/
def regsBut (as : List Nat) (s t : State) : Prop := ∀ a, a ∉ as → t.reg a = s.reg a

/-- The parts of the state: its fields, by name. -/
inductive Part where
  | frame | time | regs | mem | ring | ni | acu | recs | pmu | tem | qe | store | cdc | pw | d2d | her | free | pending
  deriving DecidableEq, Repr

/-- A part of `t` is what it was in `s`. -/
def samePart (s t : State) : Part → Prop
  | .frame => t.frame = s.frame
  | .time => t.time = s.time
  | .regs => t.regs = s.regs
  | .mem => t.mem = s.mem
  | .ring => t.ring = s.ring
  | .ni => t.ni = s.ni
  | .acu => t.acu = s.acu
  | .recs => t.recs = s.recs
  | .pmu => t.pmu = s.pmu
  | .tem => t.tem = s.tem
  | .qe => t.qe = s.qe
  | .store => t.store = s.store
  | .cdc => t.cdc = s.cdc
  | .pw => t.pw = s.pw
  | .d2d => t.d2d = s.d2d
  | .her => t.her = s.her
  | .free => t.free = s.free
  | .pending => t.pending = s.pending

/-- Nothing but the parts listed differs between `s` and `t`. -/
def onlyParts (ps : List Part) (s t : State) : Prop := ∀ p, p ∉ ps → samePart s t p


/-! ### The queue engine and its store -/

/-- The queue engine of a stop has no operation and no forced deletion in hand. -/
def State.engineEmpty (s : State) (st : Nat) : Bool :=
  (s.qops st).isEmpty && (Tab.get (fun _ => []) s.qe.forced st).isEmpty

/-- The engine takes packet `p` next and has nothing else in hand: its stop has power and is filled. -/
def State.opNext (s : State) (st : Nat) (p : Pkt) : Bool :=
  s.engineEmpty st && !s.stopAbsent st && !s.fillBusy st && (s.nextOp st).map (·.slots) == some p

/-- It does so, and has not halted. -/
def State.opReady (s : State) (st : Nat) (p : Pkt) : Bool := s.opNext st p && !s.qHalted st

/-- The arrival of the operation that is next. -/
def State.opArr (s : State) (st : Nat) : Nat := ((s.nextOp st).map (·.arr)).getD 0

/-- What orders 1 to 8 of Table 9.7 say of an operation that is taken and checked now. -/
def State.opVerdict (s : State) (st : Nat) (p : Pkt) : Option (Nat × Nat × Nat) :=
  s.qCheck st { pkt := p, arr := 0, started := false, seq := 0,
                late := qeState (s.qEntry st (Pkt.head p).qnum) == qDRAINING, qt := 0, seg := 0, ent := 0, tr := [],
                miss := [], vict := none, dev := none }

/-- The operation has left the request store and the engine. -/
def opOver (st : Nat) (s t : State) : Prop :=
  t.qops st = [] ∧ ∀ d, s.nextOp st = some d → t.inbox st 2 = (s.inbox st 2).erase d

/-- The engine's memories report nothing for this operation, and the array no fault. -/
def calmIn (inp : QIn) : Bool := inp.flts.isEmpty && inp.uc.val == 0 && inp.qt.val == 0 && inp.seg.val == 0

/-- Bank and row of word `w` of element `i` of a queue on a DIRECT segment (R253, R273, R303). -/
def State.elemAt (s : State) (st j i w : Nat) : Nat × Nat :=
  elemWord ((elemPages (s.qEntry st j) i).map (fun p => (p, sgFrame (s.qSeg st j) + p)))
    (i * qeSize (s.qEntry st j)) w

/-- The queue has a valid DIRECT segment that holds element `i`, and no page in a pool frame. -/
def State.directElem (s : State) (st j i : Nat) : Bool :=
  sgValid (s.qSeg st j) && sgMode (s.qSeg st j) == 1 && (s.resid st).all (fun r => r.q != j)
    && (elemPages (s.qEntry st j) i).all (fun p => decide (sgFrame (s.qSeg st j) + p < 128))

/-- The parity checker of a port finds nothing wrong with a packet's beats, or is off. -/
def State.parityFine (s : State) (st k : Nat) (es : List BeatErr) : Bool := !s.parityOn st k || es.all BeatErr.clean

/-- The tag states of every port but `p` of stop `st` are what they were. -/
def txnsBut (st p : Nat) (s t : State) : Prop := ∀ a b, a * 4 + b ≠ st * 4 + p → t.txns a b = s.txns a b

/-- A new transaction stands last in the tag state of a port, and it is as `P` says. -/
def txnAdded (st p : Nat) (s t : State) (P : Txn → Prop) : Prop :=
  ∃ x, t.txns st p = s.txns st p ++ [x] ∧ P x

/-- The transaction at place `n` of a port's tag state is replaced by one that is as `P` says. -/
def txnAt (st p n : Nat) (t : State) (P : Txn → Prop) : Prop := ∃ x, (t.txns st p)[n]? = some x ∧ P x

/-- An outward channel of a port carries `bs` behind what it carried. -/
def driven (st k : Nat) (c : Chan) (bs : List OutBeat) (s t : State) : Prop :=
  (t.port st k).queued c = (s.port st k).queued c ++ bs

/-- A packet has been given to the network interface of stop `st` by port `p`: it is in an injection queue or waits
in the port's receive stage. -/
def sent (st p : Nat) (r : Pkt) (t : State) : Prop :=
  (∃ q e, e ∈ t.injq st q ∧ e.slots = r) ∨ ∃ h ∈ t.heldAt st p, h.slots = r

/-- The response to an operation has been given to the network interface by port 2. -/
def opAnswered (st : Nat) (p : Pkt) (opc status : Nat) (data : List (BitVec 512)) (s t : State) : Prop :=
  sent st 2 (mkRsp s.die st (p.getLastD (Pkt.head p)) opc status false 0 (s.opArr st) data) t

/-- The stop whose queue store a command of the engine or the store works on. -/
def storeStop : Instr → Option Nat
  | .scrubStep st _ | .mergeDrain st _ _ _ | .rawWindowRead st _ _ | .rawWindowWrite st _ _ | .qsRemapAdd st _ _ _
  | .enq st _ _ | .deq st _ _ | .peek st _ _ | .steal st _ _ | .qstat st _ _ | .dbell st _ _
  | .walkComplete st _ _ | .pageMoveComplete st _ _ | .devAccessComplete st _ _
  | .delete st _ | .forceDelete st _ | .clearFault st _ | .arm st _
  | .qtEntryWrite st _ | .segEntryWrite st _ | .qtlbInvAll st _ _ | .qtlbInvQueue st _ _ _
  | .qtlbInvPage st _ _ _ _ | .qtlbInvDone st _ | .poolWrite st _ _ _ | .poolFrameLeave st _ _ => some st.val
  | .queueDeleteDone x y _ => some (stopXY x y).val
  | _ => none

/-! ### Start-up -/

/-- The cause that a copy header gets as it is read (R412): 7 for a read error, 1 for a bad header. -/
def State.headerCause (s : State) (h : Option (BitVec 2048)) : Nat :=
  match h with
  | none => 7
  | some h => if headerOk (s.fuse12 2 8) h then 0 else 1

/-- The copy on trial in `s` has failed: in `t` the other one is next, or the minimal configuration with DEGR_CAUSE 1. -/
def otherNext (s t : State) : Prop :=
  t.her.boot.phase = 0 ∧ t.her.boot.sects = []
    ∧ (s.causeOf (3 - s.her.boot.copy) = 0 →
        t.her.boot.copy = 3 - s.her.boot.copy ∧ t.her.boot.degr = s.her.boot.degr)
    ∧ (s.causeOf (3 - s.her.boot.copy) ≠ 0 → t.her.boot.copy = 0 ∧ t.her.boot.degr = 1)

/-- The agent of a port lets it join, and the port may (R168, R308, R335). -/
def State.mayJoin (s : State) (st k : Nat) : Bool :=
  (s.port st k).state == 0 && (s.port st k).rstLvl && !(s.port st k).stopLvl && !s.fillBusy st

/-- The cause of the trap that an access of Hearth's ends in, if any (Table 11.7). -/
def State.trapCause (s : State) (x : HAcc) : Option Nat :=
  let n := x.addr.toNat / 8
  if x.op = .fetch ∧ hmRom n = false then some 1
  else if x.op = .store ∧ x.mask = 0xFF then none
  else match hmDecode (s.hmWord n ^^^ x.bits) with
    | .uncorrectable => some (hmCause x.op)
    | _ => none

/-- Registers of the global block but `as` read in `t` as they did in `s`. -/
def globalsBut (as : List Nat) (s t : State) : Prop := ∀ a, a < 0x100000 → a ∉ as → t.reg a = s.reg a
/-- The parts of the state that a command may change. -/
def mayChange : Instr → List Part
  | .ringCycle .. =>
    [.frame, .regs, .ring, .ni, .recs, .pmu, .tem, .pw, .d2d]
  | .frameStartStrobe .. =>
    [.frame, .time, .tem]
  | .frameBoundary .. =>
    [.frame, .regs, .ni, .recs]
  | .epochBoundary .. =>
    [.frame, .regs, .ring, .recs]
  | .starvation .. =>
    [.regs, .ring]
  | .reasmDrop .. | .partitionChange .. | .hsTimeoutOut .. | .lockBreak .. | .recordCollect ..
  | .logWriteDone .. | .perrEnqDone .. | .mgmtBad .. | .rsTimeout .. =>
    [.regs, .ni, .recs]
  | .injQueueAdmit .. | .completionDeliver .. | .sampleIndexAlloc .. | .requestRelease .. | .grantIssue ..
  | .grantReceive .. | .resend .. | .greleaseReceive .. | .grantTo .. | .completionReceive ..
  | .pwackReceive .. =>
    [.regs, .ni, .recs, .pmu, .pw]
  | .requestCapture .. | .msgCapture .. | .agentResponse .. | .oreqDeliver .. | .hsTimeoutIn ..
  | .resyncDone .. | .stopped .. | .notify .. =>
    [.regs, .ni, .recs, .pmu, .free]
  | .omsgDeliver .. | .ntfDeliver .. | .portResetDeassert .. | .stopReq .. | .portStopped .. | .stopRelease .. =>
    [.ni]
  | .pchgSwap .. =>
    [.regs, .ni, .acu, .recs, .pmu, .free]
  | .glitch .. | .recordRaise .. =>
    [.regs, .recs]
  | .portResetAssert .. | .cdcPtr .. | .recover .. | .retryReceive .. | .cto .. =>
    [.regs, .ring, .ni, .recs, .pmu, .pw]
  | .bellowsReq .. | .bellowsAck .. | .portsOpen .. | .openGo .. | .pmapEntryWrite .. | .injqHwmClear .. =>
    [.regs, .ni]
  | .retrySweep .. =>
    [.regs, .ni, .recs, .pmu, .pw, .free]
  | .addrMapApply .. | .remapWrite .. | .ringClockChange .. | .powerOffRequest .. | .powerOnRequest ..
  | .fenceReceive .. | .fenceAck .. | .fenceSettleDone .. | .drainComplete .. | .drainTo ..
  | .unfenceReceive .. | .pwrPgFail .. | .fence .. | .unfence .. | .flitPairSend .. | .flitPairReceive ..
  | .d2dIngressInject .. | .d2dLink .. | .retrain .. | .linkTrained .. | .hello .. | .assign ..
  | .discoveryFinish .. | .final .. | .discTo .. | .detourApply .. | .rotate .. | .moduleRecalDone ..
  | .d2dWinCancel .. | .d2dWinOver .. | .d2dModule .. =>
    [.regs, .mem, .ring, .ni, .recs, .pmu, .qe, .store, .cdc, .pw, .d2d]
  | .acuEntryWrite .. | .acuShadowCheck .. | .acuSwap .. =>
    [.regs, .ni, .acu, .recs]
  | .enq .. | .deq .. | .peek .. | .steal .. | .qstat .. | .dbell .. | .delete .. | .forceDelete ..
  | .clearFault .. | .arm .. | .queueDeleteDone .. | .qtEntryWrite .. | .walkComplete .. | .pageMoveComplete ..
  | .devAccessComplete .. | .segEntryWrite .. | .qtlbInvAll .. | .qtlbInvQueue .. | .qtlbInvPage ..
  | .qtlbInvDone .. | .poolWrite .. | .poolFrameLeave .. =>
    [.regs, .mem, .ni, .recs, .pmu, .qe, .store]
  | .scrubStep .. | .mergeDrain .. | .rawWindowRead .. | .rawWindowWrite .. | .qsRemapAdd .. | .qsFill .. =>
    [.regs, .mem, .ni, .recs, .pmu, .store]
  | .rawModeEnable .. | .restoreGo .. | .nvmRead .. | .nvmProgram .. | .nvmErase .. | .nvmCmdDone ..
  | .temperBlkWrite .. | .tsSet .. | .logEnable .. | .ringCntClear .. | .deflCntClear .. | .guarCntClear ..
  | .injStoreHwmClear .. | .portCnt2Clear .. | .portCdcCntClear .. | .txnCntClear .. | .decCntClear ..
  | .qeCntClear .. | .pgCntClear .. | .qsCntClear .. | .absCntClear .. | .dpCntClear .. =>
    [.regs]
  | .fillDone .. | .pgoodRise .. =>
    [.regs, .mem, .ring, .ni, .recs, .pmu, .qe, .store, .cdc, .pw, .d2d, .her]
  | .hearthScrubStep .. =>
    [.regs, .ni, .recs, .store]
  | .hearthTrap .. | .fabResetDeassert .. | .fuseTimeout .. | .fuseReadDone .. | .nvmReady .. | .headersRead ..
  | .copyReadDone .. | .signatureDone .. | .initialCalibrationDone .. | .dieSpecificReadDone ..
  | .restoreWriteDone .. | .commitGo .. | .commitHostAbort .. | .prepare .. | .prepareAck .. | .commitDecide ..
  | .commitAbort .. | .commit .. | .inDoubt .. =>
    [.regs, .mem, .ring, .ni, .acu, .recs, .pmu, .tem, .qe, .store, .cdc, .pw, .d2d, .her]
  | .rclkDone .. =>
    [.regs, .mem, .ring, .ni, .recs, .pmu, .tem, .qe, .store, .cdc, .pw, .d2d]
  | .tickLost .. =>
    [.regs, .recs, .cdc]
  | .wakeRequest .. =>
    [.pw]
  | .d2dRsvExpire .. =>
    [.regs, .d2d]
  | .discoveryReport .. | .d2dWindowDue .. | .win .. | .decisionRequest .. | .winAck .. =>
    [.d2d]
  | .sync .. =>
    [.time, .d2d]
  | .echo .. =>
    [.regs, .mem, .ring, .ni, .recs, .pmu, .qe, .store, .cdc, .pw, .d2d, .free]
  | .fabResetAssert .. | .activation .. | .minimalConfiguration .. | .aonPowerOn .. =>
    [.frame, .time, .regs, .mem, .ring, .ni, .acu, .recs, .pmu, .tem, .qe, .store, .cdc, .pw, .d2d, .her]
  | .fuseAck .. | .wrapperInstruction .. =>
    [.her]
  | .commitSwap .. | .commitLate .. =>
    [.frame, .regs, .mem, .ring, .ni, .acu, .recs, .pmu, .tem, .qe, .store, .cdc, .pw, .d2d, .her]
  | .sweepEnd .. =>
    [.regs, .ni, .recs, .tem]
  | .tsMark .. | .tsCorrection .. =>
    [.time, .regs, .ni, .recs]
  | .tsNowRead .. | .pmcRead .. | .sampleEnable .. | .sampleBufConfig .. =>
    [.regs, .ni, .recs, .pmu]
  | .registerWrite .. =>
    [.frame, .time, .regs, .mem, .ring, .ni, .acu, .recs, .pmu, .tem, .qe, .store, .cdc, .pw, .d2d, .her, .free]
  | .deflCtrlWrite .. =>
    [.frame]
  | .pmcLoad .. =>
    [.pmu]
  | .strobeTime .. =>
    [.d2d, .her]
  | .memoryTest .. | .memoryTestDone .. =>
    [.regs, .mem, .ni, .qe, .store, .her, .free]

/-- The port that a command names, if it is the command of a port of an NI. -/
def portNamed : Instr → Option (Nat × Nat)
  | .requestCapture st k _ => some (st.val, k.val)
  | .msgCapture st k _ => some (st.val, k.val)
  | .agentResponse st k _ => some (st.val, k.val)
  | .oreqDeliver st k => some (st.val, k.val)
  | .omsgDeliver st k => some (st.val, k.val)
  | .ntfDeliver st k => some (st.val, k.val)
  | .partitionChange st k _ _ => some (st.val, k.val)
  | .pchgSwap st k => some (st.val, k.val)
  | .glitch st k _ => some (st.val, k.val)
  | .hsTimeoutIn st k _ => some (st.val, k.val)
  | .hsTimeoutOut st k _ => some (st.val, k.val)
  | .portResetAssert x y k => some ((stopXY x y).val, k.val)
  | .portResetDeassert st k => some (st.val, k.val)
  | .resyncDone x y k => some ((stopXY x y).val, k.val)
  | .rsTimeout st k => some (st.val, k.val)
  | .cdcPtr st k _ _ => some (st.val, k.val)
  | .recover x y k => some ((stopXY x y).val, k.val)
  | .stopReq st k => some (st.val, k.val)
  | .portStopped st k => some (st.val, k.val)
  | .stopRelease st k => some (st.val, k.val)
  | .bellowsReq st k => some (st.val, k.val)
  | .bellowsAck st k => some (st.val, k.val)
  | .stopped st k => some (st.val, k.val)
  | .lockBreak st k => some (st.val, k.val)
  | .notify st k => some (st.val, k.val)
  | .portCnt2Clear st k => some (st.val, k.k.val)
  | .portCdcCntClear st k => some (st.val, k.k.val)
  | .injQueueAdmit st p => some (st.val, p.val)
  | .completionDeliver st p _ => some (st.val, p.val)
  | .requestRelease st p _ => some (st.val, p.val)
  | .cto st p _ _ => some (st.val, p.val)
  | .ringCycle .. | .frameStartStrobe .. | .frameBoundary .. | .epochBoundary .. | .starvation ..
  | .reasmDrop .. | .sampleIndexAlloc .. | .retryReceive .. | .grantIssue .. | .grantReceive .. | .resend ..
  | .greleaseReceive .. | .grantTo .. | .retrySweep .. | .completionReceive .. | .pwackReceive ..
  | .addrMapApply .. | .remapWrite .. | .acuEntryWrite .. | .acuShadowCheck .. | .acuSwap .. | .enq ..
  | .deq .. | .peek .. | .steal .. | .qstat .. | .dbell .. | .delete .. | .forceDelete .. | .clearFault ..
  | .arm .. | .queueDeleteDone .. | .qtEntryWrite .. | .walkComplete .. | .pageMoveComplete ..
  | .devAccessComplete .. | .segEntryWrite .. | .qtlbInvAll .. | .qtlbInvQueue .. | .qtlbInvPage ..
  | .qtlbInvDone .. | .poolWrite .. | .poolFrameLeave .. | .scrubStep .. | .mergeDrain .. | .rawWindowRead ..
  | .rawWindowWrite .. | .rawModeEnable .. | .qsRemapAdd .. | .qsFill .. | .fillDone .. | .hearthScrubStep ..
  | .hearthTrap .. | .ringClockChange .. | .rclkDone .. | .tickLost .. | .powerOffRequest ..
  | .powerOnRequest .. | .fenceReceive .. | .fenceAck .. | .fenceSettleDone .. | .drainComplete ..
  | .drainTo .. | .unfenceReceive .. | .pgoodRise .. | .pwrPgFail .. | .wakeRequest .. | .fence ..
  | .unfence .. | .flitPairSend .. | .flitPairReceive .. | .d2dIngressInject .. | .d2dRsvExpire ..
  | .d2dLink .. | .retrain .. | .linkTrained .. | .hello .. | .assign .. | .discoveryReport ..
  | .discoveryFinish .. | .final .. | .discTo .. | .sync .. | .echo .. | .detourApply .. | .d2dWindowDue ..
  | .win .. | .rotate .. | .moduleRecalDone .. | .d2dWinCancel .. | .d2dWinOver .. | .fabResetAssert ..
  | .fabResetDeassert .. | .fuseAck .. | .fuseTimeout .. | .fuseReadDone .. | .nvmReady .. | .headersRead ..
  | .copyReadDone .. | .signatureDone .. | .initialCalibrationDone .. | .dieSpecificReadDone ..
  | .activation .. | .minimalConfiguration .. | .portsOpen .. | .openGo .. | .restoreGo ..
  | .restoreWriteDone .. | .nvmRead .. | .nvmProgram .. | .nvmErase .. | .nvmCmdDone .. | .commitGo ..
  | .commitHostAbort .. | .prepare .. | .prepareAck .. | .commitDecide .. | .commitAbort .. | .commit ..
  | .commitSwap .. | .inDoubt .. | .commitLate .. | .sweepEnd .. | .temperBlkWrite .. | .tsMark ..
  | .tsCorrection .. | .tsSet .. | .tsNowRead .. | .recordRaise .. | .recordCollect .. | .logWriteDone ..
  | .perrEnqDone .. | .logEnable .. | .mgmtBad .. | .registerWrite .. | .deflCtrlWrite .. | .pmapEntryWrite ..
  | .pmcLoad .. | .pmcRead .. | .sampleEnable .. | .sampleBufConfig .. | .ringCntClear .. | .deflCntClear ..
  | .guarCntClear .. | .injqHwmClear .. | .injStoreHwmClear .. | .txnCntClear .. | .decCntClear ..
  | .qeCntClear .. | .pgCntClear .. | .qsCntClear .. | .absCntClear .. | .dpCntClear .. | .d2dModule ..
  | .decisionRequest .. | .strobeTime .. | .winAck .. | .aonPowerOn .. | .memoryTest .. | .memoryTestDone ..
  | .wrapperInstruction .. => none

end Sys2Proof.Machine
end

