-- ==== Sys2Proof/Certificates/Slice0/Obligations.lean ====
section
/-! DEFINITION. The statements for the provers. -/
open Sys2Proof Sys2Proof.Machine

/-- For every command c and state s whose queue is c followed by rest, step s is exec of c on s with its queue set
to rest. -/
def Obligations.StepRunsTheFrontCommand : Prop :=
  ∀ (c : Instr) (rest : List Instr) (s : State), s.pending = c :: rest →
    step s = exec c { s with pending := rest }

/-- With no command waiting and the fabric out of reset, a step answers a next state in which the master count and
every local count that is not held have advanced by 10, or by 11 or 9 while a positive or negative slew is left
(R463), a held count stands still, and each hold or slew is one hc shorter. That a step on an empty queue is one
hc is the model's choice (log entry 1). -/
def Obligations.IdleStepAdvancesEveryCount : Prop :=
  ∀ s : State, s.pending = [] → s.her.rstLow = false →
    ∃ t, step s = .next t
      ∧ (0 < s.time.hold → t.time.master = s.time.master ∧ t.time.hold = s.time.hold - 1)
      ∧ (s.time.hold = 0 → s.time.slew = 0 → t.time.master = s.time.master + 10)
      ∧ (s.time.hold = 0 → 0 < s.time.slew → t.time.master = s.time.master + 11 ∧ t.time.slew = s.time.slew - 1)
      ∧ (s.time.hold = 0 → s.time.slew < 0 → t.time.master = s.time.master + 9 ∧ t.time.slew = s.time.slew + 1)
      ∧ (∀ st, st < 192 → (s.localTs st).hold = 0 → (s.localTs st).slew = 0 →
          (t.localTs st).count = (s.localTs st).count + 10)
      ∧ (∀ st, st < 192 → 0 < (s.localTs st).hold → (t.localTs st).count = (s.localTs st).count)
      ∧ t.frame = s.frame ∧ (s.pw.seq = none → t.mem = s.mem) ∧ t.ring = s.ring

/-- For every command, when exec answers a next state, every field of the state that mayChange does not list for
that command is what it was: among them the queue of commands, which no command changes. So no command but the
ring cycle, the strobe, the boundaries, a swap, the activation, the minimal configuration, the resets and a
write of DEFL_CTRL touches the frame counters, and no command of the rings, of an agent port or of the
transaction layer touches the memory of the queue stores. -/
def Obligations.EveryCommandKeepsToItsParts : Prop :=
  ∀ (c : Instr) (s t : State), exec c s = .next t → onlyParts (mayChange c) s t

/-- For every command and state: if the port that the command names (if it names one of an agent) exists (Table
1.2), and the command is no RING_CYCLE under WS_INTEST outside test mode, exec answers a next state. A command
of an absent agent port stops with the fault absentPort, and RING_CYCLE with the fault isolated where WS_INTEST
was selected outside test mode. -/
def Obligations.EveryCommandGoesOn : Prop :=
  (∀ (c : Instr) (s : State),
      (∀ st k, portNamed c = some (st, k) → portThere st k = true) →
      (∀ inp, c = .ringCycle inp → s.her.test.broken = false) →
      ∃ t, exec c s = .next t)
    ∧ (∀ (c : Instr) (s : State) (st k : Nat), portNamed c = some (st, k) → portThere st k = false →
      exec c s = .fault .absentPort)
    ∧ (∀ (inp : RcIn) (s : State), s.her.test.broken = true → exec (.ringCycle inp) s = .fault .isolated)

/-- Right after reset the frame counters lie in their ranges (R71, R83, R494) and the memory of the queue stores is
in its canonical form. -/
def Obligations.ResetMeetsTheInvariants : Prop :=
  State.reset.frame.Ok ∧ Memory.wf State.reset.mem

/-- From every state whose frame counters lie in their ranges (FPOS below F, SFRAME below 64, F from 480 to 8,064
rc, the escape count below 48, the place in the epoch below the epoch's length, RCNT of 20 bits), a step that
answers a next state leaves them so: whichever of the 192 commands is at the front of the queue, commits that
change the frame length among them, and on an empty queue. -/
def Obligations.EveryStepKeepsTheFrameCounters : Prop :=
  ∀ s t : State, s.frame.Ok → step s = .next t → t.frame.Ok

/-- From every state whose memory of the queue stores is in canonical form (addresses strictly rising, no entry
equal to what an unlisted address reads as), a step that answers a next state leaves it so, so that equal
contents stay equal data. -/
def Obligations.EveryStepKeepsTheMemoryCanonical : Prop :=
  ∀ s t : State, Memory.wf s.mem → step s = .next t → Memory.wf t.mem

/-- With the ring clock running, the frame started, and no boundary, swap or isolation due, RING_CYCLE completes:
the count of rc rises by one; FPOS rises by one, but at F - 1, where the boundary falls due; the place in the
epoch likewise; frame count, superframe count, F and escape count stay; and nothing changes but the frame
counters, registers, rings, network interfaces, records, counters, calibration, the absent-destination answers
and the die-to-die buffers. -/
def Obligations.RingCycleAdvancesOneRc : Prop :=
  ∀ (inp : RcIn) (s : State), s.her.test.broken = false → s.rcRuns = true → s.frame.running = true →
    s.frame.due = false → s.frame.epochDue = false → s.swapDue = false →
    completes (.ringCycle inp) s (fun t =>
      t.frame.rcs = s.frame.rcs + 1
      ∧ (s.frame.fpos + 1 < 48 * s.frame.flen48 → t.frame.fpos = s.frame.fpos + 1 ∧ t.frame.due = false)
      ∧ (48 * s.frame.flen48 ≤ s.frame.fpos + 1 → t.frame.fpos = s.frame.fpos ∧ t.frame.due = true)
      ∧ (s.frame.epochPos + 1 < 48 * (s.frame.epochSel + 1) →
          t.frame.epochPos = s.frame.epochPos + 1 ∧ t.frame.epochDue = false)
      ∧ (48 * (s.frame.epochSel + 1) ≤ s.frame.epochPos + 1 → t.frame.epochDue = true)
      ∧ t.frame.frameCnt = s.frame.frameCnt ∧ t.frame.sframe = s.frame.sframe
      ∧ t.frame.flen48 = s.frame.flen48 ∧ t.frame.epoch = s.frame.epoch ∧ t.frame.epochSel = s.frame.epochSel
      ∧ onlyParts [.frame, .regs, .ring, .ni, .recs, .pmu, .tem, .pw, .d2d] s t)

/-- The frame-start strobe sets RCNT to 0; each rc advances it by 1 modulo 2^20; while the ring clock is held
RING_CYCLE leaves it. The model keeps one RCNT for the die, so every stop reads the same (R494). -/
def Obligations.SampleClockCountsEveryRc : Prop :=
  (∀ s : State, s.frame.running = false → s.strobeEarly = false →
      completes .frameStartStrobe s (fun t => t.frame.rcnt = 0))
    ∧ (∀ (inp : RcIn) (s : State), s.her.test.broken = false → s.rcRuns = true →
        s.frame.due = false → s.frame.epochDue = false → s.swapDue = false →
        completes (.ringCycle inp) s (fun t => t.frame.rcnt = (s.frame.rcnt + 1) % 2 ^ 20))
    ∧ (∀ (inp : RcIn) (s : State), s.her.test.broken = false → s.cdc.hold = true →
        completes (.ringCycle inp) s (fun t => t.frame.rcnt = s.frame.rcnt))

/-- Before any strobe, and not before its time, FRAME_START_STROBE completes: FPOS, SFRAME, the frame count, the
escape count and the place in the epoch are 0, the frame runs, F is that of FRAME_CTRL.FLEN48_NXT where it lies
in 10 to 168, ESC_EPOCH is that of Hearth's stop, every link's count of CAL transfers is 0, every stop's
timestamp count is the master's, and nothing but the frame counters, the local counts and the calibration
changes. -/
def Obligations.StrobeStartsTheCounters : Prop :=
  ∀ s : State, s.frame.running = false → s.strobeEarly = false →
    completes .frameStartStrobe s (fun t =>
      t.frame.running = true ∧ t.frame.fpos = 0 ∧ t.frame.sframe = 0 ∧ t.frame.frameCnt = 0
      ∧ t.frame.epoch = 0 ∧ t.frame.epochPos = 0 ∧ t.frame.due = false ∧ t.frame.epochDue = false
      ∧ (10 ≤ s.fld gFRAME_CTRL 8 8 → s.fld gFRAME_CTRL 8 8 ≤ 168 → t.frame.flen48 = s.fld gFRAME_CTRL 8 8)
      ∧ t.frame.epochSel = s.fld (stopReg hearthStop sDEFL_CTRL) 2 2
      ∧ (∀ e ∈ t.tem.links, e.2.passes = 0)
      ∧ (∀ st, st < 192 → (t.localTs st).count = s.time.master) ∧ t.time.master = s.time.master
      ∧ onlyParts [.frame, .time, .tem] s t)

/-- When the rc of position F - 1 is over, FRAME_BOUNDARY completes: FPOS is 0, SFRAME has advanced modulo 64 and
FRAME_CNT modulo 2^32, F and the escape count stay, a DEFL_CTRL value whose boundary this is stops waiting and
hands its ESC_EPOCH to the next epoch boundary, each helper that had not finished sets FRAME_OVERRUN, and
nothing but the frame counters, registers, network interfaces and records changes. -/
def Obligations.FrameBoundaryWrapsThePosition : Prop :=
  ∀ (late : List (Fin 8 × StopNo)) (s : State), s.frame.due = true →
    completes (.frameBoundary late) s (fun t =>
      t.frame.fpos = 0 ∧ t.frame.due = false
      ∧ t.frame.sframe = (s.frame.sframe + 1) % 64
      ∧ t.frame.frameCnt = s.frame.frameCnt + 1
      ∧ t.frame.flen48 = s.frame.flen48 ∧ t.frame.epoch = s.frame.epoch ∧ t.frame.epochPos = s.frame.epochPos
      ∧ (∀ v n, s.frame.deflNxt = some (v, n) → n = s.frame.frameCnt + 1 →
          t.frame.deflNxt = none ∧ t.frame.epochNxt = some (fieldOf v 2 2))
      ∧ (∀ v n, s.frame.deflNxt = some (v, n) → n ≠ s.frame.frameCnt + 1 → t.frame.deflNxt = some (v, n))
      ∧ (late ≠ [] → t.flag gFRAME_STAT 1 = true)
      ∧ onlyParts [.frame, .regs, .ni, .recs] s t)

/-- When the last rc of an epoch is over, no frame boundary and no swap being due, EPOCH_BOUNDARY completes: the
escape count has advanced modulo 48, the epoch starts again, a waiting change of ESC_EPOCH is in force, the
marks of ESC slots seen are cleared, FPOS and the frame count stay, and nothing but the frame counters,
registers, rings and records changes. -/
def Obligations.EpochBoundaryAdvancesTheCount : Prop :=
  ∀ s : State, s.frame.epochDue = true → s.frame.due = false → s.swapDue = false →
    completes .epochBoundary s (fun t =>
      t.frame.epoch = (s.frame.epoch + 1) % 48 ∧ t.frame.epochPos = 0 ∧ t.frame.epochDue = false
      ∧ t.frame.epochSel = (s.frame.epochNxt.getD s.frame.epochSel) % 4 ∧ t.frame.epochNxt = none
      ∧ t.frame.fpos = s.frame.fpos ∧ t.frame.frameCnt = s.frame.frameCnt ∧ t.frame.sframe = s.frame.sframe
      ∧ (∀ st d, Tab.get (fun _ => false) t.ring.escSeen (st * 2 + d) = false)
      ∧ onlyParts [.frame, .regs, .ring, .recs] s t)

/-- STARVATION: where a direction's counter has reached STARVE_LIMIT and the direction is not starved, it is starved
afterwards and DEFL_CNT_6 has counted, every other direction is as it was, and no register but DEFL_CNT_6 of the
stop has changed. REASM_DROP: where the rc that lies REASM_LIMIT after the admission of the first slot of a
packet of the named source is over, and the packet is incomplete with a slot that is not in the ejection stage
either, its context is gone afterwards, and the rings, the memory, the queue tables and the frame counters are
as they were. -/
def Obligations.StarvedDirectionAndDroppedPacket : Prop :=
  (∀ (st : StopNo) (d : Fin 4) (s : State),
      s.fld (stopReg st.val sDEFL_CTRL) 4 12 ≤ (s.dir st.val d.val).starve → (s.dir st.val d.val).starved = false →
      completes (.starvation st d) s (fun t =>
        (t.dir st.val d.val).starved = true
        ∧ t.fld (stopReg st.val (sDEFL_CNT + 24)) 0 32 = satAdd 32 (s.fld (stopReg st.val (sDEFL_CNT + 24)) 0 32) 1
        ∧ (∀ a b, a * 4 + b ≠ st.val * 4 + d.val → t.dir a b = s.dir a b)
        ∧ regsBut [stopReg st.val (sDEFL_CNT + 24)] s t
        ∧ onlyParts [.regs, .ring] s t))
    ∧ (∀ (st : StopNo) (src : Src) (r : Reasm) (s : State),
      (s.reasm st.val).find? (fun r => r.src == src
        && decide (s.fld (stopReg st.val sRING_CTRL) 0 20 < s.frame.rcs - r.born)
        && !s.allHere st.val r) = some r →
      completes (.reasmDrop st src) s (fun t =>
        t.reasm st.val = (s.reasm st.val).filter (fun q => !(q.src == r.src && q.store == r.store))
        ∧ onlyParts [.regs, .ni, .recs] s t))

/-- At an existing port whose ready is high and whose FIFOs the NI reads, a request or message without a parity
error completes its capture. One that passes Table 6.13 stands last in the port's tag state, captured, with its
opcode, address, partition and the tag the port gives it, and its bit of the initiator-tag map is set; one that
fails a check sets that check's flag and stands there ready with the check's status if it expects a response,
and leaves the tag state alone otherwise; unsteady beats set PORT_ERR.PROTO. Where the NI does not read, the
packet waits last in the FIFO and the tag state is as it was. With the ready low nothing transfers. Dat beats
that came ahead count as the request's. No other port's tag state changes. -/
def Obligations.CaptureEntersTheTagState : Prop :=
  (∀ (st : StopNo) (k : PortNo) (r q : ReqIn) (s : State), portGen st.val k.val ≠ 0 →
      s.takes st.val k.val (.req r) = true → s.passes st.val k.val (.req r) = true →
      (s.takeEarly st.val k.val r).1 = q →
      s.parityFine st.val k.val (reqErrs (portGen st.val k.val) q) = true →
      completes (.requestCapture st k r) s (fun t =>
        (s.reqCheck st.val k.val q = none → txnAdded st.val k.val s t (fun x => x.phase = .captured
          ∧ x.opc = q.req.opc ∧ x.addr = q.req.addr ∧ x.part = s.portPart st.val k.val q.req.part
          ∧ x.tag = s.fullTag st.val k.val q.req.tag))
        ∧ (∀ f c u z, s.reqCheck st.val k.val q = some (f, c, u, z) →
            t.flag (portReg st.val k.val pERR) f = true
            ∧ (u ≠ 16 → expectsRsp q.req.opc = true →
                txnAdded st.val k.val s t (fun x => x.phase = .ready ∧ x.status = u
                  ∧ x.tag = s.fullTag st.val k.val q.req.tag))
            ∧ (u = 16 ∨ expectsRsp q.req.opc = false → t.txns st.val k.val = s.txns st.val k.val))
        ∧ (q.stable = false → t.flag (portReg st.val k.val pERR) 2 = true)
        ∧ s.captureTag st.val k.val q.req.tag ∈ (t.port st.val k.val).tagMap
        ∧ txnsBut st.val k.val s t ∧ onlyParts [.regs, .ni, .recs, .pmu, .free] s t))
    ∧ (∀ (st : StopNo) (k : PortNo) (m : MsgIn) (s : State), portGen st.val k.val ≠ 0 →
      s.takes st.val k.val (.msg m) = true → s.passes st.val k.val (.msg m) = true →
      s.parityFine st.val k.val (m.beats.map (msgErr (portGen st.val k.val) m)) = true →
      completes (.msgCapture st k m) s (fun t =>
        (s.msgCheck st.val k.val m = none → txnAdded st.val k.val s t (fun x => x.phase = .captured
          ∧ x.opc = m.opc ∧ x.addr = m.qaddr ∧ x.part = s.portPart st.val k.val m.part
          ∧ x.tag = s.fullTag st.val k.val m.tag))
        ∧ (∀ f c u z, s.msgCheck st.val k.val m = some (f, c, u, z) →
            t.flag (portReg st.val k.val pERR) f = true
            ∧ (u ≠ 16 → expectsRsp m.opc = true →
                txnAdded st.val k.val s t (fun x => x.phase = .ready ∧ x.status = u))
            ∧ (u = 16 ∨ expectsRsp m.opc = false → t.txns st.val k.val = s.txns st.val k.val))
        ∧ (m.stable = false → t.flag (portReg st.val k.val pERR) 2 = true)
        ∧ s.captureTag st.val k.val m.tag ∈ (t.port st.val k.val).tagMap
        ∧ txnsBut st.val k.val s t ∧ onlyParts [.regs, .ni, .recs, .pmu, .free] s t))
    ∧ (∀ (st : StopNo) (k : PortNo) (r : ReqIn) (s : State), portGen st.val k.val ≠ 0 →
      completes (.requestCapture st k r) s (fun t =>
        (s.takes st.val k.val (.req r) = true → s.passes st.val k.val (.req r) = false →
          (t.port st.val k.val).inq = (s.port st.val k.val).inq ++ [.req r]
          ∧ t.txns st.val k.val = s.txns st.val k.val)
        ∧ (s.takes st.val k.val (.req r) = false →
          (t.port st.val k.val).inq = (s.port st.val k.val).inq ∧ t.txns st.val k.val = s.txns st.val k.val)))
    ∧ (∀ (st : StopNo) (k : PortNo) (m : MsgIn) (s : State), portGen st.val k.val ≠ 0 →
      completes (.msgCapture st k m) s (fun t =>
        (s.takes st.val k.val (.msg m) = true → s.passes st.val k.val (.msg m) = false →
          (t.port st.val k.val).inq = (s.port st.val k.val).inq ++ [.msg m]
          ∧ t.txns st.val k.val = s.txns st.val k.val)
        ∧ (s.takes st.val k.val (.msg m) = false → t = s)))

/-- At an existing port that checks parity, whose ready is high and whose FIFOs the NI reads, a request with a bad
header byte, or a message whose first beat has one, completes: PORT_ERR.PAR_HDR is set. With byte 0 or 1 bad,
which hold the tag, nothing enters the tag state; otherwise a packet that expects a response enters it ready
with PROTERR, and one that expects none leaves it as it was. -/
def Obligations.HeaderParityErrorRefusesTheRequest : Prop :=
  (∀ (st : StopNo) (k : PortNo) (r : ReqIn) (s : State) (bad : List Nat), portGen st.val k.val ≠ 0 →
      s.takes st.val k.val (.req r) = true → s.passes st.val k.val (.req r) = true →
      s.parityOn st.val k.val = true →
      parityBad (packReq (portGen st.val k.val) r.req).1 (packReq (portGen st.val k.val) r.req).2 r.req.par.toNat
        = bad → bad ≠ [] →
      completes (.requestCapture st k r) s (fun t =>
        t.flag (portReg st.val k.val pERR) 0 = true
        ∧ ((∃ i ∈ bad, i < 2) → t.txns st.val k.val = s.txns st.val k.val)
        ∧ ((∀ i ∈ bad, 2 ≤ i) → expectsRsp r.req.opc = true →
            txnAdded st.val k.val s t (fun x => x.phase = .ready ∧ x.status = stPROTERR
              ∧ x.tag = s.fullTag st.val k.val r.req.tag))
        ∧ ((∀ i ∈ bad, 2 ≤ i) → expectsRsp r.req.opc = false → t.txns st.val k.val = s.txns st.val k.val)
        ∧ txnsBut st.val k.val s t ∧ onlyParts [.regs, .ni, .recs, .pmu, .free] s t))
    ∧ (∀ (st : StopNo) (k : PortNo) (m : MsgIn) (s : State) (b : Beat) (rest : List Beat),
      portGen st.val k.val ≠ 0 → m.beats = b :: rest →
      s.takes st.val k.val (.msg m) = true → s.passes st.val k.val (.msg m) = true →
      s.parityOn st.val k.val = true →
      ((msgErr (portGen st.val k.val) m b).tag = true ∨ (msgErr (portGen st.val k.val) m b).hdr = true) →
      completes (.msgCapture st k m) s (fun t =>
        t.flag (portReg st.val k.val pERR) 0 = true
        ∧ ((msgErr (portGen st.val k.val) m b).tag = true → t.txns st.val k.val = s.txns st.val k.val)
        ∧ ((msgErr (portGen st.val k.val) m b).tag = false → expectsRsp m.opc = true →
            txnAdded st.val k.val s t (fun x => x.phase = .ready ∧ x.status = stPROTERR))
        ∧ txnsBut st.val k.val s t ∧ onlyParts [.regs, .ni, .recs, .pmu, .free] s t))

/-- At an existing port, a captured request that may start completes REQUEST_RELEASE. Decoded already into one
piece: where nothing holds it, it is marked released, its timer runs and its response space is reserved, and it
waits for its completion, or, if posted, for its PWACK, with its acknowledgement due at an agent port; a
guaranteed write leaves the tag state; where its order, a pending list or a full store keeps it, nothing
changes; where a fence holds it, its timer runs and it stays captured; where a fence fails it, it is ready with
FENCED. Not decoded yet: where the decode drops it, it leaves the tag state; where the decode refuses it, it
stands there with the refusal, a posted one to be acknowledged with it; where the decode gives one piece that
may go, it is released. No other port's tag state changes. -/
def Obligations.ReleasedRequestWaitsForItsCompletion : Prop :=
  (∀ (st : StopNo) (p : Fin 4) (tag : Fin 4096) (s : State) (n : Nat) (x : Txn) (c : Piece),
      portThere st.val p.val = true → s.relIndex st.val p.val tag.val = some n → (s.txns st.val p.val)[n]? = some x →
      x.phase = .captured → x.pieces = [c] → c.released = false → s.mayStart st.val p.val x = true →
      completes (.requestRelease st p tag) s (fun t =>
        (s.relCheck st.val p.val x 0 c = .go → x.opc ≠ opGWR →
          txnAt st.val p.val n t (fun u => u.phase = (if opPosted x.opc then .posted else .released)
            ∧ (∃ d, u.pieces = [d] ∧ d.released = true ∧ d.addr = c.addr ∧ d.stop = c.stop)
            ∧ u.timer = true ∧ u.tag = x.tag ∧ u.resv = (if x.resv = 0 then x.rspNeed else x.resv)
            ∧ u.ack = (x.ack || (opPosted x.opc && decide (p.val < 2) && !x.acked))))
        ∧ (s.relCheck st.val p.val x 0 c = .go → x.opc = opGWR →
          t.txns st.val p.val = (s.txns st.val p.val).eraseIdx n)
        ∧ (s.relCheck st.val p.val x 0 c = .wait → t = s)
        ∧ (s.relCheck st.val p.val x 0 c = .held → x.opc ≠ opGWR →
          txnAt st.val p.val n t (fun u => u = s.armed st.val x))
        ∧ (s.relCheck st.val p.val x 0 c = .fenced → x.opc ≠ opGWR → x.acked = false → c.status = none →
          x.permit = [] → txnAt st.val p.val n t (fun u => u.phase = .ready
            ∧ u.status = walkStatus x.attr stFENCED ∧ u.tag = x.tag))
        ∧ txnsBut st.val p.val s t ∧ onlyParts [.regs, .ni, .recs, .pmu, .pw] s t))
    ∧ (∀ (st : StopNo) (p : Fin 4) (tag : Fin 4096) (s : State) (n : Nat) (x : Txn),
      portThere st.val p.val = true → s.relIndex st.val p.val tag.val = some n → (s.txns st.val p.val)[n]? = some x →
      x.phase = .captured → x.pieces = [] → x.acked = false → s.mayStart st.val p.val x = true →
      completes (.requestRelease st p tag) s (fun t =>
        ((s.decodeTxn st.val p.val x).1 = none → t.txns st.val p.val = (s.txns st.val p.val).eraseIdx n)
        ∧ (∀ u, (s.decodeTxn st.val p.val x).1 = some u → u.phase ≠ .captured →
          txnAt st.val p.val n t (fun y => y = if opPosted u.opc then { u with ack := true } else u))
        ∧ (∀ u c, (s.decodeTxn st.val p.val x).1 = some u → u.phase = .captured → u.pieces = [c] →
          u.opc ≠ opGWR →
          ((s.decodeTxn st.val p.val x).2.putTxn st.val p.val n (some u)).relCheck st.val p.val u 0 c = .go →
          txnAt st.val p.val n t (fun y => y.phase = (if opPosted x.opc then .posted else .released)
            ∧ y.timer = true ∧ y.tag = x.tag))
        ∧ txnsBut st.val p.val s t ∧ onlyParts [.regs, .ni, .recs, .pmu, .pw] s t))

/-- At an existing port, the first packet that waits in the receive stage, of whichever class, whose context (that
of its INJ entry, else that of the partition map) the store admits, completes its admission: it has left the
receive stage, the others staying in order, and stands in the queue of its context and class, which holds one
packet more; every other queue is as it was. Where nothing waits, nothing changes. -/
def Obligations.WaitingPacketEntersItsQueue : Prop :=
  (∀ (st : StopNo) (p : Fin 4) (s : State) (h : Held) (rest : List Held) (c : Nat),
      portThere st.val p.val = true → s.heldAt st.val p.val = h :: rest →
      (h.ctx.getD (s.mapCtx st.val (Pkt.head h.slots).part).1) = c →
      (s.setHeld st.val p.val rest).canAdmit st.val c (Pkt.head h.slots).cls h.slots.length h.resend = true →
      completes (.injQueueAdmit st p) s (fun t =>
        t.heldAt st.val p.val = rest
        ∧ (t.injq st.val (8 * c + (Pkt.head h.slots).cls)).length
          = (s.injq st.val (8 * c + (Pkt.head h.slots).cls)).length + 1
        ∧ (∃ e ∈ t.injq st.val (8 * c + (Pkt.head h.slots).cls), e.slots = h.slots ∧ e.port = p.val ∧ e.next = 0
            ∧ e.resend = h.resend ∧ e.mark = h.mark)
        ∧ (∀ a q, a * 512 + q ≠ st.val * 512 + (8 * c + (Pkt.head h.slots).cls) → t.injq a q = s.injq a q)
        ∧ onlyParts [.regs, .ni, .recs, .pmu, .pw] s t))
    ∧ (∀ (st : StopNo) (p : Fin 4) (s : State), portThere st.val p.val = true → s.heldAt st.val p.val = [] →
      completes (.injQueueAdmit st p) s (fun t => t = s))

/-- COMPLETION_RECEIVE: a completion in the response store that a released request awaits leaves the store and
answers its piece; with no piece left the request is ready, unless posted. One that no request awaits leaves the
store and TXN_CNT_6 counts it, or, of an old tag generation, changes no register of TXN_CNT_6. PWACK_RECEIVE: a
PWACK that a posted request of one piece awaits leaves the store and ends the request, or makes it ready where
its acknowledgement is still due. COMPLETION_DELIVER: at an open agent port whose orsp channel is free, or at
ports 2 and 3, a completion in its turn is handed over: it leaves the tag state, or stays acknowledged or
haunting, and orsp carries its beats. CTO: a request at its limit that no answer in the store completes becomes
ready with TIMEOUT as WALK rewrites it, held or released; a posted one handed over already, and one of an old
generation, leave the tag state. -/
def Obligations.CompletionsReachTheirRequests : Prop :=
  (∀ (st : StopNo) (p : Pkt) (s : State) (n i : Nat) (x : Txn) (c : Piece),
      (s.rspIn st.val).contains p = true →
      s.txnFor st.val (Pkt.head p).dport (Pkt.head p).tag (Pkt.head p).addr (fun ph => ph == .released) = some n →
      (s.txns st.val (Pkt.head p).dport)[n]? = some x → opPosted x.opc = false →
      x.pieces.zipIdx.find? (fun c => c.1.awaits (Pkt.head p).addr) = some (c, i) →
      completes (.completionReceive st p) s (fun t =>
        txnAt st.val (Pkt.head p).dport n t (fun u => u.tag = x.tag
          ∧ (∃ v, u.pieces = x.pieces.set i { c with status := some v })
          ∧ u.phase = (if u.pieces.any (fun d => d.status.isNone) then x.phase else .ready))
        ∧ t.rspIn st.val = (s.rspIn st.val).erase p
        ∧ txnsBut st.val (Pkt.head p).dport s t ∧ onlyParts [.regs, .ni, .recs, .pmu, .pw] s t))
    ∧ (∀ (st : StopNo) (p : Pkt) (s : State), (s.rspIn st.val).contains p = true →
      s.txnFor st.val (Pkt.head p).dport (Pkt.head p).tag (Pkt.head p).addr
        (fun ph => ph == .released) = none →
      s.txnFor st.val (Pkt.head p).dport (Pkt.head p).tag (Pkt.head p).addr
        (fun ph => ph == .posted) = none →
      completes (.completionReceive st p) s (fun t =>
        t.rspIn st.val = (s.rspIn st.val).erase p
        ∧ (((Pkt.head p).dport < 2 → (Pkt.head p).tag / 1024 = (s.port st.val (Pkt.head p).dport).tgen) →
            t.fld (stopReg st.val (sTXN_CNT + 24)) 0 32 = satAdd 32 (s.fld (stopReg st.val (sTXN_CNT + 24)) 0 32) 1)
        ∧ ((Pkt.head p).dport < 2 → (Pkt.head p).tag / 1024 ≠ (s.port st.val (Pkt.head p).dport).tgen →
            t.fld (stopReg st.val (sTXN_CNT + 24)) 0 32 = s.fld (stopReg st.val (sTXN_CNT + 24)) 0 32)))
    ∧ (∀ (st : StopNo) (p : Pkt) (s : State) (n : Nat) (x : Txn) (c : Piece), (s.rspIn st.val).contains p = true →
      s.txnFor st.val (Pkt.head p).dport (Pkt.head p).tag (Pkt.head p).addr
        (fun ph => ph == .posted || ph == .released) = some n →
      (s.txns st.val (Pkt.head p).dport)[n]? = some x → x.phase = .posted → x.pieces = [c] →
      c.awaits (Pkt.head p).addr = true → opPosted x.opc = true →
      completes (.pwackReceive st p) s (fun t =>
        (x.ack = false → t.txns st.val (Pkt.head p).dport = (s.txns st.val (Pkt.head p).dport).eraseIdx n)
        ∧ (x.ack = true → txnAt st.val (Pkt.head p).dport n t (fun u => u.phase = .ready ∧ u.tag = x.tag))
        ∧ t.rspIn st.val = (s.rspIn st.val).erase p
        ∧ txnsBut st.val (Pkt.head p).dport s t ∧ onlyParts [.regs, .ni, .recs, .pmu, .pw] s t))
    ∧ (∀ (st : StopNo) (p : Fin 4) (tag : Fin 4096) (s : State) (n : Nat) (x : Txn), portThere st.val p.val = true →
      (p.val < 2 → (s.port st.val p.val).state = 2 ∧ (s.port st.val p.val).stopLvl = false
        ∧ s.outFree st.val p.val .orsp = true) →
      (s.unitTags st.val p.val).contains tag.val = false →
      (s.txns st.val p.val).zipIdx.find? (fun e => e.1.tag == tag.val && e.1.deliverable) = some (x, n) →
      s.inTurn st.val p.val x = true →
      completes (.completionDeliver st p tag) s (fun t =>
        (x.phase = .ready → x.haunts = false → t.txns st.val p.val = (s.txns st.val p.val).eraseIdx n)
        ∧ (x.phase = .ready → x.haunts = true → txnAt st.val p.val n t (fun u => u.phase = .haunt ∧ u.tag = x.tag))
        ∧ (x.phase = .posted → txnAt st.val p.val n t (fun u => u = { x with ack := false, acked := true }))
        ∧ (p.val < 2 → driven st.val p.val .orsp (s.rspOut st.val p.val x) s t)
        ∧ txnsBut st.val p.val s t ∧ onlyParts [.regs, .ni, .recs, .pmu, .pw] s t))
    ∧ (∀ (st : StopNo) (p : Fin 4) (tag : Fin 4096) (held : Bool) (s : State) (n : Nat) (x : Txn),
      portThere st.val p.val = true → s.retriesFirst st.val p.val tag.val = s →
      (s.txns st.val p.val).zipIdx.find? (fun e => e.1.tag == tag.val && s.overdue e.1 && e.1.phase.timed held)
        = some (x, n) →
      s.answered st.val p.val x = false →
      completes (.cto st p tag held) s (fun t =>
        (x.phase = .captured ∨ x.phase = .released → x.acked = false →
          txnAt st.val p.val n t (fun u => u.phase = .ready ∧ u.status = walkStatus x.attr stTIMEOUT
            ∧ u.tag = x.tag ∧ u.timer = false))
        ∧ (x.phase = .posted → x.ack = true → txnAt st.val p.val n t (fun u => u = { x with phase := .ready }))
        ∧ (x.phase = .posted → x.ack = false → t.txns st.val p.val = (s.txns st.val p.val).eraseIdx n)
        ∧ (x.phase = .stale → t.txns st.val p.val = (s.txns st.val p.val).eraseIdx n)
        ∧ txnsBut st.val p.val s t ∧ onlyParts [.regs, .ring, .ni, .recs, .pmu, .pw] s t))

/-- RETRY_RECEIVE: a RETRY in the response store leaves it; for a live request to a stop that no fence keeps, the
request's packet waits, last, in the pending list for that stop; for no live request a void entry does.
GRANT_ISSUE: with a record waiting and room for its size class, the record's grant is out under its next number,
with the entries of its class reserved and its GSZ and limit kept. GRANT_RECEIVE: a grant not answered before,
whose oldest ungranted entry is not void, marks that entry granted with its number; a void entry leaves the
list; one answered before changes no list. GRELEASE_RECEIVE: the number of the grant that is out clears it,
frees its entries and lowers COUNT; another number changes no record. GRANT_TO: a grant out for its GRANT_TO rc,
with no answer waiting, is sent again, its record unchanged but for the time. RETRY_SWEEP: after REASM_LIMIT rc
every record not listed has AGE set, and a record without packets or grants whose slots have aged is cleared. -/
def Obligations.RefusedPacketsAndGrants : Prop :=
  (∀ (st : StopNo) (p : Pkt) (s : State) (n i : Nat) (x : Txn) (c : Piece), (s.rspIn st.val).contains p = true →
      s.txnFor st.val (Pkt.head p).dport (Pkt.head p).tag (Pkt.head p).addr
        (fun ph => match ph with | .released => true | .posted => true | _ => false) = some n →
      (s.txns st.val (Pkt.head p).dport)[n]? = some x →
      x.pieces.zipIdx.find? (fun c => c.1.awaits (Pkt.head p).addr) = some (c, i) →
      s.fenced st.val c.die c.stop c.port = false →
      completes (.retryReceive st p) s (fun t =>
        t.rspIn st.val = (s.rspIn st.val).erase p
        ∧ t.pend st.val (recNo (Pkt.head p).sdie (Pkt.head p).sstop)
          = s.pend st.val (recNo (Pkt.head p).sdie (Pkt.head p).sstop)
            ++ [{ port := (Pkt.head p).dport, tag := (Pkt.head p).tag, addr := (Pkt.head p).addr, void := false,
                  granted := none }]
        ∧ onlyParts [.regs, .ring, .ni, .recs, .pmu, .pw] s t))
    ∧ (∀ (st : StopNo) (p : Pkt) (s : State), (s.rspIn st.val).contains p = true →
      s.txnFor st.val (Pkt.head p).dport (Pkt.head p).tag (Pkt.head p).addr
        (fun ph => match ph with | .released => true | .posted => true | _ => false) = none →
      completes (.retryReceive st p) s (fun t =>
        t.rspIn st.val = (s.rspIn st.val).erase p
        ∧ t.pend st.val (recNo (Pkt.head p).sdie (Pkt.head p).sstop)
          = s.pend st.val (recNo (Pkt.head p).sdie (Pkt.head p).sstop)
            ++ [{ port := (Pkt.head p).dport, tag := (Pkt.head p).tag, addr := (Pkt.head p).addr, void := true,
                  granted := none }]))
    ∧ (∀ (st : StopNo) (s : State) (n : Nat) (r : Retry),
      s.nextGrant st.val = some (n, r) → s.reqUsed st.val + classSlots r.sz ≤ 128 →
      completes (.grantIssue st) s (fun t =>
        t.retry st.val n = { r with gout := true, gnum := (r.gnum + 1) % 16, resv := classSlots r.sz,
                                    sent := s.frame.rcs, gsz := r.sz,
                                    limit := s.fld (stopReg st.val sGRANT_CTRL) 0 20 }
        ∧ onlyParts [.regs, .ni, .recs, .pmu, .pw] s t))
    ∧ (∀ (st : StopNo) (p : Pkt) (s : State) (e : Pend) (i : Nat), (s.rspIn st.val).contains p = true →
      Tab.get (fun _ => 0) s.ni.lastG (st.val * 3072 + recNo (Pkt.head p).sdie (Pkt.head p).sstop)
        ≠ (Pkt.head p).gnum + 1 →
      firstUngranted (s.pend st.val (recNo (Pkt.head p).sdie (Pkt.head p).sstop)) = some (e, i) →
      completes (.grantReceive st p) s (fun t =>
        t.pend st.val (recNo (Pkt.head p).sdie (Pkt.head p).sstop)
          = (if e.void then (s.pend st.val (recNo (Pkt.head p).sdie (Pkt.head p).sstop)).eraseIdx i
             else (s.pend st.val (recNo (Pkt.head p).sdie (Pkt.head p).sstop)).set i
              { e with granted := some (Pkt.head p).gnum })
        ∧ t.rspIn st.val = (s.rspIn st.val).erase p
        ∧ onlyParts [.regs, .ni, .recs, .pmu, .pw] s t))
    ∧ (∀ (st : StopNo) (p : Pkt) (s : State), (s.rspIn st.val).contains p = true →
      Tab.get (fun _ => 0) s.ni.lastG (st.val * 3072 + recNo (Pkt.head p).sdie (Pkt.head p).sstop)
        = (Pkt.head p).gnum + 1 →
      completes (.grantReceive st p) s (fun t =>
        t.ni.pend = s.ni.pend ∧ t.rspIn st.val = (s.rspIn st.val).erase p ∧ onlyParts [.ni] s t))
    ∧ (∀ (st : StopNo) (p : Pkt) (s : State) (r : Retry), (s.rspIn st.val).contains p = true →
      s.retry st.val (recNo (Pkt.head p).sdie (Pkt.head p).sstop) = r →
      completes (.greleaseReceive st p) s (fun t =>
        t.retry st.val (recNo (Pkt.head p).sdie (Pkt.head p).sstop)
          = (if r.gout ∧ r.gnum = (Pkt.head p).gnum then { r with gout := false, resv := 0, count := r.count - 1 } else r)
        ∧ t.rspIn st.val = (s.rspIn st.val).erase p
        ∧ onlyParts [.regs, .ni] s t))
    ∧ (∀ (st : StopNo) (rcd : Fin 3072) (s : State), (s.retry st.val rcd.val).gout = true →
      (s.retry st.val rcd.val).limit ≤ s.frame.rcs - (s.retry st.val rcd.val).sent →
      s.releaseWaits st.val rcd.val (s.retry st.val rcd.val) = false →
      completes (.grantTo st rcd) s (fun t =>
        t.retry st.val rcd.val = { s.retry st.val rcd.val with sent := s.frame.rcs }
        ∧ onlyParts [.regs, .ni, .recs, .pmu, .pw] s t))
    ∧ (∀ (st : StopNo) (s : State),
      s.fld (stopReg st.val sRING_CTRL) 0 20 ≤ s.frame.rcs - Tab.get (fun _ => 0) s.ni.swept st.val →
      completes (.retrySweep ⟨st, []⟩) s (fun t =>
        Tab.get (fun _ => 0) t.ni.swept st.val = s.frame.rcs
        ∧ (s.retriesOf st.val = [] → ∀ n, n < 3072 → (t.retry st.val n).age = true)
        ∧ (∀ n r, s.retriesOf st.val = [(n, r)] → t.retry st.val n = r.sweep.1)
        ∧ onlyParts [.regs, .ni] s t))

/-- Where the pending list for a stop holds a granted entry that is not void and whose request still awaits an
answer at the entry's address, RESEND completes: if its last injected slot went in at least RESEND_HOLD rc ago
the entry is gone and the piece is marked sent again with no slot injected, under that grant; else nothing
changes. An entry that became void, or whose request awaits nothing any more, is gone, and no transaction
changes. -/
def Obligations.GrantedPacketIsSentAgain : Prop :=
  (∀ (st : StopNo) (die : Fin 16) (stop : StopNo) (s : State) (e : Pend) (i n j : Nat) (x : Txn) (c : Piece),
      (s.pend st.val (recNo die.val stop.val)).zipIdx.find? (fun e => e.1.granted.isSome) = some (e, i) →
      e.void = false →
      s.txnFor st.val e.port e.tag e.addr (fun ph => ph == .released || ph == .posted) = some n →
      (s.txns st.val e.port)[n]? = some x →
      x.pieces.zipIdx.find? (fun c => c.1.awaits e.addr) = some (c, j) →
      completes (.resend st die stop) s (fun t =>
        (s.fld (stopReg st.val sDEFL_CTRL) 16 16 ≤ s.frame.rcs - c.lastInj →
          t.pend st.val (recNo die.val stop.val) = (s.pend st.val (recNo die.val stop.val)).eraseIdx i
          ∧ (∃ y : Piece, y = { c with resent := true, injected := 0
                                       grantBy := some (die.val, stop.val, e.granted.getD 0) }
              ∧ (t.txns st.val e.port)[n]? = some { x with pieces := x.pieces.set j y }))
        ∧ (s.frame.rcs - c.lastInj < s.fld (stopReg st.val sDEFL_CTRL) 16 16 → t = s)
        ∧ onlyParts [.regs, .ni, .recs, .pmu, .pw] s t))
    ∧ (∀ (st : StopNo) (die : Fin 16) (stop : StopNo) (s : State) (e : Pend) (i : Nat),
      (s.pend st.val (recNo die.val stop.val)).zipIdx.find? (fun e => e.1.granted.isSome) = some (e, i) →
      (e.void = true ∨
        s.txnFor st.val e.port e.tag e.addr (fun ph => ph == .released || ph == .posted) = none) →
      completes (.resend st die stop) s (fun t =>
        t.pend st.val (recNo die.val stop.val) = (s.pend st.val (recNo die.val stop.val)).eraseIdx i
        ∧ t.ni.txns = s.ni.txns
        ∧ onlyParts [.regs, .ni, .recs, .pmu, .pw] s t))

/-- LOCK_BREAK: at an existing port locked by a source whose LOCK_TO has passed, with no request admitted that ends
the lock, the lock is gone afterwards, that source is marked as one whose lock was broken, and TXN_CNT_7 has
counted. SAMPLE_INDEX_ALLOC: the next asking stop in rotation, with a record waiting, is served: its record
leaves its queue; with the buffer not full SAMPLE_HEAD advances modulo the buffer's size, the count of indexes
rises by one, and port 2 of that stop has one transaction more, a posted write to the record's place; with the
buffer full SAMPLE_STAT.FULL is set and the record is dropped. With no record waiting nothing changes. -/
def Obligations.BrokenLocksAndSampleIndexes : Prop :=
  (∀ (st : StopNo) (k : PortNo) (s : State) (o : Src), portGen st.val k.val ≠ 0 →
      (s.port st.val k.val).lockedBy = some o → (s.port st.val k.val).lockDue ≤ s.cdc.hct →
      s.unlockWaits st.val k.val = false →
      completes (.lockBreak st k) s (fun t =>
        t.port st.val k.val = { s.port st.val k.val with lockedBy := none
                                                         brokenFor := (s.port st.val k.val).brokenFor ++ [o] }
        ∧ t.fld (stopReg st.val (sTXN_CNT + 28)) 0 32 = satAdd 32 (s.fld (stopReg st.val (sTXN_CNT + 28)) 0 32) 1
        ∧ onlyParts [.regs, .ni, .recs] s t))
    ∧ (∀ (s : State) (st : Nat) (r : BitVec 512) (rest : List (BitVec 512)),
      ((List.range 192).map (fun i => (s.pmu.rot + 1 + i) % 192)).find?
        (fun st => !(s.sampleQ st).isEmpty) = some st →
      s.sampleQ st = r :: rest →
      completes .sampleIndexAlloc s (fun t =>
        t.sampleQ st = rest ∧ t.pmu.rot = st
        ∧ ((s.fld gSAMPLE_HEAD 0 20 + s.sampleSize - s.fld gSAMPLE_TAIL 0 20 % s.sampleSize) % s.sampleSize
            ≠ s.sampleSize - 1 →
          t.fld gSAMPLE_HEAD 0 20 = (s.fld gSAMPLE_HEAD 0 20 + 1) % s.sampleSize
          ∧ t.pmu.alloc = s.pmu.alloc + 1
          ∧ txnAdded st 2 s t (fun x => x.opc = opBWR_P ∧ x.len = 63
            ∧ x.addr = s.fld gSAMPLE_BUF_BASE 0 32 * 2 ^ 20 + 64 * s.fld gSAMPLE_HEAD 0 20))
        ∧ ((s.fld gSAMPLE_HEAD 0 20 + s.sampleSize - s.fld gSAMPLE_TAIL 0 20 % s.sampleSize) % s.sampleSize
            = s.sampleSize - 1 →
          t.flag gSAMPLE_STAT 0 = true ∧ t.fld gSAMPLE_HEAD 0 20 = s.fld gSAMPLE_HEAD 0 20
          ∧ t.txns st 2 = s.txns st 2 ∧ t.pmu.lostBuf = true)
        ∧ onlyParts [.regs, .ni, .pmu] s t))
    ∧ (∀ s : State, (∀ st, st < 192 → s.sampleQ st = []) → completes .sampleIndexAlloc s (fun t => t = s))

/-- At an existing open port that is not asked to stop, the packet that goes next (a guaranteed one ahead of the
others, R101) completes its delivery. Where no broken lock, poison or GLP-2 ATOM bars it, its channels are free
and, if it expects a response, a target tag is free, it leaves the inbox, oreq and odat carry its beats behind
what they carried, and it is held under a target tag if it expects a response. An ATOM at a GLP-2 port, data
poisoned that the port cannot hand on as such, and the next request of a source whose lock was broken leave the
inbox and are not presented; the last ends the mark of the broken lock. Where a channel or a target tag is
wanting nothing changes. AGENT_RESPONSE: a response that transfers and that the NI reads, without an error in
its tag bytes, completes. If its tag names a request outstanding, whatever its status, beats, parity and poison,
that request has one burst less to be answered, and none left ends it; else PORT_ERR.STRAY is set and no request
changes. A response with an error in its first beat's tag bytes changes no request. Where the NI does not read,
the response waits in its FIFO. OMSG_DELIVER and NTF_DELIVER: at an open GLP-2 or GLP-3 port, or GLP-4 port,
whose channel is free, the first notification of the stage leaves it and its beat stands last on the channel.
NOTIFY: the oldest NOTIFY in the store, where the stage has room, it merges or the port is CLOSED or in RESYNC,
leaves the store; it joins the stage unless merged or discarded. -/
def Obligations.PortAnswersAndDeliveries : Prop :=
  ((∀ (st : StopNo) (k : PortNo) (s : State) (d : Deliv) (i : Nat), portGen st.val k.val ≠ 0 →
        (s.port st.val k.val).state = 2 → (s.port st.val k.val).stopLvl = false →
        s.nextDeliv st.val k.val = some (d, i) →
        (s.port st.val k.val).brokenFor.contains { (Pkt.head d.slots).src with tag := 0 } = false →
        ((Pkt.head d.slots).opc = opATOM → portGen st.val k.val ≠ 1) →
        (opCarriesData (Pkt.head d.slots).opc = true → (Pkt.head d.slots).attrBit attrPois = true →
          s.poisonOk st.val k.val = true) →
        completes (.oreqDeliver st k) s (fun t =>
          (s.mayPresent st.val k.val (Pkt.head d.slots) = true → wantsRsp (Pkt.head d.slots).opc = true →
            (s.ttxns st.val k.val).length ≤ s.fld (portReg st.val k.val pCFG) 16 10 →
            t.inbox st.val k.val = (s.inbox st.val k.val).eraseIdx i
            ∧ ∃ x : TTxn, t.ttxns st.val k.val = s.ttxns st.val k.val ++ [x]
                ∧ x.head = d.slots.getLastD (Pkt.head d.slots) ∧ x.status = stOK ∧ x.data = []
                ∧ x.bursts = (outBursts (portGen st.val k.val) (Pkt.head d.slots)).length
                ∧ driven st.val k.val .oreq ((s.oreqOf st.val k.val x.ttag d.slots).filter (·.chan == .oreq)) s t
                ∧ driven st.val k.val .odat ((s.oreqOf st.val k.val x.ttag d.slots).filter (·.chan == .odat)) s t)
          ∧ (s.mayPresent st.val k.val (Pkt.head d.slots) = true → wantsRsp (Pkt.head d.slots).opc = false →
            t.inbox st.val k.val = (s.inbox st.val k.val).eraseIdx i ∧ t.ttxns st.val k.val = s.ttxns st.val k.val
            ∧ driven st.val k.val .oreq ((s.oreqOf st.val k.val 0 d.slots).filter (·.chan == .oreq)) s t
            ∧ driven st.val k.val .odat ((s.oreqOf st.val k.val 0 d.slots).filter (·.chan == .odat)) s t)
          ∧ (s.mayPresent st.val k.val (Pkt.head d.slots) = false → t = s)
          ∧ (wantsRsp (Pkt.head d.slots).opc = true →
              s.fld (portReg st.val k.val pCFG) 16 10 < (s.ttxns st.val k.val).length → t = s)
          ∧ onlyParts [.regs, .ni, .recs, .pmu, .free] s t))
      ∧ (∀ (st : StopNo) (k : PortNo) (s : State) (d : Deliv) (i : Nat), portGen st.val k.val ≠ 0 →
        (s.port st.val k.val).state = 2 → (s.port st.val k.val).stopLvl = false →
        s.nextDeliv st.val k.val = some (d, i) →
        ((s.port st.val k.val).brokenFor.contains { (Pkt.head d.slots).src with tag := 0 } = true
          ∨ ((Pkt.head d.slots).opc = opATOM ∧ portGen st.val k.val = 1)
          ∨ (opCarriesData (Pkt.head d.slots).opc = true ∧ (Pkt.head d.slots).attrBit attrPois = true
              ∧ s.poisonOk st.val k.val = false)) →
        completes (.oreqDeliver st k) s (fun t =>
          t.inbox st.val k.val = (s.inbox st.val k.val).eraseIdx i ∧ t.ttxns st.val k.val = s.ttxns st.val k.val
          ∧ (∀ c, driven st.val k.val c [] s t)
          ∧ ((s.port st.val k.val).brokenFor.contains { (Pkt.head d.slots).src with tag := 0 } = true →
            (t.port st.val k.val).brokenFor
              = (s.port st.val k.val).brokenFor.erase { (Pkt.head d.slots).src with tag := 0 })
          ∧ onlyParts [.regs, .ni, .recs, .pmu, .free] s t)))
  ∧ ((∀ (st : StopNo) (k : PortNo) (r : RspIn) (s : State), portGen st.val k.val ≠ 0 →
        s.takes st.val k.val (.rsp r) = true → s.passes st.val k.val (.rsp r) = true →
        (s.parityOn st.val k.val = true → ∀ b ∈ r.beats, (rspErr (portGen st.val k.val) r b).tag = false) →
        completes (.agentResponse st k r) s (fun t =>
          (∀ x i, s.ttxnFor st.val k.val r.tag = some (x, i) → x.bursts ≤ 1 →
            t.ttxns st.val k.val = (s.ttxns st.val k.val).eraseIdx i)
          ∧ (∀ x i, s.ttxnFor st.val k.val r.tag = some (x, i) → 1 < x.bursts →
            ∃ y : TTxn, t.ttxns st.val k.val = (s.ttxns st.val k.val).set i y ∧ y.bursts = x.bursts - 1
              ∧ y.head = x.head ∧ y.ttag = x.ttag ∧ (x.status ≠ stOK → y.status = x.status))
          ∧ (s.ttxnFor st.val k.val r.tag = none →
            t.flag (portReg st.val k.val pERR) 5 = true ∧ t.ttxns st.val k.val = s.ttxns st.val k.val)
          ∧ t.inbox st.val k.val = s.inbox st.val k.val
          ∧ onlyParts [.regs, .ni, .recs, .pmu, .free] s t))
      ∧ (∀ (st : StopNo) (k : PortNo) (r : RspIn) (s : State) (b : Beat) (rest : List Beat), portGen st.val k.val ≠ 0 →
        s.takes st.val k.val (.rsp r) = true → s.passes st.val k.val (.rsp r) = true →
        s.parityOn st.val k.val = true → r.beats = b :: rest →
        (rspErr (portGen st.val k.val) r b).tag = true →
        completes (.agentResponse st k r) s (fun t =>
          t.flag (portReg st.val k.val pERR) 0 = true ∧ t.ttxns st.val k.val = s.ttxns st.val k.val))
      ∧ (∀ (st : StopNo) (k : PortNo) (r : RspIn) (s : State), portGen st.val k.val ≠ 0 →
        completes (.agentResponse st k r) s (fun t =>
          (s.takes st.val k.val (.rsp r) = true → s.passes st.val k.val (.rsp r) = false →
            (t.port st.val k.val).inq = (s.port st.val k.val).inq ++ [.rsp r]
            ∧ t.ttxns st.val k.val = s.ttxns st.val k.val)
          ∧ (s.takes st.val k.val (.rsp r) = false → t = s)))
      ∧ (∀ (st : StopNo) (k : PortNo) (s : State) (m : Ntf) (rest : List Ntf), portGen st.val k.val ≠ 0 →
        portGen st.val k.val ≠ 3 → (s.port st.val k.val).state = 2 → (s.port st.val k.val).stopLvl = false →
        (s.port st.val k.val).ntf = m :: rest → s.outFree st.val k.val .omsg = true →
        completes (.omsgDeliver st k) s (fun t =>
          (t.port st.val k.val).ntf = rest
          ∧ driven st.val k.val .omsg [OutBeat.seal (portGen st.val k.val) false m.onMsg] s t
          ∧ onlyParts [.ni] s t))
      ∧ (∀ (st : StopNo) (k : PortNo) (s : State) (m : Ntf) (rest : List Ntf), portGen st.val k.val = 3 →
        (s.port st.val k.val).state = 2 → (s.port st.val k.val).stopLvl = false →
        (s.port st.val k.val).ntf = m :: rest → s.outFree st.val k.val .ntf = true →
        completes (.ntfDeliver st k) s (fun t =>
          (t.port st.val k.val).ntf = rest
          ∧ driven st.val k.val .ntf [OutBeat.seal 3 false m.onSide] s t
          ∧ onlyParts [.ni] s t))
      ∧ (∀ (st : StopNo) (k : PortNo) (s : State) (d : Deliv) (i : Nat) (n : Ntf), portGen st.val k.val ≠ 0 →
        (s.inbox st.val k.val).zipIdx.find? (fun e => (Pkt.head e.1.slots).opc == opNOTIFY && !e.1.early)
          = some (d, i) →
        n = { rcd := (Pkt.head d.slots).addr
              src := peerOf (Pkt.head d.slots).sdie (Pkt.head d.slots).sstop (Pkt.head d.slots).sport
              part := (Pkt.head d.slots).part } →
        ((s.port st.val k.val).ntf.length < 16 ∨ (s.port st.val k.val).ntf.any (fun m => m.sameAs n) = true
          ∨ (s.port st.val k.val).state ≤ 1) →
        completes (.notify st k) s (fun t =>
          t.inbox st.val k.val = (s.inbox st.val k.val).eraseIdx i
          ∧ (t.port st.val k.val).ntf = (s.port st.val k.val).ntf ++
              (if (s.port st.val k.val).state ≤ 1 ∨ (s.port st.val k.val).ntf.any (fun m => m.sameAs n) = true then []
               else [n])
          ∧ onlyParts [.regs, .ni, .recs, .pmu, .free] s t)))

/-- PARTITION_CHANGE: at an open GLP-4 port with no change waiting, a new partition waits, neither acknowledged nor
refused, marked where its parity is wrong, which sets PORT_ERR.PAR_HDR; with one waiting already PORT_ERR.PROTO
is set and the port is as it was; at another port nothing changes. PCHG_SWAP: with every captured request past
its access check and no commit that freezes the unit, the change is answered: with good parity and a passed
shadow check the current partition is the new one, acknowledged without error; with wrong parity or a failed
check it is refused, PCHG_ERR is set and the partition stays. While the check is pending nothing changes. -/
def Obligations.PartitionChangesAtAPort : Prop :=
  (∀ (st : StopNo) (k : PortNo) (part : Fin 4096) (par : Fin 4) (s : State), portGen st.val k.val ≠ 0 →
      completes (.partitionChange st k part par) s (fun t =>
        (portGen st.val k.val = 3 → (s.port st.val k.val).state = 2 → (s.port st.val k.val).pchg = none →
          t.port st.val k.val = { s.port st.val k.val with
            pchg := some part.val, pchgBad := !(parityBad part.val 2 par.val).isEmpty, pchgAck := false
            pchgErr := false }
          ∧ (parityBad part.val 2 par.val ≠ [] → t.flag (portReg st.val k.val pERR) 0 = true))
        ∧ (portGen st.val k.val = 3 → (s.port st.val k.val).state = 2 → (s.port st.val k.val).pchg ≠ none →
          t.flag (portReg st.val k.val pERR) 2 = true ∧ t.ni = s.ni)
        ∧ (portGen st.val k.val ≠ 3 ∨ (s.port st.val k.val).state ≠ 2 → t = s)
        ∧ onlyParts [.regs, .ni, .recs] s t))
    ∧ (∀ (st : StopNo) (k : PortNo) (part : Nat) (s : State), portGen st.val k.val ≠ 0 →
      (s.port st.val k.val).pchg = some part → s.checksDone st.val k.val = true →
      s.acuFrozen st.val k.val = false →
      completes (.pchgSwap st k) s (fun t =>
        ((s.port st.val k.val).pchgBad = true ∨ s.fld (acuReg st.val k.val 8) 1 2 = 2 →
          t.port st.val k.val = { s.port st.val k.val with
            pchg := none, pchgBad := false, pchgAck := true, pchgErr := true }
          ∧ t.flag (portReg st.val k.val pERR) 10 = true)
        ∧ ((s.port st.val k.val).pchgBad = false → s.fld (acuReg st.val k.val 8) 1 2 ≠ 2 →
          s.fld (acuReg st.val k.val 8) 1 2 ≠ 0 →
          (t.port st.val k.val).curPart = part ∧ (t.port st.val k.val).pchg = none
          ∧ (t.port st.val k.val).pchgAck = true ∧ (t.port st.val k.val).pchgErr = false)
        ∧ ((s.port st.val k.val).pchgBad = false → s.fld (acuReg st.val k.val 8) 1 2 = 0 → t = s)
        ∧ onlyParts [.regs, .ni, .acu, .recs, .pmu, .free] s t))
    ∧ (∀ (st : StopNo) (k : PortNo) (s : State), portGen st.val k.val ≠ 0 → (s.port st.val k.val).pchg = none →
      completes (.pchgSwap st k) s (fun t => t = s))

/-- GLITCH, on any input: PORT_ERR.GLITCH is set, GLITCH_CNT has counted, and the port is as it was. HS_TIMEOUT_IN
at an open port sets PORT_ERR.HS_IN and counts in HSTO_CNT: a request or message whose rest did not come enters
the tag state ready with PROTERR if it expects a response; dat beats without a header are given up; a response
that names a request outstanding counts as its answer. HS_TIMEOUT_OUT at an open port, where a channel offers a
beat not reported yet: PORT_ERR.HS_OUT is set, HSTO_CNT has counted and the beat is marked reported. TICK_LOST
while the ring clock is held: CDC_GSTAT.TICK_LOST is set, TICK_LOST_CNT has counted the ticks, and the stop is
marked as having recorded a loss in this hold. -/
def Obligations.PortFiltersAndTimeouts : Prop :=
  (∀ (st : StopNo) (k : PortNo) (which : AsyncIn) (s : State), portGen st.val k.val ≠ 0 →
      completes (.glitch st k which) s (fun t =>
        t.flag (portReg st.val k.val pERR) 8 = true
        ∧ t.fld (portReg st.val k.val pCNT2) 0 8 = satAdd 8 (s.fld (portReg st.val k.val pCNT2) 0 8) 1
        ∧ t.port st.val k.val = s.port st.val k.val
        ∧ regsBut [portReg st.val k.val pERR, portReg st.val k.val pCNT2, stopReg st.val sSTOP_ERR_STAT] s t
        ∧ onlyParts [.regs, .recs] s t))
    ∧ (∀ (st : StopNo) (k : PortNo) (part : HsPart) (s : State), portGen st.val k.val ≠ 0 →
      (s.port st.val k.val).state = 2 → (part = .dat → (s.port st.val k.val).early ≠ []) →
      completes (.hsTimeoutIn st k part) s (fun t =>
        t.flag (portReg st.val k.val pERR) 6 = true
        ∧ t.fld (portReg st.val k.val pERRCNT) 24 8 = satAdd 8 (s.fld (portReg st.val k.val pERRCNT) 24 8) 1
        ∧ (∀ q, part = .req q → expectsRsp q.opc = true → txnAdded st.val k.val s t (fun x => x.phase = .ready
            ∧ x.status = stPROTERR ∧ x.tag = s.fullTag st.val k.val q.tag))
        ∧ (∀ q, part = .req q → expectsRsp q.opc = false → t.txns st.val k.val = s.txns st.val k.val)
        ∧ (∀ m, part = .msg m → expectsRsp m.opc = true → txnAdded st.val k.val s t (fun x => x.phase = .ready
            ∧ x.status = stPROTERR ∧ x.tag = s.fullTag st.val k.val m.tag))
        ∧ (part = .dat → (t.port st.val k.val).early = [] ∧ t.txns st.val k.val = s.txns st.val k.val)
        ∧ (∀ r x i, part = .rsp r → s.ttxnFor st.val k.val r.tag = some (x, i) → x.bursts ≤ 1 →
            t.ttxns st.val k.val = (s.ttxns st.val k.val).eraseIdx i)
        ∧ (∀ r, part = .rsp r → s.ttxnFor st.val k.val r.tag = none →
            t.ttxns st.val k.val = s.ttxns st.val k.val)
        ∧ onlyParts [.regs, .ni, .recs, .pmu, .free] s t))
    ∧ (∀ (st : StopNo) (k : PortNo) (c : Chan) (s : State), portGen st.val k.val ≠ 0 →
      (s.port st.val k.val).state = 2 → ((s.port st.val k.val).offered (portGen st.val k.val) c).isSome = true →
      ((s.port st.val k.val).fifo c).late = false →
      completes (.hsTimeoutOut st k c) s (fun t =>
        t.flag (portReg st.val k.val pERR) 7 = true
        ∧ t.fld (portReg st.val k.val pERRCNT) 24 8 = satAdd 8 (s.fld (portReg st.val k.val pERRCNT) 24 8) 1
        ∧ t.port st.val k.val
          = (s.port st.val k.val).setFifo c { (s.port st.val k.val).fifo c with late := true }
        ∧ onlyParts [.regs, .ni, .recs] s t))
    ∧ (∀ (st : StopNo) (n : Nat) (s : State), s.cdc.hold = true →
      completes (.tickLost st n) s (fun t =>
        t.flag gCDC_GSTAT 0 = true ∧ st.val ∈ t.cdc.lost ∧ t.cdc.ticks = 15
        ∧ t.fld gCDC_GSTAT 16 16 = satAdd 16 (s.fld gCDC_GSTAT 16 16) n
        ∧ onlyParts [.regs, .recs, .cdc] s t))

/-- PORT_RESET_ASSERT: the port is CLOSED, its reset level low, its tag generation one further modulo 4, no target
request outstanding, no owed answer, its tag map clear. PORT_RESET_DEASSERT: the level is high, and a CLOSED,
enabled port not asked to stop whose stop's fill is over is in RESYNC with RS_REQ up. RESYNC_DONE at a port in
RESYNC not asked to stop: the handshake is over, its FIFOs empty where it was under way, and the port is OPEN
where EN and a free next generation allow it, else still in RESYNC. RS_TIMEOUT: a step that has waited longer
than RS_TO sets RS_TO, once, and the port still waits. RECOVER, at a stop whose domain is ON (R510), and CDC_PTR
with a pointer error: the tag generation is one further, no target request is outstanding, and the tags of the
map are owed SLVERR; CDC_PTR also sets PTR_ERR. A pointer in order is noted, and nothing else changes. -/
def Obligations.PortResetsAndRecovery : Prop :=
  (∀ (x : Fin 16) (y : Fin 12) (k : PortNo) (st : StopNo) (s : State), st = stopXY x y → portGen st.val k.val ≠ 0 →
      completes (.portResetAssert x y k) s (fun t =>
        (t.port st.val k.val).state = 0 ∧ (t.port st.val k.val).rstLvl = false
        ∧ (t.port st.val k.val).tgen = ((s.port st.val k.val).tgen + 1) % 4
        ∧ (t.port st.val k.val).owed = [] ∧ (t.port st.val k.val).tagMap = [] ∧ t.ttxns st.val k.val = []
        ∧ onlyParts [.regs, .ring, .ni, .recs, .pmu, .pw] s t))
    ∧ (∀ (st : StopNo) (k : PortNo) (s : State), portGen st.val k.val ≠ 0 →
      completes (.portResetDeassert st k) s (fun t =>
        ((s.port st.val k.val).state = 0 → (s.port st.val k.val).stopLvl = false →
          s.flag (portReg st.val k.val pCFG) 0 = true → s.fillBusy st.val = false →
          t.port st.val k.val = { s.port st.val k.val with
            rstLvl := true, state := 1, rsReq := true, rsAck := false, rsFrom := s.her.boot.hcs, rsLate := false })
        ∧ ((s.port st.val k.val).state ≠ 0 ∨ (s.port st.val k.val).stopLvl = true
            ∨ s.flag (portReg st.val k.val pCFG) 0 = false ∨ s.fillBusy st.val = true →
          t.port st.val k.val = { s.port st.val k.val with rstLvl := true })
        ∧ onlyParts [.ni] s t))
    ∧ (∀ (x : Fin 16) (y : Fin 12) (k : PortNo) (st : StopNo) (s : State), st = stopXY x y → portGen st.val k.val ≠ 0 → (s.port st.val k.val).state = 1 →
      (s.port st.val k.val).stopLvl = false →
      completes (.resyncDone x y k) s (fun t =>
        (t.port st.val k.val).state
          = (if s.flag (portReg st.val k.val pCFG) 0 && s.genFree st.val k.val && s.fabState != fabFAILED then 2 else 1)
        ∧ (t.port st.val k.val).rsBusy = false ∧ (t.port st.val k.val).tgen = (s.port st.val k.val).tgen
        ∧ ((s.port st.val k.val).rsReq = true →
          (t.port st.val k.val).inq = [] ∧ ∀ c, (t.port st.val k.val).queued c = [])
        ∧ t.ni.txns = s.ni.txns ∧ onlyParts [.regs, .ni, .recs] s t))
    ∧ (∀ (st : StopNo) (k : PortNo) (s : State), portGen st.val k.val ≠ 0 → (s.port st.val k.val).state = 1 →
      (s.port st.val k.val).rsBusy = true → rsTo < s.her.boot.hcs - (s.port st.val k.val).rsFrom →
      ((s.port st.val k.val).rsLate = false → completes (.rsTimeout st k) s (fun t =>
        t.flag (portReg st.val k.val pCDC_STAT) 6 = true
        ∧ t.port st.val k.val = { s.port st.val k.val with rsLate := true } ∧ onlyParts [.regs, .ni, .recs] s t))
      ∧ ((s.port st.val k.val).rsLate = true → completes (.rsTimeout st k) s (fun t => t = s)))
    ∧ (∀ (x : Fin 16) (y : Fin 12) (k : PortNo) (st : StopNo) (s : State), st = stopXY x y → portGen st.val k.val ≠ 0 → s.niOn st.val = true →
      completes (.recover x y k) s (fun t =>
        (t.port st.val k.val).tgen = ((s.port st.val k.val).tgen + 1) % 4 ∧ t.ttxns st.val k.val = []
        ∧ (t.port st.val k.val).owed = (s.mapTags st.val k.val).map (fun x => (x, stSLVERR))
        ∧ onlyParts [.regs, .ring, .ni, .recs, .pmu, .pw] s t))
    ∧ (∀ (st : StopNo) (k : PortNo) (c : Chan) (ptr : Fin 32) (s : State), portGen st.val k.val ≠ 0 → c ≠ .ntf →
      completes (.cdcPtr st k c ptr) s (fun t =>
        (((s.port st.val k.val).fifo c).ptrBad (BitVec.ofNat 5 ptr.val) = true →
          t.flag (portReg st.val k.val pCDC_STAT) 5 = true ∧ t.ttxns st.val k.val = []
          ∧ (t.port st.val k.val).tgen = ((s.port st.val k.val).tgen + 1) % 4
          ∧ (t.port st.val k.val).owed = (s.mapTags st.val k.val).map (fun x => (x, stSLVERR)))
        ∧ (((s.port st.val k.val).fifo c).ptrBad (BitVec.ofNat 5 ptr.val) = false →
          t.port st.val k.val = (s.port st.val k.val).setFifo c
            { (s.port st.val k.val).fifo c with seen := BitVec.ofNat 5 ptr.val }
          ∧ onlyParts [.ni] s t)
        ∧ onlyParts [.regs, .ring, .ni, .recs, .pmu, .pw] s t))

/-- STOP_REQ: the stop level is high. PORT_STOPPED: an OPEN port asked to stop whose FIFOs are empty is STOPPED; one
with a packet under way is as it was. STOP_RELEASE: the stop level is low; a STOPPED port is OPEN, and a CLOSED
one that may resynchronise is in RESYNC. BELLOWS_REQ: at a STOPPED port with a waking packet, with no request up
the request rises and WAKE_CNT has counted; with one up the event is merged. BELLOWS_ACK: the request falls, and
rises again where an event was merged behind it that still wakes a STOPPED port. STOPPED: at a STOPPED port the
oldest IO packet that has waited STOPPED_TO leaves the inbox and TO_STOPPED is set. -/
def Obligations.StoppedClocksAndBellows : Prop :=
  (∀ (st : StopNo) (k : PortNo) (s : State), portGen st.val k.val ≠ 0 →
      completes (.stopReq st k) s (fun t =>
        t.port st.val k.val = { s.port st.val k.val with stopLvl := true } ∧ onlyParts [.ni] s t))
    ∧ (∀ (st : StopNo) (k : PortNo) (s : State), portGen st.val k.val ≠ 0 → (s.port st.val k.val).state = 2 →
      (s.port st.val k.val).stopLvl = true →
      completes (.portStopped st k) s (fun t =>
        t.port st.val k.val = (if (s.port st.val k.val).quiet
          then { s.port st.val k.val with state := 4, stopFrom := s.cdc.us } else s.port st.val k.val)
        ∧ onlyParts [.ni] s t))
    ∧ (∀ (st : StopNo) (k : PortNo) (s : State), portGen st.val k.val ≠ 0 →
      completes (.stopRelease st k) s (fun t =>
        ((s.port st.val k.val).state = 4 →
          t.port st.val k.val = { s.port st.val k.val with stopLvl := false, state := 2 })
        ∧ ((s.port st.val k.val).state = 0 → (s.port st.val k.val).rstLvl = true →
          s.flag (portReg st.val k.val pCFG) 0 = true → s.fillBusy st.val = false →
          t.port st.val k.val = { s.port st.val k.val with
            stopLvl := false, state := 1, rsReq := true, rsAck := false, rsFrom := s.her.boot.hcs, rsLate := false })
        ∧ ((s.port st.val k.val).state ≠ 4 → (s.port st.val k.val).state ≠ 0 →
          t.port st.val k.val = { s.port st.val k.val with stopLvl := false })
        ∧ onlyParts [.ni] s t))
    ∧ (∀ (st : StopNo) (k : PortNo) (s : State), portGen st.val k.val ≠ 0 → (s.port st.val k.val).state = 4 →
      s.wakeDue st.val k.val = true →
      completes (.bellowsReq st k) s (fun t =>
        ((s.port st.val k.val).bellows = false →
          t.port st.val k.val = { s.port st.val k.val with bellows := true, wakePend := false }
          ∧ t.fld (portReg st.val k.val pCDC_STAT) 16 16
            = satAdd 16 (s.fld (portReg st.val k.val pCDC_STAT) 16 16) 1)
        ∧ ((s.port st.val k.val).bellows = true →
          t.port st.val k.val = { s.port st.val k.val with wakePend := true })
        ∧ onlyParts [.regs, .ni] s t))
    ∧ (∀ (st : StopNo) (k : PortNo) (s : State), portGen st.val k.val ≠ 0 → (s.port st.val k.val).bellows = true →
      completes (.bellowsAck st k) s (fun t =>
        t.port st.val k.val = { s.port st.val k.val with
          wakePend := false
          bellows := (s.port st.val k.val).wakePend && decide ((s.port st.val k.val).state = 4)
            && s.wakeDue st.val k.val }
        ∧ onlyParts [.regs, .ni] s t))
    ∧ (∀ (st : StopNo) (k : PortNo) (s : State) (d : Deliv) (i : Nat), portGen st.val k.val ≠ 0 →
      (s.port st.val k.val).state = 4 →
      (s.inbox st.val k.val).zipIdx.find? (fun e => (Pkt.head e.1.slots).cls == clsIO
        && s.stoppedLong st.val k.val e.1) = some (d, i) →
      completes (.stopped st k) s (fun t =>
        t.inbox st.val k.val = (s.inbox st.val k.val).eraseIdx i
        ∧ t.flag (portReg st.val k.val pCDC_STAT) 8 = true
        ∧ onlyParts [.regs, .ni, .recs, .pmu, .free] s t))

/-- RING_CNT_CLR stands at stop-block offset 0x3C08 and DEFL_CNT_CLR at 0x3C44, reset 0. A write of v clears
RING_CNT_k (DEFL_CNT_k) for every bit k of 0 to 7 that is 1, and bit 8 clears RING_STAT.REASM_DROP
(DEFL_STAT.MAX_DEFL); the counters whose bits are 0 stay, the reserved bits do nothing, the word itself stores
nothing, and no other register and no other part of the state changes; a cleared counter that also counts in the
same rc (a bit of ev, or a mark of the write) holds that one event (R61). The same holds for the commands
RING_CNT_CLEAR and DEFL_CNT_CLEAR and for a write of the word by REGISTER_WRITE over the test access path. -/
def Obligations.RingAndDeflectionCountersClear : Prop :=
  (∀ st : StopNo, stopReg st.val sRING_CNT_CLR = 0x100000 + 0x4000 * st.val + 0x3C08
      ∧ stopReg st.val sDEFL_CNT_CLR = 0x100000 + 0x4000 * st.val + 0x3C44
      ∧ State.reset.reg (stopReg st.val sRING_CNT_CLR) = 0 ∧ State.reset.reg (stopReg st.val sDEFL_CNT_CLR) = 0)
    ∧ (∀ (st : StopNo) (v ev : BitVec 9) (s : State), completes (.ringCntClear st ⟨v, ev⟩) s (fun t =>
        (∀ k, k < 8 → t.reg (stopReg st.val (sRING_CNT + 4 * k))
          = if fieldOf v k 1 = 1 then BitVec.ofNat 32 (fieldOf ev k 1) else s.reg (stopReg st.val (sRING_CNT + 4 * k)))
        ∧ t.reg (stopReg st.val sRING_STAT)
          = (if fieldOf v 8 1 = 1 then BitVec.ofNat 32 (fieldOf ev 8 1) else s.reg (stopReg st.val sRING_STAT))
        ∧ regsBut (stopReg st.val sRING_STAT :: (List.range 8).map (fun k => stopReg st.val (sRING_CNT + 4 * k))) s t
        ∧ onlyParts [.regs] s t))
    ∧ (∀ (st : StopNo) (v ev : BitVec 9) (s : State), completes (.deflCntClear st ⟨v, ev⟩) s (fun t =>
        (∀ k, k < 8 → t.reg (stopReg st.val (sDEFL_CNT + 4 * k))
          = if fieldOf v k 1 = 1 then BitVec.ofNat 32 (fieldOf ev k 1) else s.reg (stopReg st.val (sDEFL_CNT + 4 * k)))
        ∧ t.fld (stopReg st.val sDEFL_STAT) 0 4
          = (if fieldOf v 8 1 = 1 then 0 else s.fld (stopReg st.val sDEFL_STAT) 0 4)
        ∧ t.fld (stopReg st.val sDEFL_STAT) 4 28 = s.fld (stopReg st.val sDEFL_STAT) 4 28
        ∧ regsBut (stopReg st.val sDEFL_STAT :: (List.range 8).map (fun k => stopReg st.val (sDEFL_CNT + 4 * k))) s t
        ∧ onlyParts [.regs] s t))
    ∧ (∀ (st : StopNo) (a : BitVec 26) (v : Word32) (x : RegEnv) (s : State), s.her.rstLow = false →
        a.toNat = stopReg st.val sRING_CNT_CLR →
        completes (.registerWrite (.test a v) x) s (fun t =>
          (∀ k, k < 8 → t.reg (stopReg st.val (sRING_CNT + 4 * k))
            = if fieldOf v k 1 = 1 then BitVec.ofNat 32 (fieldOf x.same k 1) else s.reg (stopReg st.val (sRING_CNT + 4 * k)))
          ∧ t.reg (stopReg st.val sRING_STAT)
            = (if fieldOf v 8 1 = 1 then BitVec.ofNat 32 (fieldOf x.same 8 1) else s.reg (stopReg st.val sRING_STAT))
          ∧ regsBut (stopReg st.val sRING_STAT :: (List.range 8).map (fun k => stopReg st.val (sRING_CNT + 4 * k))) s t
          ∧ onlyParts [.regs] s t))
    ∧ (∀ (st : StopNo) (a : BitVec 26) (v : Word32) (x : RegEnv) (s : State), s.her.rstLow = false →
        a.toNat = stopReg st.val sDEFL_CNT_CLR →
        completes (.registerWrite (.test a v) x) s (fun t =>
          (∀ k, k < 8 → t.reg (stopReg st.val (sDEFL_CNT + 4 * k))
            = if fieldOf v k 1 = 1 then BitVec.ofNat 32 (fieldOf x.same k 1) else s.reg (stopReg st.val (sDEFL_CNT + 4 * k)))
          ∧ t.fld (stopReg st.val sDEFL_STAT) 0 4
            = (if fieldOf v 8 1 = 1 then 0 else s.fld (stopReg st.val sDEFL_STAT) 0 4)
          ∧ t.fld (stopReg st.val sDEFL_STAT) 4 28 = s.fld (stopReg st.val sDEFL_STAT) 4 28
          ∧ regsBut (stopReg st.val sDEFL_STAT :: (List.range 8).map (fun k => stopReg st.val (sDEFL_CNT + 4 * k))) s t
          ∧ onlyParts [.regs] s t))

/-- While the unit that holds them is powered (R510), GUAR_CNT_CLEAR, TXN_CNT_CLEAR, QE_CNT_CLEAR, PG_CNT_CLEAR,
QS_CNT_CLEAR and DP_CNT_CLEAR clear the counters whose bits are 1 and leave every other register; DEC_CNT_CLEAR
clears the fields of DEC_CNT; ABS_CNT_CLEAR sets ABS_CNT to 0; PORT_CNT2_CLEAR clears the two fields of counts
in PORT_CNT2 that its CLR bit covers, PORT_CDC_CNT_CLEAR those of the crossing counters, INJ_STORE_HWM_CLEAR
starts USED_HWM again from the entries in use, and INJQ_HWM_CLEAR the two high values of the queue named, the
occupancy from what stands there. A cleared counter that also counts in the same rc (a bit of ev) holds that one
event. Nothing but registers changes (the high values apart). -/
def Obligations.OtherCountersClear : Prop :=
    (∀ (st : StopNo) (v ev : BitVec 3) (s : State), s.regOpen (stopReg st.val sFLOW_STAT) = true → completes (.guarCntClear st ⟨v, ev⟩) s (fun t =>
        (∀ k, k < 3 → t.reg (stopReg st.val sGUAR_CNT + 4 * k)
          = if fieldOf v k 1 = 1 then BitVec.ofNat 32 (fieldOf ev k 1) else s.reg (stopReg st.val sGUAR_CNT + 4 * k))
        ∧ regsBut ((List.range 3).map (fun k => stopReg st.val sGUAR_CNT + 4 * k)) s t ∧ onlyParts [.regs] s t))
    ∧ (∀ (st : StopNo) (v ev : BitVec 11) (s : State), s.regOpen (stopReg st.val sTXN_CNT_CLR) = true → completes (.txnCntClear st ⟨v, ev⟩) s (fun t =>
        (∀ k, k < 11 → t.reg (stopReg st.val sTXN_CNT + 4 * k)
          = if fieldOf v k 1 = 1 then BitVec.ofNat 32 (fieldOf ev k 1) else s.reg (stopReg st.val sTXN_CNT + 4 * k))
        ∧ regsBut ((List.range 11).map (fun k => stopReg st.val sTXN_CNT + 4 * k)) s t ∧ onlyParts [.regs] s t))
    ∧ (∀ (st : StopNo) (v ev : BitVec 8) (s : State), s.regOpen (stopReg st.val sQE_CNT) = true → completes (.qeCntClear st ⟨v, ev⟩) s (fun t =>
        (∀ k, k < 8 → t.reg (stopReg st.val sQE_CNT + 4 * k)
          = if fieldOf v k 1 = 1 then BitVec.ofNat 32 (fieldOf ev k 1) else s.reg (stopReg st.val sQE_CNT + 4 * k))
        ∧ regsBut ((List.range 8).map (fun k => stopReg st.val sQE_CNT + 4 * k)) s t ∧ onlyParts [.regs] s t))
    ∧ (∀ (st : StopNo) (v ev : BitVec 8) (s : State), s.regOpen (stopReg st.val sPG_CNT) = true → completes (.pgCntClear st ⟨v, ev⟩) s (fun t =>
        (∀ k, k < 8 → t.reg (stopReg st.val sPG_CNT + 4 * k)
          = if fieldOf v k 1 = 1 then BitVec.ofNat 32 (fieldOf ev k 1) else s.reg (stopReg st.val sPG_CNT + 4 * k))
        ∧ regsBut ((List.range 8).map (fun k => stopReg st.val sPG_CNT + 4 * k)) s t ∧ onlyParts [.regs] s t))
    ∧ (∀ (st : StopNo) (v ev : BitVec 8) (s : State), s.regOpen (stopReg st.val sQS_CNT_CLR) = true → completes (.qsCntClear st ⟨v, ev⟩) s (fun t =>
        (∀ k, k < 8 → t.reg (stopReg st.val sQS_CE_CNT + 4 * k)
          = if fieldOf v k 1 = 1 then BitVec.ofNat 32 (fieldOf ev k 1) else s.reg (stopReg st.val sQS_CE_CNT + 4 * k))
        ∧ regsBut ((List.range 8).map (fun k => stopReg st.val sQS_CE_CNT + 4 * k)) s t ∧ onlyParts [.regs] s t))
    ∧ (∀ (p : DpNo) (v ev : BitVec 8) (s : State), s.regOpen (dpReg p.val dCNT_CLR) = true → completes (.dpCntClear p ⟨v, ev⟩) s (fun t =>
        (∀ k, k < 8 → t.reg (dpReg p.val dCNT + 4 * k)
          = if fieldOf v k 1 = 1 then BitVec.ofNat 32 (fieldOf ev k 1) else s.reg (dpReg p.val dCNT + 4 * k))
        ∧ regsBut ((List.range 8).map (fun k => dpReg p.val dCNT + 4 * k)) s t ∧ onlyParts [.regs] s t))
    ∧ (∀ (st : StopNo) (v ev : BitVec 4) (s : State), s.regOpen (stopReg st.val sDEC_CNT) = true →
        completes (.decCntClear st ⟨v, ev⟩) s (fun t =>
          (∀ k, k < 4 → t.fld (stopReg st.val sDEC_CNT) (8 * k) 8
            = if fieldOf v k 1 = 1 then fieldOf ev k 1 else s.fld (stopReg st.val sDEC_CNT) (8 * k) 8)
          ∧ regsBut [stopReg st.val sDEC_CNT] s t ∧ onlyParts [.regs] s t))
    ∧ (∀ (st : StopNo) (ev : Bool) (s : State), completes (.absCntClear ⟨st, ev⟩) s (fun t =>
        t.reg (stopReg st.val sABS_CNT) = BitVec.ofNat 32 (boolNat ev) ∧ regsBut [stopReg st.val sABS_CNT] s t ∧ onlyParts [.regs] s t))
    ∧ (∀ (st : StopNo) (k : PortNo) (ev : BitVec 2) (s : State), portGen st.val k.val ≠ 0 →
        s.regOpen (portReg st.val k.val pCNT2) = true →
        completes (.portCnt2Clear st ⟨k, ev⟩) s (fun t =>
          t.reg (portReg st.val k.val pCNT2)
            = withField (withField (s.reg (portReg st.val k.val pCNT2)) 16 8 (fieldOf ev 0 1)) 24 7 (fieldOf ev 1 1)
          ∧ regsBut [portReg st.val k.val pCNT2] s t ∧ onlyParts [.regs] s t))
    ∧ (∀ (st : StopNo) (k : PortNo) (ev : BitVec 3) (s : State), portGen st.val k.val ≠ 0 → s.niOn st.val = true →
        completes (.portCdcCntClear st ⟨k, ev⟩) s (fun t =>
          t.fld (portReg st.val k.val pCDC_CNT) 0 16 = fieldOf ev 0 1
          ∧ t.fld (portReg st.val k.val pCDC_CNT) 16 15 = fieldOf ev 1 1
          ∧ t.fld (portReg st.val k.val pCDC_STAT) 16 16 = fieldOf ev 2 1
          ∧ t.fld (portReg st.val k.val pCDC_STAT) 0 16 = s.fld (portReg st.val k.val pCDC_STAT) 0 16
          ∧ regsBut [portReg st.val k.val pCDC_CNT, portReg st.val k.val pCDC_STAT] s t ∧ onlyParts [.regs] s t))
    ∧ (∀ (st : StopNo) (s : State), s.regOpen (stopReg st.val sINJ_STORE) = true →
        completes (.injStoreHwmClear st) s (fun t =>
          t.reg (stopReg st.val sINJ_STORE) = withField (s.reg (stopReg st.val sINJ_STORE)) 16 10 (s.injUsed st.val)
          ∧ regsBut [stopReg st.val sINJ_STORE] s t ∧ onlyParts [.regs] s t))
    ∧ (∀ (st : StopNo) (q : Fin 512) (s : State), s.regOpen (stopReg st.val sINJQ_SEL) = true →
        completes (.injqHwmClear st q) s (fun t =>
          Tab.get (fun _ => (0, 0)) t.ni.hwm (st.val * 512 + (8 * (q.val % 64) + q.val / 64))
            = (occOf (s.injq st.val (8 * (q.val % 64) + q.val / 64)), 0)
          ∧ (∀ n, n ≠ st.val * 512 + (8 * (q.val % 64) + q.val / 64) →
              Tab.get (fun _ => (0, 0)) t.ni.hwm n = Tab.get (fun _ => (0, 0)) s.ni.hwm n)
          ∧ t.reg (stopReg st.val sINJQ_SEL) = BitVec.ofNat 32 q.val
          ∧ regsBut [stopReg st.val sINJQ_SEL] s t ∧ onlyParts [.regs, .ni] s t))

/-- REGISTER_WRITE. The oldest access of port 3 leaves its store, except on a die that has failed, where it stays
and nothing changes (R422). One that is no write, that falls short of the access class of a word it covers, that
covers a word of a domain that is off or only part of a word changes no register (the unmapped count and the
high-water mark that its answer's admission may move apart); one that writes the whole word of SAMPLE_CTRL, a
plain register, and is not refused, stores the bits of its fields and leaves every other register (the same two
apart). Over the test access path, a write of an offset that holds no register, or of any while fab_rst_n is
asserted (R508), changes nothing, and a write of SAMPLE_CTRL stores the bits of its fields and leaves every
other register. -/
def Obligations.RegisterAccessesAreGuarded : Prop :=
  (∀ (st : StopNo) (p : Pkt) (x : RegEnv) (s : State) (d : Deliv) (rest : List Deliv), isRegRead p = false →
      s.fabState ≠ fabFAILED → s.inbox st.val 3 = d :: rest → d.slots = p →
      (((Pkt.head p).opc ≠ opWR ∧ (Pkt.head p).opc ≠ opWR_NC ∧ (Pkt.head p).opc ≠ opWR_P)
        ∨ s.regRefusal (Pkt.head p) ((writeWords p).map (fun w => w.1)) ≠ none
        ∨ (writeWords p).any (fun w => w.2.2 != 0xF) = true) →
      completes (.registerWrite (.packet st p) x) s (fun t =>
        t.inbox st.val 3 = rest
        ∧ regsBut [stopReg st.val sSCHED_STAT, stopReg st.val sINJ_STORE] s t ∧ onlyParts [.regs, .ni] s t))
    ∧ (∀ (st : StopNo) (p : Pkt) (v : Word32) (x : RegEnv) (s : State) (d : Deliv) (rest : List Deliv),
      s.fabState ≠ fabFAILED → s.inbox st.val 3 = d :: rest → d.slots = p →
      ((Pkt.head p).opc = opWR ∨ (Pkt.head p).opc = opWR_NC ∨ (Pkt.head p).opc = opWR_P) →
      writeWords p = [(gSAMPLE_CTRL, v, 0xF)] → s.regRefusal (Pkt.head p) [gSAMPLE_CTRL] = none →
      completes (.registerWrite (.packet st p) x) s (fun t =>
        t.inbox st.val 3 = rest
        ∧ t.fld gSAMPLE_CTRL 0 13 = fieldOf v 0 13 ∧ t.fld gSAMPLE_CTRL 13 19 = s.fld gSAMPLE_CTRL 13 19
        ∧ regsBut [gSAMPLE_CTRL, stopReg st.val sSCHED_STAT, stopReg st.val sINJ_STORE] s t
        ∧ onlyParts [.regs, .ni] s t))
    ∧ (∀ (st : StopNo) (p : Pkt) (x : RegEnv) (s : State), s.fabState = fabFAILED →
      completes (.registerWrite (.packet st p) x) s (fun t => t = s))
    ∧ (∀ (a : BitVec 26) (v : Word32) (x : RegEnv) (s : State), regRow (a.toNat / 4 * 4) = none ∨ s.her.rstLow = true →
      completes (.registerWrite (.test a v) x) s (fun t => t = s))
    ∧ (∀ (v : Word32) (x : RegEnv) (s : State), s.her.rstLow = false →
      completes (.registerWrite (.test (BitVec.ofNat 26 gSAMPLE_CTRL) v) x) s (fun t =>
        t.fld gSAMPLE_CTRL 0 13 = fieldOf v 0 13 ∧ t.fld gSAMPLE_CTRL 13 19 = s.fld gSAMPLE_CTRL 13 19
        ∧ regsBut [gSAMPLE_CTRL] s t ∧ onlyParts [.regs] s t))

/-- ACU_ENTRY_WRITE at a powered stop stores the selection and ACU_RDATA takes the entry selected, whole. With WR at
an existing unit: an unlocked entry of the shadow set that no commit holds takes the word of ACU_WDATA and makes
the check pending, the set's other entries staying; a write to the active set is ignored and sets ACT_WR, one to
an entry with LOCK sets LOCK_WR; a default-map entry without LOCK is written in CONFIGURED alone, in another
state ACT_WR is set. Without WR no entry changes; at a stop that is off nothing does. ACU_SHADOW_CHECK gives a
pending check's result and leaves one that is not pending. ACU_SWAP with a passed check and no commit that
freezes the unit makes the shadow set active and the check pending again, and carries out a partition change
that waits with it; with a failed check it sets SWAP_REF and swaps nothing; with a pending check SWAP stays set. -/
def Obligations.AccessCheckUnitsChangeByEntryAndSwap : Prop :=
  (∀ (st : StopNo) (sel : Word32) (s : State) (a b i : Nat), s.niOn st.val = true → bitOf sel 31 = true →
      a = fieldOf sel 7 2 → b = fieldOf sel 6 1 → i = fieldOf sel 0 6 → a ≤ 2 → acuThere st.val a = true → i < 32 →
      completes (.acuEntryWrite st sel) s (fun t =>
        (b ≠ s.acuActive st.val a → acuLock (s.acuSet st.val a b i) = false → s.acuFrozen st.val a = false →
          t.acuSet st.val a b i
            = s.quad (stopReg st.val sACU_WDATA) &&& BitVec.ofNat 128 (2 ^ 119 - 1 - (0xFFFF * 2 ^ 48))
          ∧ (∀ j, j < 32 → j ≠ i → t.acuSet st.val a b j = s.acuSet st.val a b j)
          ∧ (∀ j, j < 32 → t.acuSet st.val a (1 - b) j = s.acuSet st.val a (1 - b) j)
          ∧ t.fld (acuReg st.val a 8) 1 2 = 0)
        ∧ (b = s.acuActive st.val a → t.flag (acuReg st.val a 8) 10 = true ∧ t.acu = s.acu)
        ∧ (acuLock (s.acuSet st.val a b i) = true → t.flag (acuReg st.val a 8) 12 = true ∧ t.acu = s.acu)
        ∧ t.quad (stopReg st.val sACU_RDATA) = t.acuSelected st.val
        ∧ (s.acuFrozen st.val a = false → regsBut [stopReg st.val sACU_SEL, stopReg st.val sACU_RDATA, stopReg st.val sACU_RDATA + 4, stopReg st.val sACU_RDATA + 8,
            stopReg st.val sACU_RDATA + 12, acuReg st.val a 8] s t)
        ∧ onlyParts [.regs, .acu] s t))
    ∧ (∀ (st : StopNo) (sel : Word32) (s : State) (a i : Nat), s.niOn st.val = true → bitOf sel 31 = true →
      a = fieldOf sel 7 2 → fieldOf sel 0 6 = 32 + i → a ≤ 2 → acuThere st.val a = true → i < 4 →
      completes (.acuEntryWrite st sel) s (fun t =>
        (s.fld gFAB_STATE 0 4 = 3 → acuLock (s.acuDef st.val a i) = false →
          t.acuDef st.val a i
            = s.quad (stopReg st.val sACU_WDATA) &&& BitVec.ofNat 128 (2 ^ 119 - 1 - (0xFFFF * 2 ^ 48))
          ∧ (∀ j, j < 4 → j ≠ i → t.acuDef st.val a j = s.acuDef st.val a j))
        ∧ (s.fld gFAB_STATE 0 4 ≠ 3 → t.flag (acuReg st.val a 8) 10 = true ∧ t.acu = s.acu)
        ∧ (acuLock (s.acuDef st.val a i) = true → t.flag (acuReg st.val a 8) 12 = true ∧ t.acu = s.acu)
        ∧ t.quad (stopReg st.val sACU_RDATA) = t.acuSelected st.val
        ∧ regsBut [stopReg st.val sACU_SEL, stopReg st.val sACU_RDATA, stopReg st.val sACU_RDATA + 4, stopReg st.val sACU_RDATA + 8,
            stopReg st.val sACU_RDATA + 12, acuReg st.val a 8] s t ∧ onlyParts [.regs, .acu] s t))
    ∧ (∀ (st : StopNo) (sel : Word32) (s : State),
      completes (.acuEntryWrite st sel) s (fun t =>
        (s.niOn st.val = true → bitOf sel 31 = false → t.acu = s.acu
          ∧ t.reg (stopReg st.val sACU_SEL) = (sel &&& 0x1FF)
          ∧ t.quad (stopReg st.val sACU_RDATA) = t.acuSelected st.val)
        ∧ (s.niOn st.val = false → t = s)))
    ∧ (∀ (st : StopNo) (a : Fin 3) (s : State),
      completes (.acuShadowCheck st a) s (fun t =>
        (s.fld (acuReg st.val a.val 8) 1 2 = 0 → s.shadowFault st.val a.val = none →
          t.fld (acuReg st.val a.val 8) 1 2 = 1)
        ∧ (∀ c i, s.fld (acuReg st.val a.val 8) 1 2 = 0 → s.shadowFault st.val a.val = some (c, i) →
            t.fld (acuReg st.val a.val 8) 1 2 = 2
            ∧ t.fld (acuReg st.val a.val 8) 3 2 = c ∧ t.fld (acuReg st.val a.val 8) 5 5 = i)
        ∧ (s.fld (acuReg st.val a.val 8) 1 2 ≠ 0 → t = s)
        ∧ regsBut [acuReg st.val a.val 8] s t ∧ onlyParts [.regs] s t))
    ∧ (∀ (st : StopNo) (a : Fin 3) (s : State), s.niOn st.val = true → acuThere st.val a.val = true →
      s.acuFrozen st.val a.val = false → s.sideband st.val a.val = none →
      completes (.acuSwap st a) s (fun t =>
        (s.fld (acuReg st.val a.val 8) 1 2 ≠ 2 → s.fld (acuReg st.val a.val 8) 1 2 ≠ 0 →
          t.fld (acuReg st.val a.val 8) 0 1 = 1 - s.acuActive st.val a.val
          ∧ t.fld (acuReg st.val a.val 8) 1 2 = 0 ∧ t.fld (acuReg st.val a.val 4) 0 1 = 0)
        ∧ (s.fld (acuReg st.val a.val 8) 1 2 = 2 →
          t.acuActive st.val a.val = s.acuActive st.val a.val ∧ t.flag (acuReg st.val a.val 8) 11 = true
          ∧ t.fld (acuReg st.val a.val 4) 0 1 = 0)
        ∧ (s.fld (acuReg st.val a.val 8) 1 2 = 0 →
          t.acuActive st.val a.val = s.acuActive st.val a.val ∧ t.flag (acuReg st.val a.val 4) 0 = true)
        ∧ regsBut [acuReg st.val a.val 4, acuReg st.val a.val 8] s t ∧ onlyParts [.regs] s t))
    ∧ (∀ (st : StopNo) (a : Fin 3) (part : Nat) (s : State), s.niOn st.val = true → acuThere st.val a.val = true →
      s.acuFrozen st.val a.val = false → s.sideband st.val a.val = some part → s.checksDone st.val a.val = true →
      (s.port st.val a.val).pchgBad = false → s.fld (acuReg st.val a.val 8) 1 2 = 1 →
      completes (.acuSwap st a) s (fun t =>
        t.fld (acuReg st.val a.val 8) 0 1 = 1 - s.acuActive st.val a.val
        ∧ (t.port st.val a.val).curPart = part ∧ (t.port st.val a.val).pchg = none
        ∧ (t.port st.val a.val).pchgAck = true ∧ (t.port st.val a.val).pchgErr = false))

/-- SWEEP_END: once every link of the ring has completed its sweep, the ring's least margin, its link's distance and
MVALID stand in TRK_STAT, SWEEPS has advanced modulo 2^16, no link's sweep is unread any more, and a margin
below the retirement threshold sets the ring's bit in TEMPER_RET; with a link's sweep still open nothing
changes. TEMPER_BLK_WRITE stores the word, the bits of rings 112 and above excepted, with the rings that the
hardware blocks in the same rc staying blocked, and changes nothing else. -/
def Obligations.TemperActsOnASweep : Prop :=
  (∀ (r : RingNo) (s : State) (m p lane : Nat), s.sweepOver r.val = true → s.ringWorst r.val = (m, p, lane) →
      completes (.sweepEnd r) s (fun t =>
        t.fld (ringReg r.val rTRK_STAT) 2 5 = m % 32 ∧ t.flag (ringReg r.val rTRK_STAT) 7 = true
        ∧ t.fld (ringReg r.val rTRK_STAT) 8 4 = ringDist r.val p % 16
        ∧ t.fld gTEMPER_STAT 0 16 = (s.fld gTEMPER_STAT 0 16 + 1) % 2 ^ 16
        ∧ (∀ c, c < ringLen r.val → (t.link r.val c).due = false)
        ∧ (m < s.fld gTEMPER_THR 8 5 → m < s.fld gTEMPER_THR 0 5 →
            t.flag (gTEMPER_RET + 4 * (r.val / 32)) (r.val % 32) = true)
        ∧ (s.fld gTEMPER_THR 0 5 ≤ m → regsBut [ringReg r.val rTRK_STAT, gTEMPER_STAT] s t)
        ∧ onlyParts [.regs, .ni, .recs, .tem] s t))
    ∧ (∀ (r : RingNo) (s : State), s.sweepOver r.val = false → completes (.sweepEnd r) s (fun t => t = s))
    ∧ (∀ (j : Fin 4) (v ev : Word32) (s : State), completes (.temperBlkWrite j ⟨v, ev⟩) s (fun t =>
        t.reg (gTEMPER_BLK + 4 * j.val)
          = (v ||| (ev &&& s.reg (gTEMPER_BLK + 4 * j.val))) &&& (if j.val = 3 then 0xFFFF else BitVec.allOnes 32)
        ∧ regsBut [gTEMPER_BLK + 4 * j.val] s t ∧ onlyParts [.regs] s t))

/-- RECORD_RAISE: with room, the stop's buffer is longer by the record, stamped with the stop's timestamp and die;
with 8 records waiting, the record is lost, the flag of a loss is set and the count of losses has risen.
RECORD_COLLECT: the first record of the next stop in rotation leaves its buffer, SEQ and the head of the local
ring advance modulo 2^24 and 64, and the ring's entry holds the record with SEQ and its CRC. -/
def Obligations.RecordsAreRaisedAndCollected : Prop :=
  (∀ (st : StopNo) (r : RecIn) (s : State),
      ((s.recBuf st.val).length < 8 → completes (.recordRaise st r) s (fun t =>
        t.recBuf st.val = s.recBuf st.val ++
          [recBits (s.localTs st.val).count.toNat s.die st.val r (Tab.get (fun _ => false) s.recs.lostAt st.val)]
        ∧ (∀ a, a ≠ st.val → t.recBuf a = s.recBuf a) ∧ onlyParts [.recs] s t))
      ∧ (8 ≤ (s.recBuf st.val).length → completes (.recordRaise st r) s (fun t =>
        t.recs.bufs = s.recs.bufs ∧ t.flag (stopReg st.val sSTOP_ERR_STAT) 4 = true
        ∧ t.fld (stopReg st.val sSTOP_ERR_STAT) 8 8 = satAdd 8 (s.fld (stopReg st.val sSTOP_ERR_STAT) 8 8) 1
        ∧ Tab.get (fun _ => false) t.recs.lostAt st.val = true
        ∧ regsBut [stopReg st.val sSTOP_ERR_STAT] s t ∧ onlyParts [.regs, .recs] s t)))
    ∧ (∀ (s : State) (st : Nat) (b : BitVec 512) (rest : List (BitVec 512)), s.nextRecStop = some st →
      s.recBuf st = b :: rest →
      completes .recordCollect s (fun t =>
        t.recBuf st = rest ∧ t.recs.rot = st
        ∧ t.fld gERR_SEQ 0 24 = (s.fld gERR_SEQ 0 24 + 1) % 2 ^ 24
        ∧ t.fld gERR_LOCAL_HEAD 0 6 = (s.fld gERR_LOCAL_HEAD 0 6 + 1) % 64
        ∧ Tab.get (fun _ => 0) t.recs.ring (s.fld gERR_LOCAL_HEAD 0 6)
            = withField (withField b 104 24 (s.fld gERR_SEQ 0 24)) 480 32
                (crc32c 60 ((withField b 104 24 (s.fld gERR_SEQ 0 24)).toNat % 2 ^ 480))
        ∧ onlyParts [.regs, .ni, .recs] s t))

/-- LOG_ENABLE, with EN 0: EN is 1, SIZE the value written but at most 10, HEAD and TAIL 0, and no other register
changes. LOG_WRITE_DONE of a write whose transaction has completed consumes the completion. With status OK: for
the oldest write, with nothing waiting, HEAD stands behind its entry and the write is no longer outstanding; for
a later one HEAD stays. With another status: EN is 0, ERR_STAT.LOG_WERR is set, no write is outstanding or
waiting. PERR_ENQ_DONE of a routed ENQ that has completed: it is over; a status other than OK is counted in
PERR_LOST. Where none has completed neither command changes anything. MGMT_BAD: the packet leaves the MGMT
buffer of port 3. -/
def Obligations.MemoryLogAdvancesAndStops : Prop :=
  (∀ (size : Nat) (s : State), s.flag gERR_LOG_CTRL 0 = false → completes (.logEnable size) s (fun t =>
        t.flag gERR_LOG_CTRL 0 = true ∧ t.fld gERR_LOG_CTRL 1 4 = min size 10
        ∧ t.fld gERR_LOG_HEAD 0 16 = 0 ∧ t.fld gERR_LOG_TAIL 0 16 = 0
        ∧ regsBut [gERR_LOG_CTRL, gERR_LOG_HEAD, gERR_LOG_TAIL] s t ∧ onlyParts [.regs] s t))
    ∧ (∀ (index tag : Nat) (s : State) (w : LogWr) (rest : List LogWr), s.logDone index tag = some (w, stOK) →
      s.recs.writes = w :: rest → (rest.all (fun x => !x.done && x.index != index)) = true → s.recs.logQ = [] →
      completes (.logWriteDone index tag) s (fun t =>
        t.fld gERR_LOG_HEAD 0 16 = (index + 1) % s.logSize % 2 ^ 16 ∧ t.recs.writes = rest
        ∧ t.txns hearthStop 3 = (s.txns hearthStop 3).filter (fun x => !(x.phase == .ready && x.tag == w.tag))
        ∧ regsBut [gERR_LOG_HEAD, gERR_STAT] s t ∧ onlyParts [.regs, .ni, .recs] s t))
    ∧ (∀ (index tag : Nat) (s : State) (w u : LogWr) (rest : List LogWr), s.logDone index tag = some (w, stOK) →
      s.recs.writes = u :: rest → u.done = false → u.index ≠ index → s.recs.logQ = [] →
      completes (.logWriteDone index tag) s (fun t =>
        t.fld gERR_LOG_HEAD 0 16 = s.fld gERR_LOG_HEAD 0 16
        ∧ t.recs.writes = s.recs.writes.map (fun x => if x.index = index then { x with done := true } else x)))
    ∧ (∀ (index tag status : Nat) (s : State) (w : LogWr), s.logDone index tag = some (w, status) → status ≠ stOK →
      completes (.logWriteDone index tag) s (fun t =>
        t.flag gERR_LOG_CTRL 0 = false ∧ t.flag gERR_STAT 2 = true ∧ t.recs.writes = [] ∧ t.recs.logQ = []
        ∧ onlyParts [.regs, .ni, .recs] s t))
    ∧ (∀ (index tag : Nat) (s : State), s.logDone index tag = none → completes (.logWriteDone index tag) s (fun t => t = s))
    ∧ (∀ (status tag : Nat) (s : State), s.perrDone tag = some status →
      completes (.perrEnqDone tag) s (fun t =>
        t.recs.perr = s.recs.perr.erase tag
        ∧ t.fld gPERR_LOST 0 32 = (if status = stOK then s.fld gPERR_LOST 0 32 else satAdd 32 (s.fld gPERR_LOST 0 32) 1)
        ∧ regsBut [gPERR_LOST] s t ∧ onlyParts [.regs, .ni, .recs] s t))
    ∧ (∀ (tag : Nat) (s : State), s.perrDone tag = none → completes (.perrEnqDone tag) s (fun t => t = s))
    ∧ (∀ (st : StopNo) (p : Pkt) (s : State), (s.mgmt st.val).contains p = true →
      completes (.mgmtBad st p) s (fun t =>
        t.mgmt st.val = (s.mgmt st.val).erase p ∧ (∀ a, a ≠ st.val → t.mgmt a = s.mgmt a)
        ∧ onlyParts [.regs, .ni, .recs] s t))

/-- TS_MARK, while frames run: every stop's latched count is its count, M is the master count, and a TS_SET whose GO
is set is taken and GO cleared: one that moves the count forward is loaded, one that moves it backward holds it
until TS_SET is reached. TS_CORRECTION at a stop with a latched count L, d = M - L: within STEP_MAX it slews by
d; above, it adds d at once; below -STEP_MAX, it holds the count for |d| / 10 hc rounded up and slews off the
remainder; MAX_ADJ is the larger of the old value and |d|. TS_SET: on the root in CONFIGURED GO is set, else
SET_REF. TS_NOW_READ, over the test path once fab_rst_n is deasserted or, on a die that has not failed, by a
read of TS_NOW_LO that is the oldest access of port 3 of Hearth's stop, latches the master's upper word; the
read leaves port 3. -/
def Obligations.TimestampsAreMarkedAndCorrected : Prop :=
  (∀ s : State, s.frame.running = true → completes .tsMark s (fun t =>
        (∀ st, st < 192 → (t.localTs st).mark = some (s.localTs st).count ∧ (t.localTs st).count = (s.localTs st).count)
        ∧ t.time.latchM = s.time.master
        ∧ (s.flag gTS_SET_CTRL 0 = false → s.time.offset = none → t.time.master = s.time.master)
        ∧ (∀ v : BitVec 64, s.flag gTS_SET_CTRL 0 = true →
            v = BitVec.ofNat 64 ((s.reg gTS_SET_LO).toNat + 2 ^ 32 * (s.reg gTS_SET_HI).toNat) →
            t.flag gTS_SET_CTRL 0 = false ∧ (0 ≤ (v - s.time.master).toInt → t.time.master = v)
            ∧ ((v - s.time.master).toInt < 0 → t.time.master = s.time.master
              ∧ t.time.hold = ((v - s.time.master).toInt.natAbs + 9) / 10))
        ∧ onlyParts [.time, .regs, .ni, .recs] s t))
    ∧ (∀ (st : StopNo) (s : State) (k : BitVec 64) (d : Int), s.hsafe = false → (s.localTs st.val).mark = some k →
      d = (s.time.latchM - k).toInt →
      completes (.tsCorrection st) s (fun t =>
        (d.natAbs ≤ s.fld gTS_CTRL 0 16 →
          t.localTs st.val = { count := (s.localTs st.val).count, hold := 0, slew := d, mark := none })
        ∧ ((s.fld gTS_CTRL 0 16 : Int) < d → t.localTs st.val
            = { count := (s.localTs st.val).count + BitVec.ofInt 64 d, hold := 0, slew := 0, mark := none }
            ∧ t.flag gTS_STAT 16 = true)
        ∧ (d < -(s.fld gTS_CTRL 0 16 : Int) → (t.localTs st.val).count = (s.localTs st.val).count
            ∧ (t.localTs st.val).hold = (d.natAbs + 9) / 10
            ∧ (t.localTs st.val).slew = 10 * (t.localTs st.val).hold + d ∧ t.flag gTS_STAT 16 = true)
        ∧ t.fld gTS_STAT 0 16 = max (s.fld gTS_STAT 0 16) (min d.natAbs 0xFFFF)
        ∧ t.time.master = s.time.master ∧ (∀ a, a ≠ st.val → t.localTs a = s.localTs a)
        ∧ onlyParts [.time, .regs, .ni, .recs] s t))
    ∧ (∀ (st : StopNo) (s : State), (s.hsafe = true ∨ (s.localTs st.val).mark = none) →
      completes (.tsCorrection st) s (fun t => t = s))
    ∧ (∀ s : State, completes .tsSet s (fun t =>
        (s.isRoot = true → s.fabState = fabCONFIGURED → t.flag gTS_SET_CTRL 0 = true ∧ regsBut [gTS_SET_CTRL] s t)
        ∧ (¬ (s.isRoot = true ∧ s.fabState = fabCONFIGURED) → t.flag gTS_STAT 17 = true ∧ regsBut [gTS_STAT] s t)
        ∧ onlyParts [.regs] s t))
    ∧ (∀ s : State, s.her.rstLow = true → completes (.tsNowRead none) s (fun t => t = s))
    ∧ (∀ s : State, s.her.rstLow = false → completes (.tsNowRead none) s (fun t =>
        (t.reg gTS_NOW_HI).toNat = s.time.master.toNat / 2 ^ 32 ∧ regsBut [gTS_NOW_HI] s t ∧ onlyParts [.regs] s t))
    ∧ (∀ (p : Pkt) (s : State) (d : Deliv) (rest : List Deliv), s.fabState ≠ fabFAILED → s.inbox hearthStop 3 = d :: rest → d.slots = p →
      ((Pkt.head p).opc = opRD ∨ (Pkt.head p).opc = opRD_NC) → (Pkt.head p).addr % 2 ^ 26 = gTS_NOW_LO →
      (Pkt.head p).rlen = 3 → (Pkt.head p).plen = 0 → s.regRefusal (Pkt.head p) [gTS_NOW_LO] = none →
      completes (.tsNowRead (some p)) s (fun t =>
        (t.reg gTS_NOW_HI).toNat = s.time.master.toNat / 2 ^ 32 ∧ t.inbox hearthStop 3 = rest))

/-- PMC_LOAD: the counter holds the word written below its holding register; the other counters stay. PMC_READ, over
the test path once fab_rst_n is deasserted or, on a die that has not failed, by a read of PMC_LO that is the
oldest access of port 3: bits [47:32] of the counter are latched. SAMPLE_ENABLE: EN is set and the stop's LFSR
holds its seed. SAMPLE_BUF_CONFIG: SAMPLE_HEAD and SAMPLE_TAIL are 0. PMAP_ENTRY_WRITE with WR to the shadow
bank of a powered stop: the entry holds VALID and CTX, the others stay. DEFL_CTRL_WRITE: in CONFIGURED the value
waits for its named boundary (which boundary is the model's choice), in any other state the write is ignored. -/
def Obligations.CountersAndSamplesAreSetUp : Prop :=
  (∀ (st : StopNo) (n : Fin 16) (v : Word32) (s : State), completes (.pmcLoad st n v) s (fun t =>
        t.pmc st.val n.val = v.toNat + Tab.get (fun _ => 0) s.pmu.hold (st.val * 16 + n.val) % 2 ^ 16 * 2 ^ 32
        ∧ (∀ m, m < 16 → m ≠ n.val → t.pmc st.val m = s.pmc st.val m) ∧ onlyParts [.pmu] s t))
    ∧ (∀ (st : StopNo) (n : Fin 16) (s : State), s.her.rstLow = true → completes (.pmcRead st n none) s (fun t => t = s))
    ∧ (∀ (st : StopNo) (n : Fin 16) (s : State), s.her.rstLow = false → completes (.pmcRead st n none) s (fun t =>
        Tab.get (fun _ => 0) t.pmu.latch (st.val * 16 + n.val) = s.pmc st.val n.val / 2 ^ 32
        ∧ t.pmc st.val n.val = s.pmc st.val n.val ∧ onlyParts [.pmu] s t))
    ∧ (∀ (st : StopNo) (n : Fin 16) (p : Pkt) (s : State) (d : Deliv) (rest : List Deliv),
      s.fabState ≠ fabFAILED → s.inbox st.val 3 = d :: rest → d.slots = p → ((Pkt.head p).opc = opRD ∨ (Pkt.head p).opc = opRD_NC) →
      (Pkt.head p).addr % 2 ^ 26 = stopReg st.val (sPMC + 8 * n.val) → (Pkt.head p).rlen = 3 → (Pkt.head p).plen = 0 →
      s.regRefusal (Pkt.head p) [stopReg st.val (sPMC + 8 * n.val)] = none →
      completes (.pmcRead st n (some p)) s (fun t =>
        Tab.get (fun _ => 0) t.pmu.latch (st.val * 16 + n.val) = s.pmc st.val n.val / 2 ^ 32
        ∧ t.pmc st.val n.val = s.pmc st.val n.val ∧ t.inbox st.val 3 = rest))
    ∧ (∀ (st : StopNo) (v : Word32) (s : State), completes (.sampleEnable st v) s (fun t =>
        t.flag (stopReg st.val sSMP_CTRL) 0 = true
        ∧ Tab.get (fun _ => 0) t.pmu.lfsr st.val = 1 + 256 * s.die + st.val ∧ onlyParts [.regs, .recs, .pmu] s t))
    ∧ (∀ (base : Bool) (v : Word32) (s : State), completes (.sampleBufConfig base v) s (fun t =>
        t.fld gSAMPLE_HEAD 0 20 = 0 ∧ t.fld gSAMPLE_TAIL 0 20 = 0
        ∧ (base = true → t.reg gSAMPLE_BUF_BASE = v) ∧ (base = false → t.fld gSAMPLE_BUF_SIZE 0 4 = min (fieldOf v 0 4) 14)
        ∧ onlyParts [.regs] s t))
    ∧ (∀ (st : StopNo) (v : Word32) (s : State), s.regOpen (stopReg st.val sPMAP_ACC) = true → bitOf v 31 = true →
      fieldOf v 12 1 ≠ s.pactive st.val → s.cmtFrozen st.val 2 = false →
      completes (.pmapEntryWrite st v) s (fun t =>
        t.pmap st.val (fieldOf v 12 1) (fieldOf v 0 12) = fieldOf v 22 1 * 64 + fieldOf v 16 6
        ∧ (∀ q, q < 4096 → q ≠ fieldOf v 0 12 → t.pmap st.val (fieldOf v 12 1) q = s.pmap st.val (fieldOf v 12 1) q)
        ∧ regsBut [stopReg st.val sPMAP_ACC] s t ∧ onlyParts [.regs, .ni] s t))
    ∧ (∀ (v : Word32) (s : State), s.hsafe = false → completes (.deflCtrlWrite v) s (fun t =>
        (s.fabState = fabCONFIGURED → ∃ w n, t.frame.deflNxt = some (w, n) ∧ fieldOf w 0 4 = fieldOf v 0 4
          ∧ fieldOf w 16 16 = fieldOf v 16 16
          ∧ fieldOf w 4 12 = max (fieldOf v 4 12) 0x10)
        ∧ (s.fabState ≠ fabCONFIGURED → t.frame.deflNxt = s.frame.deflNxt)
        ∧ t.frame.fpos = s.frame.fpos ∧ onlyParts [.frame] s t))

/-- At a running engine with nothing else in hand whose memories report nothing, an ENQ that is next and passes the
checks of Table 9.7, to a queue on a DIRECT segment whose leader is not armed, completes. With good slots: TAIL
advances modulo the capacity, COUNT rises by one, HEAD and every other queue stay; each word it writes (all
words of the element, where the ENQ is poisoned) stands, as a valid codeword or in the poison form, in the 36
symbols of the row that serves it; no other symbol of any store changes; a CMP with OK is sent. With a slot that
fails its CRC: no queue and no memory changes, and a CMP with SLVERR is sent. Either way the operation has left
the request store and the engine. -/
def Obligations.EnqueueStoresOneElement : Prop :=
  ∀ (st : StopNo) (p : Pkt) (inp : QIn) (s : State) (q : Nat) (e : BitVec 256), calmIn inp = true →
    s.opReady st.val p = true → (Pkt.head p).opc = opENQ → q = (Pkt.head p).qnum → e = s.qEntry st.val q →
    s.opVerdict st.val p = none → s.directElem st.val q (qeTail e) = true →
    qeArmed (s.qEntry st.val (s.leaderOf st.val q)) = false →
    (badSlot p = none → completes (.enq st p inp) s (fun t =>
      qeTail (t.qEntry st.val q) = (qeTail e + 1) % qeCap e ∧ qeCount (t.qEntry st.val q) = qeCount e + 1
      ∧ qeHead (t.qEntry st.val q) = qeHead e
      ∧ (∀ x, x ≠ q → t.qEntry st.val x = s.qEntry st.val x)
      ∧ (∀ w k b row, w < (if (Pkt.head p).attrBit attrPois then qeSize e / 32 else ((Pkt.head p).qlen + 8) / 32 + 1) →
          k < 36 → (b, row) = s.elemAt st.val q (qeTail e) w →
          t.sym st.val b (s.physRow st.val b row) k
            = BitVec.ofNat 8 (fieldOf (rsEncode (BitVec.ofNat 256 (elemOf e p / 2 ^ (256 * w)))
                ((Pkt.head p).attrBit attrPois)) (8 * k) 8))
      ∧ (∀ a, (∀ w k b row,
            w < (if (Pkt.head p).attrBit attrPois then qeSize e / 32 else ((Pkt.head p).qlen + 8) / 32 + 1) → k < 36 →
            (b, row) = s.elemAt st.val q (qeTail e) w → a ≠ memKey st.val b (s.physRow st.val b row) k) →
          Tab.get memDef t.mem a = Tab.get memDef s.mem a)
      ∧ opOver st.val s t ∧ opAnswered st.val p opCMP stOK [0] s t
      ∧ onlyParts [.regs, .mem, .ni, .qe, .store] s t))
    ∧ (badSlot p ≠ none → completes (.enq st p inp) s (fun t =>
      t.qe.table = s.qe.table ∧ t.mem = s.mem ∧ opOver st.val s t ∧ opAnswered st.val p opCMP stSLVERR [0] s t
      ∧ onlyParts [.regs, .ni, .recs, .qe] s t))

/-- At a running engine with nothing else in hand whose memories report nothing, a DEQ, PEEK or STEAL that is next
and passes the checks, to a queue on a DIRECT segment whose leader is not armed and, where it carries ARM,
notifies nobody, with no merge entry at the stop and an element of clean words whose descriptor is valid,
completes. Where the element fits the request: a CMP_D with OK is sent whose data are the element's bytes 0 to
LEN + 8; DEQ and STEAL lower COUNT by one and move HEAD past the element, or TAIL onto it for a DEQ of the
newest element (R258); PEEK leaves TAIL, HEAD and COUNT; with ARM the leader is armed. Where it does not fit: a
CMP_D with MSGSIZE and the descriptor, and the queue stays. Every other queue and all memory are as they were. -/
def Obligations.DequeueReturnsTheElement : Prop :=
  ∀ (c : Instr) (st : StopNo) (p : Pkt) (inp : QIn) (s : State) (j i l : Nat) (desc : BitVec 64),
    (c = .deq st p inp ∧ (Pkt.head p).opc = opDEQ) ∨ (c = .peek st p inp ∧ (Pkt.head p).opc = opPEEK)
      ∨ (c = .steal st p inp ∧ (Pkt.head p).opc = opSTEAL) →
    calmIn inp = true → s.opReady st.val p = true → s.opVerdict st.val p = none →
    (j, i) = s.opTarget st.val (Pkt.head p) → s.directElem st.val j i = true →
    l = s.leaderOf st.val (Pkt.head p).qnum → qeArmed (s.qEntry st.val l) = false →
    qeArmed (s.qEntry st.val (s.leaderOf st.val j)) = false →
    ((Pkt.head p).qarm = true → qeNtfMode (s.qEntry st.val l) = 0) → (∀ b, s.merge st.val b = []) →
    (∀ w b row, w < qeSize (s.qEntry st.val j) / 32 → (b, row) = s.elemAt st.val j i w →
      (rsDecode (s.reach st.val) (s.memWord st.val b (s.physRow st.val b row))).kind = 0) →
    (∀ b row, (b, row) = s.elemAt st.val j i 0 →
      desc = BitVec.ofNat 64 (wordData (s.memWord st.val b (s.physRow st.val b row))).toNat) →
    bitOf desc 63 = true →
    (fieldOf desc 0 13 + 9 ≤ (Pkt.head p).qlen + 1 → fieldOf desc 0 13 + 9 ≤ qeSize (s.qEntry st.val j) →
      completes c s (fun t =>
      ((Pkt.head p).opc = opPEEK → fieldOf (t.qEntry st.val j) 0 65 = fieldOf (s.qEntry st.val j) 0 65)
      ∧ ((Pkt.head p).opc ≠ opPEEK → qeCount (t.qEntry st.val j) = qeCount (s.qEntry st.val j) - 1
          ∧ (qeType (s.qEntry st.val j) = 2 → (Pkt.head p).opc = opDEQ →
              qeTail (t.qEntry st.val j) = i ∧ qeHead (t.qEntry st.val j) = qeHead (s.qEntry st.val j))
          ∧ (qeType (s.qEntry st.val j) ≠ 2 ∨ (Pkt.head p).opc = opSTEAL →
              qeHead (t.qEntry st.val j) = (i + 1) % qeCap (s.qEntry st.val j)
              ∧ qeTail (t.qEntry st.val j) = qeTail (s.qEntry st.val j)))
      ∧ qeArmed (t.qEntry st.val l) = (Pkt.head p).qarm
      ∧ (∀ x, x ≠ j → x ≠ l → t.qEntry st.val x = s.qEntry st.val x) ∧ t.mem = s.mem ∧ opOver st.val s t
      ∧ opAnswered st.val p opCMP_D stOK
          ((splitNat 512 ((fieldOf desc 0 13 + 8) / 64 + 1)
            (joinNat 256 ((List.range ((fieldOf desc 0 13 + 8) / 32 + 1)).map (fun w =>
              (wordData (s.memWord st.val (s.elemAt st.val j i w).1
                (s.physRow st.val (s.elemAt st.val j i w).1 (s.elemAt st.val j i w).2))).toNat))
              % 2 ^ (8 * (fieldOf desc 0 13 + 9)))).map (BitVec.ofNat 512)) s t
      ∧ onlyParts [.regs, .ni, .qe] s t))
    ∧ ((Pkt.head p).qlen + 1 < fieldOf desc 0 13 + 9 → completes c s (fun t =>
      t.qe.table = s.qe.table ∧ t.mem = s.mem ∧ opOver st.val s t
      ∧ opAnswered st.val p opCMP_D stMSGSIZE [BitVec.ofNat 512 desc.toNat] s t
      ∧ onlyParts [.regs, .ni, .qe] s t))

/-- At a running engine with nothing else in hand whose memories report nothing: a QSTAT that is next and passes the
checks, whose leader, where it carries ARM, notifies nobody, sends a CMP_D with OK and the status block of Table
9.8; CLRDB then clears DBVAL and DBCNT of the queue, ARM arms the leader, and nothing else of any queue changes.
A DBELL that is next and passes the checks, to a queue whose leader is not armed, raises the leader's DBCNT by
one, saturating, ORs the value into DBVAL, changes no other queue, and sends a CMP with OK. No memory changes. -/
def Obligations.StatusAndDoorbellCommands : Prop :=
  (∀ (st : StopNo) (p : Pkt) (inp : QIn) (s : State) (q l : Nat), calmIn inp = true → s.opReady st.val p = true →
      (Pkt.head p).opc = opQSTAT → s.opVerdict st.val p = none → q = (Pkt.head p).qnum → l = s.leaderOf st.val q →
      ((Pkt.head p).qarm = true → qeNtfMode (s.qEntry st.val l) = 0) →
      completes (.qstat st p inp) s (fun t =>
        (∀ x, t.qEntry st.val x = withField (withField (s.qEntry st.val x)
            196 48 (if x = q ∧ (Pkt.head p).qclrdb = true then 0 else fieldOf (s.qEntry st.val x) 196 48))
            65 1 (if x = l ∧ (Pkt.head p).qarm = true then 1 else fieldOf (s.qEntry st.val x) 65 1))
        ∧ opOver st.val s t
        ∧ opAnswered st.val p opCMP_D stOK [s.qstatBlock st.val q] s t
        ∧ onlyParts [.regs, .ni, .qe] s t))
    ∧ (∀ (st : StopNo) (p : Pkt) (inp : QIn) (s : State) (l : Nat), calmIn inp = true → s.opReady st.val p = true →
      (Pkt.head p).opc = opDBELL → s.opVerdict st.val p = none → l = s.leaderOf st.val (Pkt.head p).qnum →
      qeArmed (s.qEntry st.val l) = false →
      completes (.dbell st p inp) s (fun t =>
        fieldOf (t.qEntry st.val l) 196 16 = satAdd 16 (fieldOf (s.qEntry st.val l) 196 16) 1
        ∧ fieldOf (t.qEntry st.val l) 212 32
            = fieldOf (s.qEntry st.val l) 212 32 ||| (Pkt.head p).pay.toNat % 2 ^ 32
        ∧ fieldOf (t.qEntry st.val l) 0 196 = fieldOf (s.qEntry st.val l) 0 196
        ∧ (∀ x, x ≠ l → t.qEntry st.val x = s.qEntry st.val x) ∧ opOver st.val s t
        ∧ opAnswered st.val p opCMP stOK [0] s t
        ∧ onlyParts [.regs, .ni, .qe] s t))

/-- For each of ENQ, DEQ, PEEK, STEAL, QSTAT and DBELL, next at an engine with nothing else in hand. Where the
memories report nothing and it fails a check of Table 9.7: it has left the engine, no queue entry changes (but
that a refusal with EMPTY that carries ARM may arm the leader) and no memory, the counter the table names rises,
a CMP with the status is sent. Where the engine has halted, or halts now on its microcode: SLVERR, and no queue
changes. Where the queue-table entry of a live engine is lost: the queue addressed is FAULTED with cause 6, the
others stay, and the answer is SLVERR. A command whose packet the engine cannot take now (not the first in the
request store, no power, the fill running, 32 operations in hand) changes nothing. -/
def Obligations.RefusedQueueOperationChangesNoQueue : Prop :=
  ∀ (c : Instr) (st : StopNo) (p : Pkt) (inp : QIn) (s : State) (q : Nat), q = (Pkt.head p).qnum →
    (c = .enq st p inp ∧ (Pkt.head p).opc = opENQ) ∨ (c = .deq st p inp ∧ (Pkt.head p).opc = opDEQ)
      ∨ (c = .peek st p inp ∧ (Pkt.head p).opc = opPEEK) ∨ (c = .steal st p inp ∧ (Pkt.head p).opc = opSTEAL)
      ∨ (c = .qstat st p inp ∧ (Pkt.head p).opc = opQSTAT) ∨ (c = .dbell st p inp ∧ (Pkt.head p).opc = opDBELL) →
    (∀ status k cause l, calmIn inp = true → s.opReady st.val p = true →
      s.opVerdict st.val p = some (status, k, cause) → l = s.leaderOf st.val q →
      completes c s (fun t =>
        (status = stEMPTY → (Pkt.head p).qarm = true → [opDEQ, opPEEK, opSTEAL].contains (Pkt.head p).opc = true →
          ∃ b, b < 2 ∧ t.qEntry st.val l = withField (s.qEntry st.val l) 65 1 b)
        ∧ ((status ≠ stEMPTY ∨ (Pkt.head p).qarm = false) → t.qEntry st.val l = s.qEntry st.val l)
        ∧ (∀ x, x ≠ l → t.qEntry st.val x = s.qEntry st.val x) ∧ t.mem = s.mem ∧ opOver st.val s t
        ∧ t.fld (stopReg st.val (sQE_CNT + 4 * k)) 0 32 = satAdd 32 (s.fld (stopReg st.val (sQE_CNT + 4 * k)) 0 32) 1
        ∧ opAnswered st.val p opCMP status [0] s t ∧ onlyParts [.regs, .ni, .recs, .qe] s t))
    ∧ (s.opNext st.val p = true → (s.qHalted st.val = true ∨ inp.uc.val = 2) →
      completes c s (fun t =>
        t.qHalted st.val = true ∧ t.qe.table = s.qe.table ∧ t.mem = s.mem ∧ opOver st.val s t
        ∧ opAnswered st.val p opCMP stSLVERR [0] s t ∧ onlyParts [.regs, .ni, .recs, .qe] s t))
    ∧ (s.opReady st.val p = true → s.qeOn st.val = true → inp.uc.val = 0 → inp.qt.val = 2 →
      completes c s (fun t =>
        qeState (t.qEntry st.val q) = qFAULTED ∧ fieldOf (t.qEntry st.val q) 124 4 = 6
        ∧ t.qIsLost st.val q = true ∧ (∀ x, x ≠ q → t.qEntry st.val x = s.qEntry st.val x) ∧ t.mem = s.mem
        ∧ opOver st.val s t ∧ opAnswered st.val p opCMP stSLVERR [0] s t
        ∧ onlyParts [.regs, .ni, .recs, .qe] s t))
    ∧ (((s.nextOp st.val).map (·.slots) ≠ some p ∨ s.stopAbsent st.val = true ∨ s.fillBusy st.val = true
        ∨ 32 ≤ (s.qops st.val).length) → completes c s (fun t => t = s))

/-- With no operation in hand: a walk's valid answer, not dropped and for no prefetch or release, installs a run
that gives the page its location; a failed one that no release asked for counts PG_CNT_7 and faults the queue,
or for a prefetch is only counted in PG_CNT_6; a walk that a deletion abandoned just ends, and one that reads a
deleted queue's table fills the frame it names with zeros and moves the release on. A spill whose 16 answers are
OK frees the frame; a failed one leaves the page, stuck, and faults the queue; a refill or prefetch whose
answers are OK or POISON makes the page resident and clean, its words in the frame, and touches nothing else; a
failed one leaves no page, and faults the queue unless it was a prefetch. DEV_ACCESS_COMPLETE of an ENQ answered
OK, its leader not armed: TAIL and COUNT advance and the CMP with OK is sent; of any operation whose access
failed: its queue is faulted and SLVERR sent. An answer that is not there yet changes nothing. -/
def Obligations.EngineTrafficCompletes : Prop :=
  (∀ (st : StopNo) (tag : Fin 1024) (fs : List MemFlt) (s : State) (w : QWalk) (x : Txn) (v : Nat),
      s.engineEmpty st.val = true → w.rel = false →
      (s.walks st.val).find? (fun w => w.tag == tag.val) = some w → s.engineTxn st.val tag.val = some x →
      v = fieldOf (x.data.headD 0) (64 * (w.page % 8)) 64 →
      completes (.walkComplete st tag fs) s (fun t =>
        (∀ y ∈ t.walks st.val, y.tag ≠ tag.val) ∧ t.engineTxn st.val tag.val = none ∧ t.mem = s.mem
        ∧ (w.gone = true → t.qe.table = s.qe.table ∧ t.qtlb st.val = s.qtlb st.val)
        ∧ (w.gone = false → x.status = stOK → s.pteValid st.val v = true → w.pref = false → w.dropped = false →
            (∃ e ∈ t.qtlb st.val, e.covers w.q w.page = true ∧ e.loc w.page = pteLoc v) ∧ t.qe.table = s.qe.table)
        ∧ (w.gone = false → (x.status ≠ stOK ∨ s.pteValid st.val v = false) → t.qtlb st.val = s.qtlb st.val
            ∧ (w.pref = true → t.qe.table = s.qe.table ∧ t.fld (stopReg st.val (sPG_CNT + 24)) 0 32
                = satAdd 32 (s.fld (stopReg st.val (sPG_CNT + 24)) 0 32) 1)
            ∧ (w.pref = false → qeState (s.qEntry st.val w.q) ≠ qDRAINING → qeState (t.qEntry st.val w.q) = qFAULTED
                ∧ fieldOf (t.qEntry st.val w.q) 124 4
                  = (if x.status = stWALKERR_DEV then 2 else if x.status = stOK then 3 else 1)))
        ∧ onlyParts [.regs, .ni, .recs, .qe] s t))
    ∧ (∀ (st : StopNo) (tag : Fin 1024) (fs : List MemFlt) (s : State) (w : QWalk) (x : Txn) (v : Nat) (r : QRel),
      s.engineEmpty st.val = true → w.rel = true →
      (s.walks st.val).find? (fun w => w.tag == tag.val) = some w → s.engineTxn st.val tag.val = some x →
      v = fieldOf (x.data.headD 0) (64 * (w.page % 8)) 64 →
      (s.rels st.val).find? (fun r => r.todo.head? == some w.q) = some r →
      completes (.walkComplete st tag fs) s (fun t => r.after (sgPages (s.qSeg st.val w.q)) ∈ t.rels st.val
        ∧ (∀ f k i, x.status = stOK → s.pteValid st.val v = true → pteLoc v = .frame f → k < 32 → i < 36 →
            t.sym st.val (frameWord f k).1 (s.physRow st.val (frameWord f k).1 (frameWord f k).2) i = 0)
        ∧ onlyParts [.regs, .mem, .ni, .recs, .qe, .store] s t))
    ∧ (∀ (st : StopNo) (frame : Fin 128) (fs : List MemFlt) (s : State) (m : QMove), s.engineEmpty st.val = true →
      s.invAt st.val = [] → s.leavingAt st.val = [] →
      (s.moves st.val).find? (fun m => m.frame == frame.val) = some m →
      (m.tags.filterMap (fun g => s.engineTxn st.val g)).length = m.tags.length →
      completes (.pageMoveComplete st frame fs) s (fun t => (∀ y ∈ t.moves st.val, y.frame ≠ frame.val)
        ∧ (m.kind = .gone → t.resid st.val = s.resid st.val ∧ t.mem = s.mem)
        ∧ (m.kind = .spill → (∀ g x, g ∈ m.tags → s.engineTxn st.val g = some x → x.status = stOK) →
            t.resid st.val = (s.resid st.val).filter (fun r => r.frame != frame.val) ∧ t.mem = s.mem)
        ∧ (m.kind = .spill → (∃ g ∈ m.tags, ∃ x, s.engineTxn st.val g = some x ∧ x.status ≠ stOK) →
            t.resid st.val = (s.resid st.val).map (fun r => if r.frame = m.frame then { r with stuck := true } else r)
            ∧ (qeState (s.qEntry st.val m.q) ≠ qDRAINING → qeState (t.qEntry st.val m.q) = qFAULTED) ∧ t.mem = s.mem)
        ∧ (m.kind = .refill ∨ m.kind = .prefetch →
            (∀ g x, g ∈ m.tags → s.engineTxn st.val g = some x → x.status = stOK ∨ x.status = stPOISON) →
            m.tags.length = 16 →
            t.resid st.val = s.resid st.val ++ [⟨frame.val, m.q, m.page, m.addr, false, false⟩]
            ∧ (∀ k g x i, k < 16 → i < 36 → m.tags[k]? = some g → s.engineTxn st.val g = some x →
                t.sym st.val (frameWord frame.val (2 * k)).1
                  (s.physRow st.val (frameWord frame.val (2 * k)).1 (frameWord frame.val (2 * k)).2) i
                  = BitVec.ofNat 8 (fieldOf (rsEncode (BitVec.ofNat 256 (x.data.headD 0).toNat)
                      (x.status == stPOISON)) (8 * i) 8))
            ∧ (∀ a, (∀ k i, k < 32 → i < 36 → a ≠ memKey st.val (frameWord frame.val k).1
                  (s.physRow st.val (frameWord frame.val k).1 (frameWord frame.val k).2) i) →
                Tab.get memDef t.mem a = Tab.get memDef s.mem a))
        ∧ (m.kind = .refill ∨ m.kind = .prefetch →
            (∃ g ∈ m.tags, ∃ x, s.engineTxn st.val g = some x ∧ x.status ≠ stOK ∧ x.status ≠ stPOISON) →
            t.resid st.val = s.resid st.val ∧ t.mem = s.mem
            ∧ (m.kind = .refill → qeState (s.qEntry st.val m.q) ≠ qDRAINING →
                qeState (t.qEntry st.val m.q) = qFAULTED))
        ∧ onlyParts [.regs, .mem, .ni, .recs, .qe, .store] s t))
    ∧ (∀ (st : StopNo) (tag : Fin 1024) (fs : List MemFlt) (s : State) (o : QOp) (x : Txn) (q : Nat) (e : BitVec 256),
      s.qops st.val = [o] → Tab.get (fun _ => []) s.qe.forced st.val = [] → o.dev = some tag.val →
      s.engineTxn st.val tag.val = some x → q = o.head.qnum → e = s.qEntry st.val q →
      (x.status = stOK → o.head.opc = opENQ → qeCount e < qeCap e →
        qeArmed (s.qEntry st.val (s.leaderOf st.val q)) = false →
        completes (.devAccessComplete st tag fs) s (fun t =>
          qeTail (t.qEntry st.val q) = (qeTail e + 1) % qeCap e ∧ qeCount (t.qEntry st.val q) = qeCount e + 1
          ∧ (∀ y, y ≠ q → t.qEntry st.val y = s.qEntry st.val y) ∧ t.qops st.val = [] ∧ t.mem = s.mem
          ∧ sent st.val 2 (mkRsp s.die st.val (o.pkt.getLastD o.head) opCMP stOK false 0 o.arr [0]) t
          ∧ onlyParts [.regs, .ni, .qe] s t))
      ∧ (x.status ≠ stOK → completes (.devAccessComplete st tag fs) s (fun t =>
          (qeState e ≠ qDRAINING → qeState (t.qEntry st.val q) = qFAULTED) ∧ fieldOf (t.qEntry st.val q) 124 4 = 5
          ∧ (∀ y, y ≠ q → t.qEntry st.val y = s.qEntry st.val y) ∧ t.qops st.val = [] ∧ t.mem = s.mem
          ∧ sent st.val 2 (mkRsp s.die st.val (o.pkt.getLastD o.head) opCMP stSLVERR false 0 o.arr [0]) t
          ∧ onlyParts [.regs, .ni, .recs, .qe] s t)))
    ∧ (∀ (st : StopNo) (tag : Fin 1024) (fs : List MemFlt) (s : State), s.engineTxn st.val tag.val = none →
      completes (.walkComplete st tag fs) s (fun t => t = s)
      ∧ completes (.devAccessComplete st tag fs) s (fun t => t = s))

/-- At a powered stop, no commit in progress. DELETE and FORCE_DELETE of a live queue that is no group member: its
group is DRAINING; FORCE_DELETE with nothing in hand also sets COUNT 0, HEAD to TAIL and the number discarded.
CLEAR_FAULT of a FAULTED queue: ACTIVE, FULL or SPILLING, RESULT 1. ARM of a live queue: the leader is armed,
or, where a condition already holds, notified and not armed; RESULT 1. Of a queue that is not so each is refused
by RESULT 2 and its reason; a queue whose entry is lost waits for FORCE_DELETE (log entry 141). During a commit
QCMD only keeps the command. QUEUE_DELETE_DONE of a drained queue with nothing in hand: the entries are 0, no
page or translation is left, the frames of a DIRECT segment are zero, RESULT 1; with a page table it starts the
reads of it and ends so after the last. Other queues stay. -/
def Obligations.QueueCommandsTakeEffect : Prop :=
  (∀ (st : StopNo) (q : QueueNo) (s : State) (e : BitVec 256), s.niOn st.val = true → s.cmtOpen = false →
      e = s.qEntry st.val q.val →
      (qeState e ≠ qDISABLED → qeType e ≠ 3 →
        (s.qIsLost st.val q.val = false → completes (.delete st q) s (fun t =>
          (∀ j ∈ s.groupOf st.val q.val, t.qEntry st.val j = withField (s.qEntry st.val j) 0 3 qDRAINING)
          ∧ (∀ x, x ∉ s.groupOf st.val q.val → t.qEntry st.val x = s.qEntry st.val x)
          ∧ t.flag (stopReg st.val sQCMD) 31 = true ∧ regsBut [stopReg st.val sQCMD] s t ∧ onlyParts [.regs, .qe] s t))
        ∧ (s.qIsLost st.val q.val = true → completes (.delete st q) s (fun t =>
          t.qe.table = s.qe.table ∧ t.flag (stopReg st.val sQCMD) 31 = true ∧ onlyParts [.regs, .qe] s t))
        ∧ (s.engineEmpty st.val = true → completes (.forceDelete st q) s (fun t =>
          (∀ j ∈ s.groupOf st.val q.val, qeState (t.qEntry st.val j) = qDRAINING ∧ qeCount (t.qEntry st.val j) = 0
            ∧ qeHead (t.qEntry st.val j) = qeTail (s.qEntry st.val j)
            ∧ qeTail (t.qEntry st.val j) = qeTail (s.qEntry st.val j))
          ∧ (∀ x, x ∉ s.groupOf st.val q.val → t.qEntry st.val x = s.qEntry st.val x)
          ∧ t.fld (stopReg st.val sQCMD_STAT) 8 15 = s.groupCount st.val q.val % 2 ^ 15
          ∧ onlyParts [.regs, .recs, .qe] s t)))
      ∧ (qeState e = qFAULTED → s.qIsLost st.val q.val = false → completes (.clearFault st q) s (fun t =>
        qeState (t.qEntry st.val q.val) = (if (s.moves st.val).any (fun m => m.q == q.val && m.kind != .gone)
          then qSPILLING else if qeCount e = qeCap e then qFULL else qACTIVE)
        ∧ fieldOf (t.qEntry st.val q.val) 3 253 = fieldOf e 3 253
        ∧ (∀ r ∈ t.resid st.val, r.q = q.val → r.stuck = false)
        ∧ (∀ x, x ≠ q.val → t.qEntry st.val x = s.qEntry st.val x)
        ∧ t.fld (stopReg st.val sQCMD_STAT) 0 2 = 1 ∧ t.flag (stopReg st.val sQCMD) 31 = false
        ∧ regsBut [stopReg st.val sQCMD, stopReg st.val sQCMD_STAT] s t ∧ onlyParts [.regs, .qe] s t))
      ∧ (qeState e ≠ qDISABLED → ∀ l b, l = s.leaderOf st.val q.val →
        b = decide (qeNtfMode (s.qEntry st.val l) = 0 ∨ firstEvent (qeNtfEv (s.qEntry st.val l)) false
          (qeThresh (s.qEntry st.val l) ≤ s.groupCount st.val l) (0 < s.groupCount st.val l) false = none) →
        completes (.arm st q) s (fun t =>
          t.qEntry st.val l = withField (s.qEntry st.val l) 65 1 (if b then 1 else 0)
          ∧ (∀ x, x ≠ l → t.qEntry st.val x = s.qEntry st.val x)
          ∧ t.fld (stopReg st.val sQCMD_STAT) 0 2 = 1 ∧ t.flag (stopReg st.val sQCMD) 31 = false
          ∧ (b = true → onlyParts [.regs, .qe] s t) ∧ onlyParts [.regs, .ni, .recs, .qe] s t))
      ∧ (∀ c r, (qeState e = qDISABLED ∧ r = 0 ∧ (c = .delete st q ∨ c = .forceDelete st q ∨ c = .clearFault st q
            ∨ c = .arm st q)) ∨ (qeState e ≠ qDISABLED ∧ qeType e = 3 ∧ r = 1 ∧ (c = .delete st q ∨ c = .forceDelete st q))
            ∨ (qeState e ≠ qDISABLED ∧ qeState e ≠ qFAULTED ∧ r = 3 ∧ c = .clearFault st q) →
        completes c s (fun t => t.fld (stopReg st.val sQCMD_STAT) 0 2 = 2 ∧ t.fld (stopReg st.val sQCMD_STAT) 2 2 = r
          ∧ t.flag (stopReg st.val sQCMD) 31 = false ∧ t.qe = s.qe ∧ onlyParts [.regs] s t)))
    ∧ (∀ (st : StopNo) (q : QueueNo) (c : Instr) (s : State), s.niOn st.val = true → s.cmtOpen = true →
      (c = .delete st q ∨ c = .forceDelete st q ∨ c = .clearFault st q ∨ c = .arm st q) →
      completes c s (fun t => t.qe.table = s.qe.table ∧ t.flag (stopReg st.val sQCMD) 31 = true
        ∧ t.fld (stopReg st.val sQCMD) 0 8 = q.val ∧ regsBut [stopReg st.val sQCMD] s t ∧ onlyParts [.regs, .qe] s t))
    ∧ (∀ (x : Fin 16) (y : Fin 12) (q : QueueNo) (st : StopNo) (s : State), st = stopXY x y → s.deleteReady st.val q.val = true → s.engineEmpty st.val = true →
      ((∀ r ∈ s.rels st.val, r.q ≠ q.val) → (∀ j ∈ s.groupOf st.val q.val, sgMode (s.qSeg st.val j) ≠ 2) →
        completes (.queueDeleteDone x y q) s (fun t =>
          (∀ j ∈ s.groupOf st.val q.val, t.qEntry st.val j = 0 ∧ (∀ r ∈ t.resid st.val, r.q ≠ j)
            ∧ (∀ e ∈ t.qtlb st.val, e.q ≠ j) ∧ (∀ w ∈ t.walks st.val, w.q = j → w.gone = true)
            ∧ (∀ f k i, sgMode (s.qSeg st.val j) = 1 → sgFrame (s.qSeg st.val j) ≤ f →
                f < sgFrame (s.qSeg st.val j) + sgPages (s.qSeg st.val j) → k < 32 → i < 36 →
                t.sym st.val (frameWord f k).1 (s.physRow st.val (frameWord f k).1 (frameWord f k).2) i = 0))
          ∧ (∀ x, x ∉ s.groupOf st.val q.val → t.qEntry st.val x = s.qEntry st.val x)
          ∧ t.fld (stopReg st.val sQCMD_STAT) 0 2 = 1 ∧ t.flag (stopReg st.val sQCMD) 31 = false
          ∧ onlyParts [.regs, .mem, .ni, .qe, .store] s t))
      ∧ (∀ j js, (∀ r ∈ s.rels st.val, r.q ≠ q.val) →
        (s.groupOf st.val q.val).filter (fun j => sgMode (s.qSeg st.val j) == 2) = j :: js →
        completes (.queueDeleteDone x y q) s (fun t =>
          t.rels st.val = s.rels st.val ++ [⟨q.val, j :: js, 0⟩] ∧ t.qe.table = s.qe.table
          ∧ (∃ w ∈ t.walks st.val, w.q = j ∧ w.page = 0 ∧ w.rel = true)
          ∧ onlyParts [.regs, .mem, .ni, .qe, .store] s t))
      ∧ (∀ r, (s.rels st.val).find? (fun r => r.q == q.val) = some r → r.todo = [] →
        completes (.queueDeleteDone x y q) s (fun t =>
          (∀ j ∈ s.groupOf st.val q.val, t.qEntry st.val j = 0)
          ∧ (∀ x, x ∉ s.groupOf st.val q.val → t.qEntry st.val x = s.qEntry st.val x)
          ∧ (∀ x ∈ t.rels st.val, x.q ≠ q.val) ∧ t.fld (stopReg st.val sQCMD_STAT) 0 2 = 1
          ∧ t.flag (stopReg st.val sQCMD) 31 = false ∧ t.mem = s.mem ∧ onlyParts [.regs, .qe] s t)))

/-- At a powered stop. QT_ENTRY_WRITE: the selector and QT_RDATA follow; with WR the shadow bank takes the writable
bits of QT_WDATA in that entry alone, unless a commit holds it (flagged); the active bank is not written
(flagged). SEG_ENTRY_WRITE with WR, for a DISABLED queue that no frozen definition creates: its segment alone is
stored; else flagged. QTLB_INV_ALL, _QUEUE and _PAGE, none in progress: the entries in scope are gone, the
others stay, walks in scope will install nothing, GO is set; with one in progress nothing changes.
QTLB_INV_DONE, nothing in scope left but pages whose spill failed: GO is 0, the result stands; while an
operation in scope goes on, GO stays. POOL_WRITE, no operation in hand: the register holds the bits written,
newly named frames of DIRECT segments apart. POOL_FRAME_LEAVE: a frame that holds no dirty page leaves; a lone
dirty page starts to spill. -/
def Obligations.QueueWindowsAndInvalidations : Prop :=
  (∀ (st : StopNo) (sel : Word32) (s : State), s.niOn st.val = true →
      (bitOf sel 31 = true → bitOf sel 8 = true → s.cmtFrozen st.val 7 = false →
        completes (.qtEntryWrite st sel) s (fun t =>
          (∀ v, v = BitVec.ofNat 256 (s.wordsAt (stopReg st.val sQT_WDATA) 8) → t.shadowDef st.val (fieldOf sel 0 8)
            = withField (v &&& qStaticMask) 0 3 (if fieldOf v 0 3 = 1 then 1 else 0))
          ∧ (∀ q, q < 256 → q ≠ fieldOf sel 0 8 → t.shadowDef st.val q = s.shadowDef st.val q)
          ∧ t.wordsAt (stopReg st.val sQT_RDATA) 8 = (t.shadowDef st.val (fieldOf sel 0 8)).toNat
          ∧ t.qe.table = s.qe.table
          ∧ regsBut (stopReg st.val sQT_SEL :: (List.range 8).map (fun j => stopReg st.val (sQT_RDATA + 4 * j))) s t
          ∧ onlyParts [.regs, .qe] s t))
      ∧ (bitOf sel 31 = true → (bitOf sel 8 = false ∨ s.cmtFrozen st.val 7 = true) →
        completes (.qtEntryWrite st sel) s (fun t =>
          t.flag (if bitOf sel 8 then stopReg st.val sSTOP_CMT_STAT else stopReg st.val sQE_STAT)
            (if bitOf sel 8 then 8 else 2) = true ∧ onlyParts [.regs] s t))
      ∧ (bitOf sel 31 = false → completes (.qtEntryWrite st sel) s (fun t =>
          t.fld (stopReg st.val sQT_SEL) 0 9 = fieldOf sel 0 9
          ∧ t.wordsAt (stopReg st.val sQT_RDATA) 8
            = (if bitOf sel 8 then s.shadowDef st.val (fieldOf sel 0 8) else s.qEntry st.val (fieldOf sel 0 8)).toNat
          ∧ onlyParts [.regs] s t)))
    ∧ (∀ (st : StopNo) (sel : Word32) (s : State) (q : Nat), s.niOn st.val = true → q = fieldOf sel 0 8 →
      (bitOf sel 31 = true → qeState (s.qEntry st.val q) = qDISABLED →
        (s.cmtFrozen st.val 7 = false ∨ fieldOf (s.shadowDef st.val q) 0 3 ≠ 1) →
        completes (.segEntryWrite st sel) s (fun t =>
          t.qSeg st.val q = BitVec.ofNat 128 (s.wordsAt (stopReg st.val sSEG_WDATA) 4) &&& segMask
          ∧ (∀ x, x < 256 → x ≠ q → t.qSeg st.val x = s.qSeg st.val x)
          ∧ t.qe.table = s.qe.table ∧ regsBut [stopReg st.val sSEG_SEL] s t ∧ onlyParts [.regs, .qe] s t))
      ∧ (bitOf sel 31 = true → (qeState (s.qEntry st.val q) ≠ qDISABLED
          ∨ (s.cmtFrozen st.val 7 = true ∧ fieldOf (s.shadowDef st.val q) 0 3 = 1)) →
        completes (.segEntryWrite st sel) s (fun t =>
          t.flag (stopReg st.val sQTLB_STAT) 9 = true ∧ onlyParts [.regs] s t))
      ∧ (bitOf sel 31 = false → completes (.segEntryWrite st sel) s (fun t =>
          t.fld (stopReg st.val sSEG_SEL) 0 8 = q ∧ regsBut [stopReg st.val sSEG_SEL] s t ∧ onlyParts [.regs] s t)))
    ∧ (∀ (st : StopNo) (q : QueueNo) (page : Fin 1024) (fl : Bool) (fs : List MemFlt) (c : Instr) (s : State)
        (here : QtlbEnt → Bool) (walk : QWalk → Bool), s.niOn st.val = true →
      (c = .qtlbInvAll st fl fs ∧ here = (fun _ => true) ∧ walk = (fun _ => true))
        ∨ (c = .qtlbInvQueue st q fl fs ∧ here = (fun e => e.q == q.val)
            ∧ walk = (fun w => w.q == q.val && decide (w.page < 1024)))
        ∨ (c = .qtlbInvPage st q page fl fs ∧ here = (fun e => e.covers q.val page.val)
            ∧ walk = (fun w => w.q == q.val)) →
      (s.flag (stopReg st.val sQTLB_INV) 31 = true → completes c s (fun t => t = s))
      ∧ (s.flag (stopReg st.val sQTLB_INV) 31 = false → completes c s (fun t =>
        t.qtlb st.val = (s.qtlb st.val).filter (fun e => !here e)
        ∧ (∀ w ∈ t.walks st.val, walk w = true → w.dropped = true)
        ∧ t.flag (stopReg st.val sQTLB_INV) 31 = true
        ∧ (fl = false → s.leavingAt st.val = [] → t.qe.table = s.qe.table ∧ t.resid st.val = s.resid st.val
            ∧ onlyParts [.regs, .qe] s t)
        ∧ (fl = true → here = (fun _ => true) → ∀ r ∈ t.resid st.val, r.dirty = true ∨ r.stuck = true
            ∨ s.pageHeld st.val r.q r.page = true ∨ (s.moves st.val).any (fun m => m.frame == r.frame) = true)
        ∧ onlyParts [.regs, .mem, .ni, .recs, .qe, .store] s t)))
    ∧ (∀ (st : StopNo) (fs : List MemFlt) (s : State) (v : QInv), s.invAt st.val = [v] →
      (s.qops st.val = [] → s.moves st.val = [] → s.leavingAt st.val = [] →
        (∀ r ∈ s.resid st.val, v.flushes r = true → r.stuck = true) →
        completes (.qtlbInvDone st fs) s (fun t =>
          t.invAt st.val = [] ∧ t.flag (stopReg st.val sQTLB_INV) 31 = false
          ∧ t.fld (stopReg st.val sQTLB_INV_STAT) 0 2
            = (if v.bad || (s.resid st.val).any (fun r => v.flushes r) then 2 else 1)
          ∧ regsBut [stopReg st.val sQTLB_INV, stopReg st.val sQTLB_INV_STAT] s t ∧ onlyParts [.regs, .qe] s t))
      ∧ ((s.qops st.val).any (fun o => v.ops.contains o.pkt) = true →
        completes (.qtlbInvDone st fs) s (fun t => t.invAt st.val = [v]
          ∧ t.reg (stopReg st.val sQTLB_INV) = s.reg (stopReg st.val sQTLB_INV))))
    ∧ (∀ (st : StopNo) (fs : List MemFlt) (s : State), s.invAt st.val = [] →
      completes (.qtlbInvDone st fs) s (fun t => t = s))
    ∧ (∀ (st : StopNo) (j : Fin 4) (v : Word32) (fs : List MemFlt) (s : State), s.niOn st.val = true →
      s.engineEmpty st.val = true →
      completes (.poolWrite st j v fs) s (fun t =>
        (∀ k, k < 32 → bitOf (t.reg (stopReg st.val (sQS_POOL + 4 * j.val))) k
          = (bitOf v k && (bitOf (s.reg (stopReg st.val (sQS_POOL + 4 * j.val))) k
              || (s.directOwner st.val (32 * j.val + k)).isNone)))
        ∧ onlyParts [.regs, .mem, .ni, .recs, .qe, .store] s t))
    ∧ (∀ (st : StopNo) (f : Fin 128) (fs : List MemFlt) (s : State), s.qops st.val = [] → s.moves st.val = [] →
      s.invAt st.val = [] →
      (f.val ∈ s.leavingAt st.val → (∀ r ∈ s.resid st.val, r.frame = f.val → r.dirty = false ∧ r.stuck = false) →
        completes (.poolFrameLeave st f fs) s (fun t => (∀ r ∈ t.resid st.val, r.frame ≠ f.val)
          ∧ f.val ∉ t.leavingAt st.val ∧ onlyParts [.regs, .mem, .ni, .recs, .qe, .store] s t))
      ∧ (∀ r, s.leavingAt st.val = [f.val] → s.resid st.val = [r] → r.frame = f.val → r.dirty = true →
        r.stuck = false → completes (.poolFrameLeave st f fs) s (fun t => t.resid st.val = [r]
          ∧ (∃ tags, t.moves st.val = [⟨.spill, f.val, r.q, r.page, r.addr, tags⟩]) ∧ t.leavingAt st.val = [f.val]))
      ∧ (f.val ∉ s.leavingAt st.val → completes (.poolFrameLeave st f fs) s (fun t => t = s)))

/-- SCRUB_STEP at a stop that is there and filled: STEP advances, after 1,031 it returns to 0 and counts a pass;
with scrubbing off no memory changes, with it on, on a step of rows, each bank's word, where it is clean or
corrigible, no array fault is named and the row has no merge entry, stands corrected. MERGE_DRAIN of a due
entry: the word is the codeword of the overlay, or its poison form over an uncorrectable or poisoned word; the
entry is gone, other words stay; with none due nothing changes. A raw write of whole words stores their
codewords, or in raw mode the word with QS_RAW_CHK, and nothing else; a partial write waits in the merge buffer.
A raw read outside raw mode returns the words the request touches. A refused access changes no memory.
RAW_MODE_ENABLE sets EN where the engine is off and no merge entry waits, else flags; or clears it. QS_REMAP_ADD
with a free spare: the spare holds the row's word and serves the row; with none it is flagged; of a row that has
one nothing changes. QS_FILL of a domain: at each of its stops whose fill is due every word of the store reads
zero, no merge entry waits, and the scrubber starts over; no other store changes. HEARTH_SCRUB_STEP reads the
word its position names: the position moves on; a clean word changes no register; an error the code corrects
sets CE and its count, and an SRAM word is written back corrected; an uncorrectable word sets UE, its count and
HMEM_ADDR. Every other word of Hearth's memory stays. The order of the scrubber's positions is log entry 46. -/
def Obligations.StoreCommandsTakeEffect : Prop :=
  ((∀ (st : StopNo) (fs : List MemFlt) (s : State) (n : Nat), s.stopAbsent st.val = false →
        s.fillBusy st.val = false → n = s.fld (stopReg st.val sQS_SCRUB_POS) 0 11 → n ≤ 1031 →
        completes (.scrubStep st fs) s (fun t =>
          t.fld (stopReg st.val sQS_SCRUB_POS) 0 11 = (if n < 1031 then n + 1 else 0)
          ∧ t.fld (stopReg st.val sQS_STAT) 16 16 = (if n < 1031 then s.fld (stopReg st.val sQS_STAT) 16 16
              else (s.fld (stopReg st.val sQS_STAT) 16 16 + 1) % 2 ^ 16)
          ∧ (s.flag (stopReg st.val sQS_CTRL) 1 = false ∨ s.rawMode st.val = true → t.mem = s.mem)
          ∧ (s.flag (stopReg st.val sQS_CTRL) 1 = true → s.rawMode st.val = false → n < 1024 → fs = [] →
              ∀ b v i, b < 4 → i < 36 → (∀ e ∈ s.merge st.val b, e.row ≠ n) →
                v = rsDecode (s.reach st.val) (s.memWord st.val b (s.physRow st.val b n)) → v.kind ≤ 1 →
                t.sym st.val b (s.physRow st.val b n) i = BitVec.ofNat 8 (fieldOf v.word (8 * i) 8))
          ∧ onlyParts [.regs, .mem, .ni, .recs, .store] s t))
      ∧ (∀ (st : StopNo) (b : Fin 4) (row : Fin 1024) (s : State) (e : MergeEnt) (phys : Nat) (v : Verdict),
        (s.merge st.val b.val).find? (fun e => e.row == row.val
          && decide (s.fld (stopReg st.val sQS_CTRL) 16 8 ≤ s.frame.rcs - e.last)) = some e →
        phys = s.physRow st.val b.val row.val → v = rsDecode (s.reach st.val) (s.memWord st.val b.val phys) →
        completes (.mergeDrain st b row []) s (fun t =>
          (∀ k, k < 36 → t.sym st.val b.val phys k = BitVec.ofNat 8 (fieldOf (rsEncode
            (overlay (wordData v.word) e.data e.mask) (decide (1 < v.kind))) (8 * k) 8))
          ∧ (∀ a, (∀ k, k < 36 → a ≠ memKey st.val b.val phys k) → Tab.get memDef t.mem a = Tab.get memDef s.mem a)
          ∧ t.merge st.val b.val = (s.merge st.val b.val).filter (fun x => x.row != row.val)
          ∧ (1 < v.kind → t.flag (stopReg st.val sQS_ERR) 6 = true)
          ∧ onlyParts [.regs, .mem, .ni, .recs, .store] s t))
      ∧ (∀ (st : StopNo) (b : Fin 4) (row : Fin 1024) (fs : List MemFlt) (s : State),
        (∀ e ∈ s.merge st.val b.val, e.row = row.val → s.frame.rcs - e.last < s.fld (stopReg st.val sQS_CTRL) 16 8) →
        completes (.mergeDrain st b row fs) s (fun t => t = s))
      ∧ (∀ (st : StopNo) (p : Pkt) (fs : List MemFlt) (s : State) (l : Slot) (d : Deliv) (rest : List Deliv),
        s.fabState ≠ fabFAILED → s.inbox st.val 3 = d :: rest → d.slots = p → p.length ≤ 4 → l = p.getLastD (Pkt.head p) →
        (s.rawRefusal st.val (Pkt.head p) = none → [opWR, opWR_NC, opWR_P].contains (Pkt.head p).opc = true →
          (∀ x ∈ rawWords p, x.2.2 = BitVec.allOnes 32) → completes (.rawWindowWrite st p fs) s (fun t =>
            (∀ x k, x ∈ rawWords p → k < 36 →
              t.sym st.val (wordBank x.1) (s.physRow st.val (wordBank x.1) (wordRow x.1)) k
                = BitVec.ofNat 8 (fieldOf (if s.rawMode st.val
                    then rsWord x.2.1 (s.reg (stopReg st.val sQS_RAW_CHK)) else rsEncode x.2.1 false) (8 * k) 8))
            ∧ (∀ a, (∀ x k, x ∈ rawWords p → k < 36 →
                  a ≠ memKey st.val (wordBank x.1) (s.physRow st.val (wordBank x.1) (wordRow x.1)) k) →
                Tab.get memDef t.mem a = Tab.get memDef s.mem a)
            ∧ t.inbox st.val 3 = rest
            ∧ (l.cls = clsREQ → ∃ arr, sent st.val l.dport
                (mkRsp s.die st.val l (if opPosted l.opc then opPWACK else opCMP) stOK false 0 arr [0]) t)
            ∧ onlyParts [.regs, .mem, .ni, .store] s t))
        ∧ (∀ w x m, s.rawRefusal st.val (Pkt.head p) = none → [opWR, opWR_NC, opWR_P].contains (Pkt.head p).opc = true →
          s.rawMode st.val = false → rawWords p = [(w, x, m)] → m ≠ BitVec.allOnes 32 →
          s.merge st.val (wordBank w) = [] → completes (.rawWindowWrite st p fs) s (fun t =>
            (∃ e, t.merge st.val (wordBank w) = [e] ∧ e.row = wordRow w ∧ e.data = x &&& byteMask m ∧ e.mask = m
              ∧ e.last = s.frame.rcs)
            ∧ t.mem = s.mem ∧ t.inbox st.val 3 = rest ∧ onlyParts [.regs, .ni, .store] s t))
        ∧ (∀ o n, s.rawRefusal st.val (Pkt.head p) = none → [opRD, opRD_NC].contains (Pkt.head p).opc = true →
          s.rawMode st.val = false → o = rawOffset (Pkt.head p).addr → n = 2 * ((Pkt.head p).plen + 1) → fs = [] →
          (∀ b, s.merge st.val b = []) → (∀ w, o / 32 ≤ w → w ≤ (o + (Pkt.head p).rlen) / 32 →
            (rsDecode (s.reach st.val)
              (s.memWord st.val (wordBank w) (s.physRow st.val (wordBank w) (wordRow w)))).kind = 0) →
          completes (.rawWindowRead st p fs) s (fun t =>
            t.mem = s.mem ∧ t.inbox st.val 3 = rest
            ∧ (∃ arr, sent st.val 3 (mkRsp s.die st.val l opCMP_D stOK false 0 arr
                (pairWords ((List.range n).map (fun k =>
                  if o / 32 ≤ o / 64 * 2 + k ∧ o / 64 * 2 + k ≤ (o + (Pkt.head p).rlen) / 32
                  then wordData (s.memWord st.val (wordBank (o / 64 * 2 + k))
                    (s.physRow st.val (wordBank (o / 64 * 2 + k)) (wordRow (o / 64 * 2 + k)))) else 0)))) t)
            ∧ onlyParts [.regs, .ni] s t))
        ∧ (∀ c r, c = .rawWindowRead st p fs ∨ c = .rawWindowWrite st p fs →
          s.rawRefusal st.val (Pkt.head p) = some r → completes c s (fun t =>
            t.mem = s.mem ∧ t.inbox st.val 3 = rest
            ∧ (l.cls = clsREQ → ∃ arr, sent st.val l.dport
                (mkRsp s.die st.val l (if opPosted l.opc then opPWACK else opCMP) r false 0 arr [0]) t)
            ∧ onlyParts [.regs, .ni] s t)))
      ∧ (∀ (st : StopNo) (s : State) (idle : Bool), s.niOn st.val = true →
        idle = (!s.flag (stopReg st.val sQE_CTRL) 0 && (List.range 4).all (fun b => (s.merge st.val b).isEmpty)) →
        completes (.rawModeEnable st true) s (fun t =>
          (idle = true → t.rawMode st.val = true ∧ t.flag (stopReg st.val sQS_STAT) 1 = true)
          ∧ (idle = false → t.flag (stopReg st.val sQS_ERR) 5 = true ∧ t.rawMode st.val = s.rawMode st.val)
          ∧ onlyParts [.regs] s t)
        ∧ completes (.rawModeEnable st false) s (fun t => t.rawMode st.val = false ∧ onlyParts [.regs] s t))
      ∧ (∀ (st : StopNo) (b : Fin 4) (row : Fin 1024) (s : State), s.niOn st.val = true →
        (∀ k v, s.spareOf st.val b.val row.val = none → s.freeSpare st.val b.val = some k → s.merge st.val b.val = [] →
          v = rsDecode (s.reach st.val) (s.memWord st.val b.val row.val) →
          completes (.qsRemapAdd st b row []) s (fun t =>
            (∀ i, i < 36 → t.sym st.val b.val (1024 + k) i = BitVec.ofNat 8
              (fieldOf (if v.kind ≤ 1 then v.word else rsEncode (wordData v.word) true) (8 * i) 8))
            ∧ t.physRow st.val b.val row.val = 1024 + k ∧ onlyParts [.regs, .mem, .recs] s t))
        ∧ (s.spareOf st.val b.val row.val = none → s.freeSpare st.val b.val = none →
          completes (.qsRemapAdd st b row []) s (fun t =>
            t.flag (stopReg st.val sQS_ERR) 4 = true ∧ onlyParts [.regs] s t))
        ∧ (s.spareOf st.val b.val row.val ≠ none → completes (.qsRemapAdd st b row []) s (fun t => t = s))))
  ∧ ((∀ (k : Fin 48) (s : State), Memory.wf s.mem → completes (.qsFill k) s (fun t =>
          (∀ st b row i, ngOf st = k.val → st < 192 → s.filling st = true → b < 4 → i < 36 → t.sym st b row i = 0
            ∧ t.merge st b = [])
          ∧ (∀ st b row i, (ngOf st ≠ k.val ∨ s.filling st = false) → st < 192 → b < 4 → i < 36 →
              t.sym st b row i = s.sym st b row i)
          ∧ (∀ st, ngOf st = k.val → st < 192 → s.filling st = true → t.fld (stopReg st sQS_SCRUB_POS) 0 11 = 0
              ∧ t.fillBusy st = true)
          ∧ onlyParts [.regs, .mem, .store] s t))
      ∧ (∀ (data : BitVec 64) (chk : BitVec 24) (bits : BitVec 88) (s : State) (n : Nat) (r : HmRead),
        bits = chk ++ data → n = hmScrubWord s.store.hscrub →
        r = hmDecode (s.hmWord n ^^^ bits) → completes (.hearthScrubStep data chk) s (fun t =>
          t.store.hscrub = (s.store.hscrub + 1) % 65536
          ∧ (r = .clean → t.hmWord n = s.hmWord n ^^^ bits ∧ onlyParts [.store] s t)
          ∧ (∀ w, r = .corrected w → t.hmWord n = (if hmRom n then s.hmWord n ^^^ bits else w)
              ∧ t.flag gHMEM_STAT 0 = true ∧ t.fld gHMEM_STAT 8 8 = satAdd 8 (s.fld gHMEM_STAT 8 8) 1
              ∧ onlyParts [.regs, .store] s t)
          ∧ (r = .uncorrectable → t.hmWord n = s.hmWord n ^^^ bits ∧ t.flag gHMEM_STAT 1 = true
              ∧ t.fld gHMEM_STAT 16 8 = satAdd 8 (s.fld gHMEM_STAT 16 8) 1
              ∧ t.fld gHMEM_ADDR 0 20 = 8 * n % 2 ^ 19 + boolNat (hmRom n) * 2 ^ 19)
          ∧ (∀ x, x ≠ n → t.hmWord x = s.hmWord x) ∧ onlyParts [.regs, .ni, .recs, .store] s t)))

/-- For every command of the queue engine or the queue store of one stop, when exec answers a next state, every
symbol of every other stop's store reads as it did; the frame counters, rings, timestamps, calibration, access
check units and power states are as they were. -/
def Obligations.StoreCommandsStayAtTheirStop : Prop :=
  ∀ (c : Instr) (s t : State) (st : Nat), storeStop c = some st → exec c s = .next t →
    (∀ a b row k, a ≠ st → a < 192 → b < 4 → k < 36 → t.sym a b row k = s.sym a b row k)
    ∧ onlyParts [.regs, .mem, .ni, .recs, .pmu, .qe, .store] s t

/-- With fab_pwr_req_ready high and no operation: POWER_OFF_REQUEST that meets no refusal puts the domain in FENCING
and begins a fence over its set; POWER_ON_REQUEST of a fabric domain that is OFF puts it in WAKING with its weak
switches on; of an APD or a DRAINED domain it begins the lift of the fence; one that meets a refusal is answered
with it and changes no domain. While an OFF is in progress: an ON of the domain in FENCING cancels it, any other
request waits. With ready low a request changes nothing. FENCE in OPEN of a domain that is ON begins a fence,
UNFENCE of one that is DRAINED its lift; any other domain gives INVALID and clears GO; while an operation is in
progress it waits; in another state only the fields are stored; with GO set nothing changes. WAKE_REQUEST takes
the lowest waiting wake event. -/
def Obligations.PowerRequestsStart : Prop :=
  (∀ (d : Fin 512) (s : State), s.pwReady = true → s.pw.op = none →
      (s.offRefusal d.val = none → completes (.powerOffRequest d) s (fun t =>
        t.domNum d.val = dmFENCING
        ∧ (∃ o, t.pw.op = some o ∧ o.kind = .off ∧ o.dom = d.val ∧ o.set = domSet d.val ∧ o.phase = 1
            ∧ o.lift = false ∧ o.seen = [] ∧ o.acks = [] ∧ o.dies = s.otherDies)
        ∧ onlyParts [.regs, .ni, .pw] s t))
      ∧ (s.onRefusal d.val = none → 256 ≤ d.val → s.domNum d.val ≠ dmDRAINED →
        completes (.powerOnRequest d) s (fun t => t.domState (d.val - 256) = dmWAKING
          ∧ Tab.get (fun _ => false) t.pw.sw1 (d.val - 256) = true ∧ t.pw.iso = s.pw.iso
          ∧ (∃ q, t.pw.seq = some q ∧ q.dom = d.val - 256 ∧ q.stage = .weak)
          ∧ (∃ o, t.pw.op = some o ∧ o.kind = .on ∧ o.dom = d.val ∧ o.lift = false) ∧ onlyParts [.regs, .pw] s t))
      ∧ (s.onRefusal d.val = none → d.val < 256 ∨ s.domNum d.val = dmDRAINED →
        completes (.powerOnRequest d) s (fun t =>
          (∃ o, t.pw.op = some o ∧ o.kind = .on ∧ o.dom = d.val ∧ o.set = domSet d.val ∧ o.lift = true ∧ o.seen = [])
          ∧ onlyParts [.regs, .ni, .pw] s t))
      ∧ (∀ r c, s.pw.fcs = [] → s.pw.kbs = [] → (c = .powerOffRequest d ∧ s.offRefusal d.val = some r)
          ∨ (c = .powerOnRequest d ∧ s.onRefusal d.val = some r) →
        completes c s (fun t =>
          t.pw.rsps = [(d.val, r)] ∧ t.pw.op = none ∧ (∀ f, f < 56 → t.domState f = s.domState f)
          ∧ t.pw.apds = s.pw.apds ∧ t.flag gPWR_STAT 0 = true ∧ onlyParts [.regs, .pw] s t)))
    ∧ (∀ (d : Fin 512) (s : State) (o : PwOp), s.pwReady = true → s.pw.op = some o →
      (o.dom = d.val → s.domNum d.val = dmFENCING → completes (.powerOnRequest d) s (fun t =>
        t.pw.op = some { o with kind := .on, phase := 1, lift := true, seen := [] }
        ∧ t.pw.rsps = s.pw.rsps ++ [(d.val, pwABORTED)] ∧ onlyParts [.regs, .ni, .pw] s t))
      ∧ (o.dom ≠ d.val ∨ s.domNum d.val ≠ dmFENCING → completes (.powerOnRequest d) s (fun t =>
        t.pw.reqs = s.pw.reqs ++ [(d.val, true)] ∧ t.pw.op = some o ∧ onlyParts [.pw] s t))
      ∧ completes (.powerOffRequest d) s (fun t =>
        t.pw.reqs = s.pw.reqs ++ [(d.val, false)] ∧ t.pw.op = some o ∧ onlyParts [.pw] s t))
    ∧ (∀ (d : Fin 512) (s : State), s.pwReady = false →
      completes (.powerOffRequest d) s (fun t => t = s) ∧ completes (.powerOnRequest d) s (fun t => t = s))
    ∧ (∀ (d : Fin 512) (s : State) (c : Instr) (un : Bool), (c = .fence d ∧ un = false) ∨ (c = .unfence d ∧ un = true) →
      (s.flag gFENCE_CTRL 31 = true → completes c s (fun t => t = s))
      ∧ (s.flag gFENCE_CTRL 31 = false → s.fabState ≠ fabOPEN → completes c s (fun t =>
        t.fld gFENCE_CTRL 0 9 = d.val ∧ t.flag gFENCE_CTRL 9 = un ∧ t.flag gFENCE_CTRL 31 = false
        ∧ regsBut [gFENCE_CTRL] s t ∧ onlyParts [.regs] s t))
      ∧ (s.flag gFENCE_CTRL 31 = false → s.fabState = fabOPEN → s.pwBlocked = true → completes c s (fun t =>
        t.flag gFENCE_CTRL 31 = true ∧ t.pw.fcs = s.pw.fcs ++ [(d.val, un)] ∧ t.pw.op = s.pw.op
        ∧ regsBut [gFENCE_CTRL] s t ∧ onlyParts [.regs, .pw] s t))
      ∧ (s.flag gFENCE_CTRL 31 = false → s.fabState = fabOPEN → s.pwBlocked = false → s.pw.fcs = [] →
        (d.val < 312 → un = false → s.domNum d.val = dmON → completes c s (fun t =>
          t.domNum d.val = dmFENCING ∧ t.flag gFENCE_CTRL 31 = true
          ∧ (∃ o, t.pw.op = some o ∧ o.kind = .fence ∧ o.set = domSet d.val ∧ o.phase = 1 ∧ o.lift = false)
          ∧ onlyParts [.regs, .ni, .pw] s t))
        ∧ (d.val < 312 → un = true → s.domNum d.val = dmDRAINED → completes c s (fun t =>
          t.domNum d.val = dmDRAINED ∧ t.flag gFENCE_CTRL 31 = true
          ∧ (∃ o, t.pw.op = some o ∧ o.kind = .unfence ∧ o.set = domSet d.val ∧ o.lift = true)
          ∧ onlyParts [.regs, .ni, .pw] s t))
        ∧ (s.pw.kbs = [] → s.pw.reqs = [] →
          312 ≤ d.val ∨ s.domNum d.val ≠ (if un then dmDRAINED else dmON) → completes c s (fun t =>
          t.flag gFENCE_CTRL 31 = false ∧ t.fld gFENCE_STATUS 4 9 = d.val ∧ t.fld gFENCE_STATUS 13 3 = pwINVALID
          ∧ t.pw.op = s.pw.op ∧ regsBut [gFENCE_CTRL, gFENCE_STATUS] s t ∧ onlyParts [.regs, .pw] s t))))
    ∧ (∀ s : State, completes .wakeRequest s (fun t => t.pw.wake = s.pw.wake.tail ∧ onlyParts [.pw] s t))

/-- FENCE_RECEIVE of the operation's set, or of another die's Hearth, at a stop: the stop holds the fence; its own
is counted as reached. FENCE_ACK of a stop with nothing left to a set it owes one for: it owes none any more,
and it is gathered where it is the operation's; of a die: the die is no longer waited for. FENCE_SETTLE_DONE
once the settle has passed: with no change the operation drains; a change of the map, of REMAP_CTRL or of the
detours is made first; a ring-clock change stops the clock. UNFENCE_RECEIVE: the fence is gone at the stop;
before the last of the 192 stops the broadcast goes on, at the last, with nothing waiting, the domain of an ON
or UNFENCE is ON and no operation is left, an ON is answered DONE, UNFENCE clears GO, a ring-clock change puts
the state back and is counted. Whatever belongs to no operation in progress changes nothing. -/
def Obligations.FencesAreRaisedAndAcknowledged : Prop :=
  (∀ (st : StopNo) (set : FSet) (s : State),
      (∀ o, s.hsafe = false → s.pw.op = some o → o.set = set → o.lift = false →
        completes (.fenceReceive st set false) s (fun t =>
          set ∈ t.fences st.val ∧ (∃ u, t.pw.op = some u ∧ st.val ∈ u.seen ∧ u.set = set ∧ u.kind = o.kind)
          ∧ onlyParts [.regs, .ring, .ni, .recs, .pmu, .pw] s t))
      ∧ completes (.fenceReceive st set true) s (fun t =>
          set ∈ t.fences st.val ∧ t.pw.op = s.pw.op ∧ onlyParts [.regs, .ring, .ni, .recs, .pmu, .pw] s t)
      ∧ (s.hsafe = true ∨ s.pw.op = none → completes (.fenceReceive st set false) s (fun t => t = s)
          ∧ completes (.unfenceReceive st set false) s (fun t => t = s)))
    ∧ (∀ (st : StopNo) (set : FSet) (s : State) (owed : Bool),
      owed = ((Tab.get (fun _ => []) s.pw.unacked st.val).contains set && s.fenceClear st.val set) →
      (owed = true → completes (.fenceAck (.stop st set)) s (fun t =>
        set ∉ Tab.get (fun _ => []) t.pw.unacked st.val
        ∧ (∀ o, s.hsafe = false → s.pw.op = some o → o.set = set → o.lift = false →
            ∃ u, t.pw.op = some u ∧ st.val ∈ u.acks)
        ∧ (s.pw.op = none → t.pw.op = none) ∧ onlyParts [.regs, .ni, .pw] s t))
      ∧ (owed = false → completes (.fenceAck (.stop st set)) s (fun t => t = s)))
    ∧ (∀ (d : Fin 16) (s : State),
      (∀ o, s.hsafe = false → s.pw.op = some o → o.lift = false → completes (.fenceAck (.die d)) s (fun t =>
        (∃ u, t.pw.op = some u ∧ d.val ∉ u.dies ∧ u.seen = o.seen ∧ u.acks = o.acks) ∧ onlyParts [.regs, .pw] s t))
      ∧ (s.hsafe = true ∨ s.pw.op = none → completes (.fenceAck (.die d)) s (fun t => t = s)))
    ∧ (∀ (s : State) (o : PwOp), s.hsafe = false → s.pw.op = some o →
      (o.phase = 3 → o.settle ≤ s.frame.rcs →
        (o.change = none → completes .fenceSettleDone s (fun t =>
          t.pw.op = some { o with phase := 4, from_ := s.her.boot.hcs } ∧ t.fld gFENCE_STATUS 1 3 = 4
          ∧ onlyParts [.regs, .pw] s t))
        ∧ (o.change = some .rclk → completes .fenceSettleDone s (fun t =>
          t.cdc.hold = true ∧ t.cdc.done = false ∧ t.fabState = fabQUIESCED
          ∧ t.pw.op = some { o with phase := 5 } ∧ onlyParts [.regs, .cdc, .pw] s t))
        ∧ (∀ c, o.change = some c → c ≠ .rclk → completes .fenceSettleDone s (fun t =>
          t.pw.op = some { o with phase := 4 }
          ∧ (∀ es, c = .map es → es.length = 64 → t.regions gACTIVE_MAP = es)
          ∧ (∀ v, c = .remap v → t.remap = bitOf v 0 ∧ t.flag gREMAP_CTRL 1 = false)
          ∧ (c = .detour → ∀ i, i < 8 → t.reg (gDETOUR + 4 * i) = s.reg (gDETOUR_STG + 4 * i))
          ∧ onlyParts [.regs, .ring, .ni, .recs, .pmu, .pw] s t)))
      ∧ (o.phase ≠ 3 ∨ s.frame.rcs < o.settle → completes .fenceSettleDone s (fun t => t = s)))
    ∧ (∀ (st : StopNo) (set : FSet) (s : State),
      completes (.unfenceReceive st set true) s (fun t => t.fences st.val = (s.fences st.val).filter (fun f => f != set)
        ∧ (∀ a, a ≠ st.val → t.fences a = s.fences a) ∧ onlyParts [.ni, .pw] s t))
    ∧ (∀ (st : StopNo) (s : State) (o : PwOp), s.hsafe = false → s.pw.op = some o → o.lift = true →
      ((insertAsc st.val o.seen).length ≠ 192 → completes (.unfenceReceive st o.set false) s (fun t =>
        t.fences st.val = (s.fences st.val).filter (fun f => f != o.set)
        ∧ t.pw.op = some { o with seen := insertAsc st.val o.seen } ∧ onlyParts [.regs, .ni, .pw] s t))
      ∧ ((insertAsc st.val o.seen).length = 192 → s.pw.fcs = [] → s.pw.kbs = [] → s.pw.reqs = [] → 
        completes (.unfenceReceive st o.set false) s (fun t =>
          t.fences st.val = (s.fences st.val).filter (fun f => f != o.set) ∧ t.pw.op = none
          ∧ (o.kind ≠ .kindB → o.dom < 312 → t.domNum o.dom = dmON)
          ∧ (o.kind = .on → t.pw.rsps = s.pw.rsps ++ [(o.dom, pwDONE)])
          ∧ (o.kind = .unfence → t.flag gFENCE_CTRL 31 = false ∧ t.fld gFENCE_STATUS 13 3 = pwDONE)
          ∧ (o.kind = .kindB → o.change = some .rclk → t.fld gFAB_STATE 0 4 = s.cdc.ret % 16
              ∧ t.flag gRCLK_CTRL 0 = false
              ∧ t.fld gRCLK_STAT 16 16 = (s.fld gRCLK_STAT 16 16 + 1) % 2 ^ 16)
          ∧ onlyParts [.regs, .ni, .pw] s t)))

/-- With Hearth running. DRAIN_COMPLETE of a drained operation fences its open ports: the domain is DRAINED; the OFF
of an APD is answered DONE, of a fabric domain leads to its isolation, FENCE clears GO, a Kind B change lifts
its fences. DRAIN_TO once DRAIN_TO has passed does the same with FORCED and the flag. PGOOD_RISE of the domain
being switched on: power good has come, the restore verdict is kept. PWR_PG_FAIL after the strong stage: the
domain is OFF, isolated, its switches down, the answer PG_FAIL, or at start-up FAILED. FILL_DONE: FILL_BUSY
falls at the stops being filled; a waking domain with a whole image is unfenced, with a damaged one switched
off. An idle step takes the switching one stage on when it is due: strong switches; isolation lifted, the cycle
counted, the stops' fill begun; and down: isolated, the queues lost, switches down, OFF and answered. -/
def Obligations.DomainsAreSwitched : Prop :=
  (∀ (s : State) (o : PwOp) (c : Instr) (r : Nat), s.hsafe = false → s.pw.op = some o → o.phase = 4 →
      (c = .drainComplete ∧ r = pwDONE ∧ s.drained o = true)
        ∨ (c = .drainTo ∧ r = pwFORCED ∧ o.kind ≠ .kindB ∧ s.drainLate o = true) →
      completes c s (fun t =>
        (o.kind = .off ∨ o.kind = .fence → ∀ e ∈ s.setPorts o.set, s.portShut e.1 e.2 = false → (t.port e.1 e.2).state = 3)
        ∧ (o.kind = .off → o.dom < 256 → s.pw.fcs = [] → s.pw.kbs = [] → s.pw.reqs = [] →
            t.domNum o.dom = dmDRAINED ∧ t.pw.op = none ∧ t.pw.rsps = s.pw.rsps ++ [(o.dom, r)])
        ∧ (o.kind = .off → 256 ≤ o.dom → o.dom < 312 → t.domNum o.dom = dmDRAINED
            ∧ ∃ q, t.pw.seq = some q ∧ q.dom = o.dom - 256 ∧ q.stage = .isolate ∧ q.due = s.her.boot.hcs + 1 ∧ q.ans = r)
        ∧ (o.kind = .fence → o.dom < 312 → s.pw.fcs = [] → s.pw.kbs = [] → s.pw.reqs = [] →
            t.domNum o.dom = dmDRAINED ∧ t.pw.op = none ∧ t.fld gFENCE_STATUS 13 3 = r ∧ t.flag gFENCE_CTRL 31 = false)
        ∧ (o.kind = .kindB → ∃ u, t.pw.op = some u ∧ u.lift = true ∧ u.change = o.change)
        ∧ (c = .drainTo → t.flag gPWR_STAT 1 = true)
        ∧ onlyParts [.regs, .mem, .ring, .ni, .recs, .pmu, .qe, .store, .cdc, .pw, .d2d] s t))
    ∧ (∀ (s : State) (o : PwOp), s.pw.op = some o → o.phase ≠ 4 →
      completes .drainComplete s (fun t => t = s) ∧ completes .drainTo s (fun t => t = s))
    ∧ (∀ (f : DomNo) (whole : Bool) (s : State) (q : PwSeq), s.pw.seq = some q → q.dom = f.val →
      s.switching f.val = true → completes (.pgoodRise f whole) s (fun t =>
        (q.stage = .strong → t.pw.seq = some ⟨f.val, .good, s.her.boot.hcs + 16, true, whole, q.ans⟩)
        ∧ (q.stage = .weak → t.pw.seq = some { q with good := true, whole := whole })
        ∧ (q.stage ≠ .strong → q.stage ≠ .weak → t = s) ∧ onlyParts [.pw] s t))
    ∧ (∀ (f : DomNo) (s : State) (q : PwSeq), s.pw.seq = some q → q.dom = f.val → q.stage = .strong →
      s.switching f.val = true → q.due ≤ s.her.boot.hcs → s.pw.fcs = [] → s.pw.kbs = [] → s.pw.reqs = [] → 
      completes (.pwrPgFail f) s (fun t =>
        t.domState f.val = dmOFF ∧ t.pw.seq = none ∧ Tab.get (fun _ => true) t.pw.iso f.val = true
        ∧ Tab.get (fun _ => false) t.pw.sw1 f.val = false ∧ Tab.get (fun _ => false) t.pw.sw2 f.val = false
        ∧ t.flag gPWR_STAT 2 = true
        ∧ (s.bootDom f.val = true → t.fabState = fabFAILED ∧ t.fld gFAB_STATE 8 4 = 2)
        ∧ (s.bootDom f.val = false → t.pw.op = none ∧ t.pw.rsps = s.pw.rsps ++ [(256 + f.val, pwPG_FAIL)])
        ∧ t.frame = s.frame ∧ t.mem = s.mem))
    ∧ (∀ (k : Fin 48) (s : State), completes (.fillDone k) s (fun t =>
        (∀ st, ngOf st = k.val → st < 192 → s.filling st = true → t.fillBusy st = false)
        ∧ (∀ q o, s.bootDom k.val = false → s.pw.seq = some q → s.hsafe = false → s.pw.op = some o → q.dom = k.val →
            q.stage = .fill →
            (q.whole = true → t.pw.seq = none ∧ ∃ u, t.pw.op = some u ∧ u.lift = true ∧ u.dom = o.dom)
            ∧ (q.whole = false → t.flag gRESTORE_STAT 1 = true
                ∧ ∃ u, t.pw.seq = some u ∧ u.dom = k.val ∧ u.stage = .isolate ∧ u.ans = pwPG_FAIL))
        ∧ (s.bootDom k.val = false → s.pw.seq = none → t.pw = s.pw ∧ onlyParts [.regs, .ni, .pw] s t)))
    ∧ (∀ (s : State) (q : PwSeq), s.pending = [] → s.her.rstLow = false → s.pw.seq = some q →
      s.switching q.dom = true → q.due ≤ s.her.boot.hcs + 1 → q.dom < 48 → ∃ t, step s = .next t
        ∧ (q.stage = .weak → Tab.get (fun _ => false) t.pw.sw2 q.dom = true)
        ∧ (q.stage = .good → Tab.get (fun _ => true) t.pw.iso q.dom = false
            ∧ Tab.get (fun _ => 0) t.pw.cyc q.dom = satAdd 32 (Tab.get (fun _ => 0) s.pw.cyc q.dom) 1
            ∧ (∀ st, ngOf st = q.dom → st < 192 → t.fillBusy st = true
                ∧ ∀ b row k, b < 4 → k < 36 → t.sym st b row k = 0)
            ∧ (∀ st b row k, ngOf st ≠ q.dom → st < 192 → b < 4 → k < 36 → t.sym st b row k = s.sym st b row k))
        ∧ (q.stage = .isolate → Tab.get (fun _ => true) t.pw.iso q.dom = true ∧ t.domState q.dom = dmISOLATED)
        ∧ (q.stage = .hold → (∀ st x, ngOf st = q.dom → st < 192 → x < 256 → t.qEntry st x = 0)
            ∧ (∀ st x, ngOf st ≠ q.dom → st < 192 → x < 256 → t.qEntry st x = s.qEntry st x))
        ∧ (q.stage = .sw2 → Tab.get (fun _ => false) t.pw.sw2 q.dom = false)
        ∧ (q.stage = .sw1 → s.pw.fcs = [] → s.pw.kbs = [] → s.pw.reqs = [] →
            Tab.get (fun _ => false) t.pw.sw1 q.dom = false ∧ t.domState q.dom = dmOFF ∧ t.pw.op = none
            ∧ t.pw.seq = none ∧ t.pw.rsps = s.pw.rsps ++ [(256 + q.dom, q.ans)]))

/-- ADDR_MAP_APPLY, not FAILED and none pending: a staging map with a failing region leaves the active map and
reports RESULT 2, the cause and the region; one that passes is busy, and outside OPEN, QUIESCING and QUIESCED
becomes the active map at once in all 256 words, while every NI starts to replace its own copy; REMAP_WRITE
likewise stores REMAP_CTRL, BUSY 0; DETOUR_APPLY whose conditions fail reports RESULT 2 and leaves the detours,
else the staged detours become the active ones, the routes follow and RESULT is 1. In OPEN, with no operation
and nothing waiting, each of the three starts as a Kind B change and leaves what it changes as it was; in
QUIESCING and QUIESCED it waits. In FAILED, or while the same is pending, it changes nothing. -/
def Obligations.MapAndDetoursAreApplied : Prop :=
  (∀ s : State, s.fabState ≠ fabFAILED → s.flag gADDR_MAP_CTRL 0 = false →
      (∀ i c, s.mapCheck = some (i, c) → completes .addrMapApply s (fun t =>
        t.fld gADDR_MAP_STAT 0 2 = 2 ∧ t.fld gADDR_MAP_STAT 2 3 = c ∧ t.fld gADDR_MAP_STAT 5 6 = i
        ∧ regsBut [gADDR_MAP_STAT] s t ∧ onlyParts [.regs] s t))
      ∧ (s.mapCheck = none → s.fabState ≠ fabOPEN → s.fabState ≠ fabQUIESCING → s.fabState ≠ fabQUIESCED → completes .addrMapApply s (fun t =>
        (∀ i, i < 256 → t.reg (gACTIVE_MAP + 4 * i) = s.reg (gSTAGE_MAP + 4 * i))
        ∧ (∀ i, i < 256 → t.reg (gSTAGE_MAP + 4 * i) = s.reg (gSTAGE_MAP + 4 * i))
        ∧ t.ni.mapOld = s.niRegions ∧ t.ni.mapFrom = s.frame.rcs
        ∧ t.flag gADDR_MAP_STAT 11 = true ∧ t.flag gADDR_MAP_CTRL 0 = true ∧ onlyParts [.regs, .ni, .pw] s t)))
    ∧ (∀ (v : Word32) (s : State), s.fabState ≠ fabFAILED → s.flag gREMAP_CTRL 1 = false → s.fabState ≠ fabOPEN → s.fabState ≠ fabQUIESCING → s.fabState ≠ fabQUIESCED → 
      completes (.remapWrite v) s (fun t =>
        t.remap = bitOf v 0 ∧ t.flag gREMAP_CTRL 1 = false ∧ t.fld gREMAP_CTRL 4 28 = fieldOf v 4 28
        ∧ (∀ i, i < 256 → t.reg (gACTIVE_MAP + 4 * i) = s.reg (gACTIVE_MAP + 4 * i))
        ∧ onlyParts [.regs, .ring, .ni, .recs, .pmu, .pw] s t))
    ∧ (∀ (pass : Bool) (s : State), s.fabState ≠ fabFAILED → s.flag gDETOUR_CTRL 0 = false →
      (pass = false ∨ (List.range 8).any (fun i => s.detourBad (s.reg (gDETOUR_STG + 4 * i))) = true →
        completes (.detourApply pass) s (fun t =>
          t.fld gDETOUR_CTRL 1 2 = 2 ∧ regsBut [gDETOUR_CTRL] s t ∧ onlyParts [.regs] s t))
      ∧ (pass = true → (List.range 8).any (fun i => s.detourBad (s.reg (gDETOUR_STG + 4 * i))) = false → s.fabState ≠ fabOPEN → s.fabState ≠ fabQUIESCING → s.fabState ≠ fabQUIESCED → 
        completes (.detourApply pass) s (fun t =>
          (∀ i, i < 8 → t.reg (gDETOUR + 4 * i) = s.reg (gDETOUR_STG + 4 * i))
          ∧ (∀ d, d < 16 → t.reg (gDIE_ROUTE + 4 * d) = t.routeWord d)
          ∧ t.fld gDETOUR_CTRL 1 2 = 1 ∧ t.flag gDETOUR_CTRL 0 = false ∧ onlyParts [.regs, .pw] s t)))
    ∧ (∀ (s : State) (c : Instr) (x : KbChange) (v : Word32), s.fabState ≠ fabFAILED →
      (c = .addrMapApply ∧ x = .map (s.regions gSTAGE_MAP) ∧ s.mapCheck = none ∧ s.flag gADDR_MAP_CTRL 0 = false)
        ∨ (c = .remapWrite v ∧ x = .remap v ∧ s.flag gREMAP_CTRL 1 = false)
        ∨ (c = .detourApply true ∧ x = .detour ∧ s.flag gDETOUR_CTRL 0 = false
            ∧ (List.range 8).any (fun i => s.detourBad (s.reg (gDETOUR_STG + 4 * i))) = false) →
      (s.fabState = fabOPEN → s.pwBlocked = false → s.pw.fcs = [] → s.pw.kbs = [] → completes c s (fun t =>
        (∃ o, t.pw.op = some o ∧ o.kind = .kindB ∧ o.phase = 1 ∧ o.lift = false ∧ o.change = some x)
        ∧ (∀ i, i < 256 → t.reg (gACTIVE_MAP + 4 * i) = s.reg (gACTIVE_MAP + 4 * i)) ∧ t.remap = s.remap
        ∧ (∀ i, i < 8 → t.reg (gDETOUR + 4 * i) = s.reg (gDETOUR + 4 * i)) ∧ onlyParts [.regs, .ni, .pw] s t))
      ∧ (s.fabState = fabQUIESCING ∨ s.fabState = fabQUIESCED → s.pwBlocked = true → completes c s (fun t =>
        t.pw.kbs = s.pw.kbs ++ [x] ∧ t.pw.op = s.pw.op ∧ onlyParts [.regs, .pw] s t)))
    ∧ (∀ (s : State) (c : Instr) (v : Word32) (b : Bool),
      (c = .addrMapApply ∧ (s.fabState = fabFAILED ∨ s.flag gADDR_MAP_CTRL 0 = true))
        ∨ (c = .remapWrite v ∧ (s.fabState = fabFAILED ∨ s.flag gREMAP_CTRL 1 = true))
        ∨ (c = .detourApply b ∧ (s.fabState = fabFAILED ∨ s.flag gDETOUR_CTRL 0 = true)) →
      completes c s (fun t => t = s))

/-- RING_CLOCK_CHANGE with REQ 0: in CONFIGURED the clock is held and REQ set; in OPEN, with no operation and
nothing waiting, the die goes to QUIESCING and a change with fences starts; in another state the refusal is
flagged and the clock is as it was; with REQ 1 nothing changes. RCLK_DONE while the clock is held: the clock
runs, DONE is set, ticks that waited are counted, every ring's sweep starts again; with no operation and nothing
waiting the count of changes rises by one modulo 2^16 and REQ is 0; a change made with fences lifts them first.
RCLK_DONE while it runs changes nothing. -/
def Obligations.TheRingClockIsHeldAndReleased : Prop :=
  (∀ (s : State), s.flag gRCLK_CTRL 0 = false →
      (s.fabState = fabCONFIGURED → completes .ringClockChange s (fun t =>
        t.cdc.hold = true ∧ t.cdc.done = false ∧ t.flag gRCLK_CTRL 0 = true ∧ regsBut [gRCLK_CTRL] s t
        ∧ onlyParts [.regs, .cdc] s t))
      ∧ (s.fabState = fabOPEN → s.pwBlocked = false → s.pw.fcs = [] → s.pw.kbs = [] →
        completes .ringClockChange s (fun t => t.fabState = fabQUIESCING ∧ t.flag gRCLK_CTRL 0 = true
          ∧ t.cdc.hold = s.cdc.hold ∧ t.cdc.ret = fabOPEN
          ∧ (∃ o, t.pw.op = some o ∧ o.kind = .kindB ∧ o.change = some .rclk ∧ o.set = .dies [s.die] ∧ o.lift = false)
          ∧ onlyParts [.regs, .ni, .cdc, .pw] s t))
      ∧ (s.fabState ≠ fabCONFIGURED → s.fabState ≠ fabOPEN → completes .ringClockChange s (fun t =>
        t.flag gRCLK_STAT 2 = true ∧ regsBut [gRCLK_STAT] s t ∧ onlyParts [.regs] s t)))
    ∧ (∀ s : State, s.flag gRCLK_CTRL 0 = true → completes .ringClockChange s (fun t => t = s))
    ∧ (∀ (s : State), s.cdc.hold = true →
      (s.pw.op = none → s.pw.fcs = [] → s.pw.kbs = [] → s.pw.reqs = [] → completes .rclkDone s (fun t =>
        t.cdc.hold = false ∧ t.cdc.done = true ∧ t.flag gRCLK_CTRL 0 = false
        ∧ t.cdc.us = s.cdc.us + s.cdc.ticks ∧ t.cdc.ticks = 0 ∧ t.tem = s.tem.restart
        ∧ t.fld gRCLK_STAT 16 16 = (s.fld gRCLK_STAT 16 16 + 1) % 2 ^ 16
        ∧ regsBut [gRCLK_CTRL, gRCLK_STAT] s t ∧ onlyParts [.regs, .tem, .cdc] s t))
      ∧ (∀ o, s.hsafe = false → s.pw.op = some o → o.change = some .rclk → completes .rclkDone s (fun t =>
        t.cdc.hold = false ∧ t.cdc.done = true ∧ t.tem = s.tem.restart
        ∧ t.pw.op = some { o with phase := 1, lift := true, seen := [] } ∧ onlyParts [.regs, .ni, .tem, .cdc, .pw] s t)))
    ∧ (∀ s : State, s.cdc.hold = false → completes .rclkDone s (fun t => t = s))

/-- FLIT_PAIR_SEND at an UP port with an active module and no ROTATE waiting, with one slot in the egress buffer
that may go, or none that may: the pair carries the slot, which has left the buffer and spent a credit of its
class, and returns up to 255 credits of the first class that is owed any; without slot and credit nothing
happens. With a ROTATE waiting, MGMT credit and an empty buffer: the pair carries it, the send set is the new
one, a window's module it leaves out is marked. FLIT_PAIR_RECEIVE of a good pair whose slots all have credit and
are no ROTATE: they stand last in the ingress buffer, their credit is used, the credit the pair returns is
added; a slot without credit is dropped and flagged; of a pair that fails PCRC or names more than 5 slots: the
error is flagged, the port is no longer UP and its buffers are empty. ROTATE with MGMT credit: the receive set
is the one named. D2D_RSV_EXPIRE of a due reservation no answer of which stands in the port: it is released and
counted. At a port that is not UP, or with nothing due, nothing changes. D2D_INGRESS_INJECT of a region whose
head has a target, its reservation where it makes one, the transit credit it needs, and no wait before a granted
re-send, the frame running: the head has left the buffer and, but for RSP, a credit of its class is owed, where
it finds a place: a best-effort slot on a track toward its target, a MGMT slot in a MGMT slot, a GUAR slot in
the run its INJ entry names, a slot for the port's own stop in the ejection buffer; a GUAR slot without an entry
is dropped and, for a packet's first, counted. Where it finds none, or the frame does not run, the buffer stays
as it is. With nothing in the region nothing changes. -/
def Obligations.FlitPairsCarrySlotsAndCredit : Prop :=
  ((∀ (p : DpNo) (s : State) (xs : List Slot) (k n : Nat), s.dpUp p.val = true → (s.dp p.val).modsTx ≠ 0 →
        k = ((List.range 8).find? (fun c => 0 < (s.dp p.val).owed.getD c 0)).getD 0 →
        n = min ((s.dp p.val).owed.getD k 0) 255 → (s.dp p.val).owed.length = 8 → (s.dp p.val).granted.length = 8 →
        ((s.dp p.val).rotate = none → xs = [] → (s.dp p.val).nextSend = none →
          (n = 0 → completes (.flitPairSend p) s (fun t => t = s))
          ∧ (0 < n → completes (.flitPairSend p) s (fun t => (t.dp p.val).tx = some (mkPair [] k n)
            ∧ (t.dp p.val).egress = (s.dp p.val).egress
            ∧ (t.dp p.val).owed.getD k 0 = (s.dp p.val).owed.getD k 0 - n
            ∧ (t.dp p.val).granted.getD k 0 = (s.dp p.val).granted.getD k 0 + n
            ∧ t.fld (dpReg p.val (dCNT + 28)) 0 32 = satAdd 32 (s.fld (dpReg p.val (dCNT + 28)) 0 32) 1
            ∧ onlyParts [.regs, .d2d] s t)))
        ∧ (∀ e c, (s.dp p.val).rotate = none → (s.dp p.val).egress = [e] → (s.dp p.val).nextSend = some (c, e) →
          e.slot.crcOk = true → e.transit = false → completes (.flitPairSend p) s (fun t =>
            (t.dp p.val).egress = [] ∧ (t.dp p.val).tx = some (mkPair [e.slot] k n)
            ∧ (c < 8 → (t.dp p.val).credit.getD c 0 = (s.dp p.val).credit.getD c 0 - 1)
            ∧ (t.dp p.val).modRot = nextModule (s.dp p.val).modsTx (s.dp p.val).modRot
            ∧ t.fld (dpReg p.val dCNT) 0 32 = satAdd 32 (s.fld (dpReg p.val dCNT) 0 32) 1
            ∧ (∀ q, q ≠ p.val → t.dp q = s.dp q) ∧ onlyParts [.regs, .d2d] s t))
        ∧ (∀ set, (s.dp p.val).rotate = some set → set < 16 → 0 < (s.dp p.val).credit.getD 7 0 →
          (s.dp p.val).egress = [] → completes (.flitPairSend p) s (fun t => (t.dp p.val).rotate = none
            ∧ (t.dp p.val).modsTx = set
            ∧ (t.dp p.val).tx = some (mkPair [rotateSlot s.die (dpStop p.val) (dpStop (dpPartner p.val)) set] k n)
            ∧ (∀ w, (s.dp p.val).window = some w → bitOf (BitVec.ofNat 4 set) w.m = false →
                (t.dp p.val).window = some { w with sent := true, sentAt := s.her.boot.hcs })
            ∧ onlyParts [.regs, .d2d] s t)))
      ∧ (∀ (p : DpNo) (x : PairIn) (s : State) (ys : List Slot), s.dpUp p.val = true →
        ys = (List.range x.nslot).map (fun j => slotOfImage (x.images.getD j 0)) →
        (x.pcrc = x.need → x.nslot ≤ 5 → (∀ y ∈ ys, isRotate (dpStop p.val) y = false) →
          (∀ c, c < 8 → (ys.filter (fun y => y.ccls == c)).length ≤ (s.dp p.val).granted.getD c 0) →
          (s.dp p.val).credit.length = 8 → completes (.flitPairReceive p x) s (fun t =>
            (t.dp p.val).ingress = (s.dp p.val).ingress ++ ys.map (fun y => { ccls := y.ccls, slot := y })
            ∧ (∀ c, c < 8 → (t.dp p.val).granted.getD c 0
                = (s.dp p.val).granted.getD c 0 - (ys.filter (fun y => y.ccls == c)).length)
            ∧ (t.dp p.val).credit.getD (fieldOf x.w0 4 3) 0
                = (s.dp p.val).credit.getD (fieldOf x.w0 4 3) 0 + fieldOf x.w0 7 8
            ∧ t.fld (dpReg p.val (dCNT + 4)) 0 32 = satAdd 32 (s.fld (dpReg p.val (dCNT + 4)) 0 32) x.nslot
            ∧ (∀ q, q ≠ p.val → t.dp q = s.dp q) ∧ onlyParts [.regs, .d2d] s t))
        ∧ (∀ y, x.pcrc = x.need → ys = [y] → y.ccls < 8 → (s.dp p.val).granted.getD y.ccls 0 = 0 →
          completes (.flitPairReceive p x) s (fun t => (t.dp p.val).ingress = (s.dp p.val).ingress
            ∧ t.flag (dpReg p.val dERR) 1 = true ∧ onlyParts [.regs, .recs, .d2d] s t))
        ∧ (x.pcrc ≠ x.need ∨ 5 < x.nslot → completes (.flitPairReceive p x) s (fun t => t.dpUp p.val = false
          ∧ t.flag (dpReg p.val dERR) 0 = true ∧ (t.dp p.val).ingress = [] ∧ (t.dp p.val).egress = [])))
      ∧ (∀ (p : DpNo) (set : Fin 16) (s : State), s.dpUp p.val = true →
        (0 < (s.dp p.val).granted.getD 7 0 → (s.dp p.val).owed.length = 8 → completes (.rotate p set) s (fun t =>
          (t.dp p.val).modsRx = set.val ∧ (t.dp p.val).owed.getD 7 0 = (s.dp p.val).owed.getD 7 0 + 1
          ∧ (∀ w, (s.dp p.val).window = some w → bitOf (BitVec.ofNat 4 set.val) w.m = false →
              (t.dp p.val).window = some { w with rcvd := true })
          ∧ onlyParts [.d2d] s t))
        ∧ ((s.dp p.val).granted.getD 7 0 = 0 → completes (.rotate p set) s (fun t =>
          (t.dp p.val).modsRx = (s.dp p.val).modsRx ∧ t.flag (dpReg p.val dERR) 1 = true
          ∧ onlyParts [.regs, .recs] s t)))
      ∧ (∀ (p : DpNo) (x : PairIn) (set : Fin 16) (s : State), s.dpUp p.val = false →
        completes (.flitPairSend p) s (fun t => t = s) ∧ completes (.flitPairReceive p x) s (fun t => t = s)
        ∧ completes (.rotate p set) s (fun t => t = s))
      ∧ (∀ (p : DpNo) (eg : Bool) (src : Src) (s : State) (f : Option Rsv),
        f = (if eg then (s.dp p.val).rsvEg else (s.dp p.val).rsvIn).find? (fun r =>
          r.src == src && decide (r.due ≤ 400 * s.cdc.us) && !(s.dp p.val).answering r) →
        (∀ r, f = some r → completes (.d2dRsvExpire p eg src) s (fun t =>
          (if eg then (t.dp p.val).rsvEg = (s.dp p.val).rsvEg.erase r ∧ (t.dp p.val).rsvIn = (s.dp p.val).rsvIn
           else (t.dp p.val).rsvIn = (s.dp p.val).rsvIn.erase r ∧ (t.dp p.val).rsvEg = (s.dp p.val).rsvEg)
          ∧ t.fld (dpReg p.val (dCNT + 20)) 0 32 = satAdd 32 (s.fld (dpReg p.val (dCNT + 20)) 0 32) 1
          ∧ regsBut [dpReg p.val (dCNT + 20)] s t ∧ onlyParts [.regs, .d2d] s t))
        ∧ (f = none → completes (.d2dRsvExpire p eg src) s (fun t => t = s))))
  ∧ ((∀ (p : DpNo) (c : Fin 9) (s : State) (e : IgEnt) (n : Nat) (x : Slot) (d : DpSt) (v : State),
        (s.dp p.val).ingress.find? (fun e => e.ccls == c.val) = some e → x = ingressSlot e.slot → s.target x = some n →
        (s.dp p.val).reserveHead x (s.rsvDue p.val x) = some d → v = s.setDp p.val d →
        (x.grnt = false ∨ x.pseq ≠ 0 ∨ (s.dp p.val).lastInj.getD c.val 0 = 0) →
        (∀ k, s.transitNeed c.val x = some k → 0 < Tab.get (fun _ => 0) (s.dp p.val).transit k) →
        (s.dp p.val).owed.length = 8 →
        (∀ u, s.frame.running = true →
          (c.val ≠ 6 ∧ c.val ≠ 7 ∧ n ≠ dpStop p.val ∧ ∃ w, v.ingressBE (dpStop p.val) n x = (some u, w))
            ∨ (c.val = 7 ∧ n ≠ dpStop p.val ∧ v.ingressMgmt (dpStop p.val) n x = some u)
            ∨ (c.val = 6 ∧ n ≠ dpStop p.val ∧ (v.ingressFlow (dpStop p.val) n).isSome = true
                ∧ v.ingressGuar (dpStop p.val) n x = some u)
            ∨ (c.val ≠ 6 ∧ n = dpStop p.val ∧ v.ingressLoop (dpStop p.val) (emptySlot stBE 0) x = some u)
            ∨ (∃ a, c.val = 6 ∧ n = dpStop p.val ∧ v.ingressFlow (dpStop p.val) n = some a
                ∧ v.ingressLoop (dpStop p.val) (emptySlot stGUAR (s.fld a 3 10)) x = some u) →
          (u.dp p.val).ingress = (s.dp p.val).ingress → (u.dp p.val).owed = (s.dp p.val).owed →
          completes (.d2dIngressInject p c) s (fun t =>
            (t.dp p.val).ingress = (s.dp p.val).ingress.erase e
            ∧ (c.val < 8 → (t.dp p.val).owed.getD c.val 0 = (s.dp p.val).owed.getD c.val 0 + 1)
            ∧ t.ring = u.ring ∧ onlyParts [.regs, .ring, .ni, .recs, .pmu, .pw, .d2d] s t))
        ∧ (s.frame.running = true → c.val = 6 → v.ingressFlow (dpStop p.val) n = none →
          completes (.d2dIngressInject p c) s (fun t =>
            (t.dp p.val).ingress = (s.dp p.val).ingress.erase e
            ∧ (x.pseq = 0 → t.fld (stopReg (dpStop p.val) (sGUAR_CNT + 8)) 0 32
                = satAdd 32 (s.fld (stopReg (dpStop p.val) (sGUAR_CNT + 8)) 0 32) 1)
            ∧ t.ring = s.ring ∧ onlyParts [.regs, .recs, .d2d] s t))
        ∧ (s.frame.running = true → n ≠ dpStop p.val →
          (c.val ≠ 6 ∧ c.val ≠ 7 ∧ ∃ w, v.ingressBE (dpStop p.val) n x = (none, w) ∧ w.d2d = v.d2d)
            ∨ (c.val = 7 ∧ v.ingressMgmt (dpStop p.val) n x = none)
            ∨ (c.val = 6 ∧ (v.ingressFlow (dpStop p.val) n).isSome = true ∧ v.ingressGuar (dpStop p.val) n x = none) →
          completes (.d2dIngressInject p c) s (fun t => (t.dp p.val).ingress = (s.dp p.val).ingress))
        ∧ (s.frame.running = false → completes (.d2dIngressInject p c) s (fun t =>
            (t.dp p.val).ingress = (s.dp p.val).ingress ∧ onlyParts [.d2d] s t)))
      ∧ (∀ (p : DpNo) (c : Fin 9) (s : State), (∀ e ∈ (s.dp p.val).ingress, e.ccls ≠ c.val) →
        completes (.d2dIngressInject p c) s (fun t => t = s)))

/-- LINK_TRAINED at a port in training whose modules are accepted: the port says HELLO and waits for its partner's
with the accepted set; with none accepted it is DOWN. HELLO with the right partner: the port is UP, every class
has its full credit, SYNCED and the partner's number stand in DP_STAT, and during discovery the neighbour is
assigned its place; with a wrong one the port is DOWN and the wiring error flagged. D2D_LINK at a port that
trains or is UP: DOWN, its buffers empty, the loss flagged. RETRAIN: the same at such a port, and a port that
may train trains. D2D_MODULE of a module in use: it is no longer among MODS, and with the last one the port is
DOWN. Of a port in another state each changes nothing. -/
def Obligations.LinksComeUpAndGoDown : Prop :=
  (∀ (p : DpNo) (ms : List ModRep) (s : State) (set rate : Nat), acceptModules ms = (set, rate) →
      (s.training p.val = true → set ≠ 0 → completes (.linkTrained p ms) s (fun t =>
        t.lstate p.val = lsHELLO ∧ t.fld (dpReg p.val dSTAT) 4 4 = set % 16 ∧ (t.dp p.val).modsTx = set
        ∧ (t.dp p.val).modsRx = set ∧ (t.dp p.val).modsOut = 0
        ∧ t.d2d.sent = [(p.val, .hello p.val s.d2d.root (if s.flag gDIE_COORD 8 then some s.die else none))]
        ∧ regsBut [dpReg p.val dSTAT] s t ∧ onlyParts [.regs, .d2d] s t))
      ∧ (s.training p.val = true → set = 0 → completes (.linkTrained p ms) s (fun t =>
        t.lstate p.val = lsDOWN ∧ t.flag (dpReg p.val dCTRL) 1 = false ∧ onlyParts [.regs, .recs] s t))
      ∧ (s.training p.val = false → completes (.linkTrained p ms) s (fun t => t = s)))
    ∧ (∀ (p : DpNo) (peer : Fin 8) (root : Bool) (die : Option (Fin 16)) (s : State),
      (s.lstate p.val = lsHELLO → peer.val = dpPartner p.val → completes (.hello p peer root die) s (fun t =>
        t.dpUp p.val = true ∧ t.fld (dpReg p.val dSTAT) 12 3 = peer.val ∧ t.flag (dpReg p.val dSTAT) 15 = true
        ∧ (t.dp p.val).credit = [128, 256, 128, 128, 256, 64, 64, 16]
        ∧ (root = true → p.val ∈ t.d2d.rootAt) ∧ (s.discovering = true → t.d2d.sent = s.assignTo p.val)
        ∧ onlyParts [.regs, .ni, .cdc, .pw, .d2d] s t))
      ∧ (s.lstate p.val = lsHELLO → peer.val ≠ dpPartner p.val → completes (.hello p peer root die) s (fun t =>
        t.lstate p.val = lsDOWN ∧ t.flag (dpReg p.val dERR) 2 = true ∧ onlyParts [.regs, .recs] s t))
      ∧ (s.lstate p.val ≠ lsHELLO → completes (.hello p peer root die) s (fun t => t = s)))
    ∧ (∀ (p : DpNo) (s : State),
      (lsTRAINING ≤ s.lstate p.val → completes (.d2dLink p) s (fun t => t.lstate p.val = lsDOWN
        ∧ t.flag (dpReg p.val dERR) 4 = true ∧ (t.dp p.val).egress = [] ∧ (t.dp p.val).ingress = []
        ∧ (t.dp p.val).modsTx = 0))
      ∧ (s.lstate p.val < lsTRAINING → completes (.d2dLink p) s (fun t => t = s))
      ∧ (s.lstate p.val < lsTRAINING → s.mayTrain p.val = true → completes (.retrain p) s (fun t =>
        t.lstate p.val = lsTRAINING ∧ t.flag (dpReg p.val dCTRL) 1 = true
        ∧ regsBut [dpReg p.val dSTAT, dpReg p.val dCTRL] s t ∧ onlyParts [.regs] s t))
      ∧ (s.lstate p.val < lsTRAINING → s.mayTrain p.val = false → completes (.retrain p) s (fun t => t = s))
      ∧ (lsTRAINING ≤ s.lstate p.val → s.pw.fcs = [] → completes (.retrain p) s (fun t =>
        t.lstate p.val = (if s.mayTrain p.val then lsTRAINING else lsDOWN) ∧ t.flag (dpReg p.val dERR) 4 = true
        ∧ (t.dp p.val).egress = [] ∧ (t.dp p.val).ingress = [])))
    ∧ (∀ (p : DpNo) (m : Fin 4) (s : State) (left : Nat), left = modDrop (s.fld (dpReg p.val dSTAT) 4 4) m.val →
      (bitOf (BitVec.ofNat 4 (s.fld (dpReg p.val dSTAT) 4 4)) m.val = true → left ≠ 0 →
        completes (.d2dModule p m) s (fun t =>
          t.fld (dpReg p.val dSTAT) 4 4 = left ∧ t.flag (dpReg p.val dERR) 3 = true
          ∧ t.lstate p.val = s.lstate p.val
          ∧ (t.dp p.val).modsTx = modDrop (s.dp p.val).modsTx m.val ∧ onlyParts [.regs, .recs, .d2d] s t))
      ∧ (bitOf (BitVec.ofNat 4 (s.fld (dpReg p.val dSTAT) 4 4)) m.val = true → left = 0 →
        lsTRAINING ≤ s.lstate p.val → completes (.d2dModule p m) s (fun t => t.lstate p.val = lsDOWN
          ∧ t.flag (dpReg p.val dERR) 3 = true ∧ t.flag (dpReg p.val dERR) 4 = true))
      ∧ (bitOf (BitVec.ofNat 4 (s.fld (dpReg p.val dSTAT) 4 4)) m.val = false →
        completes (.d2dModule p m) s (fun t => t = s)))

/-- While a die discovers. ASSIGN at a die that is not the root, over an UP port: without coordinates it takes them,
notes the port toward the root, reports them with its UP ports and assigns its neighbours theirs; other
coordinates than its own are reported too; its own again change nothing. DISCOVERY_REPORT at the root: the
report is kept; elsewhere it is passed on. DISCOVERY_FINISH at the root once no report has come for 100 µs of
step 7, its own place without a conflict: its die ID and the DIE_MAP of the dies without a conflict stand, FINAL
goes to each of them, and a conflict is flagged. FINAL at another die: its die ID is that of its coordinates
less the offset, and DIE_MAP the map. DISC_TO after its limit, and DISCOVERY_FINISH or FINAL where two roots
were seen: the die runs alone as die 0 with every port below TRAINING. Where a die does not discover nothing
changes. -/
def Obligations.DiscoveryGivesEveryDieItsPlace : Prop :=
  (∀ (p : DpNo) (dx dy : Int) (s : State), s.discovering = true → s.d2d.root = false → s.dpUp p.val = true →
      (s.d2d.rel = none → completes (.assign p dx dy) s (fun t =>
        t.d2d.rel = some (dx, dy) ∧ t.d2d.toRoot = some p.val
        ∧ t.d2d.sent = (p.val, .report dx dy s.upMask) :: s.assignOn (dx, dy) p.val ∧ onlyParts [.d2d] s t))
      ∧ (∀ c, s.d2d.rel = some c → c ≠ (dx, dy) → completes (.assign p dx dy) s (fun t =>
        t.d2d.rel = some c ∧ t.d2d.sent = [((s.d2d.toRoot).getD p.val, .report dx dy s.upMask)]
        ∧ onlyParts [.d2d] s t))
      ∧ (s.d2d.rel = some (dx, dy) → completes (.assign p dx dy) s (fun t => t = s)))
    ∧ (∀ (dx dy : Int) (up : BitVec 8) (s : State), s.discovering = true →
      (s.d2d.root = true → completes (.discoveryReport dx dy up) s (fun t =>
        t.d2d.reports = s.d2d.reports ++ [((dx, dy), up.toNat)] ∧ t.d2d.quietAt = s.her.boot.hcs
        ∧ onlyParts [.d2d] s t))
      ∧ (∀ p, s.d2d.root = false → s.d2d.toRoot = some p → completes (.discoveryReport dx dy up) s (fun t =>
        t.d2d.sent = [(p, .report dx dy up.toNat)] ∧ t.d2d.reports = s.d2d.reports ∧ onlyParts [.d2d] s t)))
    ∧ (∀ (s : State) (own : Int × Int) (good : List (Int × Int)), s.discovering = true → s.d2d.root = true →
      s.reportsQuiet = true → own = s.gridOf.headD (0, 0) →
      good = s.gridOf.filter (fun c => !breaksGrid s.gridOf c) →
      (s.twoRoots = false → breaksGrid s.gridOf own = false → completes .discoveryFinish s (fun t =>
          t.d2d.dieId = dieIdOf own ∧ t.flag gDIE_COORD 8 = true ∧ t.flag gDIE_COORD 10 = false
          ∧ (∀ d, d < 16 → t.flag gDIE_MAP d = good.any (fun c => dieIdOf c == d))
          ∧ (∀ c ∈ good, c ≠ own → ∃ m, (16 + dieIdOf c, HMsg.final (-own.1) (-own.2) m) ∈ t.d2d.sent)
          ∧ (good.length ≠ s.gridOf.length → t.flag gDIE_COORD 11 = true)
          ∧ (good.length = s.gridOf.length → onlyParts [.regs, .d2d] s t)))
      ∧ (s.twoRoots = true ∨ breaksGrid s.gridOf own = true → completes .discoveryFinish s (fun t =>
          t.d2d.dieId = 0 ∧ t.flag gDIE_COORD 10 = true ∧ t.reg gDIE_MAP = 1 ∧ (∀ p, p < 8 → t.lstate p < lsTRAINING))))
    ∧ (∀ (ox oy : Int) (map : BitVec 16) (s : State) (c : Int × Int), s.discovering = true → s.d2d.root = false →
      s.d2d.rel = some c →
      (s.twoRoots = false → inGrid (c.1 - ox, c.2 - oy) = true → completes (.final ox oy map) s (fun t =>
        t.d2d.dieId = dieIdOf (c.1 - ox, c.2 - oy) ∧ t.reg gDIE_MAP = BitVec.ofNat 32 map.toNat
        ∧ t.flag gDIE_COORD 8 = true ∧ onlyParts [.regs, .d2d] s t))
      ∧ (s.twoRoots = true → completes (.final ox oy map) s (fun t => t.d2d.dieId = 0 ∧ t.flag gDIE_COORD 10 = true
        ∧ (∀ p, p < 8 → t.lstate p < lsTRAINING))))
    ∧ (∀ s : State, s.discovering = true → s.d2d.root = false → s.her.boot.phase = 3 →
      s.d2d.discAt + 400000 * s.fld gD2D_CTRL 16 8 ≤ s.her.boot.hcs → completes .discTo s (fun t =>
        t.d2d.dieId = 0 ∧ t.flag gDIE_COORD 8 = true ∧ t.flag gDIE_COORD 10 = true ∧ t.reg gDIE_MAP = 1
        ∧ (∀ p, p < 8 → t.lstate p < lsTRAINING)))
    ∧ (∀ (p : DpNo) (dx dy : Int) (up : BitVec 8) (map : BitVec 16) (s : State) (c : Instr), s.discovering = false →
      c = .assign p dx dy ∨ c = .discoveryReport dx dy up ∨ c = .discoveryFinish ∨ c = .final dx dy map ∨ c = .discTo →
      completes c s (fun t => t = s))

/-- SYNC over the port to the root of a die whose Hearth runs: ECHO is sent with the stamps, and an offset is taken;
over another port, or where Hearth is halted, nothing changes. ECHO at the parent: an exchange that is not late
stands as offset, half the difference of the two ways (of an odd one either neighbour, log entry 79), and as
round trip, the smallest round trip is kept, and SYNC follows; a late one changes neither, and once the frame
runs it is flagged. STROBE_TIME before the strobe: the time is kept; at the root, at least 200 µs ahead, it is
also sent to every other die; nearer, or after the strobe, nothing changes. D2D_WINDOW_DUE once the interval has
passed: at the lower die of an UP link with more than one module and no window, D2D recalibration enabled, a
window opens at least 100 µs ahead and WIN is sent; else the interval starts anew without one; before, nothing
changes. WIN for a module of an UP link that has another and no window: it is acknowledged. WIN_ACK in time: the
window is marked. MODULE_RECAL_DONE with both directions rotated out: of a usable module the window ends and the
set with the module waits to be rotated in; of an unusable one the module is retired; the partner hears of
either. D2D_WIN_CANCEL at T_w without an acknowledgement and D2D_WIN_OVER past the limit: no window is left and
the flag is set, the latter retiring the module. Without their window none changes anything. -/
def Obligations.TimeAndWindowsOverTheLinks : Prop :=
  ((∀ (p : DpNo) (t2 t3 : BitVec 64) (ofs : Option Int) (s : State),
        (s.d2d.toRoot = some p.val → s.dpUp p.val = true → s.hsafe = false → completes (.sync p t2 t3 ofs) s (fun t =>
          t.d2d.sent = [(p.val, .echo t2.toNat t3.toNat)] ∧ t.time.master = s.time.master
          ∧ (∀ o, ofs = some o → t.time.offset = some o) ∧ (ofs = none → t.time = s.time)
          ∧ onlyParts [.time, .d2d] s t))
        ∧ (s.d2d.toRoot ≠ some p.val ∨ s.dpUp p.val = false ∨ s.hsafe = true →
          completes (.sync p t2 t3 ofs) s (fun t => t = s)))
      ∧ (∀ (p : DpNo) (t1 t2 t3 t4 : BitVec 64) (s : State) (r : Nat) (d : Int) (late : Bool), s.dpUp p.val = true →
        s.hsafe = false → s.d2d.toRoot ≠ some p.val → r = ((t4 - t1).toInt - (t3 - t2).toInt).toNat →
        d = (t2 - t1).toInt - (t4 - t3).toInt →
        late = ((s.dp p.val).minRtt.any (fun m => if s.frame.running then decide (m + 8 < r) else decide (m ≤ r))) →
        completes (.echo p t1 t2 t3 t4) s (fun t =>
          (t.dp p.val).minRtt = some (min (((s.dp p.val).minRtt).getD r) r)
          ∧ (late = false → (t.reg (dpReg p.val dTSYNC_OFS) = BitVec.ofInt 32 (d / 2)
                ∨ (d % 2 = 1 ∧ t.reg (dpReg p.val dTSYNC_OFS) = BitVec.ofInt 32 (d / 2 + 1)))
              ∧ t.reg (dpReg p.val dTSYNC_RTT) = BitVec.ofNat 32 r ∧ t.d2d.sent = [(p.val, .sync)])
          ∧ (late = true → t.reg (dpReg p.val dTSYNC_OFS) = s.reg (dpReg p.val dTSYNC_OFS)
              ∧ t.reg (dpReg p.val dTSYNC_RTT) = s.reg (dpReg p.val dTSYNC_RTT)
              ∧ (s.frame.running = true → t.flag (dpReg p.val dERR) 5 = true))
          ∧ regsBut [dpReg p.val dTSYNC_OFS, dpReg p.val dTSYNC_RTT, dpReg p.val dERR] s t
          ∧ onlyParts [.regs, .d2d, .free] s t))
      ∧ (∀ (p : DpNo) (t1 t2 t3 t4 : BitVec 64) (s : State),
        s.dpUp p.val = false ∨ s.hsafe = true ∨ s.d2d.toRoot = some p.val →
        completes (.echo p t1 t2 t3 t4) s (fun t => t = s))
      ∧ (∀ (v : BitVec 64) (s : State),
        (s.frame.running = false → s.d2d.root = false → completes (.strobeTime v) s (fun t =>
          t.her.strobeAt = some v.toNat ∧ onlyParts [.her] s t))
        ∧ (s.frame.running = false → s.d2d.root = true → s.time.master.toNat + 800000 ≤ v.toNat →
          completes (.strobeTime v) s (fun t => t.her.strobeAt = some v.toNat
            ∧ t.d2d.sent = s.otherDies.map (fun d => (16 + d, .strobe v.toNat)) ∧ onlyParts [.her, .d2d] s t))
        ∧ (s.frame.running = true ∨ (s.d2d.root = true ∧ v.toNat < s.time.master.toNat + 800000) →
          completes (.strobeTime v) s (fun t => t = s))))
  ∧ ((∀ (p : DpNo) (more : Nat) (s : State) (opens : Bool),
        opens = (s.flag gTEMPER_CTRL 2 && s.dpUp p.val && !s.hsafe && decide (s.die < s.fld (dpReg p.val dSTAT) 8 4)
          && (s.dp p.val).window.isNone && decide (1 < modCount (s.dpMods p.val))) →
        (s.winDue p.val = true → opens = true → completes (.d2dWindowDue p more) s (fun t =>
          (∃ w, (t.dp p.val).window = some w ∧ w.initiator = true ∧ w.acked = false ∧ w.sent = false ∧ w.rcvd = false
            ∧ w.tw = s.time.master.toNat + 400000 + more ∧ t.d2d.sent = [(p.val, .win w.m w.tw)])
          ∧ (t.dp p.val).winAt = s.her.boot.hcs ∧ onlyParts [.d2d] s t))
        ∧ (s.winDue p.val = true → opens = false → completes (.d2dWindowDue p more) s (fun t =>
          t.dp p.val = { s.dp p.val with winAt := s.her.boot.hcs } ∧ onlyParts [.d2d] s t))
        ∧ (s.winDue p.val = false → completes (.d2dWindowDue p more) s (fun t => t = s)))
      ∧ (∀ (p : DpNo) (m : Fin 4) (tw : BitVec 64) (s : State) (takes : Bool),
        takes = (s.dpUp p.val && !s.hsafe && (s.dp p.val).window.isNone
          && bitOf (BitVec.ofNat 4 (s.dpMods p.val)) m.val && decide (1 < modCount (s.dpMods p.val))) →
        (takes = true → completes (.win p m tw) s (fun t =>
          (t.dp p.val).window = some ⟨m.val, tw.toNat, true, false, false, false, 0⟩
          ∧ t.d2d.sent = [(p.val, .winAck m.val)] ∧ onlyParts [.d2d] s t))
        ∧ (takes = false → completes (.win p m tw) s (fun t => t = s)))
      ∧ (∀ (p : DpNo) (ok : Bool) (s : State) (w : ModWin), (s.dp p.val).window = some w →
        (w.initiator = true → s.time.master.toNat < w.tw → completes (.winAck p) s (fun t =>
          (t.dp p.val).window = some { w with acked := true } ∧ onlyParts [.d2d] s t))
        ∧ (w.initiator = false ∨ w.tw ≤ s.time.master.toNat → completes (.winAck p) s (fun t => t = s))
        ∧ (w.sent = true → w.rcvd = true → completes (.moduleRecalDone p true) s (fun t =>
          (t.dp p.val).window = none ∧ (t.dp p.val).rotate = some (modAdd (s.dp p.val).modsTx w.m)
          ∧ (t.dp p.val).winMod = some w.m ∧ t.d2d.sent = [(p.val, .winEnd w.m true)]
          ∧ t.fld gD2D_CAL_STAT 0 16 = (s.fld gD2D_CAL_STAT 0 16 + 1) % 2 ^ 16
          ∧ regsBut [gD2D_CAL_STAT] s t ∧ onlyParts [.regs, .d2d] s t))
        ∧ (w.sent = true → w.rcvd = true → completes (.moduleRecalDone p false) s (fun t =>
          (t.dp p.val).window = none ∧ t.flag (dpReg p.val dERR) 3 = true
          ∧ t.d2d.sent = [(p.val, .winEnd w.m false)]))
        ∧ (w.sent = false ∨ w.rcvd = false → completes (.moduleRecalDone p ok) s (fun t => t = s))
        ∧ (w.initiator = true → w.acked = false → w.tw ≤ s.time.master.toNat → completes (.d2dWinCancel p) s (fun t =>
          (t.dp p.val).window = none ∧ t.flag gD2D_CAL_STAT 16 = true ∧ onlyParts [.regs, .ni, .recs, .d2d] s t))
        ∧ (w.initiator = false ∨ w.acked = true ∨ s.time.master.toNat < w.tw →
          completes (.d2dWinCancel p) s (fun t => t = s))
        ∧ (s.winOver w = true → completes (.d2dWinOver p) s (fun t =>
          (t.dp p.val).window = none ∧ t.flag gD2D_CAL_STAT 17 = true ∧ t.flag (dpReg p.val dERR) 3 = true))
        ∧ (s.winOver w = false → completes (.d2dWinOver p) s (fun t => t = s)))
      ∧ (∀ (p : DpNo) (ok : Bool) (s : State) (c : Instr), (s.dp p.val).window = none →
        c = .winAck p ∨ c = .moduleRecalDone p ok ∨ c = .d2dWinCancel p ∨ c = .d2dWinOver p →
        completes c s (fun t => t = s)))

/-- While Hearth runs its start-up. FUSE_ACK of an awaited word: it is kept last, and the request stays up until 64
words are read. FUSE_TIMEOUT once 100 hc have passed: the area counts as failed, DEGR_CAUSE 2 is to come,
FUSE_CRC is flagged. FUSE_READ_DONE of 64 words: where the last is the CRC of the first 63 the area is good and
the remap entries are those of words 13 to 62, and NVM_MODE 3 brings DEGR_CAUSE 3; else it failed. Either way
SDBG shows the fuse and the first fabric domain starts to wake. NVM_READY: the mode stands in NVM_STAT.
HEADERS_READ: each header leaves its cause, 7 for a read error, 1 for a bad one; two read errors bring
DEGR_CAUSE 3; else the good copy of the higher SEQ, A on a tie, is tried and FAB_STATE is CALIBRATING, or with
no good one DEGR_CAUSE 1 is to come. What is not awaited changes nothing. While Hearth runs its start-up, with a
copy on trial and no minimal configuration to come. COPY_READ_DONE: a sound copy waits for its signatures; an
unsound one leaves its cause and section and the other copy is next, or with none left DEGR_CAUSE 1.
SIGNATURE_DONE: a bad UCODE signature leaves cause 9; in a provisioned part a key whose SHA-384 is not KEY_HASH
leaves cause 8; a trailer that is no ECDSA signature of the copy's digest under its key leaves cause 5; else the
copy is accepted. DIE_SPECIFIC_READ_DONE after discovery: a die set that does not fit brings DEGR_CAUSE 4 and no
copy in use; a read error leaves cause 7 and a section whose digest differs from the kept one leaves cause 3
with its number, and the other copy is next; else the sections of the die are taken as read again. What is not
awaited changes nothing. -/
def Obligations.FusesAndCopiesAreRead : Prop :=
  ((∀ (w : Word32) (s : State),
        (s.booting = true → s.her.boot.fuseReq = true → completes (.fuseAck w) s (fun t =>
          t.her.boot.fuses = s.her.boot.fuses ++ [w] ∧ t.her.boot.fuseReq = decide (s.her.boot.fuses.length + 1 < 64)
          ∧ t.her.boot.fuseAt = s.her.boot.hcs ∧ onlyParts [.her] s t))
        ∧ (s.booting = false ∨ s.her.boot.fuseReq = false → completes (.fuseAck w) s (fun t => t = s)))
      ∧ (∀ s : State,
        (s.booting = true → s.her.boot.fuseReq = true → s.fuseLate = true → completes .fuseTimeout s (fun t =>
          t.her.boot.fuseOk = some false ∧ t.her.boot.fuseReq = false ∧ t.her.boot.degr = 2
          ∧ t.flag gBOOT_STAT 20 = true ∧ t.fld gDBG_STAT 0 1 = fieldOf (s.fuseWord 12) 12 1
          ∧ t.her.boot.dom = 0 ∧ t.domState 0 = dmWAKING
          ∧ regsBut [gBOOT_STAT, gDBG_STAT, gPWR_DOMAIN_STATE] s t ∧ onlyParts [.regs, .pw, .her] s t))
        ∧ (s.booting = false ∨ s.her.boot.fuseReq = false ∨ s.fuseLate = false →
          completes .fuseTimeout s (fun t => t = s)))
      ∧ (∀ s : State,
        (s.booting = true → s.her.boot.fuses.length = 64 → s.her.boot.fuseOk = none →
          completes .fuseReadDone s (fun t =>
            t.fld gDBG_STAT 0 1 = fieldOf (s.fuseWord 12) 12 1 ∧ t.her.boot.dom = 0 ∧ t.domState 0 = dmWAKING
            ∧ (s.her.boot.fuses.getD 63 0 = crcEnd (crcWords ((s.her.boot.fuses.take 63).map (fun w => w.toNat)) 0xFFFFFFFF) →
                t.her.boot.fuseOk = some true ∧ t.her.fuseRemap = fuseRows ((s.her.boot.fuses.drop 13).take 50)
                ∧ t.her.boot.degr = (if fieldOf (s.fuseWord 12) 10 2 = 3 then 3 else s.her.boot.degr)
                ∧ regsBut [gDBG_STAT, gPWR_DOMAIN_STATE] s t)
            ∧ (s.her.boot.fuses.getD 63 0 ≠ crcEnd (crcWords ((s.her.boot.fuses.take 63).map (fun w => w.toNat)) 0xFFFFFFFF) →
                t.her.boot.fuseOk = some false ∧ t.her.boot.degr = 2 ∧ t.her.fuseRemap = s.her.fuseRemap
                ∧ t.flag gBOOT_STAT 20 = true ∧ regsBut [gBOOT_STAT, gDBG_STAT, gPWR_DOMAIN_STATE] s t)
            ∧ onlyParts [.regs, .pw, .her] s t))
        ∧ (s.booting = false ∨ s.her.boot.fuses.length ≠ 64 ∨ s.her.boot.fuseOk ≠ none →
          completes .fuseReadDone s (fun t => t = s)))
      ∧ (∀ (f : Sfdp) (s : State),
        (s.booting = true → s.her.boot.fuseOk ≠ none → s.her.boot.nvmUp = false → s.fuse12 10 2 ≠ 3 →
          completes (.nvmReady f) s (fun t =>
            t.her.boot.nvmUp = true ∧ t.fld gNVM_STAT 0 2 = nvmMode (s.fuse12 10 2) f
            ∧ regsBut [gNVM_STAT] s t ∧ onlyParts [.regs, .her] s t))
        ∧ (s.booting = false ∨ s.her.boot.fuseOk = none ∨ s.her.boot.nvmUp = true ∨ s.fuse12 10 2 = 3 →
          completes (.nvmReady f) s (fun t => t = s)))
      ∧ (∀ (a b : Option (BitVec 2048)) (s : State),
        (s.booting = true → s.her.boot.nvmUp = true → s.her.boot.hdrs = none → s.her.boot.degr = 0 →
          completes (.headersRead a b) s (fun t =>
            t.her.boot.hdrs = some (a.getD 0, b.getD 0)
            ∧ (s.headerCause a ≠ 0 → t.causeOf 1 = s.headerCause a) ∧ (s.headerCause a = 0 → t.causeOf 1 = s.causeOf 1)
            ∧ (s.headerCause b ≠ 0 → t.causeOf 2 = s.headerCause b) ∧ (s.headerCause b = 0 → t.causeOf 2 = s.causeOf 2)
            ∧ (a = none → b = none → t.her.boot.degr = 3 ∧ t.fabState = s.fabState)
            ∧ (a ≠ none ∨ b ≠ none →
                (t.causeOf 1 = 0 → t.causeOf 2 = 0 →
                  t.her.boot.copy = if hdSeq (a.getD 0) < hdSeq (b.getD 0) then 2 else 1)
                ∧ (t.causeOf 1 = 0 → t.causeOf 2 ≠ 0 → t.her.boot.copy = 1)
                ∧ (t.causeOf 1 ≠ 0 → t.causeOf 2 = 0 → t.her.boot.copy = 2)
                ∧ (t.causeOf 1 = 0 ∨ t.causeOf 2 = 0 → t.fabState = fabCALIBRATING ∧ t.her.boot.degr = 0)
                ∧ (t.causeOf 1 ≠ 0 → t.causeOf 2 ≠ 0 → t.her.boot.copy = 0 ∧ t.her.boot.degr = 1
                    ∧ t.fabState = s.fabState))
            ∧ regsBut [gFAB_STATE, gBOOT_STAT] s t ∧ onlyParts [.regs, .her] s t))
        ∧ (s.booting = false ∨ s.her.boot.nvmUp = false ∨ s.her.boot.hdrs ≠ none ∨ s.her.boot.degr ≠ 0 →
          completes (.headersRead a b) s (fun t => t = s))))
  ∧ ((∀ (es : List ImgSect) (err detours : Bool) (s : State),
        (s.booting = true → (s.her.boot.copy = 1 ∨ s.her.boot.copy = 2) → s.her.boot.phase = 0 → s.her.boot.degr = 0 →
          completes (.copyReadDone es err detours) s (fun t =>
            (match s.copyFault (s.headerOf s.her.boot.copy) es err detours with
             | none => t.her.boot.phase = 1 ∧ t.her.boot.sects = es ∧ t.her.boot.copy = s.her.boot.copy
             | some (c, i) => t.causeOf s.her.boot.copy = c % 16 ∧ t.fld gBOOT_STAT 10 8 = i % 256 ∧ otherNext s t)
            ∧ t.fabState = s.fabState ∧ onlyParts [.regs, .ni, .acu, .qe, .her] s t))
        ∧ (s.booting = false ∨ s.her.boot.copy = 0 ∨ s.her.boot.phase ≠ 0 ∨ s.her.boot.degr ≠ 0 →
          completes (.copyReadDone es err detours) s (fun t => t = s)))
      ∧ (∀ (ok : Bool) (sig : BitVec 768) (s : State) (key good : Bool),
        key = keyMatches s.her.boot.fuses (s.headerOf s.her.boot.copy) →
        good = copySigned (s.headerOf s.her.boot.copy) s.her.boot.sects sig →
        (s.booting = true → (s.her.boot.copy = 1 ∨ s.her.boot.copy = 2) → s.her.boot.degr = 0 →
          (s.her.boot.phase = 1 → completes (.signatureDone ok sig) s (fun t =>
            (ok = true → t.her.boot.phase = 2 ∧ t.her.boot.copy = s.her.boot.copy ∧ onlyParts [.her] s t)
            ∧ (ok = false → t.causeOf s.her.boot.copy = 9 ∧ otherNext s t)))
          ∧ (s.her.boot.phase = 2 → completes (.signatureDone ok sig) s (fun t =>
            (s.unprov = false → key = false → t.causeOf s.her.boot.copy = 8 ∧ otherNext s t)
            ∧ ((s.unprov = true ∨ key = true) → good = false → t.causeOf s.her.boot.copy = 5 ∧ otherNext s t)
            ∧ ((s.unprov = true ∨ key = true) → good = true →
                t.her.boot.phase = 3 ∧ t.her.boot.copy = s.her.boot.copy ∧ t.her.boot.sects = s.her.boot.sects))))
        ∧ (s.booting = false ∨ s.her.boot.copy = 0 ∨ s.her.boot.degr ≠ 0
            ∨ (s.her.boot.phase ≠ 1 ∧ s.her.boot.phase ≠ 2) → completes (.signatureDone ok sig) s (fun t => t = s)))
      ∧ (∀ (again : List ImgSect) (err : Bool) (s : State) (v : Nat),
        v = dieSetVerdict (s.fld gDIE_MAP 0 16) (hdDieSet (s.headerOf s.her.boot.copy)) (hdPartial (s.headerOf s.her.boot.copy)) →
        (s.booting = true → (s.her.boot.copy = 1 ∨ s.her.boot.copy = 2) → s.her.boot.phase = 3 → s.her.boot.degr = 0 → s.flag gDIE_COORD 8 = true →
          completes (.dieSpecificReadDone again err) s (fun t =>
            (v = 2 → t.her.boot.degr = 4 ∧ t.fld gBOOT_STAT 0 2 = 0 ∧ onlyParts [.regs, .her] s t)
            ∧ (v ≠ 2 → err = true → t.causeOf s.her.boot.copy = 7 ∧ t.fld gBOOT_STAT 0 2 = 0 ∧ otherNext s t)
            ∧ (v ≠ 2 → err = false → ∀ i, sectChanged (dieSects s.her.boot.sects s.die) again = some i →
                t.causeOf s.her.boot.copy = 3 ∧ t.fld gBOOT_STAT 10 8 = i % 256 ∧ t.fld gBOOT_STAT 0 2 = 0 ∧ otherNext s t)
            ∧ (v ≠ 2 → err = false → sectChanged (dieSects s.her.boot.sects s.die) again = none →
                t.her.boot.phase = 4 ∧ t.her.boot.degr = 0 ∧ t.her.boot.copy = s.her.boot.copy
                ∧ t.her.boot.sects = sectsAgain s.her.boot.sects s.die again)))
        ∧ (s.booting = false ∨ s.her.boot.phase ≠ 3 ∨ s.her.boot.degr ≠ 0 ∨ s.flag gDIE_COORD 8 = false →
          completes (.dieSpecificReadDone again err) s (fun t => t = s))))

/-- INITIAL_CALIBRATION_DONE in CALIBRATING: failed rings are blocked and flagged, trims kept, a direction without a
ring fails the die with cause 3. ACTIVATION, its conditions met: CONFIGURED, the staging map, the detours and
bank 1 of every table are active, rings without a section on the default schedule, the frame starts at 0, every
stop's time is the master's. MINIMAL_CONFIGURATION: DEGRADED with its cause, every stamp BE with RESID 0, the
boot map, STRICT units, only port 0 of the U stops enabled, the die alone as die 0, the frame running.
PORTS_OPEN: engines that the image enables or that have a queue are on; HOLDING, with the U stops' port 0
enabled, where the image asks for it or a ring is blocked, else OPEN with the image's ports enabled, which join
where their agents let them. OPEN_GO in HOLDING: OPEN. HEARTH_TRAP: an access of Hearth's; one that Table 11.7
lets trap leaves mcause and mtval; in start-up the first load or store trap restarts the step, any other fails
the die with cause 1; after it HSAFE is set. What is not due changes nothing. Under the default schedule a
broadcast reaches every stop within B_MG = 289 rc. -/
def Obligations.StartUpEndsInAConfiguration : Prop :=
  (∀ (bad : List RingNo) (trims : List TrimIn) (s : State),
      (s.booting = true → s.fabState = fabCALIBRATING → s.her.boot.calDone = false →
        completes (.initialCalibrationDone bad trims) s (fun t =>
          t.her.boot.calDone = true
          ∧ (∀ r ∈ bad, t.flag (gTEMPER_BLK + 4 * (r.val / 32)) (r.val % 32) = true)
          ∧ (bad ≠ [] → t.flag gBOOT_STAT 19 = true)
          ∧ ((∃ r ∈ bad, r.val % 2 = 0 ∧ ∃ q ∈ bad, q.val = r.val + 1) →
              t.fabState = fabFAILED ∧ t.fld gFAB_STATE 8 4 = 3)
          ∧ ((∀ r ∈ bad, r.val % 2 = 0 → ∀ q ∈ bad, q.val ≠ r.val + 1) → t.fabState = fabCALIBRATING)
          ∧ (∀ x ∈ trims, (∀ y ∈ trims, y.ring = x.ring → y.pos = x.pos → y.lane = x.lane → y.trim = x.trim) →
              (t.lane x.ring.val x.pos.val x.lane.val).trim = x.trim.toInt)
          ∧ onlyParts [.regs, .tem, .her] s t))
      ∧ (s.booting = false ∨ s.fabState ≠ fabCALIBRATING ∨ s.her.boot.calDone = true →
        completes (.initialCalibrationDone bad trims) s (fun t => t = s)))
    ∧ (∀ (shares : List ShareIn) (far : List (BitVec 14)) (s : State),
      (s.booting = true → s.her.boot.phase = 4 → s.her.boot.calDone = true → s.her.boot.dom = 56 →
        s.strobeEarly = false → s.her.boot.degr = 0 → s.frame.running = false →
        completes (.activation shares far) s (fun t =>
          t.fabState = fabCONFIGURED ∧ t.her.boot.phase = 5 ∧ t.frame.running = true ∧ t.frame.fpos = 0
          ∧ t.frame.frameCnt = 0
          ∧ (∀ r, r < nRings → t.fld (ringReg r rSTAMP_STAT) 0 1 = 1)
          ∧ (∀ r p, r < nRings → p < 2016 → imageF (s.her.boot.sects.filter (fun e => e.onDie s.die)) = 2016 →
              r ∉ stampRings s.her.boot.sects s.die → s.fld (ringReg r rSTAMP_STAT) 0 1 = 0 →
              t.reg (stampReg r 1 p) = BitVec.ofNat 32 ((defaultStamp r p).1 + (defaultStamp r p).2 * 16))
          ∧ (∀ st, st < nStops → t.fld (stopReg st sFLOW_STAT) 0 1 = 1 ∧ t.fld (stopReg st sSCHED_STAT) 0 1 = 1
              ∧ t.fld (stopReg st sGL_STAT) 0 1 = 1)
          ∧ (∀ i, i < 256 → t.reg (gACTIVE_MAP + 4 * i) = s.reg (gSTAGE_MAP + 4 * i))
          ∧ (∀ i, i < 8 → t.reg (gDETOUR + 4 * i) = s.reg (gDETOUR_STG + 4 * i))
          ∧ (∀ st, st < nStops → (t.localTs st).count = s.time.master)
          ∧ t.time.master = s.time.master
          ∧ onlyParts [.frame, .time, .regs, .ni, .acu, .tem, .qe, .d2d, .her] s t))
      ∧ (s.booting = false ∨ s.her.boot.phase ≠ 4 ∨ s.her.boot.calDone = false ∨ s.her.boot.dom ≠ 56
          ∨ s.strobeEarly = true ∨ s.her.boot.degr ≠ 0 ∨ s.frame.running = true →
        completes (.activation shares far) s (fun t => t = s)))
    ∧ (∀ s : State,
      (s.booting = true → s.her.boot.degr ≠ 0 → s.her.boot.dom = 56 → s.frame.running = false →
        completes .minimalConfiguration s (fun t =>
          t.fabState = fabDEGRADED ∧ t.fld gFAB_STATE 4 4 = s.her.boot.degr % 16 ∧ t.frame.running = true
          ∧ (∀ r p, r < nRings → p < 2016 → t.fld (ringReg r rSTAMP_STAT) 0 1 = 1 ∧ t.reg (stampReg r 1 p) = 0)
          ∧ t.quad gACTIVE_MAP = mapEntry 0 0xFFF 0 7 0xFFFF true
          ∧ t.quad (gACTIVE_MAP + 16) = mapEntry (s.d2d.fcsBase / 4096) (s.d2d.fcsBase / 4096 + 0x3FFFF) 2 0 0 false
          ∧ (∀ i, 2 ≤ i → i < 64 → t.quad (gACTIVE_MAP + 16 * i) = 0)
          ∧ (∀ st a, st < nStops → a < 3 → acuThere st a = true →
              (a = 0 → st ∉ [0, 15, 176, 191, 7, 8, 183, 184]) → t.flag (acuReg st a 0) 0 = true)
          ∧ (∀ st, st < nStops → stopKind st = 4 → t.flag (portReg st 0 pCFG) 0 = true)
          ∧ (∀ st k, st < nStops → k < 2 → portGen st k ≠ 0 → stopKind st ≠ 4 ∨ k = 1 →
              t.flag (portReg st k pCFG) 0 = false)
          ∧ t.reg gBOOT_TIME = BitVec.ofNat 32 (s.her.boot.hcs / 400)
          ∧ t.d2d.dieId = 0 ∧ t.reg gDIE_MAP = 1 ∧ t.pending = s.pending))
      ∧ (s.booting = false ∨ s.her.boot.degr = 0 ∨ s.her.boot.dom ≠ 56 ∨ s.frame.running = true →
        completes .minimalConfiguration s (fun t => t = s)))
    ∧ (∀ s : State,
      (s.fabState = fabCONFIGURED → s.her.boot.phase = 5 → s.flag gFAB_STATE 12 = false → s.hsafe = false →
        s.her.test.mode = false →
        completes .portsOpen s (fun t =>
          (∀ st, st < nStops → (s.liveQueue st || s.imageEngines.contains st) = true →
            t.flag (stopReg st sQE_CTRL) 0 = true ∧ t.flag (stopReg st sQS_STAT) 1 = false)
          ∧ ((hdHold (s.headerOf s.her.boot.copy) || s.flag gBOOT_STAT 19) = true →
            t.fabState = fabCONFIGURED ∧ t.flag gFAB_STATE 12 = true
            ∧ (∀ st, st < nStops → stopKind st = 4 → t.flag (portReg st 0 pCFG) 0 = true
                ∧ (s.mayJoin st 0 = true → (t.port st 0).state = 1)))
          ∧ ((hdHold (s.headerOf s.her.boot.copy) || s.flag gBOOT_STAT 19) = false →
            t.fabState = fabOPEN ∧ t.flag gFAB_STATE 12 = false ∧ (∀ e ∈ s.imagePorts, t.flag (portReg e.1 e.2 pCFG) 0 = true
              ∧ (s.mayJoin e.1 e.2 = true → (t.port e.1 e.2).state = 1 ∧ (t.port e.1 e.2).rsReq = true))
            ∧ t.reg gBOOT_TIME = BitVec.ofNat 32 (s.her.boot.hcs / 400))
          ∧ onlyParts [.regs, .ni] s t))
      ∧ (s.fabState ≠ fabCONFIGURED ∨ s.her.boot.phase ≠ 5 ∨ s.flag gFAB_STATE 12 = true ∨ s.hsafe = true
          ∨ s.her.test.mode = true → completes .portsOpen s (fun t => t = s)))
    ∧ (∀ s : State,
      (s.flag gFAB_STATE 12 = true → s.hsafe = false → completes .openGo s (fun t =>
        t.fabState = fabOPEN ∧ t.flag gFAB_STATE 12 = false ∧ t.flag gOPEN_CTRL 0 = false ∧ (∀ e ∈ s.imagePorts, t.flag (portReg e.1 e.2 pCFG) 0 = true
              ∧ (s.mayJoin e.1 e.2 = true → (t.port e.1 e.2).state = 1 ∧ (t.port e.1 e.2).rsReq = true))
        ∧ onlyParts [.regs, .ni] s t))
      ∧ (s.flag gFAB_STATE 12 = false ∨ s.hsafe = true → completes .openGo s (fun t => t = s)))
    ∧ (∀ (x : HAcc) (s : State) (n : Nat), n = x.addr.toNat / 8 →
      (s.her.rstLow = true ∨ s.her.test.mode = true ∨ s.fabState = fabFAILED ∨ s.hsafe = true →
        completes (.hearthTrap x) s (fun t => t = s))
      ∧ (s.her.rstLow = false → s.her.test.mode = false → s.fabState ≠ fabFAILED → s.hsafe = false →
        (s.trapCause x = none → completes (.hearthTrap x) s (fun t =>
          (x.op = .store → x.mask = 0xFF → hmRom n = false → t.hmWord n = hmEncode x.data)
          ∧ (∀ w, x.op = .load → hmDecode (s.hmWord n ^^^ x.bits) = .corrected w → hmRom n = false →
              t.hmWord n = w ∧ t.flag gHMEM_STAT 0 = true)
          ∧ (∀ m, m ≠ n → t.hmWord m = s.hmWord m)
          ∧ regsBut [gHMEM_STAT, gHMEM_ADDR] s t ∧ onlyParts [.regs, .store] s t))
        ∧ (∀ c, s.trapCause x = some c → completes (.hearthTrap x) s (fun t =>
          t.her.mcause = c ∧ t.her.mtval = x.addr.toNat
          ∧ ((s.booting = true ∨ s.fabState = fabCONFIGURED) → (c = 1 ∨ s.her.boot.trapped = true) →
              t.fabState = fabFAILED ∧ t.fld gFAB_STATE 8 4 = 1)
          ∧ ((s.booting = true ∨ s.fabState = fabCONFIGURED) → c ≠ 1 → s.her.boot.trapped = false →
              t.her.boot.trapped = true ∧ t.fabState = s.fabState)
          ∧ (s.booting = false → s.fabState ≠ fabCONFIGURED → t.hsafe = true ∧ t.fabState = s.fabState)))))
    ∧ (∀ s : State, s.frame.flen48 = 42 →
      (∀ r p, r < nRings → p < 2016 → s.stampOf r (s.fld (ringReg r rSTAMP_STAT) 0 1) p = defaultStamp r p) →
      s.bMg = 289)

/-- FAB_RESET_ASSERT and AON_POWER_ON: every register reads as in State.reset, every other part is as there; the
domains' cycle counts and the words of Hearth's memory survive FAB_RESET_ASSERT and are as in State.reset after
AON_POWER_ON; the commands that wait and the model's own counter of free values stay. FAB_RESET_DEASSERT with
fab_rst_n low: it is released, every port wired is DOWN and every other ABSENT, test mode, the root strap and
the base address are those of the straps, debug ports are marked; the fuse read is requested unless test mode is
on, and in test mode the first domain starts to wake. With fab_rst_n already released nothing changes. -/
def Obligations.ResetsLeaveResetValues : Prop :=
  (∀ s : State, completes .fabResetAssert s (fun t =>
        regsBut [] State.reset t ∧ t.pw = { State.reset.pw with cyc := s.pw.cyc } ∧ t.her = State.reset.her
        ∧ t.store = { State.reset.store with hmem := s.store.hmem }
        ∧ onlyParts [.pw, .store, .free, .pending] State.reset t ∧ samePart s t .free ∧ samePart s t .pending)
      ∧ completes .aonPowerOn s (fun t =>
        regsBut [] State.reset t ∧ t.pw.cyc = [] ∧ onlyParts [.free, .pending] State.reset t
        ∧ samePart s t .free ∧ samePart s t .pending))
    ∧ (∀ (x : Straps) (s : State),
      (s.her.rstLow = true → completes (.fabResetDeassert x) s (fun t =>
        t.her.rstLow = false ∧ t.her.test.mode = x.test ∧ t.her.boot.fuseReq = !x.test
        ∧ t.her.boot.fuseAt = s.her.boot.hcs ∧ t.d2d.root = x.root
        ∧ t.d2d.fcsBase = x.fcsBase.toNat * 2 ^ 30
        ∧ (∀ p, p < 8 → t.lstate p = if bitOf x.present p then lsDOWN else lsABSENT)
        ∧ (x.test = true → t.domState 0 = dmWAKING ∧ t.her.boot.dom = 0)
        ∧ (x.test = false → t.pw = s.pw ∧ t.domState 0 = s.domState 0)
        ∧ t.fabState = s.fabState
        ∧ (∀ e ∈ x.dbg, portGen e.1.val e.2.val ≠ 0 → t.flag (portReg e.1.val e.2.val pCFG) 2 = true)
        ∧ onlyParts [.regs, .pw, .d2d, .her] s t))
      ∧ (s.her.rstLow = false → completes (.fabResetDeassert x) s (fun t => t = s)))

/-- NVM_READ, NVM_PROGRAM and NVM_ERASE while no flash command runs: NVM_CMD holds the operation, the block flag and
the length; where the host may reach the flash and a program or an erase does not touch the copy in use, the
command runs (GO reads 1), else RESULT is 2 and GO 0. While one runs, only RESULT changes, to 2. NVM_CMD_DONE of
a running command: GO is 0, RESULT 1 or 3, and a good read's bytes stand in the data window; with none running
nothing changes. RESTORE_GO: GO is set; while an image is being written, or once Hearth has halted, nothing
changes. RESTORE_WRITE_DONE of an image being written or brought up to date: GO is cleared and VALID set, and
with nothing waiting nothing else changes; else nothing changes. -/
def Obligations.FlashAndRestoreCommandsRun : Prop :=
  (∀ (len : BitVec 8) (blk : Bool) (s : State),
      (s.flag gNVM_CMD 31 = false →
        (s.nvmOpen = true → s.her.boot.nvmUp = true → s.hsafe = false →
          completes (.nvmRead len) s (fun t => t.flag gNVM_CMD 31 = true ∧ t.fld gNVM_CMD 0 2 = 1
            ∧ t.fld gNVM_CMD 3 8 = len.toNat ∧ regsBut [gNVM_CMD] s t ∧ onlyParts [.regs] s t)
          ∧ (s.nvmInUse (nvmSpan .program false len.toNat (s.reg gNVM_ADDR).toNat) = false →
            completes (.nvmProgram len) s (fun t => t.flag gNVM_CMD 31 = true ∧ t.fld gNVM_CMD 0 2 = 2
              ∧ t.fld gNVM_CMD 3 8 = len.toNat ∧ regsBut [gNVM_CMD] s t ∧ onlyParts [.regs] s t))
          ∧ (s.nvmInUse (nvmSpan .erase blk 0 (s.reg gNVM_ADDR).toNat) = false →
            completes (.nvmErase blk) s (fun t => t.flag gNVM_CMD 31 = true ∧ t.fld gNVM_CMD 0 2 = 3
              ∧ t.flag gNVM_CMD 2 = blk ∧ regsBut [gNVM_CMD] s t ∧ onlyParts [.regs] s t)))
        ∧ (s.nvmInUse (nvmSpan .program false len.toNat (s.reg gNVM_ADDR).toNat) = true →
          completes (.nvmProgram len) s (fun t => t.flag gNVM_CMD 31 = false ∧ t.fld gNVM_CMD 11 2 = 2
            ∧ regsBut [gNVM_CMD] s t ∧ onlyParts [.regs] s t))
        ∧ (s.nvmInUse (nvmSpan .erase blk 0 (s.reg gNVM_ADDR).toNat) = true →
          completes (.nvmErase blk) s (fun t => t.flag gNVM_CMD 31 = false ∧ t.fld gNVM_CMD 11 2 = 2
            ∧ regsBut [gNVM_CMD] s t ∧ onlyParts [.regs] s t))
        ∧ (s.nvmOpen = false ∨ s.her.boot.nvmUp = false ∨ s.hsafe = true →
          ∀ c, (c = .nvmRead len ∨ c = .nvmProgram len ∨ c = .nvmErase blk) → completes c s (fun t =>
            t.flag gNVM_CMD 31 = false ∧ t.fld gNVM_CMD 11 2 = 2 ∧ regsBut [gNVM_CMD] s t ∧ onlyParts [.regs] s t)))
      ∧ (s.flag gNVM_CMD 31 = true → ∀ c, (c = .nvmRead len ∨ c = .nvmProgram len ∨ c = .nvmErase blk) →
        completes c s (fun t => t.fld gNVM_CMD 11 2 = 2 ∧ t.fld gNVM_CMD 0 11 = s.fld gNVM_CMD 0 11
          ∧ t.flag gNVM_CMD 31 = true ∧ regsBut [gNVM_CMD] s t ∧ onlyParts [.regs] s t)))
    ∧ (∀ (ok : Bool) (data : List (BitVec 8)) (s : State),
      (s.flag gNVM_CMD 31 = true → completes (.nvmCmdDone ok data) s (fun t =>
        t.flag gNVM_CMD 31 = false ∧ t.fld gNVM_CMD 11 2 = (if ok then 1 else 3)
        ∧ (ok = true → s.fld gNVM_CMD 0 2 = 1 → ∀ i, i < data.length → i < s.fld gNVM_CMD 3 8 + 1 →
            t.fld (gNVM_DATA + 4 * (i / 4)) (8 * (i % 4)) 8 = (data.getD i 0).toNat)
        ∧ (ok = false ∨ s.fld gNVM_CMD 0 2 ≠ 1 → regsBut [gNVM_CMD] s t) ∧ onlyParts [.regs] s t))
      ∧ (s.flag gNVM_CMD 31 = false → completes (.nvmCmdDone ok data) s (fun t => t = s)))
    ∧ (∀ s : State,
      (s.hsafe = false → s.flag gRESTORE_CTRL 0 = false → s.pw.img = false → completes .restoreGo s (fun t =>
        t.flag gRESTORE_CTRL 0 = true ∧ regsBut [gRESTORE_CTRL] s t ∧ onlyParts [.regs] s t))
      ∧ (s.hsafe = true ∨ s.flag gRESTORE_CTRL 0 = true ∨ s.pw.img = true →
        completes .restoreGo s (fun t => t = s))
      ∧ (s.hsafe = false → s.flag gRESTORE_CTRL 0 = true ∨ s.pw.img = true →
        completes .restoreWriteDone s (fun t =>
          samePart s t .frame ∧ samePart s t .time ∧ samePart s t .pending
          ∧ (s.pw.fcs = [] → s.pw.kbs = [] → s.pw.reqs = [] →
            t.flag gRESTORE_CTRL 0 = false ∧ t.flag gRESTORE_STAT 0 = true ∧ t.pw = { s.pw with img := false }
            ∧ regsBut [gRESTORE_CTRL, gRESTORE_STAT] s t ∧ onlyParts [.regs, .pw] s t)))
      ∧ (s.hsafe = true ∨ (s.flag gRESTORE_CTRL 0 = false ∧ s.pw.img = false) →
        completes .restoreWriteDone s (fun t => t = s)))

/-- COMMIT_GO stores its fields; where the rules refuse it REFUSED is flagged; an unsound list ends ABORTED with
cause 3, a time more than 2^32 units ahead with cause 5; else the commit is PREPARING with a new SEQ, T and N_c
by R431, the broadcast is offered and PREPARE goes to every other die. T lies no earlier than the requested time
or the margin, at the midpoint of a frame, with the gap to the last boundary met. PREPARE at a stop it has not
reached freezes an included one; an excluded one counts as answered. At another die with no commit open it opens
the commit with the root's T and scope and its own N_c; a frame length that differs fails it at once and is
reported. PREPARE_ACK of a stop: its result stands in STOP_CMT_STAT and it counts as answered, and the last of
the 192, or the first failure, at another die is reported to the root; of a die: the root waits for it no longer
and keeps the first failure. What comes when Hearth has halted, too late or twice changes nothing. At the root.
COMMIT_DECIDE with every answer good: DECIDED, the broadcast is offered and COMMIT goes to every other die; with
a failure: ABORTED with cause 1 and ABORT to every other die; with an answer missing past the deadline: ABORTED
with cause 2, the first one missing named; with one missing before it nothing changes. COMMIT_HOST_ABORT before
the decision: ABORTED with cause 6. DECISION_REQUEST: the last decision is sent. At another die. COMMIT_ABORT in
PREPARING or IN_DOUBT: ABORTED. COMMIT once every stop has answered: in time DECIDED; at or after the first rc
of frame N_c - 1, or in doubt, IN_DOUBT with the frame of the late swap kept. IN_DOUBT at that time without a
decision, once the die has acknowledged: IN_DOUBT, and the root is asked, again after 100 us. Anything else
changes nothing. -/
def Obligations.CommitsArePreparedAndDecided : Prop :=
  ((∀ (w : Word32) (fs : Nat) (s : State),
        (s.hsafe = true → completes (.commitGo w fs) s (fun t =>
          t.fld gCOMMIT_CTRL 2 10 = fieldOf w 2 10 ∧ regsBut [gCOMMIT_CTRL] s t ∧ onlyParts [.regs] s t))
        ∧ (s.hsafe = false → s.goRefused = true → completes (.commitGo w fs) s (fun t =>
          t.flag gCOMMIT_STATUS 8 = true ∧ t.cmtState = s.cmtState ∧ t.fld gCOMMIT_CTRL 2 10 = fieldOf w 2 10
          ∧ regsBut [gCOMMIT_CTRL, gCOMMIT_STATUS] s t ∧ onlyParts [.regs] s t))
        ∧ (∀ m k req, s.hsafe = false → s.goRefused = false → (bitOf w 11 = true → s.listOk s.listNow = true) →
          req = (s.reg gCOMMIT_TS_LO).toNat + (s.reg gCOMMIT_TS_HI).toNat * 2 ^ 32 → req ≤ s.time.master.toNat + 2 ^ 32 →
          (m, k) = s.frame.chooseT (max req (s.time.master.toNat + s.fld gCOMMIT_CFG 0 16 * 4000) - s.time.master.toNat)
            fs (s.fld gCOMMIT_GAP 0 20) s.her.cmt.last →
          completes (.commitGo w fs) s (fun t =>
            t.cmtState = cmPREPARING ∧ t.cmtSeq = (s.cmtSeq + 1) % 128 ∧ t.her.scope = fieldOf w 2 8
            ∧ t.cmtT = (s.time.master.toNat + m * max fs 1 / 250000) % 2 ^ 64
            ∧ t.reg gCOMMIT_FRAME = s.frame.frameCnt + BitVec.ofNat 32 k
            ∧ t.her.cmt.dies = s.otherDies ∧ t.her.cmt.acked = [] ∧ t.her.prep = []
            ∧ t.d2d.sent = s.otherDies.map (fun d => (16 + d, .prepare t.cmtSeq (t.reg gCOMMIT_FRAME).toNat))
            ∧ onlyParts [.regs, .ni, .d2d, .her] s t))
        ∧ (s.hsafe = false → s.goRefused = false → bitOf w 11 = true → s.listOk s.listNow = false →
          completes (.commitGo w fs) s (fun t => t.cmtState = cmABORTED ∧ t.fld gCOMMIT_STATUS 3 4 = 3
            ∧ t.fld gCOMMIT_STATUS 21 4 = 9))
        ∧ (s.hsafe = false → s.goRefused = false → (bitOf w 11 = true → s.listOk s.listNow = true) →
          s.time.master.toNat + 2 ^ 32 < (s.reg gCOMMIT_TS_LO).toNat + (s.reg gCOMMIT_TS_HI).toNat * 2 ^ 32 →
          completes (.commitGo w fs) s (fun t => t.cmtState = cmABORTED ∧ t.fld gCOMMIT_STATUS 3 4 = 5)))
      ∧ (∀ (f : Frame) (ahead fs gap : Nat) (last : Option Nat), 0 < f.flen48 → 0 < fs →
        ahead * 250000 ≤ (f.chooseT ahead fs gap last).1 * fs
        ∧ (f.posNow + (f.chooseT ahead fs gap last).1) % (48 * f.flen48) = 24 * f.flen48
        ∧ (f.chooseT ahead fs gap last).2 = (f.posNow + (f.chooseT ahead fs gap last).1) / (48 * f.flen48) + 1
        ∧ (∀ r, last = some r →
            r + gap ≤ f.rcs + (f.chooseT ahead fs gap last).2 * (48 * f.flen48) - f.posNow))
      ∧ (∀ (st : StopNo) (fs : Nat) (msg : Option PrepMsg) (s : State),
        (s.hsafe = true → completes (.prepare st msg fs) s (fun t => t = s))
        ∧ (s.hsafe = false → msg = none ∨ s.isRoot = true ∨ s.cmtOpen = true →
          (s.cmtState = cmPREPARING → s.her.prep.contains st.val = false → s.cmtIncludes st.val = true →
            s.her.cmt.acked.length ≠ 192 →
            completes (.prepare st msg fs) s (fun t =>
              t.her.prep = insertAsc st.val s.her.prep ∧ t.flag (stopReg st.val sSTOP_CMT_STAT) 9 = true
              ∧ regsBut [stopReg st.val sSTOP_CMT_STAT] s t ∧ onlyParts [.regs, .ni, .her] s t))
          ∧ (s.cmtState = cmPREPARING → s.her.prep.contains st.val = false → s.cmtIncludes st.val = false →
            completes (.prepare st msg fs) s (fun t =>
              t.her.prep = insertAsc st.val s.her.prep ∧ st.val ∈ t.her.cmt.acked
              ∧ t.flag (stopReg st.val sSTOP_CMT_STAT) 9 = false
              ∧ (s.her.scope % 2 = 0 → t.fld (stopReg st.val sSTOP_CMT_STAT) 6 2 = 3)))
          ∧ (s.cmtState ≠ cmPREPARING ∨ s.her.prep.contains st.val = true →
            completes (.prepare st msg fs) s (fun t => t = s)))
        ∧ (∀ p : PrepMsg, s.hsafe = false → msg = some p → s.isRoot = false → s.cmtOpen = false →
          completes (.prepare st msg fs) s (fun t =>
            t.cmtState = cmPREPARING ∧ t.cmtSeq = (s.cmtSeq + 1) % 128 ∧ t.cmtT = p.t.toNat
            ∧ t.reg gCOMMIT_FRAME = s.frame.frameCnt + BitVec.ofNat 32
                ((s.frame.posNow + rcIn (p.t.toNat - s.time.master.toNat) fs) / (48 * s.frame.flen48) + 1)
            ∧ t.her.scope = p.scope.toNat ∧ t.her.prep = [st.val]
            ∧ (p.frame = true → s.fld gFRAME_CTRL 8 8 ≠ p.flen.toNat →
                t.her.cmt.fail = some (s.die, hearthStop, 8)
                ∧ t.d2d.sent = [(s.d2d.toRoot.getD 0, .prepAck false)]))))
      ∧ (∀ (st : StopNo) (s : State) (r : Option (Nat × Nat)),
        r = (State.tableChecks st.val s.newFlen (s.cmtTables st.val) s).1 →
        (s.hsafe = false → s.cmtState = cmPREPARING → s.her.prep.contains st.val = true →
          s.her.cmt.acked.contains st.val = false → (s.isRoot = true → s.cmtLate = false) →
          completes (.prepareAck (.stop st)) s (fun t =>
            st.val ∈ t.her.cmt.acked ∧ t.cmtState = cmPREPARING ∧ t.her.cmt.dies = s.her.cmt.dies
            ∧ (r = none → s.flag (stopReg st.val sSTOP_CMT_STAT) 9 = true →
                t.fld (stopReg st.val sSTOP_CMT_STAT) 0 2 = 1)
            ∧ (∀ k c, r = some (k, c) → t.fld (stopReg st.val sSTOP_CMT_STAT) 0 2 = 2
                ∧ (s.her.cmt.fail = none → t.her.cmt.fail = some (s.die, st.val, k)))
            ∧ (s.isRoot = false → r = none → s.her.cmt.fail = none → s.her.cmt.acked.length = 191 →
                t.d2d.sent = [(s.d2d.toRoot.getD 0, .prepAck true)])
            ∧ (s.isRoot = false → r ≠ none → s.her.cmt.fail = none →
                t.d2d.sent = [(s.d2d.toRoot.getD 0, .prepAck false)])
            ∧ t.her.prep = s.her.prep ∧ t.mem = s.mem ∧ t.ring = s.ring))
        ∧ (s.hsafe = true ∨ s.cmtState ≠ cmPREPARING ∨ s.her.prep.contains st.val = false
            ∨ s.her.cmt.acked.contains st.val = true ∨ (s.isRoot = true ∧ s.cmtLate = true) →
          completes (.prepareAck (.stop st)) s (fun t => t = s)))
      ∧ (∀ (d : Fin 16) (r : Option (StopNo × Fin 16)) (s : State),
        (s.hsafe = false → s.cmtState = cmPREPARING → s.isRoot = true → s.her.cmt.dies.contains d.val = true →
          s.cmtLate = false →
          completes (.prepareAck (.die d r)) s (fun t =>
            d.val ∉ t.her.cmt.dies ∧ t.her.cmt.acked = s.her.cmt.acked
            ∧ (∀ st k, r = some (st, k) → s.her.cmt.fail = none →
                t.her.cmt.fail = some (d.val, st.val, k.val) ∧ t.fld gCOMMIT_STATUS 9 4 = d.val
                ∧ t.fld gCOMMIT_STATUS 13 8 = st.val ∧ t.fld gCOMMIT_STATUS 21 4 = k.val)
            ∧ (r = none ∨ s.her.cmt.fail ≠ none → t.her.cmt.fail = s.her.cmt.fail ∧ t.regs = s.regs)
            ∧ regsBut [gCOMMIT_STATUS] s t ∧ onlyParts [.regs, .her] s t))
        ∧ (s.hsafe = true ∨ s.cmtState ≠ cmPREPARING ∨ s.isRoot = false ∨ s.her.cmt.dies.contains d.val = false
            ∨ s.cmtLate = true → completes (.prepareAck (.die d r)) s (fun t => t = s))))
  ∧ ((∀ s : State, s.hsafe = false → s.isRoot = true → s.cmtState = cmPREPARING →
        (s.her.cmt.fail = none → s.cmtAll = true → completes .commitDecide s (fun t =>
          t.cmtState = cmDECIDED ∧ t.her.cmt.kept = some (s.cmtSeq, true, (s.reg gCOMMIT_FRAME).toNat)
          ∧ t.d2d.sent = s.otherDies.map (fun d => (16 + d, .commit s.cmtSeq (s.reg gCOMMIT_FRAME).toNat))
          ∧ globalsBut [gCOMMIT_STATUS] s t ∧ onlyParts [.regs, .ni, .d2d, .her] s t))
        ∧ (s.her.cmt.fail ≠ none → completes .commitDecide s (fun t =>
          t.cmtState = cmABORTED ∧ t.fld gCOMMIT_STATUS 3 4 = 1
          ∧ t.d2d.sent = s.otherDies.map (fun d => (16 + d, .abort s.cmtSeq))))
        ∧ (s.her.cmt.fail = none → s.cmtAll = false → s.cmtLate = true → completes .commitDecide s (fun t =>
          t.cmtState = cmABORTED ∧ t.fld gCOMMIT_STATUS 3 4 = 2 ∧ t.fld gCOMMIT_STATUS 9 4 = s.cmtMissing.1 % 16
          ∧ t.fld gCOMMIT_STATUS 13 8 = s.cmtMissing.2 % 256
          ∧ t.d2d.sent = s.otherDies.map (fun d => (16 + d, .abort s.cmtSeq))))
        ∧ (s.her.cmt.fail = none → s.cmtAll = false → s.cmtLate = false →
          completes .commitDecide s (fun t => t = s))
        ∧ completes .commitHostAbort s (fun t =>
          t.cmtState = cmABORTED ∧ t.fld gCOMMIT_STATUS 3 4 = 6
          ∧ t.d2d.sent = s.otherDies.map (fun d => (16 + d, .abort s.cmtSeq))))
      ∧ (∀ s : State, s.hsafe = true ∨ s.isRoot = false ∨ s.cmtState ≠ cmPREPARING →
        completes .commitDecide s (fun t => t = s) ∧ completes .commitHostAbort s (fun t => t = s))
      ∧ (∀ s : State,
        (s.hsafe = false → s.isRoot = false → (s.cmtState = cmPREPARING ∨ s.cmtState = cmIN_DOUBT) →
          completes .commitAbort s (fun t => t.cmtState = cmABORTED ∧ t.her.prep = []))
        ∧ (s.hsafe = true ∨ s.isRoot = true ∨ (s.cmtState ≠ cmPREPARING ∧ s.cmtState ≠ cmIN_DOUBT) →
          completes .commitAbort s (fun t => t = s)))
      ∧ (∀ (d : Fin 16) (s : State),
        (∀ q yes n, s.hsafe = false → s.isRoot = true → s.her.cmt.kept = some (q, yes, n) →
          completes (.decisionRequest d) s (fun t =>
            t.d2d.sent = [(16 + d.val, if yes then .commit q n else .abort q)] ∧ onlyParts [.d2d] s t))
        ∧ (s.hsafe = true ∨ s.isRoot = false ∨ s.her.cmt.kept = none →
          completes (.decisionRequest d) s (fun t => t = s)))
      ∧ (∀ s : State,
        (s.hsafe = false → s.isRoot = false → s.her.cmt.acked.length = 192 →
          (s.cmtState = cmPREPARING → s.doubtTime = false → completes .commit s (fun t =>
            t.cmtState = cmDECIDED ∧ globalsBut [gCOMMIT_STATUS] s t ∧ onlyParts [.regs, .ni] s t))
          ∧ ((s.cmtState = cmIN_DOUBT ∨ (s.cmtState = cmPREPARING ∧ s.doubtTime = true)) →
            completes .commit s (fun t => t.cmtState = cmIN_DOUBT
              ∧ t.her.cmt.late = some (s.her.cmt.late.getD s.lateFrame)
              ∧ regsBut [gCOMMIT_STATUS] s t ∧ onlyParts [.regs, .her] s t)))
        ∧ (s.hsafe = true ∨ s.isRoot = true ∨ s.her.cmt.acked.length ≠ 192
            ∨ (s.cmtState ≠ cmPREPARING ∧ s.cmtState ≠ cmIN_DOUBT) → completes .commit s (fun t => t = s)))
      ∧ (∀ s : State,
        (s.hsafe = false → s.isRoot = false → s.hasAcked = true → s.doubtTime = true → s.mayAsk = true →
          (s.cmtState = cmPREPARING ∨ (s.cmtState = cmIN_DOUBT ∧ s.her.cmt.late = none)) →
          completes .inDoubt s (fun t =>
            t.cmtState = cmIN_DOUBT ∧ t.d2d.sent = [(s.d2d.toRoot.getD 0, .askDecision s.cmtSeq)]
            ∧ t.her.cmt.asked = some s.time.master.toNat
            ∧ regsBut [gCOMMIT_STATUS] s t ∧ onlyParts [.regs, .d2d, .her] s t))
        ∧ (s.hsafe = true ∨ s.isRoot = true ∨ s.hasAcked = false ∨ s.doubtTime = false ∨ s.mayAsk = false
            ∨ (s.cmtState ≠ cmPREPARING ∧ (s.cmtState ≠ cmIN_DOUBT ∨ s.her.cmt.late ≠ none)) →
          completes .inDoubt s (fun t => t = s))))

/-- COMMIT_SWAP when the swap is due, with a sound register list: COMMITTED; the stamping bank of every ring changes
if the scope has stamping tables and stays if not; so do the flow, scheduler and gate banks of every stop; the
frame length is the commit's; frame count and position stay; the stops are no longer frozen. COMMIT_LATE: the
same for a die in doubt, with CAUSE 7. When no swap is due, or the commit is in another state, both change
nothing. -/
def Obligations.CommitsSwapAtTheFrameBoundary : Prop :=
  (∀ (s : State) (c : Instr), s.swapDue = true → s.listOk s.her.cmt.items = true →
      ((c = .commitSwap ∧ s.cmtState = cmDECIDED) ∨ (c = .commitLate ∧ s.cmtState = cmIN_DOUBT)) →
      completes c s (fun t =>
        t.cmtState = cmCOMMITTED ∧ (c = .commitLate → t.fld gCOMMIT_STATUS 3 4 = 7)
        ∧ (∀ r, r < nRings → t.fld (ringReg r rSTAMP_STAT) 0 1 =
            if s.her.scope % 2 = 1 then 1 - s.fld (ringReg r rSTAMP_STAT) 0 1 else s.fld (ringReg r rSTAMP_STAT) 0 1)
        ∧ (∀ st, st < nStops →
            t.fld (stopReg st sFLOW_STAT) 0 1 = (if s.her.scope / 2 % 2 = 1 then 1 - s.fld (stopReg st sFLOW_STAT) 0 1
              else s.fld (stopReg st sFLOW_STAT) 0 1)
            ∧ t.fld (stopReg st sSCHED_STAT) 0 1 = (if s.her.scope / 4 % 2 = 1 then
              1 - s.fld (stopReg st sSCHED_STAT) 0 1 else s.fld (stopReg st sSCHED_STAT) 0 1)
            ∧ t.fld (stopReg st sGL_STAT) 0 1 = (if s.her.scope / 8 % 2 = 1 then
              1 - s.fld (stopReg st sGL_STAT) 0 1 else s.fld (stopReg st sGL_STAT) 0 1)
            ∧ t.flag (stopReg st sSTOP_CMT_STAT) 9 = false)
        ∧ (s.her.cmt.frame = false → t.frame.flen48 = s.frame.flen48)
        ∧ (s.her.cmt.frame = true → 10 ≤ s.her.cmt.flen → s.her.cmt.flen ≤ 168 → t.frame.flen48 = s.her.cmt.flen)
        ∧ t.frame.fpos = s.frame.fpos ∧ t.frame.frameCnt = s.frame.frameCnt
        ∧ t.her.cmt.last = some s.frame.rcs ∧ t.her.prep = [] ∧ t.pending = s.pending))
    ∧ (∀ s : State, s.swapDue = true → s.listOk s.her.cmt.items = true →
      (s.cmtState = cmDECIDED → completes .commitSwap s (fun t => t.cmtState = cmCOMMITTED))
      ∧ (s.cmtState = cmIN_DOUBT → completes .commitLate s (fun t => t.cmtState = cmCOMMITTED)))
    ∧ (∀ s : State,
      (s.swapDue = false ∨ s.cmtState ≠ cmDECIDED → completes .commitSwap s (fun t => t = s))
      ∧ (s.swapDue = false ∨ s.cmtState ≠ cmIN_DOUBT → completes .commitLate s (fun t => t = s)))

/-- MEMORY_TEST of a memory whose test does not run: it runs, and nothing but that memory and the free-value counter
changes, Hearth's SRAM among them; at Hearth's ROM and at memories the model holds no words of nothing else
changes. MEMORY_TEST_DONE of one that runs: it no longer runs, its result is PASS when no word failed, with at
most 8 failing addresses, and every other result stays. A test that runs is not started again, one that does not
is not ended. WRAPPER_INSTRUCTION: the wrapper's instruction is the one given, nothing else changes in test mode
or for an instruction other than WS_INTEST. The table gives its rows no bits, so no word decodes to a command. -/
def Obligations.TestAccessCommandsTakeEffect : Prop :=
  (∀ (m : Fin 1842) (s : State),
      (s.her.test.running.contains m.val = false → completes (.memoryTest m) s (fun t =>
        t.her.test.running = s.her.test.running ++ [m.val]
        ∧ t.her.test.results = s.her.test.results ∧ t.her.boot = s.her.boot ∧ s.free ≤ t.free
        ∧ (m.val = 1840 → onlyParts [.store, .her, .free] s t ∧ ∀ n, n < 32768 → t.hmWord n = s.hmWord n)
        ∧ (m.val = 1841 ∨ (1152 ≤ m.val ∧ m.val < 1344) ∨ (1536 ≤ m.val ∧ m.val < 1728) → onlyParts [.her] s t)
        ∧ (m.val < 768 → onlyParts [.mem, .her, .free] s t ∧ ∀ st b row i, 4 * st + b ≠ m.val → st < 192 → b < 4 →
            row < 1032 → i < 36 → t.sym st b row i = s.sym st b row i)
        ∧ onlyParts [.regs, .mem, .ni, .qe, .store, .her, .free] s t))
      ∧ (s.her.test.running.contains m.val = true → completes (.memoryTest m) s (fun t => t = s))
      ∧ (∀ bad : List (Fin 65536),
        (s.her.test.running.contains m.val = true → completes (.memoryTestDone m bad) s (fun t =>
          m.val ∉ t.her.test.running
          ∧ Tab.get (fun _ => (false, [])) t.her.test.results m.val = (bad.isEmpty, (bad.map (fun x => x.val)).take 8)
          ∧ (∀ n, n ≠ m.val → Tab.get (fun _ => (false, [])) t.her.test.results n
              = Tab.get (fun _ => (false, [])) s.her.test.results n)
          ∧ onlyParts [.regs, .mem, .ni, .qe, .store, .her, .free] s t))
        ∧ (s.her.test.running.contains m.val = false → completes (.memoryTestDone m bad) s (fun t => t = s))))
    ∧ (∀ (w : Fin 3) (s : State), completes (.wrapperInstruction w) s (fun t =>
        t.her.test.wrapper = w.val ∧ t.her.test.mode = s.her.test.mode
        ∧ (w.val ≠ 2 ∨ s.her.test.mode = true → t.her.test.broken = s.her.test.broken)
        ∧ (w.val = 2 → s.her.test.mode = false → t.her.test.broken = true)
        ∧ t.her.boot = s.her.boot ∧ t.her.cmt = s.her.cmt ∧ onlyParts [.her] s t))
    ∧ (∀ (n w : Nat) (s : State), decodeTableWord n w = none ∧ s.withFetchWord n w = s)
end

