-- ==== Sys2Proof/Laws/State.lean ====
section
/-! SUPPORT. What each named update of the state leaves alone, one lemma per field, and what each bound on a
command's effect takes from either side. -/
namespace Sys2Proof.Machine
open Sys2Proof

@[simp] theorem State.setReg_frame (s : State) (a : Nat) (v : Word32) : (s.setReg a v).frame = s.frame := rfl
@[simp] theorem State.setReg_time (s : State) (a : Nat) (v : Word32) : (s.setReg a v).time = s.time := rfl
@[simp] theorem State.setReg_mem (s : State) (a : Nat) (v : Word32) : (s.setReg a v).mem = s.mem := rfl
@[simp] theorem State.setReg_ring (s : State) (a : Nat) (v : Word32) : (s.setReg a v).ring = s.ring := rfl
@[simp] theorem State.setReg_ni (s : State) (a : Nat) (v : Word32) : (s.setReg a v).ni = s.ni := rfl
@[simp] theorem State.setReg_acu (s : State) (a : Nat) (v : Word32) : (s.setReg a v).acu = s.acu := rfl
@[simp] theorem State.setReg_recs (s : State) (a : Nat) (v : Word32) : (s.setReg a v).recs = s.recs := rfl
@[simp] theorem State.setReg_pmu (s : State) (a : Nat) (v : Word32) : (s.setReg a v).pmu = s.pmu := rfl
@[simp] theorem State.setReg_tem (s : State) (a : Nat) (v : Word32) : (s.setReg a v).tem = s.tem := rfl
@[simp] theorem State.setReg_qe (s : State) (a : Nat) (v : Word32) : (s.setReg a v).qe = s.qe := rfl
@[simp] theorem State.setReg_store (s : State) (a : Nat) (v : Word32) : (s.setReg a v).store = s.store := rfl
@[simp] theorem State.setReg_cdc (s : State) (a : Nat) (v : Word32) : (s.setReg a v).cdc = s.cdc := rfl
@[simp] theorem State.setReg_pw (s : State) (a : Nat) (v : Word32) : (s.setReg a v).pw = s.pw := rfl
@[simp] theorem State.setReg_d2d (s : State) (a : Nat) (v : Word32) : (s.setReg a v).d2d = s.d2d := rfl
@[simp] theorem State.setReg_her (s : State) (a : Nat) (v : Word32) : (s.setReg a v).her = s.her := rfl
@[simp] theorem State.setReg_free (s : State) (a : Nat) (v : Word32) : (s.setReg a v).free = s.free := rfl
@[simp] theorem State.setReg_pending (s : State) (a : Nat) (v : Word32) : (s.setReg a v).pending = s.pending := rfl

@[simp] theorem State.setFld_frame (s : State) (a lo w x : Nat) : (s.setFld a lo w x).frame = s.frame := rfl
@[simp] theorem State.setFld_time (s : State) (a lo w x : Nat) : (s.setFld a lo w x).time = s.time := rfl
@[simp] theorem State.setFld_mem (s : State) (a lo w x : Nat) : (s.setFld a lo w x).mem = s.mem := rfl
@[simp] theorem State.setFld_ring (s : State) (a lo w x : Nat) : (s.setFld a lo w x).ring = s.ring := rfl
@[simp] theorem State.setFld_ni (s : State) (a lo w x : Nat) : (s.setFld a lo w x).ni = s.ni := rfl
@[simp] theorem State.setFld_acu (s : State) (a lo w x : Nat) : (s.setFld a lo w x).acu = s.acu := rfl
@[simp] theorem State.setFld_recs (s : State) (a lo w x : Nat) : (s.setFld a lo w x).recs = s.recs := rfl
@[simp] theorem State.setFld_pmu (s : State) (a lo w x : Nat) : (s.setFld a lo w x).pmu = s.pmu := rfl
@[simp] theorem State.setFld_tem (s : State) (a lo w x : Nat) : (s.setFld a lo w x).tem = s.tem := rfl
@[simp] theorem State.setFld_qe (s : State) (a lo w x : Nat) : (s.setFld a lo w x).qe = s.qe := rfl
@[simp] theorem State.setFld_store (s : State) (a lo w x : Nat) : (s.setFld a lo w x).store = s.store := rfl
@[simp] theorem State.setFld_cdc (s : State) (a lo w x : Nat) : (s.setFld a lo w x).cdc = s.cdc := rfl
@[simp] theorem State.setFld_pw (s : State) (a lo w x : Nat) : (s.setFld a lo w x).pw = s.pw := rfl
@[simp] theorem State.setFld_d2d (s : State) (a lo w x : Nat) : (s.setFld a lo w x).d2d = s.d2d := rfl
@[simp] theorem State.setFld_her (s : State) (a lo w x : Nat) : (s.setFld a lo w x).her = s.her := rfl
@[simp] theorem State.setFld_free (s : State) (a lo w x : Nat) : (s.setFld a lo w x).free = s.free := rfl
@[simp] theorem State.setFld_pending (s : State) (a lo w x : Nat) : (s.setFld a lo w x).pending = s.pending := rfl

@[simp] theorem State.raiseFlag_frame (s : State) (a i : Nat) : (s.raiseFlag a i).frame = s.frame := rfl
@[simp] theorem State.raiseFlag_time (s : State) (a i : Nat) : (s.raiseFlag a i).time = s.time := rfl
@[simp] theorem State.raiseFlag_mem (s : State) (a i : Nat) : (s.raiseFlag a i).mem = s.mem := rfl
@[simp] theorem State.raiseFlag_ring (s : State) (a i : Nat) : (s.raiseFlag a i).ring = s.ring := rfl
@[simp] theorem State.raiseFlag_ni (s : State) (a i : Nat) : (s.raiseFlag a i).ni = s.ni := rfl
@[simp] theorem State.raiseFlag_acu (s : State) (a i : Nat) : (s.raiseFlag a i).acu = s.acu := rfl
@[simp] theorem State.raiseFlag_recs (s : State) (a i : Nat) : (s.raiseFlag a i).recs = s.recs := rfl
@[simp] theorem State.raiseFlag_pmu (s : State) (a i : Nat) : (s.raiseFlag a i).pmu = s.pmu := rfl
@[simp] theorem State.raiseFlag_tem (s : State) (a i : Nat) : (s.raiseFlag a i).tem = s.tem := rfl
@[simp] theorem State.raiseFlag_qe (s : State) (a i : Nat) : (s.raiseFlag a i).qe = s.qe := rfl
@[simp] theorem State.raiseFlag_store (s : State) (a i : Nat) : (s.raiseFlag a i).store = s.store := rfl
@[simp] theorem State.raiseFlag_cdc (s : State) (a i : Nat) : (s.raiseFlag a i).cdc = s.cdc := rfl
@[simp] theorem State.raiseFlag_pw (s : State) (a i : Nat) : (s.raiseFlag a i).pw = s.pw := rfl
@[simp] theorem State.raiseFlag_d2d (s : State) (a i : Nat) : (s.raiseFlag a i).d2d = s.d2d := rfl
@[simp] theorem State.raiseFlag_her (s : State) (a i : Nat) : (s.raiseFlag a i).her = s.her := rfl
@[simp] theorem State.raiseFlag_free (s : State) (a i : Nat) : (s.raiseFlag a i).free = s.free := rfl
@[simp] theorem State.raiseFlag_pending (s : State) (a i : Nat) : (s.raiseFlag a i).pending = s.pending := rfl

@[simp] theorem State.count_frame (s : State) (a lo w n : Nat) : (s.count a lo w n).frame = s.frame := rfl
@[simp] theorem State.count_time (s : State) (a lo w n : Nat) : (s.count a lo w n).time = s.time := rfl
@[simp] theorem State.count_mem (s : State) (a lo w n : Nat) : (s.count a lo w n).mem = s.mem := rfl
@[simp] theorem State.count_ring (s : State) (a lo w n : Nat) : (s.count a lo w n).ring = s.ring := rfl
@[simp] theorem State.count_ni (s : State) (a lo w n : Nat) : (s.count a lo w n).ni = s.ni := rfl
@[simp] theorem State.count_acu (s : State) (a lo w n : Nat) : (s.count a lo w n).acu = s.acu := rfl
@[simp] theorem State.count_recs (s : State) (a lo w n : Nat) : (s.count a lo w n).recs = s.recs := rfl
@[simp] theorem State.count_pmu (s : State) (a lo w n : Nat) : (s.count a lo w n).pmu = s.pmu := rfl
@[simp] theorem State.count_tem (s : State) (a lo w n : Nat) : (s.count a lo w n).tem = s.tem := rfl
@[simp] theorem State.count_qe (s : State) (a lo w n : Nat) : (s.count a lo w n).qe = s.qe := rfl
@[simp] theorem State.count_store (s : State) (a lo w n : Nat) : (s.count a lo w n).store = s.store := rfl
@[simp] theorem State.count_cdc (s : State) (a lo w n : Nat) : (s.count a lo w n).cdc = s.cdc := rfl
@[simp] theorem State.count_pw (s : State) (a lo w n : Nat) : (s.count a lo w n).pw = s.pw := rfl
@[simp] theorem State.count_d2d (s : State) (a lo w n : Nat) : (s.count a lo w n).d2d = s.d2d := rfl
@[simp] theorem State.count_her (s : State) (a lo w n : Nat) : (s.count a lo w n).her = s.her := rfl
@[simp] theorem State.count_free (s : State) (a lo w n : Nat) : (s.count a lo w n).free = s.free := rfl
@[simp] theorem State.count_pending (s : State) (a lo w n : Nat) : (s.count a lo w n).pending = s.pending := rfl

@[simp] theorem State.setSlot_frame (s : State) (r p : Nat) (v : Slot) : (s.setSlot r p v).frame = s.frame := rfl
@[simp] theorem State.setSlot_time (s : State) (r p : Nat) (v : Slot) : (s.setSlot r p v).time = s.time := rfl
@[simp] theorem State.setSlot_regs (s : State) (r p : Nat) (v : Slot) : (s.setSlot r p v).regs = s.regs := rfl
@[simp] theorem State.setSlot_mem (s : State) (r p : Nat) (v : Slot) : (s.setSlot r p v).mem = s.mem := rfl
@[simp] theorem State.setSlot_ni (s : State) (r p : Nat) (v : Slot) : (s.setSlot r p v).ni = s.ni := rfl
@[simp] theorem State.setSlot_acu (s : State) (r p : Nat) (v : Slot) : (s.setSlot r p v).acu = s.acu := rfl
@[simp] theorem State.setSlot_recs (s : State) (r p : Nat) (v : Slot) : (s.setSlot r p v).recs = s.recs := rfl
@[simp] theorem State.setSlot_pmu (s : State) (r p : Nat) (v : Slot) : (s.setSlot r p v).pmu = s.pmu := rfl
@[simp] theorem State.setSlot_tem (s : State) (r p : Nat) (v : Slot) : (s.setSlot r p v).tem = s.tem := rfl
@[simp] theorem State.setSlot_qe (s : State) (r p : Nat) (v : Slot) : (s.setSlot r p v).qe = s.qe := rfl
@[simp] theorem State.setSlot_store (s : State) (r p : Nat) (v : Slot) : (s.setSlot r p v).store = s.store := rfl
@[simp] theorem State.setSlot_cdc (s : State) (r p : Nat) (v : Slot) : (s.setSlot r p v).cdc = s.cdc := rfl
@[simp] theorem State.setSlot_pw (s : State) (r p : Nat) (v : Slot) : (s.setSlot r p v).pw = s.pw := rfl
@[simp] theorem State.setSlot_d2d (s : State) (r p : Nat) (v : Slot) : (s.setSlot r p v).d2d = s.d2d := rfl
@[simp] theorem State.setSlot_her (s : State) (r p : Nat) (v : Slot) : (s.setSlot r p v).her = s.her := rfl
@[simp] theorem State.setSlot_free (s : State) (r p : Nat) (v : Slot) : (s.setSlot r p v).free = s.free := rfl
@[simp] theorem State.setSlot_pending (s : State) (r p : Nat) (v : Slot) : (s.setSlot r p v).pending = s.pending := rfl

@[simp] theorem State.setDir_frame (s : State) (st d : Nat) (v : DirSt) : (s.setDir st d v).frame = s.frame := rfl
@[simp] theorem State.setDir_time (s : State) (st d : Nat) (v : DirSt) : (s.setDir st d v).time = s.time := rfl
@[simp] theorem State.setDir_regs (s : State) (st d : Nat) (v : DirSt) : (s.setDir st d v).regs = s.regs := rfl
@[simp] theorem State.setDir_mem (s : State) (st d : Nat) (v : DirSt) : (s.setDir st d v).mem = s.mem := rfl
@[simp] theorem State.setDir_ni (s : State) (st d : Nat) (v : DirSt) : (s.setDir st d v).ni = s.ni := rfl
@[simp] theorem State.setDir_acu (s : State) (st d : Nat) (v : DirSt) : (s.setDir st d v).acu = s.acu := rfl
@[simp] theorem State.setDir_recs (s : State) (st d : Nat) (v : DirSt) : (s.setDir st d v).recs = s.recs := rfl
@[simp] theorem State.setDir_pmu (s : State) (st d : Nat) (v : DirSt) : (s.setDir st d v).pmu = s.pmu := rfl
@[simp] theorem State.setDir_tem (s : State) (st d : Nat) (v : DirSt) : (s.setDir st d v).tem = s.tem := rfl
@[simp] theorem State.setDir_qe (s : State) (st d : Nat) (v : DirSt) : (s.setDir st d v).qe = s.qe := rfl
@[simp] theorem State.setDir_store (s : State) (st d : Nat) (v : DirSt) : (s.setDir st d v).store = s.store := rfl
@[simp] theorem State.setDir_cdc (s : State) (st d : Nat) (v : DirSt) : (s.setDir st d v).cdc = s.cdc := rfl
@[simp] theorem State.setDir_pw (s : State) (st d : Nat) (v : DirSt) : (s.setDir st d v).pw = s.pw := rfl
@[simp] theorem State.setDir_d2d (s : State) (st d : Nat) (v : DirSt) : (s.setDir st d v).d2d = s.d2d := rfl
@[simp] theorem State.setDir_her (s : State) (st d : Nat) (v : DirSt) : (s.setDir st d v).her = s.her := rfl
@[simp] theorem State.setDir_free (s : State) (st d : Nat) (v : DirSt) : (s.setDir st d v).free = s.free := rfl
@[simp] theorem State.setDir_pending (s : State) (st d : Nat) (v : DirSt) : (s.setDir st d v).pending = s.pending := rfl

@[simp] theorem State.setEj_frame (s : State) (st : Nat) (v : List EjEnt) : (s.setEj st v).frame = s.frame := rfl
@[simp] theorem State.setEj_time (s : State) (st : Nat) (v : List EjEnt) : (s.setEj st v).time = s.time := rfl
@[simp] theorem State.setEj_regs (s : State) (st : Nat) (v : List EjEnt) : (s.setEj st v).regs = s.regs := rfl
@[simp] theorem State.setEj_mem (s : State) (st : Nat) (v : List EjEnt) : (s.setEj st v).mem = s.mem := rfl
@[simp] theorem State.setEj_ni (s : State) (st : Nat) (v : List EjEnt) : (s.setEj st v).ni = s.ni := rfl
@[simp] theorem State.setEj_acu (s : State) (st : Nat) (v : List EjEnt) : (s.setEj st v).acu = s.acu := rfl
@[simp] theorem State.setEj_recs (s : State) (st : Nat) (v : List EjEnt) : (s.setEj st v).recs = s.recs := rfl
@[simp] theorem State.setEj_pmu (s : State) (st : Nat) (v : List EjEnt) : (s.setEj st v).pmu = s.pmu := rfl
@[simp] theorem State.setEj_tem (s : State) (st : Nat) (v : List EjEnt) : (s.setEj st v).tem = s.tem := rfl
@[simp] theorem State.setEj_qe (s : State) (st : Nat) (v : List EjEnt) : (s.setEj st v).qe = s.qe := rfl
@[simp] theorem State.setEj_store (s : State) (st : Nat) (v : List EjEnt) : (s.setEj st v).store = s.store := rfl
@[simp] theorem State.setEj_cdc (s : State) (st : Nat) (v : List EjEnt) : (s.setEj st v).cdc = s.cdc := rfl
@[simp] theorem State.setEj_pw (s : State) (st : Nat) (v : List EjEnt) : (s.setEj st v).pw = s.pw := rfl
@[simp] theorem State.setEj_d2d (s : State) (st : Nat) (v : List EjEnt) : (s.setEj st v).d2d = s.d2d := rfl
@[simp] theorem State.setEj_her (s : State) (st : Nat) (v : List EjEnt) : (s.setEj st v).her = s.her := rfl
@[simp] theorem State.setEj_free (s : State) (st : Nat) (v : List EjEnt) : (s.setEj st v).free = s.free := rfl
@[simp] theorem State.setEj_pending (s : State) (st : Nat) (v : List EjEnt) : (s.setEj st v).pending = s.pending := rfl

@[simp] theorem State.setRr_frame (s : State) (st d c n : Nat) : (s.setRr st d c n).frame = s.frame := rfl
@[simp] theorem State.setRr_time (s : State) (st d c n : Nat) : (s.setRr st d c n).time = s.time := rfl
@[simp] theorem State.setRr_regs (s : State) (st d c n : Nat) : (s.setRr st d c n).regs = s.regs := rfl
@[simp] theorem State.setRr_mem (s : State) (st d c n : Nat) : (s.setRr st d c n).mem = s.mem := rfl
@[simp] theorem State.setRr_ni (s : State) (st d c n : Nat) : (s.setRr st d c n).ni = s.ni := rfl
@[simp] theorem State.setRr_acu (s : State) (st d c n : Nat) : (s.setRr st d c n).acu = s.acu := rfl
@[simp] theorem State.setRr_recs (s : State) (st d c n : Nat) : (s.setRr st d c n).recs = s.recs := rfl
@[simp] theorem State.setRr_pmu (s : State) (st d c n : Nat) : (s.setRr st d c n).pmu = s.pmu := rfl
@[simp] theorem State.setRr_tem (s : State) (st d c n : Nat) : (s.setRr st d c n).tem = s.tem := rfl
@[simp] theorem State.setRr_qe (s : State) (st d c n : Nat) : (s.setRr st d c n).qe = s.qe := rfl
@[simp] theorem State.setRr_store (s : State) (st d c n : Nat) : (s.setRr st d c n).store = s.store := rfl
@[simp] theorem State.setRr_cdc (s : State) (st d c n : Nat) : (s.setRr st d c n).cdc = s.cdc := rfl
@[simp] theorem State.setRr_pw (s : State) (st d c n : Nat) : (s.setRr st d c n).pw = s.pw := rfl
@[simp] theorem State.setRr_d2d (s : State) (st d c n : Nat) : (s.setRr st d c n).d2d = s.d2d := rfl
@[simp] theorem State.setRr_her (s : State) (st d c n : Nat) : (s.setRr st d c n).her = s.her := rfl
@[simp] theorem State.setRr_free (s : State) (st d c n : Nat) : (s.setRr st d c n).free = s.free := rfl
@[simp] theorem State.setRr_pending (s : State) (st d c n : Nat) : (s.setRr st d c n).pending = s.pending := rfl

@[simp] theorem State.setDeficit_frame (s : State) (st d c n : Nat) : (s.setDeficit st d c n).frame = s.frame := rfl
@[simp] theorem State.setDeficit_time (s : State) (st d c n : Nat) : (s.setDeficit st d c n).time = s.time := rfl
@[simp] theorem State.setDeficit_regs (s : State) (st d c n : Nat) : (s.setDeficit st d c n).regs = s.regs := rfl
@[simp] theorem State.setDeficit_mem (s : State) (st d c n : Nat) : (s.setDeficit st d c n).mem = s.mem := rfl
@[simp] theorem State.setDeficit_ni (s : State) (st d c n : Nat) : (s.setDeficit st d c n).ni = s.ni := rfl
@[simp] theorem State.setDeficit_acu (s : State) (st d c n : Nat) : (s.setDeficit st d c n).acu = s.acu := rfl
@[simp] theorem State.setDeficit_recs (s : State) (st d c n : Nat) : (s.setDeficit st d c n).recs = s.recs := rfl
@[simp] theorem State.setDeficit_pmu (s : State) (st d c n : Nat) : (s.setDeficit st d c n).pmu = s.pmu := rfl
@[simp] theorem State.setDeficit_tem (s : State) (st d c n : Nat) : (s.setDeficit st d c n).tem = s.tem := rfl
@[simp] theorem State.setDeficit_qe (s : State) (st d c n : Nat) : (s.setDeficit st d c n).qe = s.qe := rfl
@[simp] theorem State.setDeficit_store (s : State) (st d c n : Nat) : (s.setDeficit st d c n).store = s.store := rfl
@[simp] theorem State.setDeficit_cdc (s : State) (st d c n : Nat) : (s.setDeficit st d c n).cdc = s.cdc := rfl
@[simp] theorem State.setDeficit_pw (s : State) (st d c n : Nat) : (s.setDeficit st d c n).pw = s.pw := rfl
@[simp] theorem State.setDeficit_d2d (s : State) (st d c n : Nat) : (s.setDeficit st d c n).d2d = s.d2d := rfl
@[simp] theorem State.setDeficit_her (s : State) (st d c n : Nat) : (s.setDeficit st d c n).her = s.her := rfl
@[simp] theorem State.setDeficit_free (s : State) (st d c n : Nat) : (s.setDeficit st d c n).free = s.free := rfl
@[simp] theorem State.setDeficit_pending (s : State) (st d c n : Nat) : (s.setDeficit st d c n).pending = s.pending := rfl

@[simp] theorem State.setInjq_frame (s : State) (st q : Nat) (v : List QPkt) : (s.setInjq st q v).frame = s.frame := rfl
@[simp] theorem State.setInjq_time (s : State) (st q : Nat) (v : List QPkt) : (s.setInjq st q v).time = s.time := rfl
@[simp] theorem State.setInjq_regs (s : State) (st q : Nat) (v : List QPkt) : (s.setInjq st q v).regs = s.regs := rfl
@[simp] theorem State.setInjq_mem (s : State) (st q : Nat) (v : List QPkt) : (s.setInjq st q v).mem = s.mem := rfl
@[simp] theorem State.setInjq_ring (s : State) (st q : Nat) (v : List QPkt) : (s.setInjq st q v).ring = s.ring := rfl
@[simp] theorem State.setInjq_acu (s : State) (st q : Nat) (v : List QPkt) : (s.setInjq st q v).acu = s.acu := rfl
@[simp] theorem State.setInjq_recs (s : State) (st q : Nat) (v : List QPkt) : (s.setInjq st q v).recs = s.recs := rfl
@[simp] theorem State.setInjq_pmu (s : State) (st q : Nat) (v : List QPkt) : (s.setInjq st q v).pmu = s.pmu := rfl
@[simp] theorem State.setInjq_tem (s : State) (st q : Nat) (v : List QPkt) : (s.setInjq st q v).tem = s.tem := rfl
@[simp] theorem State.setInjq_qe (s : State) (st q : Nat) (v : List QPkt) : (s.setInjq st q v).qe = s.qe := rfl
@[simp] theorem State.setInjq_store (s : State) (st q : Nat) (v : List QPkt) : (s.setInjq st q v).store = s.store := rfl
@[simp] theorem State.setInjq_cdc (s : State) (st q : Nat) (v : List QPkt) : (s.setInjq st q v).cdc = s.cdc := rfl
@[simp] theorem State.setInjq_pw (s : State) (st q : Nat) (v : List QPkt) : (s.setInjq st q v).pw = s.pw := rfl
@[simp] theorem State.setInjq_d2d (s : State) (st q : Nat) (v : List QPkt) : (s.setInjq st q v).d2d = s.d2d := rfl
@[simp] theorem State.setInjq_her (s : State) (st q : Nat) (v : List QPkt) : (s.setInjq st q v).her = s.her := rfl
@[simp] theorem State.setInjq_free (s : State) (st q : Nat) (v : List QPkt) : (s.setInjq st q v).free = s.free := rfl
@[simp] theorem State.setInjq_pending (s : State) (st q : Nat) (v : List QPkt) : (s.setInjq st q v).pending = s.pending := rfl

@[simp] theorem State.setHeld_frame (s : State) (st p : Nat) (v : List Held) : (s.setHeld st p v).frame = s.frame := rfl
@[simp] theorem State.setHeld_time (s : State) (st p : Nat) (v : List Held) : (s.setHeld st p v).time = s.time := rfl
@[simp] theorem State.setHeld_regs (s : State) (st p : Nat) (v : List Held) : (s.setHeld st p v).regs = s.regs := rfl
@[simp] theorem State.setHeld_mem (s : State) (st p : Nat) (v : List Held) : (s.setHeld st p v).mem = s.mem := rfl
@[simp] theorem State.setHeld_ring (s : State) (st p : Nat) (v : List Held) : (s.setHeld st p v).ring = s.ring := rfl
@[simp] theorem State.setHeld_acu (s : State) (st p : Nat) (v : List Held) : (s.setHeld st p v).acu = s.acu := rfl
@[simp] theorem State.setHeld_recs (s : State) (st p : Nat) (v : List Held) : (s.setHeld st p v).recs = s.recs := rfl
@[simp] theorem State.setHeld_pmu (s : State) (st p : Nat) (v : List Held) : (s.setHeld st p v).pmu = s.pmu := rfl
@[simp] theorem State.setHeld_tem (s : State) (st p : Nat) (v : List Held) : (s.setHeld st p v).tem = s.tem := rfl
@[simp] theorem State.setHeld_qe (s : State) (st p : Nat) (v : List Held) : (s.setHeld st p v).qe = s.qe := rfl
@[simp] theorem State.setHeld_store (s : State) (st p : Nat) (v : List Held) : (s.setHeld st p v).store = s.store := rfl
@[simp] theorem State.setHeld_cdc (s : State) (st p : Nat) (v : List Held) : (s.setHeld st p v).cdc = s.cdc := rfl
@[simp] theorem State.setHeld_pw (s : State) (st p : Nat) (v : List Held) : (s.setHeld st p v).pw = s.pw := rfl
@[simp] theorem State.setHeld_d2d (s : State) (st p : Nat) (v : List Held) : (s.setHeld st p v).d2d = s.d2d := rfl
@[simp] theorem State.setHeld_her (s : State) (st p : Nat) (v : List Held) : (s.setHeld st p v).her = s.her := rfl
@[simp] theorem State.setHeld_free (s : State) (st p : Nat) (v : List Held) : (s.setHeld st p v).free = s.free := rfl
@[simp] theorem State.setHeld_pending (s : State) (st p : Nat) (v : List Held) : (s.setHeld st p v).pending = s.pending := rfl

@[simp] theorem State.setReasm_frame (s : State) (st : Nat) (v : List Reasm) : (s.setReasm st v).frame = s.frame := rfl
@[simp] theorem State.setReasm_time (s : State) (st : Nat) (v : List Reasm) : (s.setReasm st v).time = s.time := rfl
@[simp] theorem State.setReasm_regs (s : State) (st : Nat) (v : List Reasm) : (s.setReasm st v).regs = s.regs := rfl
@[simp] theorem State.setReasm_mem (s : State) (st : Nat) (v : List Reasm) : (s.setReasm st v).mem = s.mem := rfl
@[simp] theorem State.setReasm_ring (s : State) (st : Nat) (v : List Reasm) : (s.setReasm st v).ring = s.ring := rfl
@[simp] theorem State.setReasm_acu (s : State) (st : Nat) (v : List Reasm) : (s.setReasm st v).acu = s.acu := rfl
@[simp] theorem State.setReasm_recs (s : State) (st : Nat) (v : List Reasm) : (s.setReasm st v).recs = s.recs := rfl
@[simp] theorem State.setReasm_pmu (s : State) (st : Nat) (v : List Reasm) : (s.setReasm st v).pmu = s.pmu := rfl
@[simp] theorem State.setReasm_tem (s : State) (st : Nat) (v : List Reasm) : (s.setReasm st v).tem = s.tem := rfl
@[simp] theorem State.setReasm_qe (s : State) (st : Nat) (v : List Reasm) : (s.setReasm st v).qe = s.qe := rfl
@[simp] theorem State.setReasm_store (s : State) (st : Nat) (v : List Reasm) : (s.setReasm st v).store = s.store := rfl
@[simp] theorem State.setReasm_cdc (s : State) (st : Nat) (v : List Reasm) : (s.setReasm st v).cdc = s.cdc := rfl
@[simp] theorem State.setReasm_pw (s : State) (st : Nat) (v : List Reasm) : (s.setReasm st v).pw = s.pw := rfl
@[simp] theorem State.setReasm_d2d (s : State) (st : Nat) (v : List Reasm) : (s.setReasm st v).d2d = s.d2d := rfl
@[simp] theorem State.setReasm_her (s : State) (st : Nat) (v : List Reasm) : (s.setReasm st v).her = s.her := rfl
@[simp] theorem State.setReasm_free (s : State) (st : Nat) (v : List Reasm) : (s.setReasm st v).free = s.free := rfl
@[simp] theorem State.setReasm_pending (s : State) (st : Nat) (v : List Reasm) : (s.setReasm st v).pending = s.pending := rfl

@[simp] theorem State.setGuarMarks_frame (s : State) (st : Nat) (v : List GuarMark) : (s.setGuarMarks st v).frame = s.frame := rfl
@[simp] theorem State.setGuarMarks_time (s : State) (st : Nat) (v : List GuarMark) : (s.setGuarMarks st v).time = s.time := rfl
@[simp] theorem State.setGuarMarks_regs (s : State) (st : Nat) (v : List GuarMark) : (s.setGuarMarks st v).regs = s.regs := rfl
@[simp] theorem State.setGuarMarks_mem (s : State) (st : Nat) (v : List GuarMark) : (s.setGuarMarks st v).mem = s.mem := rfl
@[simp] theorem State.setGuarMarks_ring (s : State) (st : Nat) (v : List GuarMark) : (s.setGuarMarks st v).ring = s.ring := rfl
@[simp] theorem State.setGuarMarks_acu (s : State) (st : Nat) (v : List GuarMark) : (s.setGuarMarks st v).acu = s.acu := rfl
@[simp] theorem State.setGuarMarks_recs (s : State) (st : Nat) (v : List GuarMark) : (s.setGuarMarks st v).recs = s.recs := rfl
@[simp] theorem State.setGuarMarks_pmu (s : State) (st : Nat) (v : List GuarMark) : (s.setGuarMarks st v).pmu = s.pmu := rfl
@[simp] theorem State.setGuarMarks_tem (s : State) (st : Nat) (v : List GuarMark) : (s.setGuarMarks st v).tem = s.tem := rfl
@[simp] theorem State.setGuarMarks_qe (s : State) (st : Nat) (v : List GuarMark) : (s.setGuarMarks st v).qe = s.qe := rfl
@[simp] theorem State.setGuarMarks_store (s : State) (st : Nat) (v : List GuarMark) : (s.setGuarMarks st v).store = s.store := rfl
@[simp] theorem State.setGuarMarks_cdc (s : State) (st : Nat) (v : List GuarMark) : (s.setGuarMarks st v).cdc = s.cdc := rfl
@[simp] theorem State.setGuarMarks_pw (s : State) (st : Nat) (v : List GuarMark) : (s.setGuarMarks st v).pw = s.pw := rfl
@[simp] theorem State.setGuarMarks_d2d (s : State) (st : Nat) (v : List GuarMark) : (s.setGuarMarks st v).d2d = s.d2d := rfl
@[simp] theorem State.setGuarMarks_her (s : State) (st : Nat) (v : List GuarMark) : (s.setGuarMarks st v).her = s.her := rfl
@[simp] theorem State.setGuarMarks_free (s : State) (st : Nat) (v : List GuarMark) : (s.setGuarMarks st v).free = s.free := rfl
@[simp] theorem State.setGuarMarks_pending (s : State) (st : Nat) (v : List GuarMark) : (s.setGuarMarks st v).pending = s.pending := rfl

@[simp] theorem State.setInbox_frame (s : State) (st p : Nat) (v : List Deliv) : (s.setInbox st p v).frame = s.frame := rfl
@[simp] theorem State.setInbox_time (s : State) (st p : Nat) (v : List Deliv) : (s.setInbox st p v).time = s.time := rfl
@[simp] theorem State.setInbox_regs (s : State) (st p : Nat) (v : List Deliv) : (s.setInbox st p v).regs = s.regs := rfl
@[simp] theorem State.setInbox_mem (s : State) (st p : Nat) (v : List Deliv) : (s.setInbox st p v).mem = s.mem := rfl
@[simp] theorem State.setInbox_ring (s : State) (st p : Nat) (v : List Deliv) : (s.setInbox st p v).ring = s.ring := rfl
@[simp] theorem State.setInbox_acu (s : State) (st p : Nat) (v : List Deliv) : (s.setInbox st p v).acu = s.acu := rfl
@[simp] theorem State.setInbox_recs (s : State) (st p : Nat) (v : List Deliv) : (s.setInbox st p v).recs = s.recs := rfl
@[simp] theorem State.setInbox_pmu (s : State) (st p : Nat) (v : List Deliv) : (s.setInbox st p v).pmu = s.pmu := rfl
@[simp] theorem State.setInbox_tem (s : State) (st p : Nat) (v : List Deliv) : (s.setInbox st p v).tem = s.tem := rfl
@[simp] theorem State.setInbox_qe (s : State) (st p : Nat) (v : List Deliv) : (s.setInbox st p v).qe = s.qe := rfl
@[simp] theorem State.setInbox_store (s : State) (st p : Nat) (v : List Deliv) : (s.setInbox st p v).store = s.store := rfl
@[simp] theorem State.setInbox_cdc (s : State) (st p : Nat) (v : List Deliv) : (s.setInbox st p v).cdc = s.cdc := rfl
@[simp] theorem State.setInbox_pw (s : State) (st p : Nat) (v : List Deliv) : (s.setInbox st p v).pw = s.pw := rfl
@[simp] theorem State.setInbox_d2d (s : State) (st p : Nat) (v : List Deliv) : (s.setInbox st p v).d2d = s.d2d := rfl
@[simp] theorem State.setInbox_her (s : State) (st p : Nat) (v : List Deliv) : (s.setInbox st p v).her = s.her := rfl
@[simp] theorem State.setInbox_free (s : State) (st p : Nat) (v : List Deliv) : (s.setInbox st p v).free = s.free := rfl
@[simp] theorem State.setInbox_pending (s : State) (st p : Nat) (v : List Deliv) : (s.setInbox st p v).pending = s.pending := rfl

@[simp] theorem State.setRspIn_frame (s : State) (st : Nat) (v : List Pkt) : (s.setRspIn st v).frame = s.frame := rfl
@[simp] theorem State.setRspIn_time (s : State) (st : Nat) (v : List Pkt) : (s.setRspIn st v).time = s.time := rfl
@[simp] theorem State.setRspIn_regs (s : State) (st : Nat) (v : List Pkt) : (s.setRspIn st v).regs = s.regs := rfl
@[simp] theorem State.setRspIn_mem (s : State) (st : Nat) (v : List Pkt) : (s.setRspIn st v).mem = s.mem := rfl
@[simp] theorem State.setRspIn_ring (s : State) (st : Nat) (v : List Pkt) : (s.setRspIn st v).ring = s.ring := rfl
@[simp] theorem State.setRspIn_acu (s : State) (st : Nat) (v : List Pkt) : (s.setRspIn st v).acu = s.acu := rfl
@[simp] theorem State.setRspIn_recs (s : State) (st : Nat) (v : List Pkt) : (s.setRspIn st v).recs = s.recs := rfl
@[simp] theorem State.setRspIn_pmu (s : State) (st : Nat) (v : List Pkt) : (s.setRspIn st v).pmu = s.pmu := rfl
@[simp] theorem State.setRspIn_tem (s : State) (st : Nat) (v : List Pkt) : (s.setRspIn st v).tem = s.tem := rfl
@[simp] theorem State.setRspIn_qe (s : State) (st : Nat) (v : List Pkt) : (s.setRspIn st v).qe = s.qe := rfl
@[simp] theorem State.setRspIn_store (s : State) (st : Nat) (v : List Pkt) : (s.setRspIn st v).store = s.store := rfl
@[simp] theorem State.setRspIn_cdc (s : State) (st : Nat) (v : List Pkt) : (s.setRspIn st v).cdc = s.cdc := rfl
@[simp] theorem State.setRspIn_pw (s : State) (st : Nat) (v : List Pkt) : (s.setRspIn st v).pw = s.pw := rfl
@[simp] theorem State.setRspIn_d2d (s : State) (st : Nat) (v : List Pkt) : (s.setRspIn st v).d2d = s.d2d := rfl
@[simp] theorem State.setRspIn_her (s : State) (st : Nat) (v : List Pkt) : (s.setRspIn st v).her = s.her := rfl
@[simp] theorem State.setRspIn_free (s : State) (st : Nat) (v : List Pkt) : (s.setRspIn st v).free = s.free := rfl
@[simp] theorem State.setRspIn_pending (s : State) (st : Nat) (v : List Pkt) : (s.setRspIn st v).pending = s.pending := rfl

@[simp] theorem State.setMgmt_frame (s : State) (st : Nat) (v : List Pkt) : (s.setMgmt st v).frame = s.frame := rfl
@[simp] theorem State.setMgmt_time (s : State) (st : Nat) (v : List Pkt) : (s.setMgmt st v).time = s.time := rfl
@[simp] theorem State.setMgmt_regs (s : State) (st : Nat) (v : List Pkt) : (s.setMgmt st v).regs = s.regs := rfl
@[simp] theorem State.setMgmt_mem (s : State) (st : Nat) (v : List Pkt) : (s.setMgmt st v).mem = s.mem := rfl
@[simp] theorem State.setMgmt_ring (s : State) (st : Nat) (v : List Pkt) : (s.setMgmt st v).ring = s.ring := rfl
@[simp] theorem State.setMgmt_acu (s : State) (st : Nat) (v : List Pkt) : (s.setMgmt st v).acu = s.acu := rfl
@[simp] theorem State.setMgmt_recs (s : State) (st : Nat) (v : List Pkt) : (s.setMgmt st v).recs = s.recs := rfl
@[simp] theorem State.setMgmt_pmu (s : State) (st : Nat) (v : List Pkt) : (s.setMgmt st v).pmu = s.pmu := rfl
@[simp] theorem State.setMgmt_tem (s : State) (st : Nat) (v : List Pkt) : (s.setMgmt st v).tem = s.tem := rfl
@[simp] theorem State.setMgmt_qe (s : State) (st : Nat) (v : List Pkt) : (s.setMgmt st v).qe = s.qe := rfl
@[simp] theorem State.setMgmt_store (s : State) (st : Nat) (v : List Pkt) : (s.setMgmt st v).store = s.store := rfl
@[simp] theorem State.setMgmt_cdc (s : State) (st : Nat) (v : List Pkt) : (s.setMgmt st v).cdc = s.cdc := rfl
@[simp] theorem State.setMgmt_pw (s : State) (st : Nat) (v : List Pkt) : (s.setMgmt st v).pw = s.pw := rfl
@[simp] theorem State.setMgmt_d2d (s : State) (st : Nat) (v : List Pkt) : (s.setMgmt st v).d2d = s.d2d := rfl
@[simp] theorem State.setMgmt_her (s : State) (st : Nat) (v : List Pkt) : (s.setMgmt st v).her = s.her := rfl
@[simp] theorem State.setMgmt_free (s : State) (st : Nat) (v : List Pkt) : (s.setMgmt st v).free = s.free := rfl
@[simp] theorem State.setMgmt_pending (s : State) (st : Nat) (v : List Pkt) : (s.setMgmt st v).pending = s.pending := rfl

@[simp] theorem State.setMerged_frame (s : State) (st : Nat) (v : List Nat) : (s.setMerged st v).frame = s.frame := rfl
@[simp] theorem State.setMerged_time (s : State) (st : Nat) (v : List Nat) : (s.setMerged st v).time = s.time := rfl
@[simp] theorem State.setMerged_regs (s : State) (st : Nat) (v : List Nat) : (s.setMerged st v).regs = s.regs := rfl
@[simp] theorem State.setMerged_mem (s : State) (st : Nat) (v : List Nat) : (s.setMerged st v).mem = s.mem := rfl
@[simp] theorem State.setMerged_ring (s : State) (st : Nat) (v : List Nat) : (s.setMerged st v).ring = s.ring := rfl
@[simp] theorem State.setMerged_acu (s : State) (st : Nat) (v : List Nat) : (s.setMerged st v).acu = s.acu := rfl
@[simp] theorem State.setMerged_recs (s : State) (st : Nat) (v : List Nat) : (s.setMerged st v).recs = s.recs := rfl
@[simp] theorem State.setMerged_pmu (s : State) (st : Nat) (v : List Nat) : (s.setMerged st v).pmu = s.pmu := rfl
@[simp] theorem State.setMerged_tem (s : State) (st : Nat) (v : List Nat) : (s.setMerged st v).tem = s.tem := rfl
@[simp] theorem State.setMerged_qe (s : State) (st : Nat) (v : List Nat) : (s.setMerged st v).qe = s.qe := rfl
@[simp] theorem State.setMerged_store (s : State) (st : Nat) (v : List Nat) : (s.setMerged st v).store = s.store := rfl
@[simp] theorem State.setMerged_cdc (s : State) (st : Nat) (v : List Nat) : (s.setMerged st v).cdc = s.cdc := rfl
@[simp] theorem State.setMerged_pw (s : State) (st : Nat) (v : List Nat) : (s.setMerged st v).pw = s.pw := rfl
@[simp] theorem State.setMerged_d2d (s : State) (st : Nat) (v : List Nat) : (s.setMerged st v).d2d = s.d2d := rfl
@[simp] theorem State.setMerged_her (s : State) (st : Nat) (v : List Nat) : (s.setMerged st v).her = s.her := rfl
@[simp] theorem State.setMerged_free (s : State) (st : Nat) (v : List Nat) : (s.setMerged st v).free = s.free := rfl
@[simp] theorem State.setMerged_pending (s : State) (st : Nat) (v : List Nat) : (s.setMerged st v).pending = s.pending := rfl

@[simp] theorem State.setHmWord_frame (s : State) (n : Nat) (w : BitVec 88) : (s.setHmWord n w).frame = s.frame := rfl
@[simp] theorem State.setHmWord_time (s : State) (n : Nat) (w : BitVec 88) : (s.setHmWord n w).time = s.time := rfl
@[simp] theorem State.setHmWord_regs (s : State) (n : Nat) (w : BitVec 88) : (s.setHmWord n w).regs = s.regs := rfl
@[simp] theorem State.setHmWord_mem (s : State) (n : Nat) (w : BitVec 88) : (s.setHmWord n w).mem = s.mem := rfl
@[simp] theorem State.setHmWord_ring (s : State) (n : Nat) (w : BitVec 88) : (s.setHmWord n w).ring = s.ring := rfl
@[simp] theorem State.setHmWord_ni (s : State) (n : Nat) (w : BitVec 88) : (s.setHmWord n w).ni = s.ni := rfl
@[simp] theorem State.setHmWord_acu (s : State) (n : Nat) (w : BitVec 88) : (s.setHmWord n w).acu = s.acu := rfl
@[simp] theorem State.setHmWord_recs (s : State) (n : Nat) (w : BitVec 88) : (s.setHmWord n w).recs = s.recs := rfl
@[simp] theorem State.setHmWord_pmu (s : State) (n : Nat) (w : BitVec 88) : (s.setHmWord n w).pmu = s.pmu := rfl
@[simp] theorem State.setHmWord_tem (s : State) (n : Nat) (w : BitVec 88) : (s.setHmWord n w).tem = s.tem := rfl
@[simp] theorem State.setHmWord_qe (s : State) (n : Nat) (w : BitVec 88) : (s.setHmWord n w).qe = s.qe := rfl
@[simp] theorem State.setHmWord_cdc (s : State) (n : Nat) (w : BitVec 88) : (s.setHmWord n w).cdc = s.cdc := rfl
@[simp] theorem State.setHmWord_pw (s : State) (n : Nat) (w : BitVec 88) : (s.setHmWord n w).pw = s.pw := rfl
@[simp] theorem State.setHmWord_d2d (s : State) (n : Nat) (w : BitVec 88) : (s.setHmWord n w).d2d = s.d2d := rfl
@[simp] theorem State.setHmWord_her (s : State) (n : Nat) (w : BitVec 88) : (s.setHmWord n w).her = s.her := rfl
@[simp] theorem State.setHmWord_free (s : State) (n : Nat) (w : BitVec 88) : (s.setHmWord n w).free = s.free := rfl
@[simp] theorem State.setHmWord_pending (s : State) (n : Nat) (w : BitVec 88) : (s.setHmWord n w).pending = s.pending := rfl

@[simp] theorem State.setPort_frame (s : State) (st k : Nat) (v : PortSt) : (s.setPort st k v).frame = s.frame := rfl
@[simp] theorem State.setPort_time (s : State) (st k : Nat) (v : PortSt) : (s.setPort st k v).time = s.time := rfl
@[simp] theorem State.setPort_regs (s : State) (st k : Nat) (v : PortSt) : (s.setPort st k v).regs = s.regs := rfl
@[simp] theorem State.setPort_mem (s : State) (st k : Nat) (v : PortSt) : (s.setPort st k v).mem = s.mem := rfl
@[simp] theorem State.setPort_ring (s : State) (st k : Nat) (v : PortSt) : (s.setPort st k v).ring = s.ring := rfl
@[simp] theorem State.setPort_acu (s : State) (st k : Nat) (v : PortSt) : (s.setPort st k v).acu = s.acu := rfl
@[simp] theorem State.setPort_recs (s : State) (st k : Nat) (v : PortSt) : (s.setPort st k v).recs = s.recs := rfl
@[simp] theorem State.setPort_pmu (s : State) (st k : Nat) (v : PortSt) : (s.setPort st k v).pmu = s.pmu := rfl
@[simp] theorem State.setPort_tem (s : State) (st k : Nat) (v : PortSt) : (s.setPort st k v).tem = s.tem := rfl
@[simp] theorem State.setPort_qe (s : State) (st k : Nat) (v : PortSt) : (s.setPort st k v).qe = s.qe := rfl
@[simp] theorem State.setPort_store (s : State) (st k : Nat) (v : PortSt) : (s.setPort st k v).store = s.store := rfl
@[simp] theorem State.setPort_cdc (s : State) (st k : Nat) (v : PortSt) : (s.setPort st k v).cdc = s.cdc := rfl
@[simp] theorem State.setPort_pw (s : State) (st k : Nat) (v : PortSt) : (s.setPort st k v).pw = s.pw := rfl
@[simp] theorem State.setPort_d2d (s : State) (st k : Nat) (v : PortSt) : (s.setPort st k v).d2d = s.d2d := rfl
@[simp] theorem State.setPort_her (s : State) (st k : Nat) (v : PortSt) : (s.setPort st k v).her = s.her := rfl
@[simp] theorem State.setPort_free (s : State) (st k : Nat) (v : PortSt) : (s.setPort st k v).free = s.free := rfl
@[simp] theorem State.setPort_pending (s : State) (st k : Nat) (v : PortSt) : (s.setPort st k v).pending = s.pending := rfl

@[simp] theorem State.setTxns_frame (s : State) (st p : Nat) (v : List Txn) : (s.setTxns st p v).frame = s.frame := rfl
@[simp] theorem State.setTxns_time (s : State) (st p : Nat) (v : List Txn) : (s.setTxns st p v).time = s.time := rfl
@[simp] theorem State.setTxns_regs (s : State) (st p : Nat) (v : List Txn) : (s.setTxns st p v).regs = s.regs := rfl
@[simp] theorem State.setTxns_mem (s : State) (st p : Nat) (v : List Txn) : (s.setTxns st p v).mem = s.mem := rfl
@[simp] theorem State.setTxns_ring (s : State) (st p : Nat) (v : List Txn) : (s.setTxns st p v).ring = s.ring := rfl
@[simp] theorem State.setTxns_acu (s : State) (st p : Nat) (v : List Txn) : (s.setTxns st p v).acu = s.acu := rfl
@[simp] theorem State.setTxns_recs (s : State) (st p : Nat) (v : List Txn) : (s.setTxns st p v).recs = s.recs := rfl
@[simp] theorem State.setTxns_pmu (s : State) (st p : Nat) (v : List Txn) : (s.setTxns st p v).pmu = s.pmu := rfl
@[simp] theorem State.setTxns_tem (s : State) (st p : Nat) (v : List Txn) : (s.setTxns st p v).tem = s.tem := rfl
@[simp] theorem State.setTxns_qe (s : State) (st p : Nat) (v : List Txn) : (s.setTxns st p v).qe = s.qe := rfl
@[simp] theorem State.setTxns_store (s : State) (st p : Nat) (v : List Txn) : (s.setTxns st p v).store = s.store := rfl
@[simp] theorem State.setTxns_cdc (s : State) (st p : Nat) (v : List Txn) : (s.setTxns st p v).cdc = s.cdc := rfl
@[simp] theorem State.setTxns_pw (s : State) (st p : Nat) (v : List Txn) : (s.setTxns st p v).pw = s.pw := rfl
@[simp] theorem State.setTxns_d2d (s : State) (st p : Nat) (v : List Txn) : (s.setTxns st p v).d2d = s.d2d := rfl
@[simp] theorem State.setTxns_her (s : State) (st p : Nat) (v : List Txn) : (s.setTxns st p v).her = s.her := rfl
@[simp] theorem State.setTxns_free (s : State) (st p : Nat) (v : List Txn) : (s.setTxns st p v).free = s.free := rfl
@[simp] theorem State.setTxns_pending (s : State) (st p : Nat) (v : List Txn) : (s.setTxns st p v).pending = s.pending := rfl

@[simp] theorem State.setTtxns_frame (s : State) (st k : Nat) (v : List TTxn) : (s.setTtxns st k v).frame = s.frame := rfl
@[simp] theorem State.setTtxns_time (s : State) (st k : Nat) (v : List TTxn) : (s.setTtxns st k v).time = s.time := rfl
@[simp] theorem State.setTtxns_regs (s : State) (st k : Nat) (v : List TTxn) : (s.setTtxns st k v).regs = s.regs := rfl
@[simp] theorem State.setTtxns_mem (s : State) (st k : Nat) (v : List TTxn) : (s.setTtxns st k v).mem = s.mem := rfl
@[simp] theorem State.setTtxns_ring (s : State) (st k : Nat) (v : List TTxn) : (s.setTtxns st k v).ring = s.ring := rfl
@[simp] theorem State.setTtxns_acu (s : State) (st k : Nat) (v : List TTxn) : (s.setTtxns st k v).acu = s.acu := rfl
@[simp] theorem State.setTtxns_recs (s : State) (st k : Nat) (v : List TTxn) : (s.setTtxns st k v).recs = s.recs := rfl
@[simp] theorem State.setTtxns_pmu (s : State) (st k : Nat) (v : List TTxn) : (s.setTtxns st k v).pmu = s.pmu := rfl
@[simp] theorem State.setTtxns_tem (s : State) (st k : Nat) (v : List TTxn) : (s.setTtxns st k v).tem = s.tem := rfl
@[simp] theorem State.setTtxns_qe (s : State) (st k : Nat) (v : List TTxn) : (s.setTtxns st k v).qe = s.qe := rfl
@[simp] theorem State.setTtxns_store (s : State) (st k : Nat) (v : List TTxn) : (s.setTtxns st k v).store = s.store := rfl
@[simp] theorem State.setTtxns_cdc (s : State) (st k : Nat) (v : List TTxn) : (s.setTtxns st k v).cdc = s.cdc := rfl
@[simp] theorem State.setTtxns_pw (s : State) (st k : Nat) (v : List TTxn) : (s.setTtxns st k v).pw = s.pw := rfl
@[simp] theorem State.setTtxns_d2d (s : State) (st k : Nat) (v : List TTxn) : (s.setTtxns st k v).d2d = s.d2d := rfl
@[simp] theorem State.setTtxns_her (s : State) (st k : Nat) (v : List TTxn) : (s.setTtxns st k v).her = s.her := rfl
@[simp] theorem State.setTtxns_free (s : State) (st k : Nat) (v : List TTxn) : (s.setTtxns st k v).free = s.free := rfl
@[simp] theorem State.setTtxns_pending (s : State) (st k : Nat) (v : List TTxn) : (s.setTtxns st k v).pending = s.pending := rfl

@[simp] theorem State.setRetry_frame (s : State) (st r : Nat) (v : Retry) : (s.setRetry st r v).frame = s.frame := rfl
@[simp] theorem State.setRetry_time (s : State) (st r : Nat) (v : Retry) : (s.setRetry st r v).time = s.time := rfl
@[simp] theorem State.setRetry_regs (s : State) (st r : Nat) (v : Retry) : (s.setRetry st r v).regs = s.regs := rfl
@[simp] theorem State.setRetry_mem (s : State) (st r : Nat) (v : Retry) : (s.setRetry st r v).mem = s.mem := rfl
@[simp] theorem State.setRetry_ring (s : State) (st r : Nat) (v : Retry) : (s.setRetry st r v).ring = s.ring := rfl
@[simp] theorem State.setRetry_acu (s : State) (st r : Nat) (v : Retry) : (s.setRetry st r v).acu = s.acu := rfl
@[simp] theorem State.setRetry_recs (s : State) (st r : Nat) (v : Retry) : (s.setRetry st r v).recs = s.recs := rfl
@[simp] theorem State.setRetry_pmu (s : State) (st r : Nat) (v : Retry) : (s.setRetry st r v).pmu = s.pmu := rfl
@[simp] theorem State.setRetry_tem (s : State) (st r : Nat) (v : Retry) : (s.setRetry st r v).tem = s.tem := rfl
@[simp] theorem State.setRetry_qe (s : State) (st r : Nat) (v : Retry) : (s.setRetry st r v).qe = s.qe := rfl
@[simp] theorem State.setRetry_store (s : State) (st r : Nat) (v : Retry) : (s.setRetry st r v).store = s.store := rfl
@[simp] theorem State.setRetry_cdc (s : State) (st r : Nat) (v : Retry) : (s.setRetry st r v).cdc = s.cdc := rfl
@[simp] theorem State.setRetry_pw (s : State) (st r : Nat) (v : Retry) : (s.setRetry st r v).pw = s.pw := rfl
@[simp] theorem State.setRetry_d2d (s : State) (st r : Nat) (v : Retry) : (s.setRetry st r v).d2d = s.d2d := rfl
@[simp] theorem State.setRetry_her (s : State) (st r : Nat) (v : Retry) : (s.setRetry st r v).her = s.her := rfl
@[simp] theorem State.setRetry_free (s : State) (st r : Nat) (v : Retry) : (s.setRetry st r v).free = s.free := rfl
@[simp] theorem State.setRetry_pending (s : State) (st r : Nat) (v : Retry) : (s.setRetry st r v).pending = s.pending := rfl

@[simp] theorem State.setPend_frame (s : State) (st r : Nat) (v : List Pend) : (s.setPend st r v).frame = s.frame := rfl
@[simp] theorem State.setPend_time (s : State) (st r : Nat) (v : List Pend) : (s.setPend st r v).time = s.time := rfl
@[simp] theorem State.setPend_regs (s : State) (st r : Nat) (v : List Pend) : (s.setPend st r v).regs = s.regs := rfl
@[simp] theorem State.setPend_mem (s : State) (st r : Nat) (v : List Pend) : (s.setPend st r v).mem = s.mem := rfl
@[simp] theorem State.setPend_ring (s : State) (st r : Nat) (v : List Pend) : (s.setPend st r v).ring = s.ring := rfl
@[simp] theorem State.setPend_acu (s : State) (st r : Nat) (v : List Pend) : (s.setPend st r v).acu = s.acu := rfl
@[simp] theorem State.setPend_recs (s : State) (st r : Nat) (v : List Pend) : (s.setPend st r v).recs = s.recs := rfl
@[simp] theorem State.setPend_pmu (s : State) (st r : Nat) (v : List Pend) : (s.setPend st r v).pmu = s.pmu := rfl
@[simp] theorem State.setPend_tem (s : State) (st r : Nat) (v : List Pend) : (s.setPend st r v).tem = s.tem := rfl
@[simp] theorem State.setPend_qe (s : State) (st r : Nat) (v : List Pend) : (s.setPend st r v).qe = s.qe := rfl
@[simp] theorem State.setPend_store (s : State) (st r : Nat) (v : List Pend) : (s.setPend st r v).store = s.store := rfl
@[simp] theorem State.setPend_cdc (s : State) (st r : Nat) (v : List Pend) : (s.setPend st r v).cdc = s.cdc := rfl
@[simp] theorem State.setPend_pw (s : State) (st r : Nat) (v : List Pend) : (s.setPend st r v).pw = s.pw := rfl
@[simp] theorem State.setPend_d2d (s : State) (st r : Nat) (v : List Pend) : (s.setPend st r v).d2d = s.d2d := rfl
@[simp] theorem State.setPend_her (s : State) (st r : Nat) (v : List Pend) : (s.setPend st r v).her = s.her := rfl
@[simp] theorem State.setPend_free (s : State) (st r : Nat) (v : List Pend) : (s.setPend st r v).free = s.free := rfl
@[simp] theorem State.setPend_pending (s : State) (st r : Nat) (v : List Pend) : (s.setPend st r v).pending = s.pending := rfl

@[simp] theorem State.setPmap_frame (s : State) (st b part v : Nat) : (s.setPmap st b part v).frame = s.frame := rfl
@[simp] theorem State.setPmap_time (s : State) (st b part v : Nat) : (s.setPmap st b part v).time = s.time := rfl
@[simp] theorem State.setPmap_regs (s : State) (st b part v : Nat) : (s.setPmap st b part v).regs = s.regs := rfl
@[simp] theorem State.setPmap_mem (s : State) (st b part v : Nat) : (s.setPmap st b part v).mem = s.mem := rfl
@[simp] theorem State.setPmap_ring (s : State) (st b part v : Nat) : (s.setPmap st b part v).ring = s.ring := rfl
@[simp] theorem State.setPmap_acu (s : State) (st b part v : Nat) : (s.setPmap st b part v).acu = s.acu := rfl
@[simp] theorem State.setPmap_recs (s : State) (st b part v : Nat) : (s.setPmap st b part v).recs = s.recs := rfl
@[simp] theorem State.setPmap_pmu (s : State) (st b part v : Nat) : (s.setPmap st b part v).pmu = s.pmu := rfl
@[simp] theorem State.setPmap_tem (s : State) (st b part v : Nat) : (s.setPmap st b part v).tem = s.tem := rfl
@[simp] theorem State.setPmap_qe (s : State) (st b part v : Nat) : (s.setPmap st b part v).qe = s.qe := rfl
@[simp] theorem State.setPmap_store (s : State) (st b part v : Nat) : (s.setPmap st b part v).store = s.store := rfl
@[simp] theorem State.setPmap_cdc (s : State) (st b part v : Nat) : (s.setPmap st b part v).cdc = s.cdc := rfl
@[simp] theorem State.setPmap_pw (s : State) (st b part v : Nat) : (s.setPmap st b part v).pw = s.pw := rfl
@[simp] theorem State.setPmap_d2d (s : State) (st b part v : Nat) : (s.setPmap st b part v).d2d = s.d2d := rfl
@[simp] theorem State.setPmap_her (s : State) (st b part v : Nat) : (s.setPmap st b part v).her = s.her := rfl
@[simp] theorem State.setPmap_free (s : State) (st b part v : Nat) : (s.setPmap st b part v).free = s.free := rfl
@[simp] theorem State.setPmap_pending (s : State) (st b part v : Nat) : (s.setPmap st b part v).pending = s.pending := rfl

@[simp] theorem State.setCredit_frame (s : State) (st n : Nat) (v : Int) : (s.setCredit st n v).frame = s.frame := rfl
@[simp] theorem State.setCredit_time (s : State) (st n : Nat) (v : Int) : (s.setCredit st n v).time = s.time := rfl
@[simp] theorem State.setCredit_regs (s : State) (st n : Nat) (v : Int) : (s.setCredit st n v).regs = s.regs := rfl
@[simp] theorem State.setCredit_mem (s : State) (st n : Nat) (v : Int) : (s.setCredit st n v).mem = s.mem := rfl
@[simp] theorem State.setCredit_ring (s : State) (st n : Nat) (v : Int) : (s.setCredit st n v).ring = s.ring := rfl
@[simp] theorem State.setCredit_acu (s : State) (st n : Nat) (v : Int) : (s.setCredit st n v).acu = s.acu := rfl
@[simp] theorem State.setCredit_recs (s : State) (st n : Nat) (v : Int) : (s.setCredit st n v).recs = s.recs := rfl
@[simp] theorem State.setCredit_pmu (s : State) (st n : Nat) (v : Int) : (s.setCredit st n v).pmu = s.pmu := rfl
@[simp] theorem State.setCredit_tem (s : State) (st n : Nat) (v : Int) : (s.setCredit st n v).tem = s.tem := rfl
@[simp] theorem State.setCredit_qe (s : State) (st n : Nat) (v : Int) : (s.setCredit st n v).qe = s.qe := rfl
@[simp] theorem State.setCredit_store (s : State) (st n : Nat) (v : Int) : (s.setCredit st n v).store = s.store := rfl
@[simp] theorem State.setCredit_cdc (s : State) (st n : Nat) (v : Int) : (s.setCredit st n v).cdc = s.cdc := rfl
@[simp] theorem State.setCredit_pw (s : State) (st n : Nat) (v : Int) : (s.setCredit st n v).pw = s.pw := rfl
@[simp] theorem State.setCredit_d2d (s : State) (st n : Nat) (v : Int) : (s.setCredit st n v).d2d = s.d2d := rfl
@[simp] theorem State.setCredit_her (s : State) (st n : Nat) (v : Int) : (s.setCredit st n v).her = s.her := rfl
@[simp] theorem State.setCredit_free (s : State) (st n : Nat) (v : Int) : (s.setCredit st n v).free = s.free := rfl
@[simp] theorem State.setCredit_pending (s : State) (st n : Nat) (v : Int) : (s.setCredit st n v).pending = s.pending := rfl

@[simp] theorem State.setAcuSet_frame (s : State) (st a b i : Nat) (v : BitVec 128) : (s.setAcuSet st a b i v).frame = s.frame := rfl
@[simp] theorem State.setAcuSet_time (s : State) (st a b i : Nat) (v : BitVec 128) : (s.setAcuSet st a b i v).time = s.time := rfl
@[simp] theorem State.setAcuSet_regs (s : State) (st a b i : Nat) (v : BitVec 128) : (s.setAcuSet st a b i v).regs = s.regs := rfl
@[simp] theorem State.setAcuSet_mem (s : State) (st a b i : Nat) (v : BitVec 128) : (s.setAcuSet st a b i v).mem = s.mem := rfl
@[simp] theorem State.setAcuSet_ring (s : State) (st a b i : Nat) (v : BitVec 128) : (s.setAcuSet st a b i v).ring = s.ring := rfl
@[simp] theorem State.setAcuSet_ni (s : State) (st a b i : Nat) (v : BitVec 128) : (s.setAcuSet st a b i v).ni = s.ni := rfl
@[simp] theorem State.setAcuSet_recs (s : State) (st a b i : Nat) (v : BitVec 128) : (s.setAcuSet st a b i v).recs = s.recs := rfl
@[simp] theorem State.setAcuSet_pmu (s : State) (st a b i : Nat) (v : BitVec 128) : (s.setAcuSet st a b i v).pmu = s.pmu := rfl
@[simp] theorem State.setAcuSet_tem (s : State) (st a b i : Nat) (v : BitVec 128) : (s.setAcuSet st a b i v).tem = s.tem := rfl
@[simp] theorem State.setAcuSet_qe (s : State) (st a b i : Nat) (v : BitVec 128) : (s.setAcuSet st a b i v).qe = s.qe := rfl
@[simp] theorem State.setAcuSet_store (s : State) (st a b i : Nat) (v : BitVec 128) : (s.setAcuSet st a b i v).store = s.store := rfl
@[simp] theorem State.setAcuSet_cdc (s : State) (st a b i : Nat) (v : BitVec 128) : (s.setAcuSet st a b i v).cdc = s.cdc := rfl
@[simp] theorem State.setAcuSet_pw (s : State) (st a b i : Nat) (v : BitVec 128) : (s.setAcuSet st a b i v).pw = s.pw := rfl
@[simp] theorem State.setAcuSet_d2d (s : State) (st a b i : Nat) (v : BitVec 128) : (s.setAcuSet st a b i v).d2d = s.d2d := rfl
@[simp] theorem State.setAcuSet_her (s : State) (st a b i : Nat) (v : BitVec 128) : (s.setAcuSet st a b i v).her = s.her := rfl
@[simp] theorem State.setAcuSet_free (s : State) (st a b i : Nat) (v : BitVec 128) : (s.setAcuSet st a b i v).free = s.free := rfl
@[simp] theorem State.setAcuSet_pending (s : State) (st a b i : Nat) (v : BitVec 128) : (s.setAcuSet st a b i v).pending = s.pending := rfl

@[simp] theorem State.setAcuDef_frame (s : State) (st a i : Nat) (v : BitVec 128) : (s.setAcuDef st a i v).frame = s.frame := rfl
@[simp] theorem State.setAcuDef_time (s : State) (st a i : Nat) (v : BitVec 128) : (s.setAcuDef st a i v).time = s.time := rfl
@[simp] theorem State.setAcuDef_regs (s : State) (st a i : Nat) (v : BitVec 128) : (s.setAcuDef st a i v).regs = s.regs := rfl
@[simp] theorem State.setAcuDef_mem (s : State) (st a i : Nat) (v : BitVec 128) : (s.setAcuDef st a i v).mem = s.mem := rfl
@[simp] theorem State.setAcuDef_ring (s : State) (st a i : Nat) (v : BitVec 128) : (s.setAcuDef st a i v).ring = s.ring := rfl
@[simp] theorem State.setAcuDef_ni (s : State) (st a i : Nat) (v : BitVec 128) : (s.setAcuDef st a i v).ni = s.ni := rfl
@[simp] theorem State.setAcuDef_recs (s : State) (st a i : Nat) (v : BitVec 128) : (s.setAcuDef st a i v).recs = s.recs := rfl
@[simp] theorem State.setAcuDef_pmu (s : State) (st a i : Nat) (v : BitVec 128) : (s.setAcuDef st a i v).pmu = s.pmu := rfl
@[simp] theorem State.setAcuDef_tem (s : State) (st a i : Nat) (v : BitVec 128) : (s.setAcuDef st a i v).tem = s.tem := rfl
@[simp] theorem State.setAcuDef_qe (s : State) (st a i : Nat) (v : BitVec 128) : (s.setAcuDef st a i v).qe = s.qe := rfl
@[simp] theorem State.setAcuDef_store (s : State) (st a i : Nat) (v : BitVec 128) : (s.setAcuDef st a i v).store = s.store := rfl
@[simp] theorem State.setAcuDef_cdc (s : State) (st a i : Nat) (v : BitVec 128) : (s.setAcuDef st a i v).cdc = s.cdc := rfl
@[simp] theorem State.setAcuDef_pw (s : State) (st a i : Nat) (v : BitVec 128) : (s.setAcuDef st a i v).pw = s.pw := rfl
@[simp] theorem State.setAcuDef_d2d (s : State) (st a i : Nat) (v : BitVec 128) : (s.setAcuDef st a i v).d2d = s.d2d := rfl
@[simp] theorem State.setAcuDef_her (s : State) (st a i : Nat) (v : BitVec 128) : (s.setAcuDef st a i v).her = s.her := rfl
@[simp] theorem State.setAcuDef_free (s : State) (st a i : Nat) (v : BitVec 128) : (s.setAcuDef st a i v).free = s.free := rfl
@[simp] theorem State.setAcuDef_pending (s : State) (st a i : Nat) (v : BitVec 128) : (s.setAcuDef st a i v).pending = s.pending := rfl

@[simp] theorem State.setLocalTs_frame (s : State) (st : Nat) (v : LocalTs) : (s.setLocalTs st v).frame = s.frame := rfl
@[simp] theorem State.setLocalTs_regs (s : State) (st : Nat) (v : LocalTs) : (s.setLocalTs st v).regs = s.regs := rfl
@[simp] theorem State.setLocalTs_mem (s : State) (st : Nat) (v : LocalTs) : (s.setLocalTs st v).mem = s.mem := rfl
@[simp] theorem State.setLocalTs_ring (s : State) (st : Nat) (v : LocalTs) : (s.setLocalTs st v).ring = s.ring := rfl
@[simp] theorem State.setLocalTs_ni (s : State) (st : Nat) (v : LocalTs) : (s.setLocalTs st v).ni = s.ni := rfl
@[simp] theorem State.setLocalTs_acu (s : State) (st : Nat) (v : LocalTs) : (s.setLocalTs st v).acu = s.acu := rfl
@[simp] theorem State.setLocalTs_recs (s : State) (st : Nat) (v : LocalTs) : (s.setLocalTs st v).recs = s.recs := rfl
@[simp] theorem State.setLocalTs_pmu (s : State) (st : Nat) (v : LocalTs) : (s.setLocalTs st v).pmu = s.pmu := rfl
@[simp] theorem State.setLocalTs_tem (s : State) (st : Nat) (v : LocalTs) : (s.setLocalTs st v).tem = s.tem := rfl
@[simp] theorem State.setLocalTs_qe (s : State) (st : Nat) (v : LocalTs) : (s.setLocalTs st v).qe = s.qe := rfl
@[simp] theorem State.setLocalTs_store (s : State) (st : Nat) (v : LocalTs) : (s.setLocalTs st v).store = s.store := rfl
@[simp] theorem State.setLocalTs_cdc (s : State) (st : Nat) (v : LocalTs) : (s.setLocalTs st v).cdc = s.cdc := rfl
@[simp] theorem State.setLocalTs_pw (s : State) (st : Nat) (v : LocalTs) : (s.setLocalTs st v).pw = s.pw := rfl
@[simp] theorem State.setLocalTs_d2d (s : State) (st : Nat) (v : LocalTs) : (s.setLocalTs st v).d2d = s.d2d := rfl
@[simp] theorem State.setLocalTs_her (s : State) (st : Nat) (v : LocalTs) : (s.setLocalTs st v).her = s.her := rfl
@[simp] theorem State.setLocalTs_free (s : State) (st : Nat) (v : LocalTs) : (s.setLocalTs st v).free = s.free := rfl
@[simp] theorem State.setLocalTs_pending (s : State) (st : Nat) (v : LocalTs) : (s.setLocalTs st v).pending = s.pending := rfl

@[simp] theorem State.setRecBuf_frame (s : State) (st : Nat) (v : List (BitVec 512)) : (s.setRecBuf st v).frame = s.frame := rfl
@[simp] theorem State.setRecBuf_time (s : State) (st : Nat) (v : List (BitVec 512)) : (s.setRecBuf st v).time = s.time := rfl
@[simp] theorem State.setRecBuf_regs (s : State) (st : Nat) (v : List (BitVec 512)) : (s.setRecBuf st v).regs = s.regs := rfl
@[simp] theorem State.setRecBuf_mem (s : State) (st : Nat) (v : List (BitVec 512)) : (s.setRecBuf st v).mem = s.mem := rfl
@[simp] theorem State.setRecBuf_ring (s : State) (st : Nat) (v : List (BitVec 512)) : (s.setRecBuf st v).ring = s.ring := rfl
@[simp] theorem State.setRecBuf_ni (s : State) (st : Nat) (v : List (BitVec 512)) : (s.setRecBuf st v).ni = s.ni := rfl
@[simp] theorem State.setRecBuf_acu (s : State) (st : Nat) (v : List (BitVec 512)) : (s.setRecBuf st v).acu = s.acu := rfl
@[simp] theorem State.setRecBuf_pmu (s : State) (st : Nat) (v : List (BitVec 512)) : (s.setRecBuf st v).pmu = s.pmu := rfl
@[simp] theorem State.setRecBuf_tem (s : State) (st : Nat) (v : List (BitVec 512)) : (s.setRecBuf st v).tem = s.tem := rfl
@[simp] theorem State.setRecBuf_qe (s : State) (st : Nat) (v : List (BitVec 512)) : (s.setRecBuf st v).qe = s.qe := rfl
@[simp] theorem State.setRecBuf_store (s : State) (st : Nat) (v : List (BitVec 512)) : (s.setRecBuf st v).store = s.store := rfl
@[simp] theorem State.setRecBuf_cdc (s : State) (st : Nat) (v : List (BitVec 512)) : (s.setRecBuf st v).cdc = s.cdc := rfl
@[simp] theorem State.setRecBuf_pw (s : State) (st : Nat) (v : List (BitVec 512)) : (s.setRecBuf st v).pw = s.pw := rfl
@[simp] theorem State.setRecBuf_d2d (s : State) (st : Nat) (v : List (BitVec 512)) : (s.setRecBuf st v).d2d = s.d2d := rfl
@[simp] theorem State.setRecBuf_her (s : State) (st : Nat) (v : List (BitVec 512)) : (s.setRecBuf st v).her = s.her := rfl
@[simp] theorem State.setRecBuf_free (s : State) (st : Nat) (v : List (BitVec 512)) : (s.setRecBuf st v).free = s.free := rfl
@[simp] theorem State.setRecBuf_pending (s : State) (st : Nat) (v : List (BitVec 512)) : (s.setRecBuf st v).pending = s.pending := rfl

@[simp] theorem State.setQEntry_frame (s : State) (st q : Nat) (v : BitVec 256) : (s.setQEntry st q v).frame = s.frame := rfl
@[simp] theorem State.setQEntry_time (s : State) (st q : Nat) (v : BitVec 256) : (s.setQEntry st q v).time = s.time := rfl
@[simp] theorem State.setQEntry_regs (s : State) (st q : Nat) (v : BitVec 256) : (s.setQEntry st q v).regs = s.regs := rfl
@[simp] theorem State.setQEntry_mem (s : State) (st q : Nat) (v : BitVec 256) : (s.setQEntry st q v).mem = s.mem := rfl
@[simp] theorem State.setQEntry_ring (s : State) (st q : Nat) (v : BitVec 256) : (s.setQEntry st q v).ring = s.ring := rfl
@[simp] theorem State.setQEntry_ni (s : State) (st q : Nat) (v : BitVec 256) : (s.setQEntry st q v).ni = s.ni := rfl
@[simp] theorem State.setQEntry_acu (s : State) (st q : Nat) (v : BitVec 256) : (s.setQEntry st q v).acu = s.acu := rfl
@[simp] theorem State.setQEntry_recs (s : State) (st q : Nat) (v : BitVec 256) : (s.setQEntry st q v).recs = s.recs := rfl
@[simp] theorem State.setQEntry_pmu (s : State) (st q : Nat) (v : BitVec 256) : (s.setQEntry st q v).pmu = s.pmu := rfl
@[simp] theorem State.setQEntry_tem (s : State) (st q : Nat) (v : BitVec 256) : (s.setQEntry st q v).tem = s.tem := rfl
@[simp] theorem State.setQEntry_store (s : State) (st q : Nat) (v : BitVec 256) : (s.setQEntry st q v).store = s.store := rfl
@[simp] theorem State.setQEntry_cdc (s : State) (st q : Nat) (v : BitVec 256) : (s.setQEntry st q v).cdc = s.cdc := rfl
@[simp] theorem State.setQEntry_pw (s : State) (st q : Nat) (v : BitVec 256) : (s.setQEntry st q v).pw = s.pw := rfl
@[simp] theorem State.setQEntry_d2d (s : State) (st q : Nat) (v : BitVec 256) : (s.setQEntry st q v).d2d = s.d2d := rfl
@[simp] theorem State.setQEntry_her (s : State) (st q : Nat) (v : BitVec 256) : (s.setQEntry st q v).her = s.her := rfl
@[simp] theorem State.setQEntry_free (s : State) (st q : Nat) (v : BitVec 256) : (s.setQEntry st q v).free = s.free := rfl
@[simp] theorem State.setQEntry_pending (s : State) (st q : Nat) (v : BitVec 256) : (s.setQEntry st q v).pending = s.pending := rfl

@[simp] theorem State.setQops_frame (s : State) (st : Nat) (v : List QOp) : (s.setQops st v).frame = s.frame := rfl
@[simp] theorem State.setQops_time (s : State) (st : Nat) (v : List QOp) : (s.setQops st v).time = s.time := rfl
@[simp] theorem State.setQops_regs (s : State) (st : Nat) (v : List QOp) : (s.setQops st v).regs = s.regs := rfl
@[simp] theorem State.setQops_mem (s : State) (st : Nat) (v : List QOp) : (s.setQops st v).mem = s.mem := rfl
@[simp] theorem State.setQops_ring (s : State) (st : Nat) (v : List QOp) : (s.setQops st v).ring = s.ring := rfl
@[simp] theorem State.setQops_ni (s : State) (st : Nat) (v : List QOp) : (s.setQops st v).ni = s.ni := rfl
@[simp] theorem State.setQops_acu (s : State) (st : Nat) (v : List QOp) : (s.setQops st v).acu = s.acu := rfl
@[simp] theorem State.setQops_recs (s : State) (st : Nat) (v : List QOp) : (s.setQops st v).recs = s.recs := rfl
@[simp] theorem State.setQops_pmu (s : State) (st : Nat) (v : List QOp) : (s.setQops st v).pmu = s.pmu := rfl
@[simp] theorem State.setQops_tem (s : State) (st : Nat) (v : List QOp) : (s.setQops st v).tem = s.tem := rfl
@[simp] theorem State.setQops_store (s : State) (st : Nat) (v : List QOp) : (s.setQops st v).store = s.store := rfl
@[simp] theorem State.setQops_cdc (s : State) (st : Nat) (v : List QOp) : (s.setQops st v).cdc = s.cdc := rfl
@[simp] theorem State.setQops_pw (s : State) (st : Nat) (v : List QOp) : (s.setQops st v).pw = s.pw := rfl
@[simp] theorem State.setQops_d2d (s : State) (st : Nat) (v : List QOp) : (s.setQops st v).d2d = s.d2d := rfl
@[simp] theorem State.setQops_her (s : State) (st : Nat) (v : List QOp) : (s.setQops st v).her = s.her := rfl
@[simp] theorem State.setQops_free (s : State) (st : Nat) (v : List QOp) : (s.setQops st v).free = s.free := rfl
@[simp] theorem State.setQops_pending (s : State) (st : Nat) (v : List QOp) : (s.setQops st v).pending = s.pending := rfl

@[simp] theorem State.setWalks_frame (s : State) (st : Nat) (v : List QWalk) : (s.setWalks st v).frame = s.frame := rfl
@[simp] theorem State.setWalks_time (s : State) (st : Nat) (v : List QWalk) : (s.setWalks st v).time = s.time := rfl
@[simp] theorem State.setWalks_regs (s : State) (st : Nat) (v : List QWalk) : (s.setWalks st v).regs = s.regs := rfl
@[simp] theorem State.setWalks_mem (s : State) (st : Nat) (v : List QWalk) : (s.setWalks st v).mem = s.mem := rfl
@[simp] theorem State.setWalks_ring (s : State) (st : Nat) (v : List QWalk) : (s.setWalks st v).ring = s.ring := rfl
@[simp] theorem State.setWalks_ni (s : State) (st : Nat) (v : List QWalk) : (s.setWalks st v).ni = s.ni := rfl
@[simp] theorem State.setWalks_acu (s : State) (st : Nat) (v : List QWalk) : (s.setWalks st v).acu = s.acu := rfl
@[simp] theorem State.setWalks_recs (s : State) (st : Nat) (v : List QWalk) : (s.setWalks st v).recs = s.recs := rfl
@[simp] theorem State.setWalks_pmu (s : State) (st : Nat) (v : List QWalk) : (s.setWalks st v).pmu = s.pmu := rfl
@[simp] theorem State.setWalks_tem (s : State) (st : Nat) (v : List QWalk) : (s.setWalks st v).tem = s.tem := rfl
@[simp] theorem State.setWalks_store (s : State) (st : Nat) (v : List QWalk) : (s.setWalks st v).store = s.store := rfl
@[simp] theorem State.setWalks_cdc (s : State) (st : Nat) (v : List QWalk) : (s.setWalks st v).cdc = s.cdc := rfl
@[simp] theorem State.setWalks_pw (s : State) (st : Nat) (v : List QWalk) : (s.setWalks st v).pw = s.pw := rfl
@[simp] theorem State.setWalks_d2d (s : State) (st : Nat) (v : List QWalk) : (s.setWalks st v).d2d = s.d2d := rfl
@[simp] theorem State.setWalks_her (s : State) (st : Nat) (v : List QWalk) : (s.setWalks st v).her = s.her := rfl
@[simp] theorem State.setWalks_free (s : State) (st : Nat) (v : List QWalk) : (s.setWalks st v).free = s.free := rfl
@[simp] theorem State.setWalks_pending (s : State) (st : Nat) (v : List QWalk) : (s.setWalks st v).pending = s.pending := rfl

@[simp] theorem State.setMoves_frame (s : State) (st : Nat) (v : List QMove) : (s.setMoves st v).frame = s.frame := rfl
@[simp] theorem State.setMoves_time (s : State) (st : Nat) (v : List QMove) : (s.setMoves st v).time = s.time := rfl
@[simp] theorem State.setMoves_regs (s : State) (st : Nat) (v : List QMove) : (s.setMoves st v).regs = s.regs := rfl
@[simp] theorem State.setMoves_mem (s : State) (st : Nat) (v : List QMove) : (s.setMoves st v).mem = s.mem := rfl
@[simp] theorem State.setMoves_ring (s : State) (st : Nat) (v : List QMove) : (s.setMoves st v).ring = s.ring := rfl
@[simp] theorem State.setMoves_ni (s : State) (st : Nat) (v : List QMove) : (s.setMoves st v).ni = s.ni := rfl
@[simp] theorem State.setMoves_acu (s : State) (st : Nat) (v : List QMove) : (s.setMoves st v).acu = s.acu := rfl
@[simp] theorem State.setMoves_recs (s : State) (st : Nat) (v : List QMove) : (s.setMoves st v).recs = s.recs := rfl
@[simp] theorem State.setMoves_pmu (s : State) (st : Nat) (v : List QMove) : (s.setMoves st v).pmu = s.pmu := rfl
@[simp] theorem State.setMoves_tem (s : State) (st : Nat) (v : List QMove) : (s.setMoves st v).tem = s.tem := rfl
@[simp] theorem State.setMoves_store (s : State) (st : Nat) (v : List QMove) : (s.setMoves st v).store = s.store := rfl
@[simp] theorem State.setMoves_cdc (s : State) (st : Nat) (v : List QMove) : (s.setMoves st v).cdc = s.cdc := rfl
@[simp] theorem State.setMoves_pw (s : State) (st : Nat) (v : List QMove) : (s.setMoves st v).pw = s.pw := rfl
@[simp] theorem State.setMoves_d2d (s : State) (st : Nat) (v : List QMove) : (s.setMoves st v).d2d = s.d2d := rfl
@[simp] theorem State.setMoves_her (s : State) (st : Nat) (v : List QMove) : (s.setMoves st v).her = s.her := rfl
@[simp] theorem State.setMoves_free (s : State) (st : Nat) (v : List QMove) : (s.setMoves st v).free = s.free := rfl
@[simp] theorem State.setMoves_pending (s : State) (st : Nat) (v : List QMove) : (s.setMoves st v).pending = s.pending := rfl

@[simp] theorem State.setResid_frame (s : State) (st : Nat) (v : List Resid) : (s.setResid st v).frame = s.frame := rfl
@[simp] theorem State.setResid_time (s : State) (st : Nat) (v : List Resid) : (s.setResid st v).time = s.time := rfl
@[simp] theorem State.setResid_regs (s : State) (st : Nat) (v : List Resid) : (s.setResid st v).regs = s.regs := rfl
@[simp] theorem State.setResid_mem (s : State) (st : Nat) (v : List Resid) : (s.setResid st v).mem = s.mem := rfl
@[simp] theorem State.setResid_ring (s : State) (st : Nat) (v : List Resid) : (s.setResid st v).ring = s.ring := rfl
@[simp] theorem State.setResid_ni (s : State) (st : Nat) (v : List Resid) : (s.setResid st v).ni = s.ni := rfl
@[simp] theorem State.setResid_acu (s : State) (st : Nat) (v : List Resid) : (s.setResid st v).acu = s.acu := rfl
@[simp] theorem State.setResid_recs (s : State) (st : Nat) (v : List Resid) : (s.setResid st v).recs = s.recs := rfl
@[simp] theorem State.setResid_pmu (s : State) (st : Nat) (v : List Resid) : (s.setResid st v).pmu = s.pmu := rfl
@[simp] theorem State.setResid_tem (s : State) (st : Nat) (v : List Resid) : (s.setResid st v).tem = s.tem := rfl
@[simp] theorem State.setResid_store (s : State) (st : Nat) (v : List Resid) : (s.setResid st v).store = s.store := rfl
@[simp] theorem State.setResid_cdc (s : State) (st : Nat) (v : List Resid) : (s.setResid st v).cdc = s.cdc := rfl
@[simp] theorem State.setResid_pw (s : State) (st : Nat) (v : List Resid) : (s.setResid st v).pw = s.pw := rfl
@[simp] theorem State.setResid_d2d (s : State) (st : Nat) (v : List Resid) : (s.setResid st v).d2d = s.d2d := rfl
@[simp] theorem State.setResid_her (s : State) (st : Nat) (v : List Resid) : (s.setResid st v).her = s.her := rfl
@[simp] theorem State.setResid_free (s : State) (st : Nat) (v : List Resid) : (s.setResid st v).free = s.free := rfl
@[simp] theorem State.setResid_pending (s : State) (st : Nat) (v : List Resid) : (s.setResid st v).pending = s.pending := rfl

@[simp] theorem State.setQtlb_frame (s : State) (st : Nat) (v : List QtlbEnt) : (s.setQtlb st v).frame = s.frame := rfl
@[simp] theorem State.setQtlb_time (s : State) (st : Nat) (v : List QtlbEnt) : (s.setQtlb st v).time = s.time := rfl
@[simp] theorem State.setQtlb_regs (s : State) (st : Nat) (v : List QtlbEnt) : (s.setQtlb st v).regs = s.regs := rfl
@[simp] theorem State.setQtlb_mem (s : State) (st : Nat) (v : List QtlbEnt) : (s.setQtlb st v).mem = s.mem := rfl
@[simp] theorem State.setQtlb_ring (s : State) (st : Nat) (v : List QtlbEnt) : (s.setQtlb st v).ring = s.ring := rfl
@[simp] theorem State.setQtlb_ni (s : State) (st : Nat) (v : List QtlbEnt) : (s.setQtlb st v).ni = s.ni := rfl
@[simp] theorem State.setQtlb_acu (s : State) (st : Nat) (v : List QtlbEnt) : (s.setQtlb st v).acu = s.acu := rfl
@[simp] theorem State.setQtlb_recs (s : State) (st : Nat) (v : List QtlbEnt) : (s.setQtlb st v).recs = s.recs := rfl
@[simp] theorem State.setQtlb_pmu (s : State) (st : Nat) (v : List QtlbEnt) : (s.setQtlb st v).pmu = s.pmu := rfl
@[simp] theorem State.setQtlb_tem (s : State) (st : Nat) (v : List QtlbEnt) : (s.setQtlb st v).tem = s.tem := rfl
@[simp] theorem State.setQtlb_store (s : State) (st : Nat) (v : List QtlbEnt) : (s.setQtlb st v).store = s.store := rfl
@[simp] theorem State.setQtlb_cdc (s : State) (st : Nat) (v : List QtlbEnt) : (s.setQtlb st v).cdc = s.cdc := rfl
@[simp] theorem State.setQtlb_pw (s : State) (st : Nat) (v : List QtlbEnt) : (s.setQtlb st v).pw = s.pw := rfl
@[simp] theorem State.setQtlb_d2d (s : State) (st : Nat) (v : List QtlbEnt) : (s.setQtlb st v).d2d = s.d2d := rfl
@[simp] theorem State.setQtlb_her (s : State) (st : Nat) (v : List QtlbEnt) : (s.setQtlb st v).her = s.her := rfl
@[simp] theorem State.setQtlb_free (s : State) (st : Nat) (v : List QtlbEnt) : (s.setQtlb st v).free = s.free := rfl
@[simp] theorem State.setQtlb_pending (s : State) (st : Nat) (v : List QtlbEnt) : (s.setQtlb st v).pending = s.pending := rfl

@[simp] theorem State.setLeaving_frame (s : State) (st : Nat) (v : List Nat) : (s.setLeaving st v).frame = s.frame := rfl
@[simp] theorem State.setLeaving_time (s : State) (st : Nat) (v : List Nat) : (s.setLeaving st v).time = s.time := rfl
@[simp] theorem State.setLeaving_regs (s : State) (st : Nat) (v : List Nat) : (s.setLeaving st v).regs = s.regs := rfl
@[simp] theorem State.setLeaving_mem (s : State) (st : Nat) (v : List Nat) : (s.setLeaving st v).mem = s.mem := rfl
@[simp] theorem State.setLeaving_ring (s : State) (st : Nat) (v : List Nat) : (s.setLeaving st v).ring = s.ring := rfl
@[simp] theorem State.setLeaving_ni (s : State) (st : Nat) (v : List Nat) : (s.setLeaving st v).ni = s.ni := rfl
@[simp] theorem State.setLeaving_acu (s : State) (st : Nat) (v : List Nat) : (s.setLeaving st v).acu = s.acu := rfl
@[simp] theorem State.setLeaving_recs (s : State) (st : Nat) (v : List Nat) : (s.setLeaving st v).recs = s.recs := rfl
@[simp] theorem State.setLeaving_pmu (s : State) (st : Nat) (v : List Nat) : (s.setLeaving st v).pmu = s.pmu := rfl
@[simp] theorem State.setLeaving_tem (s : State) (st : Nat) (v : List Nat) : (s.setLeaving st v).tem = s.tem := rfl
@[simp] theorem State.setLeaving_store (s : State) (st : Nat) (v : List Nat) : (s.setLeaving st v).store = s.store := rfl
@[simp] theorem State.setLeaving_cdc (s : State) (st : Nat) (v : List Nat) : (s.setLeaving st v).cdc = s.cdc := rfl
@[simp] theorem State.setLeaving_pw (s : State) (st : Nat) (v : List Nat) : (s.setLeaving st v).pw = s.pw := rfl
@[simp] theorem State.setLeaving_d2d (s : State) (st : Nat) (v : List Nat) : (s.setLeaving st v).d2d = s.d2d := rfl
@[simp] theorem State.setLeaving_her (s : State) (st : Nat) (v : List Nat) : (s.setLeaving st v).her = s.her := rfl
@[simp] theorem State.setLeaving_free (s : State) (st : Nat) (v : List Nat) : (s.setLeaving st v).free = s.free := rfl
@[simp] theorem State.setLeaving_pending (s : State) (st : Nat) (v : List Nat) : (s.setLeaving st v).pending = s.pending := rfl

@[simp] theorem State.setInv_frame (s : State) (st : Nat) (v : List QInv) : (s.setInv st v).frame = s.frame := rfl
@[simp] theorem State.setInv_time (s : State) (st : Nat) (v : List QInv) : (s.setInv st v).time = s.time := rfl
@[simp] theorem State.setInv_regs (s : State) (st : Nat) (v : List QInv) : (s.setInv st v).regs = s.regs := rfl
@[simp] theorem State.setInv_mem (s : State) (st : Nat) (v : List QInv) : (s.setInv st v).mem = s.mem := rfl
@[simp] theorem State.setInv_ring (s : State) (st : Nat) (v : List QInv) : (s.setInv st v).ring = s.ring := rfl
@[simp] theorem State.setInv_ni (s : State) (st : Nat) (v : List QInv) : (s.setInv st v).ni = s.ni := rfl
@[simp] theorem State.setInv_acu (s : State) (st : Nat) (v : List QInv) : (s.setInv st v).acu = s.acu := rfl
@[simp] theorem State.setInv_recs (s : State) (st : Nat) (v : List QInv) : (s.setInv st v).recs = s.recs := rfl
@[simp] theorem State.setInv_pmu (s : State) (st : Nat) (v : List QInv) : (s.setInv st v).pmu = s.pmu := rfl
@[simp] theorem State.setInv_tem (s : State) (st : Nat) (v : List QInv) : (s.setInv st v).tem = s.tem := rfl
@[simp] theorem State.setInv_store (s : State) (st : Nat) (v : List QInv) : (s.setInv st v).store = s.store := rfl
@[simp] theorem State.setInv_cdc (s : State) (st : Nat) (v : List QInv) : (s.setInv st v).cdc = s.cdc := rfl
@[simp] theorem State.setInv_pw (s : State) (st : Nat) (v : List QInv) : (s.setInv st v).pw = s.pw := rfl
@[simp] theorem State.setInv_d2d (s : State) (st : Nat) (v : List QInv) : (s.setInv st v).d2d = s.d2d := rfl
@[simp] theorem State.setInv_her (s : State) (st : Nat) (v : List QInv) : (s.setInv st v).her = s.her := rfl
@[simp] theorem State.setInv_free (s : State) (st : Nat) (v : List QInv) : (s.setInv st v).free = s.free := rfl
@[simp] theorem State.setInv_pending (s : State) (st : Nat) (v : List QInv) : (s.setInv st v).pending = s.pending := rfl

@[simp] theorem State.setMerge_frame (s : State) (st b : Nat) (v : List MergeEnt) : (s.setMerge st b v).frame = s.frame := rfl
@[simp] theorem State.setMerge_time (s : State) (st b : Nat) (v : List MergeEnt) : (s.setMerge st b v).time = s.time := rfl
@[simp] theorem State.setMerge_regs (s : State) (st b : Nat) (v : List MergeEnt) : (s.setMerge st b v).regs = s.regs := rfl
@[simp] theorem State.setMerge_mem (s : State) (st b : Nat) (v : List MergeEnt) : (s.setMerge st b v).mem = s.mem := rfl
@[simp] theorem State.setMerge_ring (s : State) (st b : Nat) (v : List MergeEnt) : (s.setMerge st b v).ring = s.ring := rfl
@[simp] theorem State.setMerge_ni (s : State) (st b : Nat) (v : List MergeEnt) : (s.setMerge st b v).ni = s.ni := rfl
@[simp] theorem State.setMerge_acu (s : State) (st b : Nat) (v : List MergeEnt) : (s.setMerge st b v).acu = s.acu := rfl
@[simp] theorem State.setMerge_recs (s : State) (st b : Nat) (v : List MergeEnt) : (s.setMerge st b v).recs = s.recs := rfl
@[simp] theorem State.setMerge_pmu (s : State) (st b : Nat) (v : List MergeEnt) : (s.setMerge st b v).pmu = s.pmu := rfl
@[simp] theorem State.setMerge_tem (s : State) (st b : Nat) (v : List MergeEnt) : (s.setMerge st b v).tem = s.tem := rfl
@[simp] theorem State.setMerge_qe (s : State) (st b : Nat) (v : List MergeEnt) : (s.setMerge st b v).qe = s.qe := rfl
@[simp] theorem State.setMerge_cdc (s : State) (st b : Nat) (v : List MergeEnt) : (s.setMerge st b v).cdc = s.cdc := rfl
@[simp] theorem State.setMerge_pw (s : State) (st b : Nat) (v : List MergeEnt) : (s.setMerge st b v).pw = s.pw := rfl
@[simp] theorem State.setMerge_d2d (s : State) (st b : Nat) (v : List MergeEnt) : (s.setMerge st b v).d2d = s.d2d := rfl
@[simp] theorem State.setMerge_her (s : State) (st b : Nat) (v : List MergeEnt) : (s.setMerge st b v).her = s.her := rfl
@[simp] theorem State.setMerge_free (s : State) (st b : Nat) (v : List MergeEnt) : (s.setMerge st b v).free = s.free := rfl
@[simp] theorem State.setMerge_pending (s : State) (st b : Nat) (v : List MergeEnt) : (s.setMerge st b v).pending = s.pending := rfl

@[simp] theorem State.setSym_frame (s : State) (st b row k : Nat) (v : BitVec 8) : (s.setSym st b row k v).frame = s.frame := rfl
@[simp] theorem State.setSym_time (s : State) (st b row k : Nat) (v : BitVec 8) : (s.setSym st b row k v).time = s.time := rfl
@[simp] theorem State.setSym_regs (s : State) (st b row k : Nat) (v : BitVec 8) : (s.setSym st b row k v).regs = s.regs := rfl
@[simp] theorem State.setSym_ring (s : State) (st b row k : Nat) (v : BitVec 8) : (s.setSym st b row k v).ring = s.ring := rfl
@[simp] theorem State.setSym_ni (s : State) (st b row k : Nat) (v : BitVec 8) : (s.setSym st b row k v).ni = s.ni := rfl
@[simp] theorem State.setSym_acu (s : State) (st b row k : Nat) (v : BitVec 8) : (s.setSym st b row k v).acu = s.acu := rfl
@[simp] theorem State.setSym_recs (s : State) (st b row k : Nat) (v : BitVec 8) : (s.setSym st b row k v).recs = s.recs := rfl
@[simp] theorem State.setSym_pmu (s : State) (st b row k : Nat) (v : BitVec 8) : (s.setSym st b row k v).pmu = s.pmu := rfl
@[simp] theorem State.setSym_tem (s : State) (st b row k : Nat) (v : BitVec 8) : (s.setSym st b row k v).tem = s.tem := rfl
@[simp] theorem State.setSym_qe (s : State) (st b row k : Nat) (v : BitVec 8) : (s.setSym st b row k v).qe = s.qe := rfl
@[simp] theorem State.setSym_store (s : State) (st b row k : Nat) (v : BitVec 8) : (s.setSym st b row k v).store = s.store := rfl
@[simp] theorem State.setSym_cdc (s : State) (st b row k : Nat) (v : BitVec 8) : (s.setSym st b row k v).cdc = s.cdc := rfl
@[simp] theorem State.setSym_pw (s : State) (st b row k : Nat) (v : BitVec 8) : (s.setSym st b row k v).pw = s.pw := rfl
@[simp] theorem State.setSym_d2d (s : State) (st b row k : Nat) (v : BitVec 8) : (s.setSym st b row k v).d2d = s.d2d := rfl
@[simp] theorem State.setSym_her (s : State) (st b row k : Nat) (v : BitVec 8) : (s.setSym st b row k v).her = s.her := rfl
@[simp] theorem State.setSym_free (s : State) (st b row k : Nat) (v : BitVec 8) : (s.setSym st b row k v).free = s.free := rfl
@[simp] theorem State.setSym_pending (s : State) (st b row k : Nat) (v : BitVec 8) : (s.setSym st b row k v).pending = s.pending := rfl

@[simp] theorem State.setPmc_frame (s : State) (st n v : Nat) : (s.setPmc st n v).frame = s.frame := rfl
@[simp] theorem State.setPmc_time (s : State) (st n v : Nat) : (s.setPmc st n v).time = s.time := rfl
@[simp] theorem State.setPmc_regs (s : State) (st n v : Nat) : (s.setPmc st n v).regs = s.regs := rfl
@[simp] theorem State.setPmc_mem (s : State) (st n v : Nat) : (s.setPmc st n v).mem = s.mem := rfl
@[simp] theorem State.setPmc_ring (s : State) (st n v : Nat) : (s.setPmc st n v).ring = s.ring := rfl
@[simp] theorem State.setPmc_ni (s : State) (st n v : Nat) : (s.setPmc st n v).ni = s.ni := rfl
@[simp] theorem State.setPmc_acu (s : State) (st n v : Nat) : (s.setPmc st n v).acu = s.acu := rfl
@[simp] theorem State.setPmc_recs (s : State) (st n v : Nat) : (s.setPmc st n v).recs = s.recs := rfl
@[simp] theorem State.setPmc_tem (s : State) (st n v : Nat) : (s.setPmc st n v).tem = s.tem := rfl
@[simp] theorem State.setPmc_qe (s : State) (st n v : Nat) : (s.setPmc st n v).qe = s.qe := rfl
@[simp] theorem State.setPmc_store (s : State) (st n v : Nat) : (s.setPmc st n v).store = s.store := rfl
@[simp] theorem State.setPmc_cdc (s : State) (st n v : Nat) : (s.setPmc st n v).cdc = s.cdc := rfl
@[simp] theorem State.setPmc_pw (s : State) (st n v : Nat) : (s.setPmc st n v).pw = s.pw := rfl
@[simp] theorem State.setPmc_d2d (s : State) (st n v : Nat) : (s.setPmc st n v).d2d = s.d2d := rfl
@[simp] theorem State.setPmc_her (s : State) (st n v : Nat) : (s.setPmc st n v).her = s.her := rfl
@[simp] theorem State.setPmc_free (s : State) (st n v : Nat) : (s.setPmc st n v).free = s.free := rfl
@[simp] theorem State.setPmc_pending (s : State) (st n v : Nat) : (s.setPmc st n v).pending = s.pending := rfl

@[simp] theorem State.setLink_frame (s : State) (r p : Nat) (v : LinkSt) : (s.setLink r p v).frame = s.frame := rfl
@[simp] theorem State.setLink_time (s : State) (r p : Nat) (v : LinkSt) : (s.setLink r p v).time = s.time := rfl
@[simp] theorem State.setLink_regs (s : State) (r p : Nat) (v : LinkSt) : (s.setLink r p v).regs = s.regs := rfl
@[simp] theorem State.setLink_mem (s : State) (r p : Nat) (v : LinkSt) : (s.setLink r p v).mem = s.mem := rfl
@[simp] theorem State.setLink_ring (s : State) (r p : Nat) (v : LinkSt) : (s.setLink r p v).ring = s.ring := rfl
@[simp] theorem State.setLink_ni (s : State) (r p : Nat) (v : LinkSt) : (s.setLink r p v).ni = s.ni := rfl
@[simp] theorem State.setLink_acu (s : State) (r p : Nat) (v : LinkSt) : (s.setLink r p v).acu = s.acu := rfl
@[simp] theorem State.setLink_recs (s : State) (r p : Nat) (v : LinkSt) : (s.setLink r p v).recs = s.recs := rfl
@[simp] theorem State.setLink_pmu (s : State) (r p : Nat) (v : LinkSt) : (s.setLink r p v).pmu = s.pmu := rfl
@[simp] theorem State.setLink_qe (s : State) (r p : Nat) (v : LinkSt) : (s.setLink r p v).qe = s.qe := rfl
@[simp] theorem State.setLink_store (s : State) (r p : Nat) (v : LinkSt) : (s.setLink r p v).store = s.store := rfl
@[simp] theorem State.setLink_cdc (s : State) (r p : Nat) (v : LinkSt) : (s.setLink r p v).cdc = s.cdc := rfl
@[simp] theorem State.setLink_pw (s : State) (r p : Nat) (v : LinkSt) : (s.setLink r p v).pw = s.pw := rfl
@[simp] theorem State.setLink_d2d (s : State) (r p : Nat) (v : LinkSt) : (s.setLink r p v).d2d = s.d2d := rfl
@[simp] theorem State.setLink_her (s : State) (r p : Nat) (v : LinkSt) : (s.setLink r p v).her = s.her := rfl
@[simp] theorem State.setLink_free (s : State) (r p : Nat) (v : LinkSt) : (s.setLink r p v).free = s.free := rfl
@[simp] theorem State.setLink_pending (s : State) (r p : Nat) (v : LinkSt) : (s.setLink r p v).pending = s.pending := rfl

@[simp] theorem State.setLane_frame (s : State) (r p n : Nat) (v : LaneSt) : (s.setLane r p n v).frame = s.frame := rfl
@[simp] theorem State.setLane_time (s : State) (r p n : Nat) (v : LaneSt) : (s.setLane r p n v).time = s.time := rfl
@[simp] theorem State.setLane_regs (s : State) (r p n : Nat) (v : LaneSt) : (s.setLane r p n v).regs = s.regs := rfl
@[simp] theorem State.setLane_mem (s : State) (r p n : Nat) (v : LaneSt) : (s.setLane r p n v).mem = s.mem := rfl
@[simp] theorem State.setLane_ring (s : State) (r p n : Nat) (v : LaneSt) : (s.setLane r p n v).ring = s.ring := rfl
@[simp] theorem State.setLane_ni (s : State) (r p n : Nat) (v : LaneSt) : (s.setLane r p n v).ni = s.ni := rfl
@[simp] theorem State.setLane_acu (s : State) (r p n : Nat) (v : LaneSt) : (s.setLane r p n v).acu = s.acu := rfl
@[simp] theorem State.setLane_recs (s : State) (r p n : Nat) (v : LaneSt) : (s.setLane r p n v).recs = s.recs := rfl
@[simp] theorem State.setLane_pmu (s : State) (r p n : Nat) (v : LaneSt) : (s.setLane r p n v).pmu = s.pmu := rfl
@[simp] theorem State.setLane_qe (s : State) (r p n : Nat) (v : LaneSt) : (s.setLane r p n v).qe = s.qe := rfl
@[simp] theorem State.setLane_store (s : State) (r p n : Nat) (v : LaneSt) : (s.setLane r p n v).store = s.store := rfl
@[simp] theorem State.setLane_cdc (s : State) (r p n : Nat) (v : LaneSt) : (s.setLane r p n v).cdc = s.cdc := rfl
@[simp] theorem State.setLane_pw (s : State) (r p n : Nat) (v : LaneSt) : (s.setLane r p n v).pw = s.pw := rfl
@[simp] theorem State.setLane_d2d (s : State) (r p n : Nat) (v : LaneSt) : (s.setLane r p n v).d2d = s.d2d := rfl
@[simp] theorem State.setLane_her (s : State) (r p n : Nat) (v : LaneSt) : (s.setLane r p n v).her = s.her := rfl
@[simp] theorem State.setLane_free (s : State) (r p n : Nat) (v : LaneSt) : (s.setLane r p n v).free = s.free := rfl
@[simp] theorem State.setLane_pending (s : State) (r p n : Nat) (v : LaneSt) : (s.setLane r p n v).pending = s.pending := rfl

@[simp] theorem State.setDp_frame (s : State) (p : Nat) (v : DpSt) : (s.setDp p v).frame = s.frame := rfl
@[simp] theorem State.setDp_time (s : State) (p : Nat) (v : DpSt) : (s.setDp p v).time = s.time := rfl
@[simp] theorem State.setDp_regs (s : State) (p : Nat) (v : DpSt) : (s.setDp p v).regs = s.regs := rfl
@[simp] theorem State.setDp_mem (s : State) (p : Nat) (v : DpSt) : (s.setDp p v).mem = s.mem := rfl
@[simp] theorem State.setDp_ring (s : State) (p : Nat) (v : DpSt) : (s.setDp p v).ring = s.ring := rfl
@[simp] theorem State.setDp_ni (s : State) (p : Nat) (v : DpSt) : (s.setDp p v).ni = s.ni := rfl
@[simp] theorem State.setDp_acu (s : State) (p : Nat) (v : DpSt) : (s.setDp p v).acu = s.acu := rfl
@[simp] theorem State.setDp_recs (s : State) (p : Nat) (v : DpSt) : (s.setDp p v).recs = s.recs := rfl
@[simp] theorem State.setDp_pmu (s : State) (p : Nat) (v : DpSt) : (s.setDp p v).pmu = s.pmu := rfl
@[simp] theorem State.setDp_tem (s : State) (p : Nat) (v : DpSt) : (s.setDp p v).tem = s.tem := rfl
@[simp] theorem State.setDp_qe (s : State) (p : Nat) (v : DpSt) : (s.setDp p v).qe = s.qe := rfl
@[simp] theorem State.setDp_store (s : State) (p : Nat) (v : DpSt) : (s.setDp p v).store = s.store := rfl
@[simp] theorem State.setDp_cdc (s : State) (p : Nat) (v : DpSt) : (s.setDp p v).cdc = s.cdc := rfl
@[simp] theorem State.setDp_pw (s : State) (p : Nat) (v : DpSt) : (s.setDp p v).pw = s.pw := rfl
@[simp] theorem State.setDp_her (s : State) (p : Nat) (v : DpSt) : (s.setDp p v).her = s.her := rfl
@[simp] theorem State.setDp_free (s : State) (p : Nat) (v : DpSt) : (s.setDp p v).free = s.free := rfl
@[simp] theorem State.setDp_pending (s : State) (p : Nat) (v : DpSt) : (s.setDp p v).pending = s.pending := rfl

@[simp] theorem State.setBoot_frame (s : State) (b : BootSt) : (s.setBoot b).frame = s.frame := rfl
@[simp] theorem State.setBoot_time (s : State) (b : BootSt) : (s.setBoot b).time = s.time := rfl
@[simp] theorem State.setBoot_regs (s : State) (b : BootSt) : (s.setBoot b).regs = s.regs := rfl
@[simp] theorem State.setBoot_mem (s : State) (b : BootSt) : (s.setBoot b).mem = s.mem := rfl
@[simp] theorem State.setBoot_ring (s : State) (b : BootSt) : (s.setBoot b).ring = s.ring := rfl
@[simp] theorem State.setBoot_ni (s : State) (b : BootSt) : (s.setBoot b).ni = s.ni := rfl
@[simp] theorem State.setBoot_acu (s : State) (b : BootSt) : (s.setBoot b).acu = s.acu := rfl
@[simp] theorem State.setBoot_recs (s : State) (b : BootSt) : (s.setBoot b).recs = s.recs := rfl
@[simp] theorem State.setBoot_pmu (s : State) (b : BootSt) : (s.setBoot b).pmu = s.pmu := rfl
@[simp] theorem State.setBoot_tem (s : State) (b : BootSt) : (s.setBoot b).tem = s.tem := rfl
@[simp] theorem State.setBoot_qe (s : State) (b : BootSt) : (s.setBoot b).qe = s.qe := rfl
@[simp] theorem State.setBoot_store (s : State) (b : BootSt) : (s.setBoot b).store = s.store := rfl
@[simp] theorem State.setBoot_cdc (s : State) (b : BootSt) : (s.setBoot b).cdc = s.cdc := rfl
@[simp] theorem State.setBoot_pw (s : State) (b : BootSt) : (s.setBoot b).pw = s.pw := rfl
@[simp] theorem State.setBoot_d2d (s : State) (b : BootSt) : (s.setBoot b).d2d = s.d2d := rfl
@[simp] theorem State.setBoot_free (s : State) (b : BootSt) : (s.setBoot b).free = s.free := rfl
@[simp] theorem State.setBoot_pending (s : State) (b : BootSt) : (s.setBoot b).pending = s.pending := rfl

@[simp] theorem State.setCmt_frame (s : State) (c : CmtSt) : (s.setCmt c).frame = s.frame := rfl
@[simp] theorem State.setCmt_time (s : State) (c : CmtSt) : (s.setCmt c).time = s.time := rfl
@[simp] theorem State.setCmt_regs (s : State) (c : CmtSt) : (s.setCmt c).regs = s.regs := rfl
@[simp] theorem State.setCmt_mem (s : State) (c : CmtSt) : (s.setCmt c).mem = s.mem := rfl
@[simp] theorem State.setCmt_ring (s : State) (c : CmtSt) : (s.setCmt c).ring = s.ring := rfl
@[simp] theorem State.setCmt_ni (s : State) (c : CmtSt) : (s.setCmt c).ni = s.ni := rfl
@[simp] theorem State.setCmt_acu (s : State) (c : CmtSt) : (s.setCmt c).acu = s.acu := rfl
@[simp] theorem State.setCmt_recs (s : State) (c : CmtSt) : (s.setCmt c).recs = s.recs := rfl
@[simp] theorem State.setCmt_pmu (s : State) (c : CmtSt) : (s.setCmt c).pmu = s.pmu := rfl
@[simp] theorem State.setCmt_tem (s : State) (c : CmtSt) : (s.setCmt c).tem = s.tem := rfl
@[simp] theorem State.setCmt_qe (s : State) (c : CmtSt) : (s.setCmt c).qe = s.qe := rfl
@[simp] theorem State.setCmt_store (s : State) (c : CmtSt) : (s.setCmt c).store = s.store := rfl
@[simp] theorem State.setCmt_cdc (s : State) (c : CmtSt) : (s.setCmt c).cdc = s.cdc := rfl
@[simp] theorem State.setCmt_pw (s : State) (c : CmtSt) : (s.setCmt c).pw = s.pw := rfl
@[simp] theorem State.setCmt_d2d (s : State) (c : CmtSt) : (s.setCmt c).d2d = s.d2d := rfl
@[simp] theorem State.setCmt_free (s : State) (c : CmtSt) : (s.setCmt c).free = s.free := rfl
@[simp] theorem State.setCmt_pending (s : State) (c : CmtSt) : (s.setCmt c).pending = s.pending := rfl

@[simp] theorem State.keepRec_frame (s t : State) : (s.keepRec t).frame = s.frame := rfl
@[simp] theorem State.keepRec_time (s t : State) : (s.keepRec t).time = s.time := rfl
@[simp] theorem State.keepRec_regs (s t : State) : (s.keepRec t).regs = t.regs := rfl
@[simp] theorem State.keepRec_mem (s t : State) : (s.keepRec t).mem = s.mem := rfl
@[simp] theorem State.keepRec_ring (s t : State) : (s.keepRec t).ring = s.ring := rfl
@[simp] theorem State.keepRec_ni (s t : State) : (s.keepRec t).ni = t.ni := rfl
@[simp] theorem State.keepRec_acu (s t : State) : (s.keepRec t).acu = s.acu := rfl
@[simp] theorem State.keepRec_recs (s t : State) : (s.keepRec t).recs = t.recs := rfl
@[simp] theorem State.keepRec_pmu (s t : State) : (s.keepRec t).pmu = s.pmu := rfl
@[simp] theorem State.keepRec_tem (s t : State) : (s.keepRec t).tem = s.tem := rfl
@[simp] theorem State.keepRec_qe (s t : State) : (s.keepRec t).qe = s.qe := rfl
@[simp] theorem State.keepRec_store (s t : State) : (s.keepRec t).store = s.store := rfl
@[simp] theorem State.keepRec_cdc (s t : State) : (s.keepRec t).cdc = s.cdc := rfl
@[simp] theorem State.keepRec_pw (s t : State) : (s.keepRec t).pw = s.pw := rfl
@[simp] theorem State.keepRec_d2d (s t : State) : (s.keepRec t).d2d = s.d2d := rfl
@[simp] theorem State.keepRec_her (s t : State) : (s.keepRec t).her = s.her := rfl
@[simp] theorem State.keepRec_free (s t : State) : (s.keepRec t).free = s.free := rfl
@[simp] theorem State.keepRec_pending (s t : State) : (s.keepRec t).pending = s.pending := rfl

@[simp] theorem State.keepAcu_frame (s t : State) : (s.keepAcu t).frame = s.frame := rfl
@[simp] theorem State.keepAcu_time (s t : State) : (s.keepAcu t).time = s.time := rfl
@[simp] theorem State.keepAcu_regs (s t : State) : (s.keepAcu t).regs = t.regs := rfl
@[simp] theorem State.keepAcu_mem (s t : State) : (s.keepAcu t).mem = s.mem := rfl
@[simp] theorem State.keepAcu_ring (s t : State) : (s.keepAcu t).ring = s.ring := rfl
@[simp] theorem State.keepAcu_ni (s t : State) : (s.keepAcu t).ni = t.ni := rfl
@[simp] theorem State.keepAcu_acu (s t : State) : (s.keepAcu t).acu = t.acu := rfl
@[simp] theorem State.keepAcu_recs (s t : State) : (s.keepAcu t).recs = t.recs := rfl
@[simp] theorem State.keepAcu_pmu (s t : State) : (s.keepAcu t).pmu = s.pmu := rfl
@[simp] theorem State.keepAcu_tem (s t : State) : (s.keepAcu t).tem = s.tem := rfl
@[simp] theorem State.keepAcu_qe (s t : State) : (s.keepAcu t).qe = s.qe := rfl
@[simp] theorem State.keepAcu_store (s t : State) : (s.keepAcu t).store = s.store := rfl
@[simp] theorem State.keepAcu_cdc (s t : State) : (s.keepAcu t).cdc = s.cdc := rfl
@[simp] theorem State.keepAcu_pw (s t : State) : (s.keepAcu t).pw = s.pw := rfl
@[simp] theorem State.keepAcu_d2d (s t : State) : (s.keepAcu t).d2d = s.d2d := rfl
@[simp] theorem State.keepAcu_her (s t : State) : (s.keepAcu t).her = s.her := rfl
@[simp] theorem State.keepAcu_free (s t : State) : (s.keepAcu t).free = s.free := rfl
@[simp] theorem State.keepAcu_pending (s t : State) : (s.keepAcu t).pending = s.pending := rfl

@[simp] theorem State.keepTime_frame (s t : State) : (s.keepTime t).frame = s.frame := rfl
@[simp] theorem State.keepTime_time (s t : State) : (s.keepTime t).time = t.time := rfl
@[simp] theorem State.keepTime_regs (s t : State) : (s.keepTime t).regs = t.regs := rfl
@[simp] theorem State.keepTime_mem (s t : State) : (s.keepTime t).mem = s.mem := rfl
@[simp] theorem State.keepTime_ring (s t : State) : (s.keepTime t).ring = s.ring := rfl
@[simp] theorem State.keepTime_ni (s t : State) : (s.keepTime t).ni = t.ni := rfl
@[simp] theorem State.keepTime_acu (s t : State) : (s.keepTime t).acu = s.acu := rfl
@[simp] theorem State.keepTime_recs (s t : State) : (s.keepTime t).recs = t.recs := rfl
@[simp] theorem State.keepTime_pmu (s t : State) : (s.keepTime t).pmu = s.pmu := rfl
@[simp] theorem State.keepTime_tem (s t : State) : (s.keepTime t).tem = s.tem := rfl
@[simp] theorem State.keepTime_qe (s t : State) : (s.keepTime t).qe = s.qe := rfl
@[simp] theorem State.keepTime_store (s t : State) : (s.keepTime t).store = s.store := rfl
@[simp] theorem State.keepTime_cdc (s t : State) : (s.keepTime t).cdc = s.cdc := rfl
@[simp] theorem State.keepTime_pw (s t : State) : (s.keepTime t).pw = s.pw := rfl
@[simp] theorem State.keepTime_d2d (s t : State) : (s.keepTime t).d2d = s.d2d := rfl
@[simp] theorem State.keepTime_her (s t : State) : (s.keepTime t).her = s.her := rfl
@[simp] theorem State.keepTime_free (s t : State) : (s.keepTime t).free = s.free := rfl
@[simp] theorem State.keepTime_pending (s t : State) : (s.keepTime t).pending = s.pending := rfl

@[simp] theorem State.keepPort_frame (s t : State) : (s.keepPort t).frame = s.frame := rfl
@[simp] theorem State.keepPort_time (s t : State) : (s.keepPort t).time = s.time := rfl
@[simp] theorem State.keepPort_regs (s t : State) : (s.keepPort t).regs = t.regs := rfl
@[simp] theorem State.keepPort_mem (s t : State) : (s.keepPort t).mem = s.mem := rfl
@[simp] theorem State.keepPort_ring (s t : State) : (s.keepPort t).ring = s.ring := rfl
@[simp] theorem State.keepPort_ni (s t : State) : (s.keepPort t).ni = t.ni := rfl
@[simp] theorem State.keepPort_acu (s t : State) : (s.keepPort t).acu = s.acu := rfl
@[simp] theorem State.keepPort_recs (s t : State) : (s.keepPort t).recs = t.recs := rfl
@[simp] theorem State.keepPort_pmu (s t : State) : (s.keepPort t).pmu = t.pmu := rfl
@[simp] theorem State.keepPort_tem (s t : State) : (s.keepPort t).tem = s.tem := rfl
@[simp] theorem State.keepPort_qe (s t : State) : (s.keepPort t).qe = s.qe := rfl
@[simp] theorem State.keepPort_store (s t : State) : (s.keepPort t).store = s.store := rfl
@[simp] theorem State.keepPort_cdc (s t : State) : (s.keepPort t).cdc = s.cdc := rfl
@[simp] theorem State.keepPort_pw (s t : State) : (s.keepPort t).pw = s.pw := rfl
@[simp] theorem State.keepPort_d2d (s t : State) : (s.keepPort t).d2d = s.d2d := rfl
@[simp] theorem State.keepPort_her (s t : State) : (s.keepPort t).her = s.her := rfl
@[simp] theorem State.keepPort_free (s t : State) : (s.keepPort t).free = t.free := rfl
@[simp] theorem State.keepPort_pending (s t : State) : (s.keepPort t).pending = s.pending := rfl

@[simp] theorem State.keepTxn_frame (s t : State) : (s.keepTxn t).frame = s.frame := rfl
@[simp] theorem State.keepTxn_time (s t : State) : (s.keepTxn t).time = s.time := rfl
@[simp] theorem State.keepTxn_regs (s t : State) : (s.keepTxn t).regs = t.regs := rfl
@[simp] theorem State.keepTxn_mem (s t : State) : (s.keepTxn t).mem = s.mem := rfl
@[simp] theorem State.keepTxn_ring (s t : State) : (s.keepTxn t).ring = s.ring := rfl
@[simp] theorem State.keepTxn_ni (s t : State) : (s.keepTxn t).ni = t.ni := rfl
@[simp] theorem State.keepTxn_acu (s t : State) : (s.keepTxn t).acu = s.acu := rfl
@[simp] theorem State.keepTxn_recs (s t : State) : (s.keepTxn t).recs = t.recs := rfl
@[simp] theorem State.keepTxn_pmu (s t : State) : (s.keepTxn t).pmu = t.pmu := rfl
@[simp] theorem State.keepTxn_tem (s t : State) : (s.keepTxn t).tem = s.tem := rfl
@[simp] theorem State.keepTxn_qe (s t : State) : (s.keepTxn t).qe = s.qe := rfl
@[simp] theorem State.keepTxn_store (s t : State) : (s.keepTxn t).store = s.store := rfl
@[simp] theorem State.keepTxn_cdc (s t : State) : (s.keepTxn t).cdc = s.cdc := rfl
@[simp] theorem State.keepTxn_pw (s t : State) : (s.keepTxn t).pw = t.pw := rfl
@[simp] theorem State.keepTxn_d2d (s t : State) : (s.keepTxn t).d2d = s.d2d := rfl
@[simp] theorem State.keepTxn_her (s t : State) : (s.keepTxn t).her = s.her := rfl
@[simp] theorem State.keepTxn_free (s t : State) : (s.keepTxn t).free = s.free := rfl
@[simp] theorem State.keepTxn_pending (s t : State) : (s.keepTxn t).pending = s.pending := rfl

@[simp] theorem State.keepTem_frame (s t : State) : (s.keepTem t).frame = s.frame := rfl
@[simp] theorem State.keepTem_time (s t : State) : (s.keepTem t).time = s.time := rfl
@[simp] theorem State.keepTem_regs (s t : State) : (s.keepTem t).regs = t.regs := rfl
@[simp] theorem State.keepTem_mem (s t : State) : (s.keepTem t).mem = s.mem := rfl
@[simp] theorem State.keepTem_ring (s t : State) : (s.keepTem t).ring = s.ring := rfl
@[simp] theorem State.keepTem_ni (s t : State) : (s.keepTem t).ni = t.ni := rfl
@[simp] theorem State.keepTem_acu (s t : State) : (s.keepTem t).acu = s.acu := rfl
@[simp] theorem State.keepTem_recs (s t : State) : (s.keepTem t).recs = t.recs := rfl
@[simp] theorem State.keepTem_pmu (s t : State) : (s.keepTem t).pmu = s.pmu := rfl
@[simp] theorem State.keepTem_tem (s t : State) : (s.keepTem t).tem = t.tem := rfl
@[simp] theorem State.keepTem_qe (s t : State) : (s.keepTem t).qe = s.qe := rfl
@[simp] theorem State.keepTem_store (s t : State) : (s.keepTem t).store = s.store := rfl
@[simp] theorem State.keepTem_cdc (s t : State) : (s.keepTem t).cdc = s.cdc := rfl
@[simp] theorem State.keepTem_pw (s t : State) : (s.keepTem t).pw = s.pw := rfl
@[simp] theorem State.keepTem_d2d (s t : State) : (s.keepTem t).d2d = s.d2d := rfl
@[simp] theorem State.keepTem_her (s t : State) : (s.keepTem t).her = s.her := rfl
@[simp] theorem State.keepTem_free (s t : State) : (s.keepTem t).free = s.free := rfl
@[simp] theorem State.keepTem_pending (s t : State) : (s.keepTem t).pending = s.pending := rfl

@[simp] theorem State.keepStore_frame (s t : State) : (s.keepStore t).frame = s.frame := rfl
@[simp] theorem State.keepStore_time (s t : State) : (s.keepStore t).time = s.time := rfl
@[simp] theorem State.keepStore_regs (s t : State) : (s.keepStore t).regs = t.regs := rfl
@[simp] theorem State.keepStore_mem (s t : State) : (s.keepStore t).mem = t.mem := rfl
@[simp] theorem State.keepStore_ring (s t : State) : (s.keepStore t).ring = s.ring := rfl
@[simp] theorem State.keepStore_ni (s t : State) : (s.keepStore t).ni = t.ni := rfl
@[simp] theorem State.keepStore_acu (s t : State) : (s.keepStore t).acu = s.acu := rfl
@[simp] theorem State.keepStore_recs (s t : State) : (s.keepStore t).recs = t.recs := rfl
@[simp] theorem State.keepStore_pmu (s t : State) : (s.keepStore t).pmu = t.pmu := rfl
@[simp] theorem State.keepStore_tem (s t : State) : (s.keepStore t).tem = s.tem := rfl
@[simp] theorem State.keepStore_qe (s t : State) : (s.keepStore t).qe = s.qe := rfl
@[simp] theorem State.keepStore_store (s t : State) : (s.keepStore t).store = t.store := rfl
@[simp] theorem State.keepStore_cdc (s t : State) : (s.keepStore t).cdc = s.cdc := rfl
@[simp] theorem State.keepStore_pw (s t : State) : (s.keepStore t).pw = s.pw := rfl
@[simp] theorem State.keepStore_d2d (s t : State) : (s.keepStore t).d2d = s.d2d := rfl
@[simp] theorem State.keepStore_her (s t : State) : (s.keepStore t).her = s.her := rfl
@[simp] theorem State.keepStore_free (s t : State) : (s.keepStore t).free = s.free := rfl
@[simp] theorem State.keepStore_pending (s t : State) : (s.keepStore t).pending = s.pending := rfl

@[simp] theorem State.keepQe_frame (s t : State) : (s.keepQe t).frame = s.frame := rfl
@[simp] theorem State.keepQe_time (s t : State) : (s.keepQe t).time = s.time := rfl
@[simp] theorem State.keepQe_regs (s t : State) : (s.keepQe t).regs = t.regs := rfl
@[simp] theorem State.keepQe_mem (s t : State) : (s.keepQe t).mem = t.mem := rfl
@[simp] theorem State.keepQe_ring (s t : State) : (s.keepQe t).ring = s.ring := rfl
@[simp] theorem State.keepQe_ni (s t : State) : (s.keepQe t).ni = t.ni := rfl
@[simp] theorem State.keepQe_acu (s t : State) : (s.keepQe t).acu = s.acu := rfl
@[simp] theorem State.keepQe_recs (s t : State) : (s.keepQe t).recs = t.recs := rfl
@[simp] theorem State.keepQe_pmu (s t : State) : (s.keepQe t).pmu = t.pmu := rfl
@[simp] theorem State.keepQe_tem (s t : State) : (s.keepQe t).tem = s.tem := rfl
@[simp] theorem State.keepQe_qe (s t : State) : (s.keepQe t).qe = t.qe := rfl
@[simp] theorem State.keepQe_store (s t : State) : (s.keepQe t).store = t.store := rfl
@[simp] theorem State.keepQe_cdc (s t : State) : (s.keepQe t).cdc = s.cdc := rfl
@[simp] theorem State.keepQe_pw (s t : State) : (s.keepQe t).pw = s.pw := rfl
@[simp] theorem State.keepQe_d2d (s t : State) : (s.keepQe t).d2d = s.d2d := rfl
@[simp] theorem State.keepQe_her (s t : State) : (s.keepQe t).her = s.her := rfl
@[simp] theorem State.keepQe_free (s t : State) : (s.keepQe t).free = s.free := rfl
@[simp] theorem State.keepQe_pending (s t : State) : (s.keepQe t).pending = s.pending := rfl

@[simp] theorem State.keepCycle_frame (s t : State) : (s.keepCycle t).frame = t.frame := rfl
@[simp] theorem State.keepCycle_time (s t : State) : (s.keepCycle t).time = s.time := rfl
@[simp] theorem State.keepCycle_regs (s t : State) : (s.keepCycle t).regs = t.regs := rfl
@[simp] theorem State.keepCycle_mem (s t : State) : (s.keepCycle t).mem = s.mem := rfl
@[simp] theorem State.keepCycle_ring (s t : State) : (s.keepCycle t).ring = t.ring := rfl
@[simp] theorem State.keepCycle_ni (s t : State) : (s.keepCycle t).ni = t.ni := rfl
@[simp] theorem State.keepCycle_acu (s t : State) : (s.keepCycle t).acu = s.acu := rfl
@[simp] theorem State.keepCycle_recs (s t : State) : (s.keepCycle t).recs = t.recs := rfl
@[simp] theorem State.keepCycle_pmu (s t : State) : (s.keepCycle t).pmu = t.pmu := rfl
@[simp] theorem State.keepCycle_tem (s t : State) : (s.keepCycle t).tem = t.tem := rfl
@[simp] theorem State.keepCycle_qe (s t : State) : (s.keepCycle t).qe = s.qe := rfl
@[simp] theorem State.keepCycle_store (s t : State) : (s.keepCycle t).store = s.store := rfl
@[simp] theorem State.keepCycle_cdc (s t : State) : (s.keepCycle t).cdc = s.cdc := rfl
@[simp] theorem State.keepCycle_pw (s t : State) : (s.keepCycle t).pw = t.pw := rfl
@[simp] theorem State.keepCycle_d2d (s t : State) : (s.keepCycle t).d2d = t.d2d := rfl
@[simp] theorem State.keepCycle_her (s t : State) : (s.keepCycle t).her = s.her := rfl
@[simp] theorem State.keepCycle_free (s t : State) : (s.keepCycle t).free = s.free := rfl
@[simp] theorem State.keepCycle_pending (s t : State) : (s.keepCycle t).pending = s.pending := rfl

@[simp] theorem State.keepTest_frame (s t : State) : (s.keepTest t).frame = s.frame := rfl
@[simp] theorem State.keepTest_time (s t : State) : (s.keepTest t).time = s.time := rfl
@[simp] theorem State.keepTest_regs (s t : State) : (s.keepTest t).regs = t.regs := rfl
@[simp] theorem State.keepTest_mem (s t : State) : (s.keepTest t).mem = t.mem := rfl
@[simp] theorem State.keepTest_ring (s t : State) : (s.keepTest t).ring = s.ring := rfl
@[simp] theorem State.keepTest_ni (s t : State) : (s.keepTest t).ni = t.ni := rfl
@[simp] theorem State.keepTest_acu (s t : State) : (s.keepTest t).acu = s.acu := rfl
@[simp] theorem State.keepTest_recs (s t : State) : (s.keepTest t).recs = s.recs := rfl
@[simp] theorem State.keepTest_pmu (s t : State) : (s.keepTest t).pmu = s.pmu := rfl
@[simp] theorem State.keepTest_tem (s t : State) : (s.keepTest t).tem = s.tem := rfl
@[simp] theorem State.keepTest_qe (s t : State) : (s.keepTest t).qe = t.qe := rfl
@[simp] theorem State.keepTest_store (s t : State) : (s.keepTest t).store = t.store := rfl
@[simp] theorem State.keepTest_cdc (s t : State) : (s.keepTest t).cdc = s.cdc := rfl
@[simp] theorem State.keepTest_pw (s t : State) : (s.keepTest t).pw = s.pw := rfl
@[simp] theorem State.keepTest_d2d (s t : State) : (s.keepTest t).d2d = s.d2d := rfl
@[simp] theorem State.keepTest_her (s t : State) : (s.keepTest t).her = t.her := rfl
@[simp] theorem State.keepTest_free (s t : State) : (s.keepTest t).free = t.free := rfl
@[simp] theorem State.keepTest_pending (s t : State) : (s.keepTest t).pending = s.pending := rfl

@[simp] theorem State.keepDom_frame (s t : State) : (s.keepDom t).frame = s.frame := rfl
@[simp] theorem State.keepDom_time (s t : State) : (s.keepDom t).time = s.time := rfl
@[simp] theorem State.keepDom_regs (s t : State) : (s.keepDom t).regs = t.regs := rfl
@[simp] theorem State.keepDom_mem (s t : State) : (s.keepDom t).mem = t.mem := rfl
@[simp] theorem State.keepDom_ring (s t : State) : (s.keepDom t).ring = t.ring := rfl
@[simp] theorem State.keepDom_ni (s t : State) : (s.keepDom t).ni = t.ni := rfl
@[simp] theorem State.keepDom_acu (s t : State) : (s.keepDom t).acu = s.acu := rfl
@[simp] theorem State.keepDom_recs (s t : State) : (s.keepDom t).recs = t.recs := rfl
@[simp] theorem State.keepDom_pmu (s t : State) : (s.keepDom t).pmu = t.pmu := rfl
@[simp] theorem State.keepDom_tem (s t : State) : (s.keepDom t).tem = s.tem := rfl
@[simp] theorem State.keepDom_qe (s t : State) : (s.keepDom t).qe = t.qe := rfl
@[simp] theorem State.keepDom_store (s t : State) : (s.keepDom t).store = t.store := rfl
@[simp] theorem State.keepDom_cdc (s t : State) : (s.keepDom t).cdc = t.cdc := rfl
@[simp] theorem State.keepDom_pw (s t : State) : (s.keepDom t).pw = t.pw := rfl
@[simp] theorem State.keepDom_d2d (s t : State) : (s.keepDom t).d2d = t.d2d := rfl
@[simp] theorem State.keepDom_free (s t : State) : (s.keepDom t).free = s.free := rfl
@[simp] theorem State.keepDom_pending (s t : State) : (s.keepDom t).pending = s.pending := rfl

@[simp] theorem State.keepPw_frame (s t : State) : (s.keepPw t).frame = s.frame := rfl
@[simp] theorem State.keepPw_time (s t : State) : (s.keepPw t).time = s.time := rfl
@[simp] theorem State.keepPw_regs (s t : State) : (s.keepPw t).regs = t.regs := rfl
@[simp] theorem State.keepPw_mem (s t : State) : (s.keepPw t).mem = t.mem := rfl
@[simp] theorem State.keepPw_ring (s t : State) : (s.keepPw t).ring = t.ring := rfl
@[simp] theorem State.keepPw_ni (s t : State) : (s.keepPw t).ni = t.ni := rfl
@[simp] theorem State.keepPw_acu (s t : State) : (s.keepPw t).acu = s.acu := rfl
@[simp] theorem State.keepPw_recs (s t : State) : (s.keepPw t).recs = t.recs := rfl
@[simp] theorem State.keepPw_pmu (s t : State) : (s.keepPw t).pmu = t.pmu := rfl
@[simp] theorem State.keepPw_tem (s t : State) : (s.keepPw t).tem = s.tem := rfl
@[simp] theorem State.keepPw_qe (s t : State) : (s.keepPw t).qe = t.qe := rfl
@[simp] theorem State.keepPw_store (s t : State) : (s.keepPw t).store = t.store := rfl
@[simp] theorem State.keepPw_cdc (s t : State) : (s.keepPw t).cdc = t.cdc := rfl
@[simp] theorem State.keepPw_pw (s t : State) : (s.keepPw t).pw = t.pw := rfl
@[simp] theorem State.keepPw_d2d (s t : State) : (s.keepPw t).d2d = t.d2d := rfl
@[simp] theorem State.keepPw_her (s t : State) : (s.keepPw t).her = s.her := rfl
@[simp] theorem State.keepPw_free (s t : State) : (s.keepPw t).free = s.free := rfl
@[simp] theorem State.keepPw_pending (s t : State) : (s.keepPw t).pending = s.pending := rfl

@[simp] theorem State.keepCmt_frame (s t : State) : (s.keepCmt t).frame = s.frame := rfl
@[simp] theorem State.keepCmt_time (s t : State) : (s.keepCmt t).time = s.time := rfl
@[simp] theorem State.keepCmt_regs (s t : State) : (s.keepCmt t).regs = t.regs := rfl
@[simp] theorem State.keepCmt_mem (s t : State) : (s.keepCmt t).mem = t.mem := rfl
@[simp] theorem State.keepCmt_ring (s t : State) : (s.keepCmt t).ring = t.ring := rfl
@[simp] theorem State.keepCmt_ni (s t : State) : (s.keepCmt t).ni = t.ni := rfl
@[simp] theorem State.keepCmt_acu (s t : State) : (s.keepCmt t).acu = t.acu := rfl
@[simp] theorem State.keepCmt_recs (s t : State) : (s.keepCmt t).recs = t.recs := rfl
@[simp] theorem State.keepCmt_pmu (s t : State) : (s.keepCmt t).pmu = t.pmu := rfl
@[simp] theorem State.keepCmt_tem (s t : State) : (s.keepCmt t).tem = t.tem := rfl
@[simp] theorem State.keepCmt_qe (s t : State) : (s.keepCmt t).qe = t.qe := rfl
@[simp] theorem State.keepCmt_store (s t : State) : (s.keepCmt t).store = t.store := rfl
@[simp] theorem State.keepCmt_cdc (s t : State) : (s.keepCmt t).cdc = t.cdc := rfl
@[simp] theorem State.keepCmt_pw (s t : State) : (s.keepCmt t).pw = t.pw := rfl
@[simp] theorem State.keepCmt_d2d (s t : State) : (s.keepCmt t).d2d = t.d2d := rfl
@[simp] theorem State.keepCmt_her (s t : State) : (s.keepCmt t).her = t.her := rfl
@[simp] theorem State.keepCmt_free (s t : State) : (s.keepCmt t).free = s.free := rfl
@[simp] theorem State.keepCmt_pending (s t : State) : (s.keepCmt t).pending = s.pending := rfl

@[simp] theorem State.keepBoot_frame (s t : State) : (s.keepBoot t).frame = s.frame := rfl
@[simp] theorem State.keepBoot_time (s t : State) : (s.keepBoot t).time = s.time := rfl
@[simp] theorem State.keepBoot_regs (s t : State) : (s.keepBoot t).regs = t.regs := rfl
@[simp] theorem State.keepBoot_mem (s t : State) : (s.keepBoot t).mem = t.mem := rfl
@[simp] theorem State.keepBoot_ring (s t : State) : (s.keepBoot t).ring = t.ring := rfl
@[simp] theorem State.keepBoot_ni (s t : State) : (s.keepBoot t).ni = t.ni := rfl
@[simp] theorem State.keepBoot_acu (s t : State) : (s.keepBoot t).acu = t.acu := rfl
@[simp] theorem State.keepBoot_recs (s t : State) : (s.keepBoot t).recs = t.recs := rfl
@[simp] theorem State.keepBoot_pmu (s t : State) : (s.keepBoot t).pmu = t.pmu := rfl
@[simp] theorem State.keepBoot_tem (s t : State) : (s.keepBoot t).tem = t.tem := rfl
@[simp] theorem State.keepBoot_qe (s t : State) : (s.keepBoot t).qe = t.qe := rfl
@[simp] theorem State.keepBoot_store (s t : State) : (s.keepBoot t).store = t.store := rfl
@[simp] theorem State.keepBoot_cdc (s t : State) : (s.keepBoot t).cdc = t.cdc := rfl
@[simp] theorem State.keepBoot_pw (s t : State) : (s.keepBoot t).pw = t.pw := rfl
@[simp] theorem State.keepBoot_d2d (s t : State) : (s.keepBoot t).d2d = t.d2d := rfl
@[simp] theorem State.keepBoot_her (s t : State) : (s.keepBoot t).her = t.her := rfl
@[simp] theorem State.keepBoot_free (s t : State) : (s.keepBoot t).free = s.free := rfl
@[simp] theorem State.keepBoot_pending (s t : State) : (s.keepBoot t).pending = s.pending := rfl

@[simp] theorem State.keepReg_time (s t : State) : (s.keepReg t).time = t.time := rfl
@[simp] theorem State.keepReg_regs (s t : State) : (s.keepReg t).regs = t.regs := rfl
@[simp] theorem State.keepReg_mem (s t : State) : (s.keepReg t).mem = t.mem := rfl
@[simp] theorem State.keepReg_ring (s t : State) : (s.keepReg t).ring = t.ring := rfl
@[simp] theorem State.keepReg_ni (s t : State) : (s.keepReg t).ni = t.ni := rfl
@[simp] theorem State.keepReg_acu (s t : State) : (s.keepReg t).acu = t.acu := rfl
@[simp] theorem State.keepReg_recs (s t : State) : (s.keepReg t).recs = t.recs := rfl
@[simp] theorem State.keepReg_pmu (s t : State) : (s.keepReg t).pmu = t.pmu := rfl
@[simp] theorem State.keepReg_tem (s t : State) : (s.keepReg t).tem = t.tem := rfl
@[simp] theorem State.keepReg_qe (s t : State) : (s.keepReg t).qe = t.qe := rfl
@[simp] theorem State.keepReg_store (s t : State) : (s.keepReg t).store = t.store := rfl
@[simp] theorem State.keepReg_cdc (s t : State) : (s.keepReg t).cdc = t.cdc := rfl
@[simp] theorem State.keepReg_pw (s t : State) : (s.keepReg t).pw = t.pw := rfl
@[simp] theorem State.keepReg_d2d (s t : State) : (s.keepReg t).d2d = t.d2d := rfl
@[simp] theorem State.keepReg_her (s t : State) : (s.keepReg t).her = t.her := rfl
@[simp] theorem State.keepReg_free (s t : State) : (s.keepReg t).free = t.free := rfl
@[simp] theorem State.keepReg_pending (s t : State) : (s.keepReg t).pending = s.pending := rfl

@[simp] theorem State.keepSwap_time (s t : State) : (s.keepSwap t).time = s.time := rfl
@[simp] theorem State.keepSwap_regs (s t : State) : (s.keepSwap t).regs = t.regs := rfl
@[simp] theorem State.keepSwap_mem (s t : State) : (s.keepSwap t).mem = t.mem := rfl
@[simp] theorem State.keepSwap_ring (s t : State) : (s.keepSwap t).ring = t.ring := rfl
@[simp] theorem State.keepSwap_ni (s t : State) : (s.keepSwap t).ni = t.ni := rfl
@[simp] theorem State.keepSwap_acu (s t : State) : (s.keepSwap t).acu = t.acu := rfl
@[simp] theorem State.keepSwap_recs (s t : State) : (s.keepSwap t).recs = t.recs := rfl
@[simp] theorem State.keepSwap_pmu (s t : State) : (s.keepSwap t).pmu = t.pmu := rfl
@[simp] theorem State.keepSwap_tem (s t : State) : (s.keepSwap t).tem = t.tem := rfl
@[simp] theorem State.keepSwap_qe (s t : State) : (s.keepSwap t).qe = t.qe := rfl
@[simp] theorem State.keepSwap_store (s t : State) : (s.keepSwap t).store = t.store := rfl
@[simp] theorem State.keepSwap_cdc (s t : State) : (s.keepSwap t).cdc = t.cdc := rfl
@[simp] theorem State.keepSwap_pw (s t : State) : (s.keepSwap t).pw = t.pw := rfl
@[simp] theorem State.keepSwap_d2d (s t : State) : (s.keepSwap t).d2d = t.d2d := rfl
@[simp] theorem State.keepSwap_her (s t : State) : (s.keepSwap t).her = t.her := rfl
@[simp] theorem State.keepSwap_free (s t : State) : (s.keepSwap t).free = s.free := rfl
@[simp] theorem State.keepSwap_pending (s t : State) : (s.keepSwap t).pending = s.pending := rfl

@[simp] theorem State.keepAll_time (s t : State) : (s.keepAll t).time = t.time := rfl
@[simp] theorem State.keepAll_regs (s t : State) : (s.keepAll t).regs = t.regs := rfl
@[simp] theorem State.keepAll_mem (s t : State) : (s.keepAll t).mem = t.mem := rfl
@[simp] theorem State.keepAll_ring (s t : State) : (s.keepAll t).ring = t.ring := rfl
@[simp] theorem State.keepAll_ni (s t : State) : (s.keepAll t).ni = t.ni := rfl
@[simp] theorem State.keepAll_acu (s t : State) : (s.keepAll t).acu = t.acu := rfl
@[simp] theorem State.keepAll_recs (s t : State) : (s.keepAll t).recs = t.recs := rfl
@[simp] theorem State.keepAll_pmu (s t : State) : (s.keepAll t).pmu = t.pmu := rfl
@[simp] theorem State.keepAll_tem (s t : State) : (s.keepAll t).tem = t.tem := rfl
@[simp] theorem State.keepAll_qe (s t : State) : (s.keepAll t).qe = t.qe := rfl
@[simp] theorem State.keepAll_store (s t : State) : (s.keepAll t).store = t.store := rfl
@[simp] theorem State.keepAll_cdc (s t : State) : (s.keepAll t).cdc = t.cdc := rfl
@[simp] theorem State.keepAll_pw (s t : State) : (s.keepAll t).pw = t.pw := rfl
@[simp] theorem State.keepAll_d2d (s t : State) : (s.keepAll t).d2d = t.d2d := rfl
@[simp] theorem State.keepAll_her (s t : State) : (s.keepAll t).her = t.her := rfl
@[simp] theorem State.keepAll_free (s t : State) : (s.keepAll t).free = s.free := rfl
@[simp] theorem State.keepAll_pending (s t : State) : (s.keepAll t).pending = s.pending := rfl

end Sys2Proof.Machine
end

