-- ==== Sys2Proof/Laws/Tab.lean ====
section
/-! SUPPORT. The laws of the sparse table: a read after a write to the same key gives the value
written, a write leaves every other key alone, and every write keeps the canonical form. -/
namespace Sys2Proof.Machine

theorem Tab.get_insert_same {α : Type} (d : Nat → α) (t : Tab α) (k : Nat) (v : α) :
    Tab.get d (Tab.insert t k v) k = v := by
  induction t with
  | nil => simp [Tab.insert, Tab.get]
  | cons e rest ih =>
    obtain ⟨j, u⟩ := e
    simp only [Tab.insert]
    split
    · simp [Tab.get]
    · split
      · simp [Tab.get]
      · rename_i h1 h2
        simp only [Tab.get]
        rw [if_neg (fun h => h2 h.symm)]
        exact ih

theorem Tab.get_insert_other {α : Type} (d : Nat → α) (t : Tab α) (k j : Nat) (v : α)
    (h : j ≠ k) : Tab.get d (Tab.insert t k v) j = Tab.get d t j := by
  induction t with
  | nil => simp [Tab.insert, Tab.get, Ne.symm h]
  | cons e rest ih =>
    obtain ⟨i, u⟩ := e
    simp only [Tab.insert]
    split
    · simp [Tab.get, Ne.symm h]
    · split
      · rename_i h2; subst h2; simp [Tab.get, Ne.symm h]
      · simp only [Tab.get]; split
        · rfl
        · exact ih

theorem Tab.get_erase_same {α : Type} (d : Nat → α) (t : Tab α) (k : Nat) :
    Tab.get d (Tab.erase t k) k = d k := by
  induction t with
  | nil => rfl
  | cons e rest ih =>
    obtain ⟨i, u⟩ := e
    simp only [Tab.erase]; split
    · exact ih
    · rename_i h; simp only [Tab.get, if_neg h]; exact ih

theorem Tab.get_erase_other {α : Type} (d : Nat → α) (t : Tab α) (k j : Nat) (h : j ≠ k) :
    Tab.get d (Tab.erase t k) j = Tab.get d t j := by
  induction t with
  | nil => rfl
  | cons e rest ih =>
    obtain ⟨i, u⟩ := e
    simp only [Tab.erase]; split
    · rename_i h2; subst h2; simp only [Tab.get, if_neg (Ne.symm h)]; exact ih
    · simp only [Tab.get]; split
      · rfl
      · exact ih

@[simp] theorem Tab.get_set_same {α : Type} [DecidableEq α] (d : Nat → α) (t : Tab α) (k : Nat)
    (v : α) : Tab.get d (Tab.set d t k v) k = v := by
  unfold Tab.set; split
  · rename_i h; rw [Tab.get_erase_same]; exact h.symm
  · exact Tab.get_insert_same d t k v

theorem Tab.get_set_other {α : Type} [DecidableEq α] (d : Nat → α) (t : Tab α) (k j : Nat)
    (v : α) (h : j ≠ k) : Tab.get d (Tab.set d t k v) j = Tab.get d t j := by
  unfold Tab.set; split
  · exact Tab.get_erase_other d t k j h
  · exact Tab.get_insert_other d t k j v h

theorem Tab.above_mono {α : Type} {a b : Nat} (t : Tab α) (h : a ≤ b) (hb : Tab.above b t = true) :
    Tab.above a t = true := by
  induction t with
  | nil => rfl
  | cons e rest ih =>
    obtain ⟨j, u⟩ := e
    simp only [Tab.above, Bool.and_eq_true, decide_eq_true_eq] at hb ⊢
    exact ⟨by omega, ih hb.2⟩

theorem Tab.above_erase {α : Type} (b k : Nat) (t : Tab α) (h : Tab.above b t = true) :
    Tab.above b (Tab.erase t k) = true := by
  induction t with
  | nil => rfl
  | cons e rest ih =>
    obtain ⟨j, u⟩ := e
    simp only [Tab.above, Bool.and_eq_true, decide_eq_true_eq] at h
    simp only [Tab.erase]; split
    · exact ih h.2
    · simp only [Tab.above, Bool.and_eq_true, decide_eq_true_eq]; exact ⟨h.1, ih h.2⟩

theorem Tab.above_insert {α : Type} (b k : Nat) (v : α) (t : Tab α) (hk : b < k)
    (h : Tab.above b t = true) : Tab.above b (Tab.insert t k v) = true := by
  induction t with
  | nil => simp [Tab.insert, Tab.above, hk]
  | cons e rest ih =>
    obtain ⟨j, u⟩ := e
    simp only [Tab.above, Bool.and_eq_true, decide_eq_true_eq] at h
    simp only [Tab.insert]; split
    · simp [Tab.above, hk, h.1, h.2]
    · split
      · simp [Tab.above, hk, h.2]
      · simp [Tab.above, h.1, ih h.2]

theorem Tab.wf_erase {α : Type} [DecidableEq α] (d : Nat → α) (t : Tab α) (k : Nat)
    (h : Tab.wf d t = true) : Tab.wf d (Tab.erase t k) = true := by
  induction t with
  | nil => rfl
  | cons e rest ih =>
    obtain ⟨j, u⟩ := e
    simp only [Tab.wf, Bool.and_eq_true] at h
    simp only [Tab.erase]; split
    · exact ih h.2
    · simp only [Tab.wf, Bool.and_eq_true]
      exact ⟨⟨Tab.above_erase j k rest h.1.1, h.1.2⟩, ih h.2⟩

theorem Tab.wf_insert {α : Type} [DecidableEq α] (d : Nat → α) (t : Tab α) (k : Nat) (v : α)
    (hv : v ≠ d k) (h : Tab.wf d t = true) : Tab.wf d (Tab.insert t k v) = true := by
  induction t with
  | nil => simp [Tab.insert, Tab.wf, Tab.above, hv]
  | cons e rest ih =>
    obtain ⟨j, u⟩ := e
    simp only [Tab.wf, Bool.and_eq_true] at h
    simp only [Tab.insert]; split
    · rename_i hk
      simp only [Tab.wf, Tab.above, Bool.and_eq_true, decide_eq_true_eq]
      exact ⟨⟨⟨hk, Tab.above_mono rest (by omega) h.1.1⟩, hv⟩, ⟨⟨h.1.1, of_decide_eq_true h.1.2⟩, h.2⟩⟩
    · split
      · rename_i hk; subst hk
        simp only [Tab.wf, Bool.and_eq_true, decide_eq_true_eq]
        exact ⟨⟨h.1.1, hv⟩, h.2⟩
      · rename_i h1 h2
        simp only [Tab.wf, Bool.and_eq_true]
        exact ⟨⟨Tab.above_insert j k v rest (by omega) h.1.1, h.1.2⟩, ih h.2⟩

/-- Every write keeps the canonical form. -/
theorem Tab.wf_set {α : Type} [DecidableEq α] (d : Nat → α) (t : Tab α) (k : Nat) (v : α)
    (h : Tab.wf d t = true) : Tab.wf d (Tab.set d t k v) = true := by
  unfold Tab.set; split
  · exact Tab.wf_erase d t k h
  · rename_i hv; exact Tab.wf_insert d t k v hv h

end Sys2Proof.Machine
end

