-- ==== Sys2Proof/Laws/Ops.lean ====
section
/-! SUPPORT. What the shared operations do: a field read after a field written, a register read after a register
written, loops over indices, records, and the memory of the queue stores. -/
namespace Sys2Proof.Machine
open Sys2Proof

/-! ### Fields -/

theorem fieldOf_eq {n : Nat} (v : BitVec n) (lo w : Nat) : fieldOf v lo w = v.toNat / 2 ^ lo % 2 ^ w := by
  unfold fieldOf; rw [Nat.shiftRight_eq_div_pow]

theorem fieldOf_lt {n : Nat} (v : BitVec n) (lo w : Nat) : fieldOf v lo w < 2 ^ w :=
  Nat.mod_lt _ (Nat.two_pow_pos w)

/-- A word as its bits below a field, the field, and the bits above it. -/
theorem field_split (N lo w : Nat) :
    N = N % 2 ^ lo + (N / 2 ^ lo % 2 ^ w) * 2 ^ lo + (N / 2 ^ (lo + w)) * 2 ^ (lo + w) := by
  have h1 := Nat.div_add_mod N (2 ^ lo)
  have h2 := Nat.div_add_mod (N / 2 ^ lo) (2 ^ w)
  rw [Nat.div_div_eq_div_mul, ← pow_add] at h2
  calc N = 2 ^ lo * (N / 2 ^ lo) + N % 2 ^ lo := h1.symm
    _ = 2 ^ lo * (2 ^ w * (N / 2 ^ (lo + w)) + N / 2 ^ lo % 2 ^ w) + N % 2 ^ lo := by rw [h2]
    _ = _ := by rw [pow_add]; ring

/-- A digit and what lies below it stay below the next digit. -/
theorem digit_lt {a b L W : Nat} (ha : a < L) (hb : b < W) : a + b * L < W * L := by
  have h := Nat.mul_le_mul_right L (Nat.succ_le_of_lt hb)
  rw [Nat.succ_mul] at h; omega

/-- What a written field makes of the word, as a number. -/
theorem withField_toNat {n : Nat} (v : BitVec n) (lo w x : Nat) (h : lo + w ≤ n) :
    (withField v lo w x).toNat
      = v.toNat % 2 ^ lo + (x % 2 ^ w) * 2 ^ lo + (v.toNat / 2 ^ (lo + w)) * 2 ^ (lo + w) := by
  have hs := field_split v.toNat lo w
  have hx : x % 2 ^ w < 2 ^ w := Nat.mod_lt _ (Nat.two_pow_pos w)
  have hl : v.toNat % 2 ^ lo < 2 ^ lo := Nat.mod_lt _ (Nat.two_pow_pos lo)
  have hq : v.toNat / 2 ^ (lo + w) < 2 ^ (n - (lo + w)) := by
    apply Nat.div_lt_of_lt_mul
    rw [← pow_add, Nat.add_sub_cancel' h]; exact v.isLt
  have hbound : v.toNat % 2 ^ lo + (x % 2 ^ w) * 2 ^ lo + (v.toNat / 2 ^ (lo + w)) * 2 ^ (lo + w) < 2 ^ n := by
    have e : (2 : Nat) ^ n = 2 ^ (n - (lo + w)) * 2 ^ (lo + w) := by rw [← pow_add, Nat.sub_add_cancel h]
    have e2 : (2 : Nat) ^ (lo + w) = 2 ^ w * 2 ^ lo := by rw [← pow_add, Nat.add_comm]
    have a1 : v.toNat % 2 ^ lo + (x % 2 ^ w) * 2 ^ lo < 2 ^ (lo + w) := by
      rw [e2]; exact digit_lt hl hx
    rw [e]; exact digit_lt a1 hq
  unfold withField
  rw [fieldOf_eq, BitVec.toNat_ofNat]
  have hsub : v.toNat - v.toNat / 2 ^ lo % 2 ^ w * 2 ^ lo
      = v.toNat % 2 ^ lo + (v.toNat / 2 ^ (lo + w)) * 2 ^ (lo + w) := by omega
  rw [hsub, Nat.mod_eq_of_lt]
  · ring
  · linarith

/-- The field that was written reads as what was written, cut to its width. -/
theorem fieldOf_withField {n : Nat} (v : BitVec n) (lo w x : Nat) (h : lo + w ≤ n) :
    fieldOf (withField v lo w x) lo w = x % 2 ^ w := by
  rw [fieldOf_eq, withField_toNat v lo w x h]
  have hl : v.toNat % 2 ^ lo < 2 ^ lo := Nat.mod_lt _ (Nat.two_pow_pos lo)
  have e2 : (2 : Nat) ^ (lo + w) = 2 ^ lo * 2 ^ w := pow_add _ _ _
  have : (v.toNat % 2 ^ lo + x % 2 ^ w * 2 ^ lo + v.toNat / 2 ^ (lo + w) * 2 ^ (lo + w)) / 2 ^ lo
      = x % 2 ^ w + v.toNat / 2 ^ (lo + w) * 2 ^ w := by
    rw [show v.toNat % 2 ^ lo + x % 2 ^ w * 2 ^ lo + v.toNat / 2 ^ (lo + w) * 2 ^ (lo + w)
        = v.toNat % 2 ^ lo + 2 ^ lo * (x % 2 ^ w + v.toNat / 2 ^ (lo + w) * 2 ^ w) by rw [e2]; ring]
    rw [Nat.add_mul_div_left _ _ (Nat.two_pow_pos lo), Nat.div_eq_of_lt hl, Nat.zero_add]
  rw [this, Nat.add_mul_mod_self_right, Nat.mod_mod]

/-- A field below the one that was written reads as before. -/
theorem fieldOf_withField_below {n : Nat} (v : BitVec n) (lo w x a b : Nat) (h : lo + w ≤ n) (hb : a + b ≤ lo) :
    fieldOf (withField v lo w x) a b = fieldOf v a b := by
  rw [fieldOf_eq, fieldOf_eq, withField_toNat v lo w x h]
  have hs := field_split v.toNat lo w
  obtain ⟨k, rfl⟩ := Nat.exists_eq_add_of_le hb
  have key : ∀ y z : Nat, (y % 2 ^ (a + b + k) + z * 2 ^ (a + b + k)) / 2 ^ a % 2 ^ b
      = y / 2 ^ a % 2 ^ b := by
    intro y z
    have h1 : (y % 2 ^ (a + b + k) + z * 2 ^ (a + b + k)) % 2 ^ (a + b) = y % 2 ^ (a + b) := by
      rw [show z * 2 ^ (a + b + k) = 2 ^ (a + b) * (z * 2 ^ k) by rw [pow_add]; ring]
      rw [Nat.add_mul_mod_self_left, Nat.mod_mod_of_dvd _ (pow_dvd_pow 2 (Nat.le_add_right _ _))]
    rw [← Nat.mod_mul_right_div_self, ← Nat.mod_mul_right_div_self, ← pow_add, h1]
  have e : ∀ p : Nat, v.toNat % 2 ^ (a + b + k) + p * 2 ^ (a + b + k)
        + v.toNat / 2 ^ (a + b + k + w) * 2 ^ (a + b + k + w)
      = v.toNat % 2 ^ (a + b + k) + (p + v.toNat / 2 ^ (a + b + k + w) * 2 ^ w) * 2 ^ (a + b + k) := by
    intro p; rw [pow_add 2 (a + b + k) w]; ring
  rw [e, key]

/-- A field above the one that was written reads as before. -/
theorem fieldOf_withField_above {n : Nat} (v : BitVec n) (lo w x a b : Nat) (h : lo + w ≤ n) (hb : lo + w ≤ a) :
    fieldOf (withField v lo w x) a b = fieldOf v a b := by
  rw [fieldOf_eq, fieldOf_eq, withField_toNat v lo w x h]
  obtain ⟨k, rfl⟩ := Nat.exists_eq_add_of_le hb
  have hx : x % 2 ^ w < 2 ^ w := Nat.mod_lt _ (Nat.two_pow_pos w)
  have hl : v.toNat % 2 ^ lo < 2 ^ lo := Nat.mod_lt _ (Nat.two_pow_pos lo)
  have lt : v.toNat % 2 ^ lo + (x % 2 ^ w) * 2 ^ lo < 2 ^ (lo + w) := by
    rw [show (2 : Nat) ^ (lo + w) = 2 ^ w * 2 ^ lo by rw [← pow_add, Nat.add_comm]]; exact digit_lt hl hx
  rw [pow_add 2 (lo + w) k, ← Nat.div_div_eq_div_mul, ← Nat.div_div_eq_div_mul,
    Nat.add_mul_div_right _ _ (Nat.two_pow_pos _), Nat.div_eq_of_lt lt, Nat.zero_add]

/-! ### Registers -/

@[simp] theorem State.reg_setReg_same (s : State) (a : Nat) (v : Word32) : (s.setReg a v).reg a = v := by
  unfold State.setReg State.reg; exact Tab.get_set_same _ _ _ _

theorem State.reg_setReg_other (s : State) (a b : Nat) (v : Word32) (h : b ≠ a) :
    (s.setReg a v).reg b = s.reg b := by
  unfold State.setReg State.reg; exact Tab.get_set_other _ _ _ _ _ h

@[simp] theorem State.reg_setFld_same (s : State) (a lo w x : Nat) :
    (s.setFld a lo w x).reg a = withField (s.reg a) lo w x := by
  unfold State.setFld; simp

theorem State.reg_setFld_other (s : State) (a b lo w x : Nat) (h : b ≠ a) :
    (s.setFld a lo w x).reg b = s.reg b := State.reg_setReg_other s a b _ h

theorem State.fld_setFld_same (s : State) (a lo w x : Nat) (h : lo + w ≤ 32) :
    (s.setFld a lo w x).fld a lo w = x % 2 ^ w := by
  unfold State.fld; rw [State.reg_setFld_same, fieldOf_withField _ _ _ _ h]

theorem State.fld_setFld_below (s : State) (a lo w x c d : Nat) (h : lo + w ≤ 32) (hb : c + d ≤ lo) :
    (s.setFld a lo w x).fld a c d = s.fld a c d := by
  unfold State.fld; rw [State.reg_setFld_same, fieldOf_withField_below _ _ _ _ _ _ h hb]

theorem State.fld_setFld_above (s : State) (a lo w x c d : Nat) (h : lo + w ≤ 32) (hb : lo + w ≤ c) :
    (s.setFld a lo w x).fld a c d = s.fld a c d := by
  unfold State.fld; rw [State.reg_setFld_same, fieldOf_withField_above _ _ _ _ _ _ h hb]

theorem State.fld_setFld_other (s : State) (a b lo w x c d : Nat) (h : b ≠ a) :
    (s.setFld a lo w x).fld b c d = s.fld b c d := by
  unfold State.fld; rw [State.reg_setFld_other s a b lo w x h]

/-- A flag reads 1 once it is raised. -/
theorem State.flag_raiseFlag (s : State) (a i : Nat) (h : i < 32) : (s.raiseFlag a i).flag a i = true := by
  unfold State.flag State.raiseFlag
  rw [State.fld_setFld_same s a i 1 1 (by omega)]; rfl

theorem State.reg_raiseFlag_other (s : State) (a b i : Nat) (h : b ≠ a) : (s.raiseFlag a i).reg b = s.reg b :=
  State.reg_setFld_other s a b i 1 1 h

theorem State.reg_count_other (s : State) (a b lo w n : Nat) (h : b ≠ a) : (s.count a lo w n).reg b = s.reg b :=
  State.reg_setFld_other s a b lo w _ h

/-- A counter holds at its largest value, and counts below it. -/
theorem State.fld_count (s : State) (a lo w n : Nat) (h : lo + w ≤ 32) :
    (s.count a lo w n).fld a lo w = satAdd w (s.fld a lo w) n := by
  unfold State.count
  rw [State.fld_setFld_same s a lo w _ h, Nat.mod_eq_of_lt]
  have := Nat.two_pow_pos w
  unfold satAdd; split <;> omega

/-- Registers read through the fields alone: equal tables read alike. -/
theorem State.reg_congr {s t : State} (h : s.regs = t.regs) (a : Nat) : s.reg a = t.reg a := by
  unfold State.reg; rw [h]

/-! ### Loops -/

/-- What every round keeps, the loop keeps. -/
theorem forUpTo_keeps {σ : Type} (P : σ → Prop) (n : Nat) (f : Nat → σ → σ) (s : σ)
    (hf : ∀ i s, i < n → P s → P (f i s)) (hs : P s) : P (forUpTo n f s) := by
  unfold forUpTo
  have : ∀ (l : List Nat) (s : σ), (∀ i ∈ l, i < n) → P s → P (l.foldl (fun acc i => f i acc) s) := by
    intro l
    induction l with
    | nil => intro s _ h; exact h
    | cons a r ih =>
      intro s hl h
      exact ih _ (fun i hi => hl i (List.mem_cons_of_mem _ hi)) (hf a s (hl a List.mem_cons_self) h)
  exact this _ s (fun i hi => List.mem_range.mp hi) hs

/-- What no round changes, the loop does not change. -/
theorem forUpTo_same {σ τ : Type} (g : σ → τ) (n : Nat) (f : Nat → σ → σ) (s : σ)
    (hf : ∀ i s, i < n → g (f i s) = g s) : g (forUpTo n f s) = g s :=
  forUpTo_keeps (fun t => g t = g s) n f s (fun i t hi ht => (hf i t hi).trans ht) rfl

/-- The same for a fold over a list. -/
theorem foldl_same {σ τ α : Type} (g : σ → τ) (l : List α) (f : σ → α → σ) (s : σ)
    (hf : ∀ s a, g (f s a) = g s) : g (l.foldl f s) = g s := by
  induction l generalizing s with
  | nil => rfl
  | cons a r ih => exact (ih (f s a)).trans (hf s a)

theorem foldl_keeps {σ α : Type} (P : σ → Prop) (l : List α) (f : σ → α → σ) (s : σ)
    (hf : ∀ s a, P s → P (f s a)) (hs : P s) : P (l.foldl f s) := by
  induction l generalizing s with
  | nil => exact hs
  | cons a r ih => exact ih (f s a) (hf s a hs)

/-- The last round is the outermost. -/
theorem forUpTo_succ {σ : Type} (n : Nat) (f : Nat → σ → σ) (s : σ) :
    forUpTo (n + 1) f s = f n (forUpTo n f s) := by
  unfold forUpTo; rw [List.range_succ, List.foldl_append]; rfl

/-! ### Records -/

/-- Everything a record can change: registers, for a lost one, and the record buffers. -/
theorem State.raise_bound (s : State) (st : Nat) (r : RecIn) :
    s.raise st r = { s with regs := (s.raise st r).regs, recs := (s.raise st r).recs } := by
  unfold State.raise; split
  · rfl
  · simp only [State.count, State.raiseFlag, State.setFld, State.setReg]

/-- With room in the buffer the record enters it, last. -/
theorem State.raise_room (s : State) (st : Nat) (r : RecIn) (h : (s.recBuf st).length < 8) :
    (s.raise st r).recBuf st = s.recBuf st ++
      [recBits (s.localTs st).count.toNat s.die st r (Tab.get (fun _ => false) s.recs.lostAt st)] := by
  unfold State.raise; rw [if_pos h]
  simp only [State.recBuf, State.setRecBuf, Tab.get_set_same]

/-- A full buffer keeps what it holds. -/
theorem State.raise_full (s : State) (st : Nat) (r : RecIn) (h : ¬ (s.recBuf st).length < 8) :
    (s.raise st r).recBuf = s.recBuf := by
  funext j; unfold State.raise; rw [if_neg h]
  simp only [State.recBuf, State.count_recs, State.raiseFlag_recs]

/-! ### Memory of the queue stores -/

theorem State.sym_setSym_same (s : State) (st b row k : Nat) (v : BitVec 8) :
    (s.setSym st b row k v).sym st b row k = v := by
  unfold State.setSym State.sym; exact Tab.get_set_same _ _ _ _

/-- A write to one symbol leaves every other address alone. -/
theorem State.mem_setSym_other (s : State) (st b row k : Nat) (v : BitVec 8) (a : Nat)
    (h : a ≠ memKey st b row k) :
    Tab.get memDef (s.setSym st b row k v).mem a = Tab.get memDef s.mem a := by
  unfold State.setSym; exact Tab.get_set_other _ _ _ _ _ h

/-- Every symbol write keeps the canonical form. -/
theorem State.wf_setSym (s : State) (st b row k : Nat) (v : BitVec 8) (h : Memory.wf s.mem) :
    Memory.wf (s.setSym st b row k v).mem := by
  unfold State.setSym; exact Tab.wf_set _ _ _ _ h

/-- Every word write keeps the canonical form. -/
theorem State.wf_setMemWord (s : State) (st b row : Nat) (w : BitVec 288) (h : Memory.wf s.mem) :
    Memory.wf (s.setMemWord st b row w).mem := by
  unfold State.setMemWord
  exact forUpTo_keeps (fun t : State => Memory.wf t.mem) 36 _ s (fun i t _ ht => State.wf_setSym t _ _ _ _ _ ht) h

/-- The empty memory of reset is in canonical form. -/
theorem State.wf_reset : Memory.wf State.reset.mem := rfl

theorem Tab.above_filter {α : Type} (p : Nat × α → Bool) (b : Nat) (t : Tab α) (h : Tab.above b t = true) :
    Tab.above b (t.filter p) = true := by
  induction t with
  | nil => rfl
  | cons e rest ih =>
    obtain ⟨j, u⟩ := e
    simp only [Tab.above, Bool.and_eq_true, decide_eq_true_eq] at h
    by_cases hp : p (j, u) = true
    · rw [List.filter_cons_of_pos hp]
      simp only [Tab.above, Bool.and_eq_true, decide_eq_true_eq]; exact ⟨h.1, ih h.2⟩
    · rw [List.filter_cons_of_neg hp]; exact ih h.2

/-- Entries taken out leave the canonical form. -/
theorem Tab.wf_filter {α : Type} [DecidableEq α] (p : Nat × α → Bool) (d : Nat → α) (t : Tab α)
    (h : Tab.wf d t = true) : Tab.wf d (t.filter p) = true := by
  induction t with
  | nil => rfl
  | cons e rest ih =>
    obtain ⟨j, u⟩ := e
    simp only [Tab.wf, Bool.and_eq_true] at h
    by_cases hp : p (j, u) = true
    · rw [List.filter_cons_of_pos hp]
      simp only [Tab.wf, Bool.and_eq_true]
      exact ⟨⟨Tab.above_filter p j rest h.1.1, h.1.2⟩, ih h.2⟩
    · rw [List.filter_cons_of_neg hp]; exact ih h.2

/-- The fill of a store keeps the canonical form (R308). -/
theorem State.wf_fillStop (s : State) (st : Nat) (h : Memory.wf s.mem) : Memory.wf (s.fillStop st).mem := by
  have hb : ∀ (t : State) (b : Nat), (t.fillBank st b).mem = t.mem := by
    intro t b; unfold State.fillBank
    exact forUpTo_same (fun u : State => u.mem) 8 _ _ (fun _ _ _ => rfl)
  unfold State.fillStop
  simp only [State.setReg_mem]
  rw [forUpTo_same (fun u : State => u.mem) 4 _ _ (fun i t _ => hb t i)]
  exact Tab.wf_filter _ _ _ h

end Sys2Proof.Machine
end

