-- ==== Sys2Proof/Laws/Reads.lean ====
section
/-! SUPPORT. A read of a named part of the state after a write of it: at the same place what was written, at any
other place what stood there. -/
namespace Sys2Proof.Machine
open Sys2Proof

@[simp] theorem State.dir_setDir_same (s : State) (st d : Nat) (v : DirSt) : (s.setDir st d v).dir st d = v := by
  unfold State.setDir State.dir; exact Tab.get_set_same _ _ _ _
theorem State.dir_setDir_other (s : State) (st d st' d' : Nat) (v : DirSt) (h : st' * 4 + d' ≠ st * 4 + d) :
    (s.setDir st d v).dir st' d' = s.dir st' d' := by
  unfold State.setDir State.dir; exact Tab.get_set_other _ _ _ _ _ h

@[simp] theorem State.ej_setEj_same (s : State) (st : Nat) (v : List EjEnt) : (s.setEj st v).ej st = v := by
  unfold State.setEj State.ej; exact Tab.get_set_same _ _ _ _
theorem State.ej_setEj_other (s : State) (st st' : Nat) (v : List EjEnt) (h : st' ≠ st) :
    (s.setEj st v).ej st' = s.ej st' := by
  unfold State.setEj State.ej; exact Tab.get_set_other _ _ _ _ _ h

@[simp] theorem State.rr_setRr_same (s : State) (st d c : Nat) (v : Nat) : (s.setRr st d c v).rr st d c = v := by
  unfold State.setRr State.rr; exact Tab.get_set_same _ _ _ _
theorem State.rr_setRr_other (s : State) (st d c st' d' c' : Nat) (v : Nat) (h : (st' * 4 + d') * 8 + c' ≠ (st * 4 + d) * 8 + c) :
    (s.setRr st d c v).rr st' d' c' = s.rr st' d' c' := by
  unfold State.setRr State.rr; exact Tab.get_set_other _ _ _ _ _ h

@[simp] theorem State.deficit_setDeficit_same (s : State) (st d c : Nat) (v : Nat) : (s.setDeficit st d c v).deficit st d c = v := by
  unfold State.setDeficit State.deficit; exact Tab.get_set_same _ _ _ _
theorem State.deficit_setDeficit_other (s : State) (st d c st' d' c' : Nat) (v : Nat) (h : (st' * 4 + d') * 8 + c' ≠ (st * 4 + d) * 8 + c) :
    (s.setDeficit st d c v).deficit st' d' c' = s.deficit st' d' c' := by
  unfold State.setDeficit State.deficit; exact Tab.get_set_other _ _ _ _ _ h

@[simp] theorem State.injq_setInjq_same (s : State) (st q : Nat) (v : List QPkt) : (s.setInjq st q v).injq st q = v := by
  unfold State.setInjq State.injq; exact Tab.get_set_same _ _ _ _
theorem State.injq_setInjq_other (s : State) (st q st' q' : Nat) (v : List QPkt) (h : st' * 512 + q' ≠ st * 512 + q) :
    (s.setInjq st q v).injq st' q' = s.injq st' q' := by
  unfold State.setInjq State.injq; exact Tab.get_set_other _ _ _ _ _ h

@[simp] theorem State.heldAt_setHeld_same (s : State) (st p : Nat) (v : List Held) : (s.setHeld st p v).heldAt st p = v := by
  unfold State.setHeld State.heldAt; exact Tab.get_set_same _ _ _ _
theorem State.heldAt_setHeld_other (s : State) (st p st' p' : Nat) (v : List Held) (h : st' * 4 + p' ≠ st * 4 + p) :
    (s.setHeld st p v).heldAt st' p' = s.heldAt st' p' := by
  unfold State.setHeld State.heldAt; exact Tab.get_set_other _ _ _ _ _ h

@[simp] theorem State.reasm_setReasm_same (s : State) (st : Nat) (v : List Reasm) : (s.setReasm st v).reasm st = v := by
  unfold State.setReasm State.reasm; exact Tab.get_set_same _ _ _ _
theorem State.reasm_setReasm_other (s : State) (st st' : Nat) (v : List Reasm) (h : st' ≠ st) :
    (s.setReasm st v).reasm st' = s.reasm st' := by
  unfold State.setReasm State.reasm; exact Tab.get_set_other _ _ _ _ _ h

@[simp] theorem State.guarMarks_setGuarMarks_same (s : State) (st : Nat) (v : List GuarMark) : (s.setGuarMarks st v).guarMarks st = v := by
  unfold State.setGuarMarks State.guarMarks; exact Tab.get_set_same _ _ _ _
theorem State.guarMarks_setGuarMarks_other (s : State) (st st' : Nat) (v : List GuarMark) (h : st' ≠ st) :
    (s.setGuarMarks st v).guarMarks st' = s.guarMarks st' := by
  unfold State.setGuarMarks State.guarMarks; exact Tab.get_set_other _ _ _ _ _ h

@[simp] theorem State.inbox_setInbox_same (s : State) (st p : Nat) (v : List Deliv) : (s.setInbox st p v).inbox st p = v := by
  unfold State.setInbox State.inbox; exact Tab.get_set_same _ _ _ _
theorem State.inbox_setInbox_other (s : State) (st p st' p' : Nat) (v : List Deliv) (h : st' * 4 + p' ≠ st * 4 + p) :
    (s.setInbox st p v).inbox st' p' = s.inbox st' p' := by
  unfold State.setInbox State.inbox; exact Tab.get_set_other _ _ _ _ _ h

@[simp] theorem State.rspIn_setRspIn_same (s : State) (st : Nat) (v : List Pkt) : (s.setRspIn st v).rspIn st = v := by
  unfold State.setRspIn State.rspIn; exact Tab.get_set_same _ _ _ _
theorem State.rspIn_setRspIn_other (s : State) (st st' : Nat) (v : List Pkt) (h : st' ≠ st) :
    (s.setRspIn st v).rspIn st' = s.rspIn st' := by
  unfold State.setRspIn State.rspIn; exact Tab.get_set_other _ _ _ _ _ h

@[simp] theorem State.mgmt_setMgmt_same (s : State) (st : Nat) (v : List Pkt) : (s.setMgmt st v).mgmt st = v := by
  unfold State.setMgmt State.mgmt; exact Tab.get_set_same _ _ _ _
theorem State.mgmt_setMgmt_other (s : State) (st st' : Nat) (v : List Pkt) (h : st' ≠ st) :
    (s.setMgmt st v).mgmt st' = s.mgmt st' := by
  unfold State.setMgmt State.mgmt; exact Tab.get_set_other _ _ _ _ _ h

@[simp] theorem State.merged_setMerged_same (s : State) (st : Nat) (v : List Nat) : (s.setMerged st v).merged st = v := by
  unfold State.setMerged State.merged; exact Tab.get_set_same _ _ _ _
theorem State.merged_setMerged_other (s : State) (st st' : Nat) (v : List Nat) (h : st' ≠ st) :
    (s.setMerged st v).merged st' = s.merged st' := by
  unfold State.setMerged State.merged; exact Tab.get_set_other _ _ _ _ _ h

@[simp] theorem State.hmWord_setHmWord_same (s : State) (n : Nat) (v : BitVec 88) : (s.setHmWord n v).hmWord n = v := by
  unfold State.setHmWord State.hmWord; exact Tab.get_set_same _ _ _ _
theorem State.hmWord_setHmWord_other (s : State) (n n' : Nat) (v : BitVec 88) (h : n' ≠ n) :
    (s.setHmWord n v).hmWord n' = s.hmWord n' := by
  unfold State.setHmWord State.hmWord; exact Tab.get_set_other _ _ _ _ _ h

@[simp] theorem State.port_setPort_same (s : State) (st k : Nat) (v : PortSt) : (s.setPort st k v).port st k = v := by
  unfold State.setPort State.port; exact Tab.get_set_same _ _ _ _
theorem State.port_setPort_other (s : State) (st k st' k' : Nat) (v : PortSt) (h : st' * 2 + k' ≠ st * 2 + k) :
    (s.setPort st k v).port st' k' = s.port st' k' := by
  unfold State.setPort State.port; exact Tab.get_set_other _ _ _ _ _ h

@[simp] theorem State.txns_setTxns_same (s : State) (st p : Nat) (v : List Txn) : (s.setTxns st p v).txns st p = v := by
  unfold State.setTxns State.txns; exact Tab.get_set_same _ _ _ _
theorem State.txns_setTxns_other (s : State) (st p st' p' : Nat) (v : List Txn) (h : st' * 4 + p' ≠ st * 4 + p) :
    (s.setTxns st p v).txns st' p' = s.txns st' p' := by
  unfold State.setTxns State.txns; exact Tab.get_set_other _ _ _ _ _ h

@[simp] theorem State.ttxns_setTtxns_same (s : State) (st k : Nat) (v : List TTxn) : (s.setTtxns st k v).ttxns st k = v := by
  unfold State.setTtxns State.ttxns; exact Tab.get_set_same _ _ _ _
theorem State.ttxns_setTtxns_other (s : State) (st k st' k' : Nat) (v : List TTxn) (h : st' * 2 + k' ≠ st * 2 + k) :
    (s.setTtxns st k v).ttxns st' k' = s.ttxns st' k' := by
  unfold State.setTtxns State.ttxns; exact Tab.get_set_other _ _ _ _ _ h

@[simp] theorem State.retry_setRetry_same (s : State) (st r : Nat) (v : Retry) : (s.setRetry st r v).retry st r = v := by
  unfold State.setRetry State.retry; exact Tab.get_set_same _ _ _ _
theorem State.retry_setRetry_other (s : State) (st r st' r' : Nat) (v : Retry) (h : st' * 3072 + r' ≠ st * 3072 + r) :
    (s.setRetry st r v).retry st' r' = s.retry st' r' := by
  unfold State.setRetry State.retry; exact Tab.get_set_other _ _ _ _ _ h

@[simp] theorem State.pend_setPend_same (s : State) (st r : Nat) (v : List Pend) : (s.setPend st r v).pend st r = v := by
  unfold State.setPend State.pend; exact Tab.get_set_same _ _ _ _
theorem State.pend_setPend_other (s : State) (st r st' r' : Nat) (v : List Pend) (h : st' * 3072 + r' ≠ st * 3072 + r) :
    (s.setPend st r v).pend st' r' = s.pend st' r' := by
  unfold State.setPend State.pend; exact Tab.get_set_other _ _ _ _ _ h

@[simp] theorem State.pmap_setPmap_same (s : State) (st b part : Nat) (v : Nat) : (s.setPmap st b part v).pmap st b part = v := by
  unfold State.setPmap State.pmap; exact Tab.get_set_same _ _ _ _
theorem State.pmap_setPmap_other (s : State) (st b part st' b' part' : Nat) (v : Nat) (h : (st' * 2 + b') * 4096 + part' ≠ (st * 2 + b) * 4096 + part) :
    (s.setPmap st b part v).pmap st' b' part' = s.pmap st' b' part' := by
  unfold State.setPmap State.pmap; exact Tab.get_set_other _ _ _ _ _ h

@[simp] theorem State.credit_setCredit_same (s : State) (st n : Nat) (v : Int) : (s.setCredit st n v).credit st n = v := by
  unfold State.setCredit State.credit; exact Tab.get_set_same _ _ _ _
theorem State.credit_setCredit_other (s : State) (st n st' n' : Nat) (v : Int) (h : st' * 64 + n' ≠ st * 64 + n) :
    (s.setCredit st n v).credit st' n' = s.credit st' n' := by
  unfold State.setCredit State.credit; exact Tab.get_set_other _ _ _ _ _ h

@[simp] theorem State.acuSet_setAcuSet_same (s : State) (st a b i : Nat) (v : BitVec 128) : (s.setAcuSet st a b i v).acuSet st a b i = v := by
  unfold State.setAcuSet State.acuSet; exact Tab.get_set_same _ _ _ _
theorem State.acuSet_setAcuSet_other (s : State) (st a b i st' a' b' i' : Nat) (v : BitVec 128) (h : ((st' * 3 + a') * 2 + b') * 32 + i' ≠ ((st * 3 + a) * 2 + b) * 32 + i) :
    (s.setAcuSet st a b i v).acuSet st' a' b' i' = s.acuSet st' a' b' i' := by
  unfold State.setAcuSet State.acuSet; exact Tab.get_set_other _ _ _ _ _ h

@[simp] theorem State.acuDef_setAcuDef_same (s : State) (st a i : Nat) (v : BitVec 128) : (s.setAcuDef st a i v).acuDef st a i = v := by
  unfold State.setAcuDef State.acuDef; exact Tab.get_set_same _ _ _ _
theorem State.acuDef_setAcuDef_other (s : State) (st a i st' a' i' : Nat) (v : BitVec 128) (h : (st' * 3 + a') * 4 + i' ≠ (st * 3 + a) * 4 + i) :
    (s.setAcuDef st a i v).acuDef st' a' i' = s.acuDef st' a' i' := by
  unfold State.setAcuDef State.acuDef; exact Tab.get_set_other _ _ _ _ _ h

@[simp] theorem State.localTs_setLocalTs_same (s : State) (st : Nat) (v : LocalTs) : (s.setLocalTs st v).localTs st = v := by
  unfold State.setLocalTs State.localTs; exact Tab.get_set_same _ _ _ _
theorem State.localTs_setLocalTs_other (s : State) (st st' : Nat) (v : LocalTs) (h : st' ≠ st) :
    (s.setLocalTs st v).localTs st' = s.localTs st' := by
  unfold State.setLocalTs State.localTs; exact Tab.get_set_other _ _ _ _ _ h

@[simp] theorem State.recBuf_setRecBuf_same (s : State) (st : Nat) (v : List (BitVec 512)) : (s.setRecBuf st v).recBuf st = v := by
  unfold State.setRecBuf State.recBuf; exact Tab.get_set_same _ _ _ _
theorem State.recBuf_setRecBuf_other (s : State) (st st' : Nat) (v : List (BitVec 512)) (h : st' ≠ st) :
    (s.setRecBuf st v).recBuf st' = s.recBuf st' := by
  unfold State.setRecBuf State.recBuf; exact Tab.get_set_other _ _ _ _ _ h

@[simp] theorem State.qEntry_setQEntry_same (s : State) (st q : Nat) (v : BitVec 256) : (s.setQEntry st q v).qEntry st q = v := by
  unfold State.setQEntry State.qEntry; exact Tab.get_set_same _ _ _ _
theorem State.qEntry_setQEntry_other (s : State) (st q st' q' : Nat) (v : BitVec 256) (h : st' * 256 + q' ≠ st * 256 + q) :
    (s.setQEntry st q v).qEntry st' q' = s.qEntry st' q' := by
  unfold State.setQEntry State.qEntry; exact Tab.get_set_other _ _ _ _ _ h

@[simp] theorem State.qops_setQops_same (s : State) (st : Nat) (v : List QOp) : (s.setQops st v).qops st = v := by
  unfold State.setQops State.qops; exact Tab.get_set_same _ _ _ _
theorem State.qops_setQops_other (s : State) (st st' : Nat) (v : List QOp) (h : st' ≠ st) :
    (s.setQops st v).qops st' = s.qops st' := by
  unfold State.setQops State.qops; exact Tab.get_set_other _ _ _ _ _ h

@[simp] theorem State.walks_setWalks_same (s : State) (st : Nat) (v : List QWalk) : (s.setWalks st v).walks st = v := by
  unfold State.setWalks State.walks; exact Tab.get_set_same _ _ _ _
theorem State.walks_setWalks_other (s : State) (st st' : Nat) (v : List QWalk) (h : st' ≠ st) :
    (s.setWalks st v).walks st' = s.walks st' := by
  unfold State.setWalks State.walks; exact Tab.get_set_other _ _ _ _ _ h

@[simp] theorem State.moves_setMoves_same (s : State) (st : Nat) (v : List QMove) : (s.setMoves st v).moves st = v := by
  unfold State.setMoves State.moves; exact Tab.get_set_same _ _ _ _
theorem State.moves_setMoves_other (s : State) (st st' : Nat) (v : List QMove) (h : st' ≠ st) :
    (s.setMoves st v).moves st' = s.moves st' := by
  unfold State.setMoves State.moves; exact Tab.get_set_other _ _ _ _ _ h

@[simp] theorem State.resid_setResid_same (s : State) (st : Nat) (v : List Resid) : (s.setResid st v).resid st = v := by
  unfold State.setResid State.resid; exact Tab.get_set_same _ _ _ _
theorem State.resid_setResid_other (s : State) (st st' : Nat) (v : List Resid) (h : st' ≠ st) :
    (s.setResid st v).resid st' = s.resid st' := by
  unfold State.setResid State.resid; exact Tab.get_set_other _ _ _ _ _ h

@[simp] theorem State.qtlb_setQtlb_same (s : State) (st : Nat) (v : List QtlbEnt) : (s.setQtlb st v).qtlb st = v := by
  unfold State.setQtlb State.qtlb; exact Tab.get_set_same _ _ _ _
theorem State.qtlb_setQtlb_other (s : State) (st st' : Nat) (v : List QtlbEnt) (h : st' ≠ st) :
    (s.setQtlb st v).qtlb st' = s.qtlb st' := by
  unfold State.setQtlb State.qtlb; exact Tab.get_set_other _ _ _ _ _ h

@[simp] theorem State.leavingAt_setLeaving_same (s : State) (st : Nat) (v : List Nat) : (s.setLeaving st v).leavingAt st = v := by
  unfold State.setLeaving State.leavingAt; exact Tab.get_set_same _ _ _ _
theorem State.leavingAt_setLeaving_other (s : State) (st st' : Nat) (v : List Nat) (h : st' ≠ st) :
    (s.setLeaving st v).leavingAt st' = s.leavingAt st' := by
  unfold State.setLeaving State.leavingAt; exact Tab.get_set_other _ _ _ _ _ h

@[simp] theorem State.invAt_setInv_same (s : State) (st : Nat) (v : List QInv) : (s.setInv st v).invAt st = v := by
  unfold State.setInv State.invAt; exact Tab.get_set_same _ _ _ _
theorem State.invAt_setInv_other (s : State) (st st' : Nat) (v : List QInv) (h : st' ≠ st) :
    (s.setInv st v).invAt st' = s.invAt st' := by
  unfold State.setInv State.invAt; exact Tab.get_set_other _ _ _ _ _ h

@[simp] theorem State.merge_setMerge_same (s : State) (st b : Nat) (v : List MergeEnt) : (s.setMerge st b v).merge st b = v := by
  unfold State.setMerge State.merge; exact Tab.get_set_same _ _ _ _
theorem State.merge_setMerge_other (s : State) (st b st' b' : Nat) (v : List MergeEnt) (h : st' * 4 + b' ≠ st * 4 + b) :
    (s.setMerge st b v).merge st' b' = s.merge st' b' := by
  unfold State.setMerge State.merge; exact Tab.get_set_other _ _ _ _ _ h

@[simp] theorem State.link_setLink_same (s : State) (r p : Nat) (v : LinkSt) : (s.setLink r p v).link r p = v := by
  unfold State.setLink State.link; exact Tab.get_set_same _ _ _ _
theorem State.link_setLink_other (s : State) (r p r' p' : Nat) (v : LinkSt) (h : slotKey r' p' ≠ slotKey r p) :
    (s.setLink r p v).link r' p' = s.link r' p' := by
  unfold State.setLink State.link; exact Tab.get_set_other _ _ _ _ _ h

@[simp] theorem State.lane_setLane_same (s : State) (r p n : Nat) (v : LaneSt) : (s.setLane r p n v).lane r p n = v := by
  unfold State.setLane State.lane; exact Tab.get_set_same _ _ _ _
theorem State.lane_setLane_other (s : State) (r p n r' p' n' : Nat) (v : LaneSt) (h : laneKey r' p' n' ≠ laneKey r p n) :
    (s.setLane r p n v).lane r' p' n' = s.lane r' p' n' := by
  unfold State.setLane State.lane; exact Tab.get_set_other _ _ _ _ _ h

@[simp] theorem State.dp_setDp_same (s : State) (p : Nat) (v : DpSt) : (s.setDp p v).dp p = v := by
  unfold State.setDp State.dp; exact Tab.get_set_same _ _ _ _
theorem State.dp_setDp_other (s : State) (p p' : Nat) (v : DpSt) (h : p' ≠ p) :
    (s.setDp p v).dp p' = s.dp p' := by
  unfold State.setDp State.dp; exact Tab.get_set_other _ _ _ _ _ h

end Sys2Proof.Machine
end

