-- ==== Sys2Proof/WellFormed.lean ====
section
/-! DEFINITION. Which commands are well formed: every number of an operand that has no width of its own lies in the
range the manual gives it. -/
namespace Sys2Proof
open Sys2Proof.Machine

/-- A packet has 1 to 64 slots (R48). -/
def Pkt.wf (p : Pkt) : Bool := 1 ≤ p.length && decide (p.length ≤ 64)

/-- An identity names a die, a stop, a port and a tag (R10, R14, R51). -/
def Src.wf (x : Src) : Bool := decide (x.die < 16 ∧ x.stop < 192 ∧ x.port < 4 ∧ x.tag < 4096)

/-- A receiving position of a ring (R36). -/
def posOn (r : RingNo) (p : Nat) : Bool := decide (p < ringLen r.val)

def RcIn.wf (x : RcIn) : Bool :=
  x.upsets.all (fun u => posOn u.ring u.pos) && x.cal.all (fun u => posOn u.ring u.pos)

/-- The fields of req fit their wires (Table 6.3). -/
def AgentReq.wf (r : AgentReq) : Bool :=
  decide (r.opc < 64 ∧ r.tag < 1024 ∧ r.addr < 2 ^ 52 ∧ r.len < 8192 ∧ r.part < 4096 ∧ r.pctag < 2 ^ 48 ∧ r.sub < 2 ^ 16)

/-- A packet of more beats than any `len` calls for is refused the same way; the model holds up to 129. -/
def ReqIn.wf (r : ReqIn) : Bool := r.req.wf && decide (r.beats.length ≤ 129)

/-- The fields of msg fit their wires (Table 6.7). -/
def MsgIn.wf (m : MsgIn) : Bool :=
  decide (m.opc < 64 ∧ m.tag < 1024 ∧ m.qaddr < 2 ^ 20 ∧ m.len < 8192 ∧ m.part < 4096 ∧ m.beats.length ≤ 129)

/-- The fields of rsp fit their wires (Table 6.6). -/
def RspIn.wf (r : RspIn) : Bool := decide (r.tag < 1024 ∧ r.status < 16 ∧ r.sub < 2 ^ 16 ∧ r.beats.length ≤ 129)

def HsPart.wf : HsPart → Bool
  | .req r => r.wf
  | .dat => true
  | .msg m => m.wf
  | .rsp r => r.wf

/-- The fields of a record fit their bits (Table 18.3). -/
def RecIn.wf (r : RecIn) : Bool := decide (r.port < 4 ∧ r.sev < 4 ∧ r.cause < 256 ∧ r.part.getD 0 < 4096)

/-- A fence set names domains, ports, destinations and dies that exist (R349, R351). -/
def FSet.wf : FSet → Bool
  | .apd n => decide (n < 256)
  | .ng k => decide (k < 48)
  | .dp p => decide (p < 8)
  | .dests l => l.all (fun d => decide (d.1 < 16 ∧ d.2.1 < 192 ∧ d.2.2 < 4))
  | .dies l => l.all (fun d => decide (d < 16))

def AckFrom.wf : AckFrom → Bool
  | .stop _ x => x.wf
  | .die _ => true

/-- A bank of four, and a row or a spare of it (R296). -/
def MemFlt.wf (f : MemFlt) : Bool := decide (f.bank < 4 ∧ f.row < 1032)

def QIn.wf (x : QIn) : Bool := x.flts.all MemFlt.wf


/-- A pair carries at most two slots and their tails (R377). -/
def PairIn.wf (x : PairIn) : Bool := decide (x.images.length ≤ 16)

def RegAcc.wf : RegAcc → Bool
  | .packet _ p => p.wf
  | .test _ _ => true

def RegEnv.wf (x : RegEnv) : Bool := x.fs.all MemFlt.wf && decide (0 < x.period)

/-- A strap of a debug port is that of a port that exists (R518). -/
def Straps.wf (x : Straps) : Bool := x.dbg.all (fun e => portGen e.1.val e.2.val != 0)

def TrimIn.wf (x : TrimIn) : Bool := posOn x.ring x.pos.val

/-- Relative coordinates within the grid of dies (R392). -/
def coordOk (c : Int) : Bool := decide (-15 ≤ c ∧ c ≤ 15)

/-- A command is well formed. -/
def Instr.wf : Instr → Bool
  | .ringCycle inp => inp.wf
  | .frameStartStrobe => true
  | .frameBoundary _ => true
  | .epochBoundary => true
  | .starvation _ _ => true
  | .reasmDrop _ src => src.wf
  | .injQueueAdmit _ _ => true
  | .requestCapture _ _ r => r.wf
  | .msgCapture _ _ m => m.wf
  | .agentResponse _ _ r => r.wf
  | .oreqDeliver _ _ => true
  | .omsgDeliver _ _ => true
  | .ntfDeliver _ _ => true
  | .completionDeliver _ _ _ => true
  | .sampleIndexAlloc => true
  | .partitionChange _ _ _ _ => true
  | .pchgSwap _ _ => true
  | .glitch _ _ _ => true
  | .hsTimeoutIn _ _ part => part.wf
  | .hsTimeoutOut _ _ _ => true
  | .portResetAssert _ _ _ => true
  | .portResetDeassert _ _ => true
  | .resyncDone _ _ _ => true
  | .rsTimeout _ _ => true
  | .cdcPtr _ _ _ _ => true
  | .recover _ _ _ => true
  | .stopReq _ _ => true
  | .portStopped _ _ => true
  | .stopRelease _ _ => true
  | .bellowsReq _ _ => true
  | .bellowsAck _ _ => true
  | .stopped _ _ => true
  | .requestRelease _ _ _ => true
  | .retryReceive _ p => p.wf
  | .grantIssue _ => true
  | .grantReceive _ p => p.wf
  | .resend _ _ _ => true
  | .greleaseReceive _ p => p.wf
  | .grantTo _ _ => true
  | .retrySweep _ => true
  | .completionReceive _ p => p.wf
  | .pwackReceive _ p => p.wf
  | .cto _ _ _ _ => true
  | .lockBreak _ _ => true
  | .addrMapApply => true
  | .remapWrite _ => true
  | .acuEntryWrite _ _ => true
  | .acuShadowCheck _ _ => true
  | .acuSwap _ _ => true
  | .enq _ p inp => p.wf && inp.wf
  | .deq _ p inp => p.wf && inp.wf
  | .peek _ p inp => p.wf && inp.wf
  | .steal _ p inp => p.wf && inp.wf
  | .qstat _ p inp => p.wf && inp.wf
  | .dbell _ p inp => p.wf && inp.wf
  | .notify _ _ => true
  | .delete _ _ => true
  | .forceDelete _ _ => true
  | .clearFault _ _ => true
  | .arm _ _ => true
  | .queueDeleteDone _ _ _ => true
  | .qtEntryWrite _ _ => true
  | .walkComplete _ _ fs => fs.all MemFlt.wf
  | .pageMoveComplete _ _ fs => fs.all MemFlt.wf
  | .devAccessComplete _ _ fs => fs.all MemFlt.wf
  | .segEntryWrite _ _ => true
  | .qtlbInvAll _ _ fs => fs.all MemFlt.wf
  | .qtlbInvQueue _ _ _ fs => fs.all MemFlt.wf
  | .qtlbInvPage _ _ _ _ fs => fs.all MemFlt.wf
  | .qtlbInvDone _ fs => fs.all MemFlt.wf
  | .poolWrite _ _ _ fs => fs.all MemFlt.wf
  | .poolFrameLeave _ _ fs => fs.all MemFlt.wf
  | .scrubStep _ fs => fs.all MemFlt.wf
  | .mergeDrain _ _ _ fs => fs.all MemFlt.wf
  | .rawWindowRead _ p fs => p.wf && fs.all MemFlt.wf
  | .rawWindowWrite _ p fs => p.wf && fs.all MemFlt.wf
  | .rawModeEnable _ _ => true
  | .qsRemapAdd _ _ _ fs => fs.all MemFlt.wf
  | .qsFill _ => true
  | .fillDone _ => true
  | .hearthScrubStep _ _ => true
  | .hearthTrap _ => true
  | .ringClockChange => true
  | .rclkDone => true
  | .tickLost _ _ => true
  | .powerOffRequest _ => true
  | .powerOnRequest _ => true
  | .fenceReceive _ set _ => set.wf
  | .fenceAck who => who.wf
  | .fenceSettleDone => true
  | .drainComplete => true
  | .drainTo => true
  | .unfenceReceive _ set _ => set.wf
  | .pgoodRise _ _ => true
  | .pwrPgFail _ => true
  | .wakeRequest => true
  | .fence _ => true
  | .unfence _ => true
  | .flitPairSend _ => true
  | .flitPairReceive _ x => x.wf
  | .d2dIngressInject _ _ => true
  | .d2dRsvExpire _ _ src => src.wf
  | .d2dLink _ => true
  | .retrain _ => true
  | .linkTrained _ ms => decide (ms.length ≤ 4)
  | .hello _ _ _ _ => true
  | .assign _ dx dy => coordOk dx && coordOk dy
  | .discoveryReport dx dy _ => coordOk dx && coordOk dy
  | .discoveryFinish => true
  | .final ox oy _ => coordOk ox && coordOk oy
  | .discTo => true
  | .sync _ _ _ _ => true
  | .echo _ _ _ _ _ => true
  | .detourApply _ => true
  | .d2dWindowDue _ _ => true
  | .win _ _ _ => true
  | .rotate _ _ => true
  | .moduleRecalDone _ _ => true
  | .d2dWinCancel _ => true
  | .d2dWinOver _ => true
  | .fabResetAssert => true
  | .fabResetDeassert x => x.wf
  | .fuseAck _ => true
  | .fuseTimeout => true
  | .fuseReadDone => true
  | .nvmReady _ => true
  | .headersRead _ _ => true
  | .copyReadDone _ _ _ => true
  | .signatureDone _ _ => true
  | .initialCalibrationDone _ trims => trims.all TrimIn.wf
  | .dieSpecificReadDone _ _ => true
  | .activation _ _ => true
  | .minimalConfiguration => true
  | .portsOpen => true
  | .openGo => true
  | .restoreGo => true
  | .restoreWriteDone => true
  | .nvmRead _ => true
  | .nvmProgram _ => true
  | .nvmErase _ => true
  | .nvmCmdDone _ data => decide (data.length ≤ 256)
  | .commitGo _ fs => decide (0 < fs)
  | .commitHostAbort => true
  | .prepare _ _ fs => decide (0 < fs)
  | .prepareAck _ => true
  | .commitDecide => true
  | .commitAbort => true
  | .commit => true
  | .commitSwap => true
  | .inDoubt => true
  | .commitLate => true
  | .sweepEnd _ => true
  | .temperBlkWrite _ _ => true
  | .tsMark => true
  | .tsCorrection _ => true
  | .tsSet => true
  | .tsNowRead p => (p.map Pkt.wf).getD true
  | .recordRaise _ r => r.wf
  | .recordCollect => true
  | .logWriteDone index tag => decide (index < 2 ^ 16 ∧ tag < 2 ^ 12)
  | .perrEnqDone tag => decide (tag < 2 ^ 12)
  | .logEnable size => decide (size < 16)
  | .mgmtBad _ p => p.wf
  | .registerWrite acc x => acc.wf && x.wf
  | .deflCtrlWrite _ => true
  | .pmapEntryWrite _ _ => true
  | .pmcLoad _ _ _ => true
  | .pmcRead _ _ p => (p.map Pkt.wf).getD true
  | .sampleEnable _ _ => true
  | .sampleBufConfig _ _ => true
  | .ringCntClear _ _ => true
  | .deflCntClear _ _ => true
  | .guarCntClear _ _ => true
  | .injqHwmClear _ _ => true
  | .injStoreHwmClear _ => true
  | .portCnt2Clear _ _ => true
  | .portCdcCntClear _ _ => true
  | .txnCntClear _ _ => true
  | .decCntClear _ _ => true
  | .qeCntClear _ _ => true
  | .pgCntClear _ _ => true
  | .qsCntClear _ _ => true
  | .absCntClear _ => true
  | .dpCntClear _ _ => true
  | .d2dModule _ _ => true
  | .decisionRequest _ => true
  | .strobeTime _ => true
  | .winAck _ => true
  | .aonPowerOn => true
  | .memoryTest _ => true
  | .memoryTestDone _ _ => true
  | .wrapperInstruction _ => true

end Sys2Proof
end

