-- ==== Sys2Proof/Tests/Slice0.lean ====
section
/-! SUPPORT. The author's own tests. `wit_<name>` shows, for the obligation of that name, concrete states and operands
that meet the hypotheses of its clauses; the other tests check one step each. Expected values come from the manual's
tables, or from hand calculation with them. -/
namespace Sys2Proof.Machine.Tests
open Sys2Proof Sys2Proof.Machine

set_option Elab.async false

/-! ### Small states -/

/-- The reset state with some registers set. -/
def regsIn (l : List (Nat × Nat)) : State :=
  l.foldl (fun (s : State) e => s.setReg e.1 (BitVec.ofNat 32 e.2)) State.reset

/-- Every fabric domain ON. -/
def allOn : List (Nat × Nat) := (List.range 7).map (fun i => (gPWR_DOMAIN_STATE + 4 * i, 0))

/-- Out of reset, every domain ON, FAB_STATE as given. -/
def up (fab : Nat) : State :=
  let s := regsIn ((gFAB_STATE, fab) :: allOn)
  { s with her := { s.her with rstLow := false } }

/-- A header of a request for stop `ds` port `dp`. -/
def hd (ds dp cls opc : Nat) : HdrIn := { dstop := ds, dport := dp, sstop := 40, sport := 0, cls := cls, opc := opc, tag := 5 }

/-- A packet of one slot. -/
def pk (h : HdrIn) (ext : BitVec 64) : Pkt := mkPkt h [(0, ext)]

/-- A port in a given state. -/
def withPort (s : State) (st k : Nat) (v : PortSt) : State := s.setPort st k v

/-! ### The block as a whole -/

theorem wit_StepRunsTheFrontCommand :
    ({ State.reset with pending := [.frameStartStrobe, .epochBoundary] } : State).pending
      = .frameStartStrobe :: [.epochBoundary] := by decide +kernel

/-- The master's count is held `h` hc more, with slew `v` to come; stop 191's own count likewise. -/
def clocked (h : Nat) (v : Int) : State :=
  let s := up fabOPEN
  ({ s with time := { s.time with hold := h, slew := v } } : State).setLocalTs 191 { defLocal 0 with hold := h, slew := v }

theorem wit_IdleStepAdvancesEveryCount :
    (up fabOPEN).pending = [] ∧ (up fabOPEN).her.rstLow = false ∧ (up fabOPEN).pw.seq = none
      ∧ 0 < (clocked 1 0).time.hold ∧ 0 < ((clocked 1 0).localTs 191).hold
      ∧ ((clocked 0 0).time.hold = 0 ∧ (clocked 0 0).time.slew = 0 ∧ ((clocked 0 0).localTs 191).slew = 0)
      ∧ 0 < (clocked 0 1).time.slew ∧ (clocked 0 (-1)).time.slew < 0 := by decide +kernel

theorem wit_EveryCommandKeepsToItsParts : ∃ t, exec .frameStartStrobe State.reset = .next t := ⟨_, rfl⟩

theorem wit_EveryCommandGoesOn :
    (portNamed (.stopReq 17 0) = some (17, 0) ∧ portThere 17 0 = true)
      ∧ (portNamed (.stopReq 4 0) = some (4, 0) ∧ portThere 4 0 = false)
      ∧ (State.reset.her.test.broken = false)
      ∧ ({ State.reset.her.test with broken := true } : TestSt).broken = true := by decide +kernel

theorem wit_EveryStepKeepsTheFrameCounters :
    State.reset.frame.Ok ∧ ∃ t, step { State.reset with pending := [.frameStartStrobe] } = .next t :=
  ⟨⟨by decide, by decide, by decide, by decide, by decide, by decide, by decide, by decide⟩, _, rfl⟩

theorem wit_EveryStepKeepsTheMemoryCanonical :
    Memory.wf State.reset.mem ∧ ∃ t, step { State.reset with pending := [.frameStartStrobe] } = .next t :=
  ⟨by decide, _, rfl⟩

/-! ### Rings and frames -/

/-- Frames running, in the last rc of a frame's length. -/
def running (p : Nat) : State :=
  let s := up fabOPEN
  { s with frame := { s.frame with running := true, fpos := p } }

theorem wit_RingCycleAdvancesOneRc :
    ((running 2015).her.test.broken = false ∧ (running 2015).rcRuns = true ∧ (running 2015).frame.running = true
      ∧ (running 2015).frame.due = false ∧ (running 2015).frame.epochDue = false ∧ (running 2015).swapDue = false
      ∧ 48 * (running 2015).frame.flen48 ≤ (running 2015).frame.fpos + 1)
    ∧ (running 2014).frame.fpos + 1 < 48 * (running 2014).frame.flen48
    ∧ (running 2014).frame.epochPos + 1 < 48 * ((running 2014).frame.epochSel + 1)
    ∧ (let s : State := { running 0 with frame := { (running 0).frame with epochPos := 47 } }
       48 * (s.frame.epochSel + 1) ≤ s.frame.epochPos + 1) := by decide +kernel

theorem wit_SampleClockCountsEveryRc :
    (State.reset.frame.running = false ∧ State.reset.strobeEarly = false)
      ∧ ((running 0).rcRuns = true ∧ (running 0).swapDue = false)
      ∧ ({ State.reset with cdc := { State.reset.cdc with hold := true } } : State).cdc.hold = true := by decide +kernel

theorem wit_StrobeStartsTheCounters :
    (regsIn [(gFRAME_CTRL, 10 * 256)]).frame.running = false ∧ (regsIn [(gFRAME_CTRL, 10 * 256)]).strobeEarly = false
      ∧ 10 ≤ (regsIn [(gFRAME_CTRL, 10 * 256)]).fld gFRAME_CTRL 8 8 := by decide +kernel

/-- A frame's last rc is over, and a value of DEFL_CTRL waits for boundary `n`. -/
def boundary (n : Word32) : State :=
  { up fabOPEN with frame := { State.reset.frame with running := true, due := true, fpos := 2015, deflNxt := some (5, n) } }

theorem wit_FrameBoundaryWrapsThePosition :
    (boundary 1).frame.due = true ∧ (boundary 1).frame.deflNxt = some (5, (boundary 1).frame.frameCnt + 1)
      ∧ (boundary 2).frame.deflNxt ≠ some (5, (boundary 2).frame.frameCnt + 1) := by decide +kernel

theorem wit_EpochBoundaryAdvancesTheCount :
    let s : State := { up fabOPEN with frame := { State.reset.frame with epochDue := true, epoch := 47 } }
    s.frame.epochDue = true ∧ s.frame.due = false ∧ s.swapDue = false := by decide +kernel

/-- A packet of stop 17 has waited since rc 0 and REASM_LIMIT is 16. -/
def oldPart : Reasm :=
  { src := { die := 0, stop := 40, port := 0, tag := 5 }, store := 1, ents := 2, plen := 1, slots := [], born := 0
    resid := 0, grnt := false, ahead := false }
def starving : State :=
  let s := (regsIn [(stopReg 17 sDEFL_CTRL, 32 * 16), (stopReg 17 sRING_CTRL, 16)]).setDir 17 3
    { defDir 0 with starve := 32 }
  { (s.setReasm 17 [oldPart]) with frame := { s.frame with rcs := 17 } }

theorem wit_StarvedDirectionAndDroppedPacket :
    (starving.fld (stopReg 17 sDEFL_CTRL) 4 12 ≤ (starving.dir 17 3).starve ∧ (starving.dir 17 3).starved = false)
      ∧ (starving.reasm 17).find? (fun r => r.src == oldPart.src
          && decide (starving.fld (stopReg 17 sRING_CTRL) 0 20 < starving.frame.rcs - r.born)
          && !starving.allHere 17 r) = some oldPart := by
  decide +kernel


/-! ### Ports and transactions. Stop 17 is of kind C with a GLP-4 port, stop 16 of kind M with a GLP-3 port, stop 0 of
kind U with a GLP-2 port (Tables 1.1 and 1.2). -/

theorem test_port_generations :
    portGen 17 0 = 3 ∧ portGen 16 0 = 2 ∧ portGen 0 0 = 1 ∧ portGen 17 1 = 0 ∧ portGen 4 0 = 0 ∧ portGen 1 1 = 1 := by
  decide +kernel

/-- Port `k` of stop `st` is OPEN. -/
def openAt (st k : Nat) : State :=
  (up fabOPEN).setPort st k { defPort 0 with state := 2, rstLvl := true }
/-- The ring clock is held. -/
def held (s : State) : State := { s with cdc := { s.cdc with hold := true } }

/-- A read of 1 byte at address 0, its parity odd in every byte. -/
def rd0 : AgentReq :=
  { opc := opRD, tag := 0, addr := 0, len := 0, priv := false, sec := false, ord := false, spec := false, walk := false
    lock := false, part := 0, pctag := 0, sub := 0, par := BitVec.allOnes 21 }
def rdIn : ReqIn := { req := rd0, beats := [], stable := true }
/-- A write of 1 byte whose one beat came ahead of it. -/
def wrIn : ReqIn := { rdIn with req := { rd0 with opc := opWR } }
def aBeat : Beat := { data := 0, be := 1, last := true, pois := false, par := 0 }
def aheadAt (st k : Nat) : State := (openAt st k).setPort st k { (openAt st k).port st k with early := [aBeat] }
/-- A PEEK message of one beat. -/
def peekIn : MsgIn :=
  { opc := opPEEK, tag := 0, qaddr := 0, len := 0, part := 0, stable := true
    beats := [{ data := 0, be := 0, last := true, pois := false, par := 0 }] }
/-- The port holds tag 0 already. -/
def taken0 (s : State) (st k : Nat) : State :=
  s.setTxns st k [newTxn s st k 0 opRD 0 0 0 0 0 0 0 []]

theorem wit_CaptureEntersTheTagState :
    (let s := openAt 17 0
     s.takes 17 0 (.req rdIn) = true ∧ s.passes 17 0 (.req rdIn) = true ∧ (s.takeEarly 17 0 rdIn).1 = rdIn
       ∧ s.parityFine 17 0 (reqErrs (portGen 17 0) rdIn) = true ∧ s.reqCheck 17 0 rdIn = none)
    ∧ (let s := aheadAt 16 0
       s.takes 16 0 (.req wrIn) = true ∧ s.passes 16 0 (.req wrIn) = true
         ∧ (s.takeEarly 16 0 wrIn).1 = { wrIn with beats := [aBeat] }
         ∧ s.parityFine 16 0 (reqErrs (portGen 16 0) { wrIn with beats := [aBeat] }) = true
         ∧ s.reqCheck 16 0 { wrIn with beats := [aBeat] } = none)
    ∧ (openAt 16 0).reqCheck 16 0 { rdIn with req := { rd0 with opc := 63 } } = some (2, 8, stPROTERR, caPORT_PROTO)
    ∧ (taken0 (openAt 16 0) 16 0).reqCheck 16 0 rdIn = some (4, 8, 16, caTAG_DUP)
    ∧ (let s := openAt 16 0
       s.takes 16 0 (.msg peekIn) = true ∧ s.passes 16 0 (.msg peekIn) = true
         ∧ s.parityFine 16 0 (peekIn.beats.map (msgErr (portGen 16 0) peekIn)) = true ∧ s.msgCheck 16 0 peekIn = none)
    ∧ (openAt 16 0).msgCheck 16 0 { peekIn with len := 4096 } = some (3, 16, stMSGSIZE, caPORT_RANGE)
    ∧ (taken0 (openAt 16 0) 16 0).msgCheck 16 0 peekIn = some (4, 8, 16, caTAG_DUP)
    ∧ (let s := held (openAt 17 0)
       s.takes 17 0 (.req rdIn) = true ∧ s.passes 17 0 (.req rdIn) = false
         ∧ s.takes 17 0 (.msg peekIn) = true ∧ s.passes 17 0 (.msg peekIn) = false)
    ∧ ((up fabOPEN).takes 17 0 (.req rdIn) = false ∧ (up fabOPEN).takes 17 0 (.msg peekIn) = false) := by decide +kernel

def badPar (k : Nat) : AgentReq := { rd0 with par := BitVec.allOnes 21 ^^^ BitVec.ofNat 21 (2 ^ k) }
/-- PEEK has an odd number of ones in byte 0: there its parity bit is 0 where the mask holds 1. -/
def parMsg (p : Nat) : MsgIn := { peekIn with beats := [{ aBeat with be := 0, par := BitVec.allOnes 73 ^^^ BitVec.ofNat 73 p }] }

theorem wit_HeaderParityErrorRefusesTheRequest :
    (openAt 17 0).parityOn 17 0 = true
    ∧ parityBad (packReq (portGen 17 0) (badPar 2)).1 (packReq (portGen 17 0) (badPar 2)).2 (badPar 2).par.toNat = [2]
    ∧ parityBad (packReq (portGen 17 0) (badPar 1)).1 (packReq (portGen 17 0) (badPar 1)).2 (badPar 1).par.toNat = [1]
    ∧ expectsRsp opRD = true ∧ expectsRsp opGWR = false
    ∧ (msgErr (portGen 17 0) (parMsg 0) ((parMsg 0).beats.headD aBeat)).tag = true
    ∧ ((msgErr (portGen 17 0) (parMsg 9) ((parMsg 9).beats.headD aBeat)).hdr = true
      ∧ (msgErr (portGen 17 0) (parMsg 9) ((parMsg 9).beats.headD aBeat)).tag = false ∧ expectsRsp opPEEK = true) := by
  decide +kernel

/-- One piece of a request. -/
def piece (released : Bool) : Piece :=
  { addr := 0, plen := 0, die := 0, stop := 16, port := 0, oseq := 0, sstart := false, released := released
    resent := false, injected := 0, lastInj := 0, status := none, skip := 0, demoted := false, grantBy := none }
/-- A read in a phase. -/
def txn (ph : TxPhase) (cs : List Piece) : Txn :=
  { tag := 5, gen := 0, phase := ph, opc := opRD, addr := 0, len := 0, plen := 0, attr := 0, part := 0, sub := 0
    pctag := 0, body := [], pieces := cs, resv := 0, timer := true, due := 0, permit := [], status := 0, data := []
    pois := false, order := 0, ack := false, acked := false, haunts := false, stamps := [0], last := none, retries := 0
    redec := false, set := 0 }
def withTxn (s : State) (st p : Nat) (t : Txn) : State := s.setTxns st p [t]
def captured : State := withTxn (openAt 17 0) 17 0 (txn .captured [piece false])
/-- The destination, port 0 of stop 16 of this die, is behind a fence at stop 17. -/
def fencedTo (t : Txn) : State :=
  let s := withTxn (openAt 17 0) 17 0 t
  { s with pw := { s.pw with fences := [(17, [.dests [(0, 16, 0)]])] } }
def lowPend : Pend := { port := 1, tag := 0, addr := 0, void := false, granted := none }
/-- A request not decoded yet. -/
def rawTxn (opc : Nat) : Txn := { txn .captured [] with opc := opc }
def ncTxn : Txn := { txn .captured [piece false] with opc := opRD_NC }
/-- The lowest 16 MiB go to port 0 of stop 7. -/
def mapped : State :=
  let s := openAt 17 0
  s.setQuad gACTIVE_MAP (mapEntry 0 0xFFF 0 7 0xFFFF true)
def gwrTxn : Txn := { txn .captured [piece false] with opc := opGWR }

theorem wit_ReleasedRequestWaitsForItsCompletion :
    portThere 17 0 = true ∧ captured.relIndex 17 0 5 = some 0
      ∧ (captured.txns 17 0)[0]? = some (txn .captured [piece false]) ∧ opPosted opRD = false
      ∧ captured.mayStart 17 0 (txn .captured [piece false]) = true
      ∧ captured.relCheck 17 0 (txn .captured [piece false]) 0 (piece false) = .go
      ∧ (withTxn (openAt 17 0) 17 0 gwrTxn).relCheck 17 0 gwrTxn 0 (piece false) = .go
      ∧ (captured.setPend 17 (recNo 0 16) [lowPend]).relCheck 17 0 (txn .captured [piece false]) 0 (piece false) = .wait
      ∧ (fencedTo (txn .captured [piece false])).relCheck 17 0 (txn .captured [piece false]) 0 (piece false) = .held
      ∧ (fencedTo ncTxn).relCheck 17 0 ncTxn 0 (piece false) = .fenced
    ∧ (let s := withTxn (openAt 17 0) 17 0 (rawTxn opGWR)
       s.relIndex 17 0 5 = some 0 ∧ s.mayStart 17 0 (rawTxn opGWR) = true ∧ (s.decodeTxn 17 0 (rawTxn opGWR)).1 = none)
    ∧ (let s := withTxn (openAt 17 0) 17 0 (rawTxn opRD)
       ((s.decodeTxn 17 0 (rawTxn opRD)).1).map (fun u => (u.phase == .captured, u.status)) = some (false, stDECERR))
    ∧ (let x : Txn := { rawTxn opRD with attr := 1 }
       let s := withTxn mapped 17 0 x
       ((s.decodeTxn 17 0 x).1).map (fun u => (u.phase, u.pieces.length, u.opc == opGWR))
         = some (.captured, 1, false)
       ∧ (((s.decodeTxn 17 0 x).1).map (fun u =>
           ((s.decodeTxn 17 0 x).2.putTxn 17 0 0 (some u)).relCheck 17 0 u 0 (u.pieces.headD (piece false))
             == .go)) = some true) := by decide +kernel

/-- A completion for tag 5 of port 0 of stop 17. -/
def cmp (opc status : Nat) : Pkt :=
  pk { dstop := 17, dport := 0, sstop := 16, cls := clsRSP, opc := opc, tag := 5 } (seqExt status 0 0)
def oneHeld : Held := { port := 0, slots := cmp opCMP 0, ctx := some 0, resend := false, mark := .plain }

theorem wit_WaitingPacketEntersItsQueue :
    (let s := (up fabOPEN).setHeld 17 0 [oneHeld]
     portThere 17 0 = true ∧ s.heldAt 17 0 = oneHeld :: []
       ∧ oneHeld.ctx.getD (s.mapCtx 17 (Pkt.head oneHeld.slots).part).1 = 0
       ∧ (s.setHeld 17 0 []).canAdmit 17 0 (Pkt.head oneHeld.slots).cls oneHeld.slots.length oneHeld.resend = true)
    ∧ (up fabOPEN).heldAt 17 0 = [] := by decide +kernel

/-- A posted write that waits for its PWACK. -/
def postedTxn (a : Bool) : Txn := { txn .posted [piece true] with opc := opWR_P, ack := a }
def withRsp (t : Txn) (p : Pkt) : State := (withTxn (openAt 17 0) 17 0 t).setRspIn 17 [p]

theorem wit_CompletionsReachTheirRequests :
    (let s := withRsp (txn .released [piece true]) (cmp opCMP 0)
     let h := Pkt.head (cmp opCMP 0)
     (s.rspIn 17).contains (cmp opCMP 0) = true
       ∧ s.txnFor 17 h.dport h.tag h.addr (fun ph => ph == .released) = some 0
       ∧ (s.txns 17 h.dport)[0]? = some (txn .released [piece true]) ∧ opPosted opRD = false
       ∧ [piece true].zipIdx.find? (fun c => c.1.awaits h.addr) = some (piece true, 0))
    ∧ (let s := (openAt 17 0).setRspIn 17 [cmp opCMP 0]
       let h := Pkt.head (cmp opCMP 0)
       s.txnFor 17 h.dport h.tag h.addr (fun ph => ph == .released) = none
         ∧ s.txnFor 17 h.dport h.tag h.addr (fun ph => ph == .posted) = none ∧ h.tag / 1024 = (s.port 17 h.dport).tgen)
    ∧ ((Pkt.head (cmp opCMP 0)).tag / 1024 ≠ ((openAt 17 0).setPort 17 0 { defPort 0 with tgen := 3 } |>.port 17 0).tgen)
    ∧ (let s := withRsp (postedTxn true) (cmp opPWACK 0)
       let h := Pkt.head (cmp opPWACK 0)
       (s.rspIn 17).contains (cmp opPWACK 0) = true
         ∧ s.txnFor 17 h.dport h.tag h.addr (fun ph => ph == .posted || ph == .released) = some 0
         ∧ (s.txns 17 h.dport)[0]? = some (postedTxn true) ∧ (piece true).awaits h.addr = true
         ∧ opPosted opWR_P = true ∧ (postedTxn false).ack = false)
    ∧ (let s := withTxn (openAt 17 0) 17 0 (txn .ready [])
       (s.port 17 0).state = 2 ∧ (s.port 17 0).stopLvl = false ∧ s.outFree 17 0 .orsp = true
         ∧ (s.unitTags 17 0).contains 5 = false
         ∧ (s.txns 17 0).zipIdx.find? (fun e => e.1.tag == 5 && e.1.deliverable) = some (txn .ready [], 0)
         ∧ s.inTurn 17 0 (txn .ready []) = true ∧ (txn .ready []).haunts = false)
    ∧ ({ txn .ready [] with haunts := true } : Txn).deliverable = true ∧ (postedTxn true).deliverable = true
    ∧ (let s := withTxn (openAt 17 0) 17 0 (txn .released [piece true])
       s.retriesFirst 17 0 5 = s
         ∧ (s.txns 17 0).zipIdx.find? (fun e => e.1.tag == 5 && s.overdue e.1 && e.1.phase.timed false)
           = some (txn .released [piece true], 0)
         ∧ s.answered 17 0 (txn .released [piece true]) = false)
    ∧ (TxPhase.captured.timed true = true ∧ TxPhase.posted.timed false = true ∧ TxPhase.stale.timed false = true) := by
  decide +kernel

/-- A RETRY or a GRANT from stop 16. -/
def grantPkt (opc gnum : Nat) : Pkt :=
  pk { dstop := 17, dport := 0, sstop := 16, cls := clsRSP, opc := opc, tag := 5 } (seqExt 1 0 (opxGrant gnum 0))
def oneRetry (g : Bool) : Retry :=
  { count := 1, slots := 1, sz := 0, gout := g, gnum := 3, age := false, resv := 1, sent := 0, gsz := 0, limit := 0 }
def onePend (g : Option Nat) (v : Bool) : Pend := { port := 0, tag := 5, addr := 0, void := v, granted := g }

theorem wit_RefusedPacketsAndGrants :
    (let s := withRsp (txn .released [piece true]) (cmp opCMP stRETRY)
     let h := Pkt.head (cmp opCMP stRETRY)
     (s.rspIn 17).contains (cmp opCMP stRETRY) = true
       ∧ s.txnFor 17 h.dport h.tag h.addr
        (fun ph => match ph with | .released => true | .posted => true | _ => false) = some 0
       ∧ (txn .released [piece true]).pieces.zipIdx.find? (fun c => c.1.awaits h.addr) = some (piece true, 0)
       ∧ s.fenced 17 0 16 0 = false)
    ∧ (let s := (up fabOPEN).setRspIn 17 [cmp opCMP stRETRY]
       let h := Pkt.head (cmp opCMP stRETRY)
       s.txnFor 17 h.dport h.tag h.addr
        (fun ph => match ph with | .released => true | .posted => true | _ => false) = none)
    ∧ (let s := (up fabOPEN).setRetry 17 16 (oneRetry false)
       s.nextGrant 17 = some (16, oneRetry false) ∧ s.reqUsed 17 + classSlots (oneRetry false).sz ≤ 128)
    ∧ (let s := ((up fabOPEN).setPend 17 16 [onePend none false]).setRspIn 17 [grantPkt opGRANT 15]
       let h := Pkt.head (grantPkt opGRANT 15)
       (s.rspIn 17).contains (grantPkt opGRANT 15) = true
         ∧ Tab.get (fun _ => 0) s.ni.lastG (17 * 3072 + recNo h.sdie h.sstop) ≠ h.gnum + 1
         ∧ firstUngranted (s.pend 17 (recNo h.sdie h.sstop)) = some (onePend none false, 0))
    ∧ (let s := (up fabOPEN).setRspIn 17 [grantPkt opGRANT 15]
       let s : State := { s with ni := { s.ni with lastG := [(17 * 3072 + 16, 16)] } }
       let h := Pkt.head (grantPkt opGRANT 15)
       Tab.get (fun _ => 0) s.ni.lastG (17 * 3072 + recNo h.sdie h.sstop) = h.gnum + 1)
    ∧ (let s := ((up fabOPEN).setRetry 17 16 (oneRetry true)).setRspIn 17 [grantPkt opGRELEASE 3]
       let h := Pkt.head (grantPkt opGRELEASE 3)
       (s.rspIn 17).contains (grantPkt opGRELEASE 3) = true ∧ s.retry 17 (recNo h.sdie h.sstop) = oneRetry true
         ∧ (oneRetry true).gnum = h.gnum)
    ∧ (let s := (regsIn [(stopReg 17 sRING_CTRL, 0)]).setRetry 17 16 (oneRetry true)
       (s.retry 17 16).gout = true ∧ (s.retry 17 16).limit ≤ s.frame.rcs - (s.retry 17 16).sent
         ∧ s.releaseWaits 17 16 (oneRetry true) = false
         ∧ s.fld (stopReg 17 sRING_CTRL) 0 20 ≤ s.frame.rcs - Tab.get (fun _ => 0) s.ni.swept 17
         ∧ s.retriesOf 17 = [(16, oneRetry true)] ∧ s.retriesOf 16 = []) := by decide +kernel

def granted (v : Bool) (hold : Nat) : State :=
  let s := (regsIn [(stopReg 17 sDEFL_CTRL, hold * 2 ^ 16)]).setPend 17 (recNo 0 16) [onePend (some 3) v]
  withTxn s 17 0 (txn .released [piece true])

theorem wit_GrantedPacketIsSentAgain :
    (((granted false 0).pend 17 (recNo 0 16)).zipIdx.find? (fun e => e.1.granted.isSome) = some (onePend (some 3) false, 0)
      ∧ (granted false 0).txnFor 17 0 5 0 (fun ph => ph == .released || ph == .posted) = some 0
      ∧ ((granted false 0).txns 17 0)[0]? = some (txn .released [piece true])
      ∧ [piece true].zipIdx.find? (fun c => c.1.awaits 0) = some (piece true, 0)
      ∧ (granted false 0).fld (stopReg 17 sDEFL_CTRL) 16 16 ≤ (granted false 0).frame.rcs - (piece true).lastInj)
    ∧ (granted false 1).frame.rcs - (piece true).lastInj < (granted false 1).fld (stopReg 17 sDEFL_CTRL) 16 16
    ∧ ((granted true 0).pend 17 (recNo 0 16)).zipIdx.find? (fun e => e.1.granted.isSome)
        = some (onePend (some 3) true, 0)
    ∧ (let s := (up fabOPEN).setPend 17 (recNo 0 16) [onePend (some 3) false]
       s.txnFor 17 0 5 0 (fun ph => ph == .released || ph == .posted) = none) := by decide +kernel

/-- Stop 191 has a sample record; the tail of the buffer is `t` places behind. -/
def sampled (t : Nat) : State :=
  let s := (up fabOPEN).setReg gSAMPLE_TAIL (BitVec.ofNat 32 t)
  { s with pmu := { s.pmu with recQ := [(191, [7])], rot := 191 } }

theorem wit_BrokenLocksAndSampleIndexes :
    (let s := (up fabOPEN).setPort 17 0 { defPort 0 with lockedBy := some oldPart.src }
     (s.port 17 0).lockedBy = some oldPart.src ∧ (s.port 17 0).lockDue ≤ s.cdc.hct ∧ s.unlockWaits 17 0 = false)
    ∧ ((List.range 192).map (fun i => ((sampled 0).pmu.rot + 1 + i) % 192)).find? (fun st => !((sampled 0).sampleQ st).isEmpty)
        = some 191
    ∧ (sampled 0).sampleQ 191 = 7 :: []
    ∧ ((sampled 0).fld gSAMPLE_HEAD 0 20 + (sampled 0).sampleSize - (sampled 0).fld gSAMPLE_TAIL 0 20 % (sampled 0).sampleSize)
        % (sampled 0).sampleSize ≠ (sampled 0).sampleSize - 1
    ∧ ((sampled 1).fld gSAMPLE_HEAD 0 20 + (sampled 1).sampleSize - (sampled 1).fld gSAMPLE_TAIL 0 20 % (sampled 1).sampleSize)
        % (sampled 1).sampleSize = (sampled 1).sampleSize - 1
    ∧ (List.range 192).all (fun st => ((up fabOPEN).sampleQ st).isEmpty) = true := by decide +kernel

/-- A packet that waits at port 0 of a stop. -/
def wait (opc : Nat) (st : Nat) : Deliv :=
  { slots := pk (hd st 0 (opClass opc) opc) (seqExt 0 0 0), store := 1, ents := 1, resid := 0, early := false, arr := 0
    tick := 0 }
/-- The same, a write with poisoned data. -/
def poisoned (st : Nat) : Deliv :=
  { wait opWR st with slots := pk { hd st 0 clsREQ opWR with attr := 2 ^ attrPois } (seqExt 0 0 0) }
def note : Ntf := { rcd := 9, src := 40, part := 0 }
def askedAt (st : Nat) (n : Nat) : TTxn :=
  { ttag := 1023, head := Pkt.head (wait opRD st).slots, bursts := n, status := 0, data := [], stamp := 0 }
def okRsp : RspIn := { tag := 1023, status := stSLVERR, sub := 0, beats := [], hasData := false, stable := true }
def oldSrc (st : Nat) : Src := { (Pkt.head (wait opRD st).slots).src with tag := 0 }
/-- An outward channel that holds a beat its agent does not take. -/
def fullFifo (st k : Nat) (c : Chan) : State :=
  let v := (openAt st k).port st k
  (openAt st k).setPort st k (v.setFifo c { v.fifo c with send := [.ntf 0 0 0] })
/-- A response of one beat whose first byte, which holds the tag, has wrong parity. -/
def parRsp : RspIn := { okRsp with beats := [{ aBeat with par := BitVec.allOnes 73 ^^^ 1 }] }

theorem wit_PortAnswersAndDeliveries :
    (let s := (openAt 17 0).setInbox 17 0 [wait opRD 17]
     (s.port 17 0).state = 2 ∧ (s.port 17 0).stopLvl = false ∧ s.nextDeliv 17 0 = some (wait opRD 17, 0)
       ∧ (s.port 17 0).brokenFor.contains (oldSrc 17) = false ∧ opCarriesData opRD = false
       ∧ s.mayPresent 17 0 (Pkt.head (wait opRD 17).slots) = true ∧ wantsRsp opRD = true
       ∧ (s.ttxns 17 0).length ≤ s.fld (portReg 17 0 pCFG) 16 10)
    ∧ (let s := (openAt 17 0).setInbox 17 0 [wait opWR_P 17]
       s.nextDeliv 17 0 = some (wait opWR_P 17, 0) ∧ s.mayPresent 17 0 (Pkt.head (wait opWR_P 17).slots) = true)
    ∧ ((fullFifo 17 0 .oreq).mayPresent 17 0 (Pkt.head (wait opRD 17).slots) = false)
    ∧ (let s := ((openAt 17 0).setFld (portReg 17 0 pCFG) 16 10 0).setTtxns 17 0 [askedAt 17 1]
       s.fld (portReg 17 0 pCFG) 16 10 < (s.ttxns 17 0).length)
    ∧ (let s := ((openAt 17 0).setPort 17 0 { (openAt 17 0).port 17 0 with brokenFor := [oldSrc 17] }).setInbox 17 0 [wait opRD 17]
       s.nextDeliv 17 0 = some (wait opRD 17, 0) ∧ (s.port 17 0).brokenFor.contains (oldSrc 17) = true)
    ∧ (let s := (openAt 0 0).setInbox 0 0 [wait opATOM 0]
       s.nextDeliv 0 0 = some (wait opATOM 0, 0) ∧ portGen 0 0 = 1)
    ∧ (let s := (openAt 16 0).setInbox 16 0 [poisoned 16]
       s.nextDeliv 16 0 = some (poisoned 16, 0) ∧ opCarriesData opWR = true
         ∧ (Pkt.head (poisoned 16).slots).attrBit attrPois = true ∧ s.poisonOk 16 0 = false)
    ∧ (let s := (openAt 16 0).setTtxns 16 0 [askedAt 16 1]
       s.takes 16 0 (.rsp okRsp) = true ∧ s.passes 16 0 (.rsp okRsp) = true ∧ s.parityOn 16 0 = false
         ∧ s.ttxnFor 16 0 okRsp.tag = some (askedAt 16 1, 0) ∧ (openAt 16 0).ttxnFor 16 0 okRsp.tag = none)
    ∧ ((openAt 16 0).setTtxns 16 0 [askedAt 16 2]).ttxnFor 16 0 okRsp.tag = some (askedAt 16 2, 0)
    ∧ ((openAt 17 0).takes 17 0 (.rsp parRsp) = true ∧ (openAt 17 0).passes 17 0 (.rsp parRsp) = true
      ∧ (openAt 17 0).parityOn 17 0 = true
      ∧ (rspErr (portGen 17 0) parRsp (parRsp.beats.headD aBeat)).tag = true)
    ∧ ((held (openAt 16 0)).takes 16 0 (.rsp okRsp) = true ∧ (held (openAt 16 0)).passes 16 0 (.rsp okRsp) = false
      ∧ (up fabOPEN).takes 16 0 (.rsp okRsp) = false)
    ∧ (let s := (openAt 16 0).setPort 16 0 { (openAt 16 0).port 16 0 with ntf := [note] }
       portGen 16 0 ≠ 3 ∧ (s.port 16 0).ntf = note :: [] ∧ s.outFree 16 0 .omsg = true)
    ∧ (let s := (openAt 17 0).setPort 17 0 { (openAt 17 0).port 17 0 with ntf := [note] }
       (s.port 17 0).ntf = note :: [] ∧ s.outFree 17 0 .ntf = true)
    ∧ (let s := (openAt 17 0).setInbox 17 0 [wait opNOTIFY 17]
       (s.inbox 17 0).zipIdx.find? (fun e => (Pkt.head e.1.slots).opc == opNOTIFY && !e.1.early)
         = some (wait opNOTIFY 17, 0) ∧ (s.port 17 0).ntf.length < 16) := by decide +kernel

theorem wit_PartitionChangesAtAPort :
    (portGen 17 0 = 3 ∧ ((openAt 17 0).port 17 0).state = 2 ∧ ((openAt 17 0).port 17 0).pchg = none
      ∧ parityBad 4095 2 3 = [] ∧ parityBad 4095 2 2 ≠ [] ∧ portGen 16 0 ≠ 3)
    ∧ (let s := ((openAt 17 0).setReg (acuReg 17 0 8) 2).setPort 17 0 { defPort 0 with state := 2, pchg := some 7 }
       (s.port 17 0).pchg = some 7 ∧ s.checksDone 17 0 = true ∧ s.fld (acuReg 17 0 8) 1 2 ≠ 2
         ∧ s.fld (acuReg 17 0 8) 1 2 ≠ 0 ∧ s.acuFrozen 17 0 = false ∧ (s.port 17 0).pchgBad = false)
    ∧ ((openAt 17 0).setReg (acuReg 17 0 8) 4).fld (acuReg 17 0 8) 1 2 = 2
    ∧ ((openAt 17 0).setReg (acuReg 17 0 8) 0).fld (acuReg 17 0 8) 1 2 = 0 := by decide +kernel

/-- A beat is offered on orsp. -/
def offering : State :=
  let v := (openAt 17 0).port 17 0
  (openAt 17 0).setPort 17 0 (v.setFifo .orsp { v.fifo .orsp with ents := [.orsp 5 0 0 true false 0 0] })

theorem wit_PortFiltersAndTimeouts :
    portGen 16 0 ≠ 0 ∧ ((openAt 17 0).port 17 0).state = 2 ∧ ((aheadAt 16 0).port 16 0).early ≠ []
    ∧ (expectsRsp opRD = true ∧ expectsRsp opGWR = false)
    ∧ (let s := (openAt 16 0).setTtxns 16 0 [askedAt 16 1]
       s.ttxnFor 16 0 okRsp.tag = some (askedAt 16 1, 0) ∧ (askedAt 16 1).bursts ≤ 1)
    ∧ (openAt 16 0).ttxnFor 16 0 okRsp.tag = none
    ∧ (((offering.port 17 0).offered (portGen 17 0) .orsp).isSome = true
      ∧ ((offering.port 17 0).fifo .orsp).late = false)
    ∧ (held (up fabOPEN)).cdc.hold = true := by decide +kernel

/-- An enabled port, in resync. -/
def resyncing : State :=
  ((up fabOPEN).raiseFlag (portReg 16 0 pCFG) 0).setPort 16 0 { defPort 0 with state := 1, rsReq := true }

theorem wit_PortResetsAndRecovery :
    (let s := ((up fabOPEN).raiseFlag (portReg 16 0 pCFG) 0).setFld (stopReg 16 sQS_STAT) 0 1 0
     (s.port 16 0).state = 0 ∧ (s.port 16 0).stopLvl = false ∧ s.flag (portReg 16 0 pCFG) 0 = true ∧ s.fillBusy 16 = false)
    ∧ ((up fabOPEN).flag (portReg 16 0 pCFG) 0 = false)
    ∧ ((resyncing.port 16 0).state = 1 ∧ (resyncing.port 16 0).stopLvl = false ∧ (resyncing.port 16 0).rsReq = true
      ∧ (resyncing.port 16 0).rsBusy = true ∧ resyncing.genFree 16 0 = true ∧ resyncing.fabState ≠ fabFAILED)
    ∧ (let s : State := { resyncing with her := { resyncing.her with boot := { resyncing.her.boot with hcs := rsTo + 1 } } }
       rsTo < s.her.boot.hcs - (s.port 16 0).rsFrom ∧ (s.port 16 0).rsLate = false
       ∧ ((s.setPort 16 0 { s.port 16 0 with rsLate := true }).port 16 0).rsLate = true)
    ∧ (up fabOPEN).niOn 16 = true ∧ portGen 16 0 ≠ 0
    ∧ ((((openAt 16 0).port 16 0).fifo .oreq).ptrBad 24 = false)
    ∧ (let v := (openAt 16 0).port 16 0
       ((v.setFifo .req { v.fifo .req with rptr := 0, seen := 3 }).fifo .req).ptrBad 0 = true) := by decide +kernel

/-- Port 0 of stop 16 is STOPPED, with a packet in its inbox that arrived at µs 0; the µs clock of the crossings reads `n`. -/
def stoppedAt (opc n : Nat) : State :=
  let s := ((up fabOPEN).setPort 16 0 { defPort 0 with state := 4 }).setInbox 16 0 [wait opc 16]
  { s with cdc := { s.cdc with us := n } }

theorem wit_StoppedClocksAndBellows :
    (let s := (up fabOPEN).setPort 16 0 { defPort 0 with state := 2, stopLvl := true }
     (s.port 16 0).state = 2 ∧ (s.port 16 0).stopLvl = true ∧ (s.port 16 0).quiet = true)
    ∧ ((offering.port 17 0).quiet = false)
    ∧ (((stoppedAt opRD 0).port 16 0).state = 4 ∧ (stoppedAt opRD 0).wakeDue 16 0 = true
      ∧ ((stoppedAt opRD 0).port 16 0).bellows = false)
    ∧ (((up fabOPEN).setPort 16 0 { defPort 0 with state := 4, bellows := true }).port 16 0).bellows = true
    ∧ (let s := (((up fabOPEN).raiseFlag (portReg 16 0 pCFG) 0).setFld (stopReg 16 sQS_STAT) 0 1 0).setPort 16 0
         { defPort 0 with rstLvl := true, stopLvl := true }
       (s.port 16 0).state = 0 ∧ (s.port 16 0).rstLvl = true ∧ s.fillBusy 16 = false)
    ∧ (((stoppedAt opRD_NC 70000).inbox 16 0).zipIdx.find? (fun e => (Pkt.head e.1.slots).cls == clsIO
        && (stoppedAt opRD_NC 70000).stoppedLong 16 0 e.1) = some (wait opRD_NC 16, 0)) := by decide +kernel
/-! ### Registers, access checks, calibration, records, time, counters -/

theorem wit_RingAndDeflectionCountersClear :
    (up fabOPEN).her.rstLow = false
      ∧ (BitVec.ofNat 26 (stopReg 191 sRING_CNT_CLR)).toNat = stopReg 191 sRING_CNT_CLR
      ∧ (BitVec.ofNat 26 (stopReg 0 sDEFL_CNT_CLR)).toNat = stopReg 0 sDEFL_CNT_CLR := by decide +kernel

theorem wit_OtherCountersClear :
    ([sFLOW_STAT, sTXN_CNT_CLR, sQE_CNT, sPG_CNT, sQS_CNT_CLR, sDEC_CNT, sINJ_STORE, sINJQ_SEL].all (fun o =>
        (up fabOPEN).regOpen (stopReg 191 o))) = true
      ∧ (up fabOPEN).regOpen (dpReg 7 dCNT_CLR) = true ∧ (up fabOPEN).regOpen (portReg 16 0 pCNT2) = true
      ∧ (up fabOPEN).niOn 16 = true ∧ portGen 16 0 ≠ 0 := by decide +kernel

/-- An access to port 3 of stop `ds`. -/
def acc (ds opc attr addr : Nat) (ext : BitVec 64) : Pkt :=
  pk { hd ds 3 (opClass opc) opc with attr := attr, addr := addr } ext
/-- It waits alone at port 3. -/
def atPort3 (st : Nat) (p : Pkt) : State :=
  (up fabOPEN).setInbox st 3 [{ slots := p, store := 1, ents := 1, resid := 0, early := false, arr := 0, tick := 0 }]
/-- A write of one word of SAMPLE_CTRL, which is open to privileged accesses. -/
def ctrlWrite (attr be : Nat) : Pkt :=
  acc 8 opWR attr gSAMPLE_CTRL (BitVec.ofNat 64 (be * 2 ^ 20))

theorem wit_RegisterAccessesAreGuarded :
    (isRegRead (ctrlWrite 0 15) = false
      ∧ (atPort3 8 (ctrlWrite 0 15)).regRefusal (Pkt.head (ctrlWrite 0 15)) ((writeWords (ctrlWrite 0 15)).map (fun w => w.1))
        = some stACCERR)
    ∧ ((Pkt.head (acc 8 opDEQ 1 gSAMPLE_CTRL (BitVec.ofNat 64 (15 * 2 ^ 20)))).opc ≠ opWR ∧ (Pkt.head (acc 8 opDEQ 1 gSAMPLE_CTRL (BitVec.ofNat 64 (15 * 2 ^ 20)))).opc ≠ opWR_NC
      ∧ (Pkt.head (acc 8 opDEQ 1 gSAMPLE_CTRL (BitVec.ofNat 64 (15 * 2 ^ 20)))).opc ≠ opWR_P)
    ∧ (writeWords (ctrlWrite 1 7)).any (fun w => w.2.2 != 0xF) = true
    ∧ (((atPort3 8 (ctrlWrite 1 15)).inbox 8 3).map (fun d => d.slots) = [ctrlWrite 1 15]
      ∧ (Pkt.head (ctrlWrite 1 15)).opc = opWR ∧ writeWords (ctrlWrite 1 15) = [(gSAMPLE_CTRL, 0, 0xF)]
      ∧ (atPort3 8 (ctrlWrite 1 15)).regRefusal (Pkt.head (ctrlWrite 1 15)) [gSAMPLE_CTRL] = none)
    ∧ regRow ((BitVec.ofNat 26 0x3FFFFFF).toNat / 4 * 4) = none ∧ (up fabOPEN).her.rstLow = false
    ∧ State.reset.her.rstLow = true ∧ (up fabFAILED).fabState = fabFAILED
    ∧ (atPort3 8 (ctrlWrite 1 15)).fabState ≠ fabFAILED := by decide +kernel

/-- ACU_SEL with WR for entry `i` of set `b` of unit 2. -/
def selOf (b i : Nat) : Word32 := BitVec.ofNat 32 (i + 64 * b + 128 * 2 + 2 ^ 31)
def lockedEntry : BitVec 128 := BitVec.ofNat 128 (2 ^ 118)

/-- SHD_CHK of ACU 2 of stop 17, the shadow's entry 4 enabled and inverted. -/
def checked (n : Nat) : State := (up fabOPEN).setFld (acuReg 17 2 8) 1 2 n
def inverted : State := (checked 0).setAcuSet 17 2 1 4 (BitVec.ofNat 128 (2 ^ 112 + 5))
/-- Port 0 of stop 17 asks for partition `part` on its sideband. -/
def asking : State :=
  ((openAt 17 0).setReg (acuReg 17 0 8) 2).setPort 17 0 { defPort 0 with state := 2, pchg := some 7 }

theorem wit_AccessCheckUnitsChangeByEntryAndSwap :
    (let s := up fabOPEN
     s.niOn 17 = true ∧ bitOf (selOf 1 31) 31 = true ∧ fieldOf (selOf 1 31) 7 2 = 2 ∧ fieldOf (selOf 1 31) 6 1 = 1
       ∧ fieldOf (selOf 1 31) 0 6 = 31 ∧ acuThere 17 2 = true ∧ 1 ≠ s.acuActive 17 2
       ∧ acuLock (s.acuSet 17 2 1 31) = false ∧ s.acuFrozen 17 2 = false)
    ∧ fieldOf (selOf 0 0) 6 1 = (up fabOPEN).acuActive 17 2
    ∧ acuLock (((up fabOPEN).setAcuSet 17 2 1 31 lockedEntry).acuSet 17 2 1 31) = true
    ∧ (let s := up fabCONFIGURED
       fieldOf (selOf 0 35) 0 6 = 32 + 3 ∧ s.fld gFAB_STATE 0 4 = 3 ∧ acuLock (s.acuDef 17 2 3) = false)
    ∧ (up fabOPEN).fld gFAB_STATE 0 4 ≠ 3
    ∧ acuLock (((up fabOPEN).setAcuDef 17 2 3 lockedEntry).acuDef 17 2 3) = true
    ∧ (bitOf (0 : Word32) 31 = false ∧ State.reset.niOn 17 = false)
    ∧ ((checked 0).fld (acuReg 17 2 8) 1 2 = 0 ∧ (checked 0).shadowFault 17 2 = none)
    ∧ (inverted.fld (acuReg 17 2 8) 1 2 = 0 ∧ inverted.shadowFault 17 2 = some (2, 4))
    ∧ ((checked 1).fld (acuReg 17 2 8) 1 2 = 1 ∧ (checked 1).acuFrozen 17 2 = false ∧ (checked 1).sideband 17 2 = none)
    ∧ (checked 2).fld (acuReg 17 2 8) 1 2 = 2
    ∧ (asking.sideband 17 0 = some 7 ∧ asking.checksDone 17 0 = true ∧ (asking.port 17 0).pchgBad = false
      ∧ asking.fld (acuReg 17 0 8) 1 2 = 1 ∧ asking.acuFrozen 17 0 = false ∧ asking.niOn 17 = true
      ∧ acuThere 17 0 = true) := by decide +kernel

/-- Every link of ring 111 has ended its sweep, the least margin being `m`. -/
def sweptRing (m : Nat) : State :=
  forUpTo 12 (fun p (s : State) => s.setLink 111 p { s.link 111 p with due := true, lmargin := if p = 3 then m else 31 })
    (regsIn [(gTEMPER_THR, 4 + 6 * 256)])

theorem wit_TemperActsOnASweep :
    ((sweptRing 3).sweepOver 111 = true ∧ (sweptRing 3).ringWorst 111 = (3, 3, 0)
      ∧ 3 < (sweptRing 3).fld gTEMPER_THR 8 5 ∧ 3 < (sweptRing 3).fld gTEMPER_THR 0 5)
    ∧ ((sweptRing 4).fld gTEMPER_THR 0 5 ≤ 4 ∧ (sweptRing 4).ringWorst 111 = (4, 3, 0))
    ∧ State.reset.sweepOver 111 = false := by decide +kernel

/-- `n` records wait at stop 191. -/
def records (n : Nat) : State := (up fabOPEN).setRecBuf 191 (List.replicate n 1)

theorem wit_RecordsAreRaisedAndCollected :
    ((records 7).recBuf 191).length < 8 ∧ 8 ≤ ((records 8).recBuf 191).length
      ∧ (records 1).nextRecStop = some 191 ∧ (records 1).recBuf 191 = 1 :: [] := by decide +kernel

/-- A write to entry `i` of the memory log, under tag `i`. -/
def logWr (i : Nat) : LogWr := { index := i, tag := i, done := false, rcd := 1 }
/-- Hearth's transaction under tag `i` has ended with a status. -/
def hearthTxn (i status : Nat) : Txn := { txn .ready [] with tag := i, status := status }
/-- Writes to entries 63 and 0 are under way; that to entry `i` has ended. -/
def logging (i status : Nat) : State :=
  { (up fabOPEN).setTxns hearthStop 3 [hearthTxn i status] with
    recs := { State.reset.recs with writes := [logWr 63, logWr 0] } }
/-- A routed ENQ under tag 9. -/
def routed (status : Nat) : State :=
  { (up fabOPEN).setTxns hearthStop 3 [hearthTxn 9 status] with recs := { State.reset.recs with perr := [9] } }

theorem wit_MemoryLogAdvancesAndStops :
    (up fabOPEN).flag gERR_LOG_CTRL 0 = false
      ∧ ((logging 63 stOK).logDone 63 63 = some (logWr 63, stOK) ∧ (logging 63 stOK).recs.writes = logWr 63 :: [logWr 0]
        ∧ ([logWr 0].all (fun x => !x.done && x.index != 63)) = true ∧ (logging 63 stOK).recs.logQ = [])
      ∧ ((logging 0 stOK).logDone 0 0 = some (logWr 0, stOK) ∧ (logWr 63).done = false ∧ (logWr 63).index ≠ 0)
      ∧ ((logging 63 stSLVERR).logDone 63 63 = some (logWr 63, stSLVERR) ∧ stSLVERR ≠ stOK)
      ∧ (logging 63 stOK).logDone 5 5 = none
      ∧ (routed stOK).perrDone 9 = some stOK ∧ (routed stSLVERR).perrDone 9 = some stSLVERR
      ∧ (up fabOPEN).perrDone 9 = none
      ∧ ((((up fabOPEN).setMgmt 191 [ctrlWrite 1 15]).mgmt 191).contains (ctrlWrite 1 15)) = true := by decide +kernel

/-- Stop 17 latched 0 at the mark, the master `m`; STEP_MAX is 4. -/
def latched (m : Nat) : State :=
  let s := (regsIn [(gTS_CTRL, 4), (gTS_SET_CTRL, 1), (gTS_SET_LO, 5)]).setLocalTs 17 { defLocal 0 with mark := some 0 }
  { s with time := { s.time with latchM := BitVec.ofNat 64 m } }

def mastered (n : Nat) : State :=
  { latched 0 with time := { (latched 0).time with master := BitVec.ofNat 64 n } }
def stale : State := (latched 0).raiseFlag gBOOT_STAT 21
/-- A read of the word TS_NOW_LO. -/
def nowRead : Pkt := acc hearthStop opRD 1 gTS_NOW_LO (seqExt 0 0 (opxReq 0 false 3))

theorem wit_TimestampsAreMarkedAndCorrected :
    (running 0).frame.running = true
      ∧ ((latched 4).hsafe = false ∧ ((latched 4).localTs 17).mark = some 0
        ∧ ((latched 4).time.latchM - 0).toInt.natAbs ≤ (latched 4).fld gTS_CTRL 0 16)
      ∧ (((latched 5).fld gTS_CTRL 0 16 : Int) < ((latched 5).time.latchM - 0).toInt)
      ∧ (((latched (2 ^ 64 - 5)).time.latchM - 0).toInt < -((latched 0).fld gTS_CTRL 0 16 : Int))
      ∧ ((latched 0).flag gTS_SET_CTRL 0 = true ∧ 0 ≤ (BitVec.ofNat 64 5 - (latched 0).time.master).toInt)
      ∧ ((regsIn [(gFAB_STATE, fabCONFIGURED), (gDIE_COORD, 1024)]).isRoot = true)
      ∧ (up fabOPEN).isRoot = false
      ∧ ((latched 0).flag gTS_SET_CTRL 0 = true ∧ (BitVec.ofNat 64 5 - (latched 0).time.master).toInt = 5
        ∧ (BitVec.ofNat 64 5 - (mastered 6).time.master).toInt < 0)
      ∧ ((up fabOPEN).flag gTS_SET_CTRL 0 = false ∧ (up fabOPEN).time.offset = none)
      ∧ (((up fabOPEN).localTs 17).mark = none ∧ stale.hsafe = true)
      ∧ (((atPort3 hearthStop nowRead).inbox hearthStop 3).map (fun d => d.slots) = [nowRead]
        ∧ (Pkt.head nowRead).opc = opRD ∧ (Pkt.head nowRead).addr % 2 ^ 26 = gTS_NOW_LO ∧ (Pkt.head nowRead).rlen = 3
        ∧ (Pkt.head nowRead).plen = 0
        ∧ (atPort3 hearthStop nowRead).regRefusal (Pkt.head nowRead) [gTS_NOW_LO] = none) := by decide +kernel

/-- A read of the word PMC_LO of counter 15 of stop 191. -/
def pmcReadPkt : Pkt := acc 191 opRD 1 (stopReg 191 (sPMC + 8 * 15)) (seqExt 0 0 (opxReq 0 false 3))

theorem wit_CountersAndSamplesAreSetUp :
    ((up fabOPEN).regOpen (stopReg 191 sPMAP_ACC) = true ∧ bitOf (BitVec.ofNat 32 0x80001FFF) 31 = true
      ∧ fieldOf (BitVec.ofNat 32 0x80001FFF) 12 1 ≠ (up fabOPEN).pactive 191 ∧ (up fabOPEN).cmtFrozen 191 2 = false)
    ∧ (((atPort3 191 pmcReadPkt).inbox 191 3).map (fun d => d.slots) = [pmcReadPkt] ∧ (Pkt.head pmcReadPkt).opc = opRD
      ∧ (Pkt.head pmcReadPkt).addr % 2 ^ 26 = stopReg 191 (sPMC + 8 * 15) ∧ (Pkt.head pmcReadPkt).rlen = 3
      ∧ (Pkt.head pmcReadPkt).plen = 0
      ∧ (atPort3 191 pmcReadPkt).regRefusal (Pkt.head pmcReadPkt) [stopReg 191 (sPMC + 8 * 15)] = none)
    ∧ (up fabCONFIGURED).hsafe = false ∧ (up fabCONFIGURED).fabState = fabCONFIGURED
    ∧ (up fabOPEN).fabState ≠ fabCONFIGURED := by decide +kernel

/-! ### Queues and their stores -/

/-- A queue entry: state, type, ESZ, capacity, HEAD, TAIL and COUNT (Table 9.2); partition 0 owns it. -/
def qOf (st ty esz cap h t n : Nat) : BitVec 256 :=
  BitVec.ofNat 256 (packFields [(st, 3), (ty, 2), (esz, 3), (cap - 1, 14), (h, 14), (t, 14), (n, 15)])
/-- A valid DIRECT segment of one page in frame `f`; a valid TABLE segment of 9 pages. -/
def directSeg (f : Nat) : BitVec 128 := BitVec.ofNat 128 (1 + 1 * 2 + f * 2 ^ 13)
def tableSeg : BitVec 128 := BitVec.ofNat 128 (1 + 2 * 2 + 8 * 2 ^ 3)
/-- Queue 255 of stop 17, with the engine running and the store filled. -/
def queueOn (e : BitVec 256) (seg : BitVec 128) : State :=
  let s := (((up fabOPEN).raiseFlag (stopReg 17 sQE_CTRL) 0).setFld (stopReg 17 sQS_STAT) 0 1 0).setQEntry 17 255 e
  { s with qe := { s.qe with segs := [(17 * 256 + 255, seg)] } }
def queueAt (e : BitVec 256) (f : Nat) : State := queueOn e (directSeg f)
/-- An operation on queue 255 with LEN `n`. -/
def qop (opc n : Nat) : Pkt :=
  pk (hd 17 2 clsMSG opc) (BitVec.ofNat 64 (255 * 2 ^ 26 + n * 2 ^ 34))
/-- The same, its slot changed on the way. -/
def torn : Pkt := (qop opENQ 0).map (fun x => { x with pay := 1 })
/-- An operation waits at port 2. -/
def asks (s : State) (p : Pkt) : State :=
  s.setInbox 17 2 [{ slots := p, store := 1, ents := 1, resid := 0, early := false, arr := 0, tick := 0 }]
def calm : QIn := { flts := [], uc := 0, qt := 0, seg := 0, tlbBad := false }
/-- Queue 255 holds one element at index 3, of 1 byte. -/
def oneElem (ty : Nat) : State :=
  let s := queueAt (qOf qACTIVE ty 0 4 3 0 1) 127
  let x := s.elemAt 17 255 3 0
  s.setMemWord 17 x.1 (s.physRow 17 x.1 x.2) (rsEncode (BitVec.ofNat 256 (2 ^ 63)) false)

theorem wit_EnqueueStoresOneElement :
    (let s := asks (queueAt (qOf qACTIVE 0 0 4 0 3 3) 127) (qop opENQ 0)
     calmIn calm = true ∧ s.opReady 17 (qop opENQ 0) = true ∧ (Pkt.head (qop opENQ 0)).opc = opENQ
       ∧ (Pkt.head (qop opENQ 0)).qnum = 255 ∧ s.opVerdict 17 (qop opENQ 0) = none
       ∧ badSlot (qop opENQ 0) = none ∧ (Pkt.head (qop opENQ 0)).attrBit attrPois = false
       ∧ s.directElem 17 255 3 = true ∧ qeArmed (s.qEntry 17 (s.leaderOf 17 255)) = false)
    ∧ (let s := asks (queueAt (qOf qACTIVE 0 0 4 0 3 3) 127) torn
       s.opReady 17 torn = true ∧ (Pkt.head torn).opc = opENQ ∧ s.opVerdict 17 torn = none ∧ badSlot torn ≠ none) := by
  decide +kernel

/-- What every clause of DequeueReturnsTheElement asks of a state, an operation and the element's index, the element
fitting the request where `fits`. -/
def elemReady (s : State) (opc n : Nat) (fits : Bool) : Bool :=
  let p := qop opc n
  calmIn calm && s.opReady 17 p && (s.opVerdict 17 p).isNone
    && s.opTarget 17 (Pkt.head p) == (255, 3) && s.directElem 17 255 3
    && !qeArmed (s.qEntry 17 (s.leaderOf 17 255)) && !(Pkt.head p).qarm
    && (List.range 4).all (fun b => (s.merge 17 b).isEmpty)
    && (List.range 2).all (fun w => let x := s.elemAt 17 255 3 w
        (rsDecode (s.reach 17) (s.memWord 17 x.1 (s.physRow 17 x.1 x.2))).kind == 0)
    && (let x := s.elemAt 17 255 3 0
        let d := BitVec.ofNat 64 (wordData (s.memWord 17 x.1 (s.physRow 17 x.1 x.2))).toNat
        bitOf d 63 && (fieldOf d 0 13 + 9 ≤ (Pkt.head p).qlen + 1) == fits)

theorem wit_DequeueReturnsTheElement :
    elemReady (asks (oneElem 0) (qop opDEQ 63)) opDEQ 63 true = true
      ∧ elemReady (asks (oneElem 0) (qop opPEEK 63)) opPEEK 63 true = true
      ∧ elemReady (asks (oneElem 2) (qop opSTEAL 63)) opSTEAL 63 true = true
      ∧ qeSize ((oneElem 0).qEntry 17 255) / 32 = 2 ∧ qeSize ((oneElem 0).qEntry 17 255) = 64 := by decide +kernel

/-- With the newest element at index 3, a DEQ of a queue of type 2 takes that one; and an element of 9 bytes, its
descriptor counted, does not fit a request for 8. -/
theorem wit_DequeueReturnsTheElement_newest :
    (let s := (oneElem 2).setQEntry 17 255 (qOf qACTIVE 2 0 4 2 0 2)
     elemReady (asks s (qop opDEQ 63)) opDEQ 63 true = true)
    ∧ elemReady (asks (oneElem 0) (qop opDEQ 7)) opDEQ 7 false = true := by decide +kernel

theorem wit_StatusAndDoorbellCommands :
    (let s := asks (queueAt (qOf qACTIVE 0 0 4 0 0 0) 0) (qop opQSTAT 63)
     calmIn calm = true ∧ s.opReady 17 (qop opQSTAT 63) = true ∧ s.opVerdict 17 (qop opQSTAT 63) = none
       ∧ (Pkt.head (qop opQSTAT 63)).opc = opQSTAT ∧ (Pkt.head (qop opQSTAT 63)).qarm = false)
    ∧ (let s := asks (queueAt (qOf qACTIVE 0 0 4 0 0 0) 0) (qop opDBELL 3)
       s.opReady 17 (qop opDBELL 3) = true ∧ s.opVerdict 17 (qop opDBELL 3) = none
         ∧ (Pkt.head (qop opDBELL 3)).opc = opDBELL ∧ s.leaderOf 17 255 = 255 ∧ qeArmed (s.qEntry 17 255) = false) := by
  decide +kernel

theorem wit_RefusedQueueOperationChangesNoQueue :
    (let s := asks (queueAt (qOf qACTIVE 0 0 4 0 0 4) 0) (qop opENQ 0)
     s.opReady 17 (qop opENQ 0) = true ∧ s.opVerdict 17 (qop opENQ 0) = some (stQFULL, 2, 0))
    ∧ (let s := asks (queueAt (qOf qACTIVE 0 0 4 0 0 0) 0) (qop opDEQ 63)
       s.opReady 17 (qop opDEQ 63) = true ∧ s.opVerdict 17 (qop opDEQ 63) = some (stEMPTY, 1, 0)
         ∧ (Pkt.head (qop opDEQ 63)).qarm = false)
    ∧ (queueAt (qOf qACTIVE 0 0 4 0 0 0) 0).opVerdict 17 (qop opPEEK 63) = some (stEMPTY, 1, 0)
    ∧ (queueAt (qOf qACTIVE 0 0 4 0 0 0) 0).opVerdict 17 (qop opSTEAL 63) = some (stPROTERR, 4, caQPROTO)
    ∧ (let s := asks (queueAt 0 0) (qop opQSTAT 63)
       s.opReady 17 (qop opQSTAT 63) = true ∧ s.opVerdict 17 (qop opQSTAT 63) = some (stDECERR, 4, caQDEC)
         ∧ s.opVerdict 17 (qop opDBELL 3) = some (stDECERR, 4, caQDEC))
    ∧ (let s := (asks (queueAt 0 0) (qop opENQ 0)).setFld (stopReg 17 sQE_STAT) 0 2 2
       s.opNext 17 (qop opENQ 0) = true ∧ s.qHalted 17 = true)
    ∧ (asks (queueAt 0 0) (qop opENQ 0)).qeOn 17 = true
    ∧ (((queueAt 0 0).nextOp 17).map (·.slots) ≠ some (qop opENQ 0) ∧ (up fabOPEN).fillBusy 17 = true
      ∧ State.reset.stopAbsent 17 = true) := by decide +kernel

/-- A transaction of the engine that is answered. -/
def answered (tag status v : Nat) : Txn :=
  { txn .ready [] with tag := tag, status := status, data := [BitVec.ofNat 512 v] }
def aWalk : QWalk := { tag := 9, q := 255, page := 0, pref := false, dropped := false, gone := false, rel := false }
/-- A backed page-table entry (Table 10.2): V, KIND 1; one that names frame 127. -/
def pte : Nat := 1 + 1 * 2
def framePte : Nat := 1 + 127 * 2 ^ 10
/-- A walk that is answered. -/
def walking (w : QWalk) (status v : Nat) : State :=
  (withTxn (queueOn (qOf qACTIVE 0 0 4 0 0 0) 0) 17 2 (answered 9 status v)).setWalks 17 [w]
/-- A release reads the page table of queue 255; frame 127 is not in the pool. -/
def releasing : State :=
  let s := (walking { aWalk with rel := true } stOK framePte).setReg (stopReg 17 (sQS_POOL + 12)) 0
  s.setRels 17 [{ q := 255, todo := [255], page := 0 }]
def aMove (k : MoveKind) : QMove :=
  { kind := k, frame := 127, q := 255, page := 0, addr := 0, tags := List.range 16 }
/-- A page move whose answers are in, the last with a status. -/
def moving (k : MoveKind) (status : Nat) : State :=
  ((queueAt (qOf qACTIVE 0 0 4 0 0 0) 0).setTxns 17 2 ((List.range 16).map (fun i =>
    answered i (if i = 15 then status else stOK) 0))).setMoves 17 [aMove k]
def devOp : QOp :=
  { pkt := qop opENQ 0, arr := 0, started := true, seq := 1, late := false, qt := 0, seg := 0, ent := 0, tr := []
    miss := [], vict := none, dev := some 9 }
def devving (status : Nat) : State :=
  (withTxn (queueAt (qOf qACTIVE 0 0 4 0 3 3) 0) 17 2 (answered 9 status 0)).setQops 17 [devOp]
/-- What the clauses on PAGE_MOVE_COMPLETE ask of a state, every answer of the move passing a test. -/
def moveReady (s : State) (k : MoveKind) (ok : Nat → Bool) : Bool :=
  s.engineEmpty 17 && (s.invAt 17).isEmpty && (s.leavingAt 17).isEmpty
    && (s.moves 17).find? (fun m => m.frame == 127) == some (aMove k)
    && ((List.range 16).filterMap (fun g => s.engineTxn 17 g)).length == 16
    && (List.range 16).all (fun g => (s.engineTxn 17 g).all (fun x => ok x.status))

theorem wit_EngineTrafficCompletes :
    (let s := walking aWalk stOK pte
     s.engineEmpty 17 = true ∧ (s.walks 17).find? (fun w => w.tag == 9) = some aWalk
       ∧ s.engineTxn 17 9 = some (answered 9 stOK pte)
       ∧ fieldOf ((answered 9 stOK pte).data.headD 0) (64 * (aWalk.page % 8)) 64 = pte ∧ s.pteValid 17 pte = true
       ∧ s.pteValid 17 0 = false ∧ qeState (s.qEntry 17 255) ≠ qDRAINING)
    ∧ ((walking { aWalk with gone := true } stOK 0).engineTxn 17 9 = some (answered 9 stOK 0)
      ∧ (walking { aWalk with pref := true } stSLVERR 0).engineTxn 17 9 = some (answered 9 stSLVERR 0))
    ∧ (releasing.engineEmpty 17 = true
      ∧ (releasing.walks 17).find? (fun w => w.tag == 9) = some { aWalk with rel := true }
      ∧ releasing.engineTxn 17 9 = some (answered 9 stOK framePte) ∧ releasing.pteValid 17 framePte = true
      ∧ (releasing.rels 17).find? (fun r => r.todo.head? == some 255) = some { q := 255, todo := [255], page := 0 })
    ∧ (moveReady (moving .gone stOK) .gone (fun _ => true) = true
      ∧ moveReady (moving .spill stOK) .spill (· == stOK) = true
      ∧ moveReady (moving .spill stSLVERR) .spill (fun _ => true) = true
      ∧ ((moving .spill stSLVERR).engineTxn 17 15).map (·.status) = some stSLVERR
      ∧ moveReady (moving .refill stPOISON) .refill (fun x => x == stOK || x == stPOISON) = true
      ∧ moveReady (moving .prefetch stOK) .prefetch (· == stOK) = true
      ∧ moveReady (moving .refill stSLVERR) .refill (fun _ => true) = true)
    ∧ (let s := devving stOK
       s.qops 17 = [devOp] ∧ Tab.get (fun _ => []) s.qe.forced 17 = [] ∧ s.engineTxn 17 9 = some (answered 9 stOK 0)
       ∧ devOp.head.opc = opENQ ∧ devOp.head.qnum = 255 ∧ qeCount (s.qEntry 17 255) < qeCap (s.qEntry 17 255)
       ∧ qeArmed (s.qEntry 17 (s.leaderOf 17 255)) = false)
    ∧ ((devving stSLVERR).engineTxn 17 9 = some (answered 9 stSLVERR 0) ∧ (queueAt 0 0).engineTxn 17 9 = none) := by
  decide +kernel

/-- A queue-table entry that is lost; a commit in progress. -/
def lostEntry : State :=
  let s := queueAt (qOf qFAULTED 0 0 4 0 3 3) 0
  { s with qe := { s.qe with ue := [(17 * 256 + 255, true)] } }
def inCommitAt (n : Nat) : State := (queueAt (qOf qACTIVE 0 0 4 0 3 3) 0).setFld gCOMMIT_STATUS 0 3 n
/-- A drained queue with a page table. -/
def tabled (r : List QRel) : State := (queueOn (qOf qDRAINING 0 0 4 0 0 0) tableSeg).setRels 17 r

theorem wit_QueueCommandsTakeEffect :
    (let s := queueAt (qOf qACTIVE 0 0 4 0 3 3) 0
     s.niOn 17 = true ∧ s.cmtOpen = false ∧ qeState (s.qEntry 17 255) ≠ qDISABLED ∧ qeType (s.qEntry 17 255) ≠ 3
       ∧ s.qIsLost 17 255 = false ∧ s.engineEmpty 17 = true ∧ s.leaderOf 17 255 = 255
       ∧ qeNtfMode (s.qEntry 17 255) = 0 ∧ qeState (s.qEntry 17 255) ≠ qFAULTED)
    ∧ lostEntry.qIsLost 17 255 = true
    ∧ qeState ((queueAt (qOf qFAULTED 0 0 4 0 0 4) 0).qEntry 17 255) = qFAULTED
    ∧ (qeState ((queueAt 0 0).qEntry 17 255) = qDISABLED ∧ qeType ((queueAt (qOf qACTIVE 3 0 4 0 0 0) 0).qEntry 17 255) = 3)
    ∧ (inCommitAt 2).cmtOpen = true
    ∧ (let s := queueAt (qOf qDRAINING 0 0 4 0 0 0) 0
       s.deleteReady 17 255 = true ∧ s.engineEmpty 17 = true ∧ s.rels 17 = [] ∧ s.groupOf 17 255 = [255]
         ∧ sgMode (s.qSeg 17 255) = 1)
    ∧ (let s := tabled []
       s.deleteReady 17 255 = true ∧ s.rels 17 = []
         ∧ (s.groupOf 17 255).filter (fun j => sgMode (s.qSeg 17 j) == 2) = 255 :: [])
    ∧ (let s := tabled [{ q := 255, todo := [], page := 0 }]
       s.deleteReady 17 255 = true ∧ (s.rels 17).find? (fun r => r.q == 255) = some { q := 255, todo := [], page := 0 }) := by
  decide +kernel

def aPage (d : Bool) : Resid := { frame := 127, q := 255, page := 0, addr := 0, dirty := d, stuck := false }
def anInv (ops : List Pkt) : QInv := { word := 0, lo := 0, num := 0, ops := ops, bad := true }
/-- Frame 127 is to leave the pool; it holds a page. -/
def leaves (d : Bool) : State := ((up fabOPEN).setLeaving 17 [127]).setResid 17 [aPage d]
/-- A commit has frozen the queue definitions of stop 17, that of queue 255 creating it. -/
def frozenDefs : State :=
  let s := queueAt 0 0
  { s with her := { s.her with prep := [17], scope := 2 ^ 7 }
           qe := { s.qe with shadow := [(17 * 256 + 255, 1)] } }

theorem wit_QueueWindowsAndInvalidations :
    (let s := queueAt (qOf qACTIVE 0 0 4 0 0 0) 0
     s.niOn 17 = true ∧ bitOf (BitVec.ofNat 32 0x800001FF) 31 = true ∧ bitOf (BitVec.ofNat 32 0x800001FF) 8 = true
       ∧ s.cmtFrozen 17 7 = false ∧ bitOf (BitVec.ofNat 32 0x800000FF) 8 = false ∧ bitOf (BitVec.ofNat 32 0x1FF) 31 = false
       ∧ qeState (s.qEntry 17 (fieldOf (BitVec.ofNat 32 0x800000FF) 0 8)) ≠ qDISABLED
       ∧ qeState (s.qEntry 17 (fieldOf (BitVec.ofNat 32 0x80000000) 0 8)) = qDISABLED
       ∧ s.flag (stopReg 17 sQTLB_INV) 31 = false ∧ s.leavingAt 17 = [] ∧ s.engineEmpty 17 = true)
    ∧ (frozenDefs.cmtFrozen 17 7 = true ∧ fieldOf (frozenDefs.shadowDef 17 255) 0 3 = 1 ∧ frozenDefs.niOn 17 = true)
    ∧ ((up fabOPEN).raiseFlag (stopReg 17 sQTLB_INV) 31).flag (stopReg 17 sQTLB_INV) 31 = true
    ∧ (let s := (up fabOPEN).setInv 17 [anInv []]
       s.invAt 17 = [anInv []] ∧ s.qops 17 = [] ∧ s.resid 17 = [] ∧ s.moves 17 = [] ∧ s.leavingAt 17 = [])
    ∧ (let s := ((up fabOPEN).setInv 17 [anInv [qop opENQ 0]]).setQops 17 [devOp]
       (s.qops 17).any (fun o => (anInv [qop opENQ 0]).ops.contains o.pkt) = true)
    ∧ ((leaves false).leavingAt 17 = [127] ∧ (leaves false).resid 17 = [aPage false] ∧ (leaves false).moves 17 = []
      ∧ (leaves false).invAt 17 = [] ∧ (leaves true).resid 17 = [aPage true]) := by decide +kernel

/-- A privileged, secure access of the raw window of stop 17. -/
def rawPkt (opc off : Nat) (ext : BitVec 64) : Pkt :=
  pk { hd 17 3 clsREQ opc with addr := off, attr := 3 } ext
/-- It waits alone at port 3. -/
def rawAt (p : Pkt) : State :=
  (up fabOPEN).setInbox 17 3 [{ slots := p, store := 1, ents := 1, resid := 0, early := false, arr := 0, tick := 0 }]
def mergeOne : MergeEnt := { row := 1023, data := 5, mask := 1, last := 0, wait := [] }
def merging (limit : Nat) : State :=
  { regsIn ((stopReg 17 sQS_CTRL, limit * 2 ^ 16) :: allOn) with
    store := { State.reset.store with merge := [(17 * 4 + 3, [mergeOne])] } }
/-- The scrubber of stop 17 stands at step `n`; scrubbing is on where `on`. -/
def scrubs (n : Nat) (on : Bool) : State :=
  (((up fabOPEN).setFld (stopReg 17 sQS_STAT) 0 1 0).setFld (stopReg 17 sQS_SCRUB_POS) 0 11 n).setFld
    (stopReg 17 sQS_CTRL) 1 1 (boolNat on)
/-- Row 1023 of bank 3 of stop 17 has spare 0; every spare of that bank serves a row. -/
def spared (all : Bool) : State :=
  forUpTo (if all then 8 else 1) (fun k (s : State) => s.setReg (remapReg 17 3 k) (BitVec.ofNat 32 (1023 - k + 2 ^ 10)))
    (up fabOPEN)

theorem wit_StoreCommandsTakeEffect :
    ((scrubs 1031 true).stopAbsent 17 = false ∧ (scrubs 1031 true).fillBusy 17 = false
      ∧ (scrubs 1031 true).fld (stopReg 17 sQS_SCRUB_POS) 0 11 = 1031
      ∧ (scrubs 1023 false).flag (stopReg 17 sQS_CTRL) 1 = false
      ∧ (scrubs 1023 true).flag (stopReg 17 sQS_CTRL) 1 = true ∧ (scrubs 1023 true).rawMode 17 = false
      ∧ (scrubs 1023 true).fld (stopReg 17 sQS_SCRUB_POS) 0 11 = 1023
      ∧ (rsDecode ((scrubs 1023 true).reach 17) ((scrubs 1023 true).memWord 17 3 1023)).kind ≤ 1
      ∧ (scrubs 1023 true).merge 17 3 = [])
    ∧ (((merging 0).merge 17 3).find? (fun e => e.row == 1023
        && decide ((merging 0).fld (stopReg 17 sQS_CTRL) 16 8 ≤ (merging 0).frame.rcs - e.last)) = some mergeOne
      ∧ (rsDecode ((merging 0).reach 17) ((merging 0).memWord 17 3 ((merging 0).physRow 17 3 1023))).kind = 0)
    ∧ (merging 1).frame.rcs - mergeOne.last < (merging 1).fld (stopReg 17 sQS_CTRL) 16 8
    ∧ (let p := rawPkt opWR 0 (BitVec.ofNat 64 (2 ^ 32 - 1))
       ((rawAt p).inbox 17 3).map (fun d => d.slots) = [p] ∧ (rawAt p).rawRefusal 17 (Pkt.head p) = none
         ∧ (rawAt p).rawMode 17 = false ∧ rawWords p = [(0, 0, BitVec.allOnes 32)]
         ∧ (p.getLastD (Pkt.head p)).cls = clsREQ)
    ∧ (let p := rawPkt opWR 0 1
       rawWords p = [(0, 0, 1)] ∧ (1 : BitVec 32) ≠ BitVec.allOnes 32 ∧ (rawAt p).merge 17 (wordBank 0) = [])
    ∧ (let p := rawPkt opRD 0 0
       (rawAt p).rawRefusal 17 (Pkt.head p) = none ∧ (Pkt.head p).plen = 0
         ∧ rawOffset (Pkt.head p).addr / 32 = (rawOffset (Pkt.head p).addr + (Pkt.head p).rlen) / 32
         ∧ (rsDecode ((rawAt p).reach 17) ((rawAt p).memWord 17 0 ((rawAt p).physRow 17 0 0))).kind = 0
         ∧ (List.range 4).all (fun b => ((rawAt p).merge 17 b).isEmpty) = true)
    ∧ (let p := acc 17 opRD 0 0 0
       (rawAt p).rawRefusal 17 (Pkt.head p) = some stACCERR)
    ∧ (let s := (up fabOPEN).setFld (stopReg 17 sQE_CTRL) 0 1 0
       s.flag (stopReg 17 sQE_CTRL) 0 = false ∧ (List.range 4).all (fun b => (s.merge 17 b).isEmpty) = true)
    ∧ ((up fabOPEN).raiseFlag (stopReg 17 sQE_CTRL) 0).flag (stopReg 17 sQE_CTRL) 0 = true
    ∧ ((up fabOPEN).spareOf 17 3 1023 = none ∧ (up fabOPEN).freeSpare 17 3 = some 0 ∧ (up fabOPEN).merge 17 3 = []
      ∧ (rsDecode ((up fabOPEN).reach 17) ((up fabOPEN).memWord 17 3 1023)).kind = 0)
    ∧ ((spared true).spareOf 17 3 0 = none ∧ (spared true).freeSpare 17 3 = none)
    ∧ (spared false).spareOf 17 3 1023 ≠ none := by decide +kernel

/-- What Hearth's scrubber finds at the first SRAM word with some bits changed. -/
def hmSees (bits : BitVec 88) : HmRead := hmDecode ((up fabOPEN).hmWord (hmScrubWord 0) ^^^ bits)

theorem wit_StoreCommandsTakeEffect_fills :
    Memory.wf (up fabOPEN).mem
    ∧ (let s : State := { up fabOPEN with pw := { (up fabOPEN).pw with iso := [(ngOf 17, false)] } }
       s.filling 17 = true ∧ s.filling 191 = false)
    ∧ hmScrubWord (up fabOPEN).store.hscrub = 32768
    ∧ hmSees 0 = .clean ∧ hmSees 1 = .corrected 0 ∧ hmSees (1 + 2 ^ 8) = .uncorrectable := by decide +kernel

theorem wit_StoreCommandsStayAtTheirStop :
    storeStop (.arm 17 255) = some 17 ∧ ∃ t, exec (.arm 17 255) (up fabOPEN) = .next t := ⟨rfl, _, rfl⟩
/-! ### Power, fences, maps -/

/-- OPEN with a restore image. -/
def openRestored : State := (up fabOPEN).raiseFlag gRESTORE_STAT 0
/-- An operation of Hearth on a domain. -/
def opOn (k : PwKind) (d ph : Nat) (lift : Bool) : PwOp :=
  { kind := k, dom := d, set := domSet d, phase := ph, lift := lift, seen := [], acks := [], dies := [3], cross := false
    settle := 0, from_ := 0, change := none }
def during (o : PwOp) : State := { openRestored with pw := { openRestored.pw with op := some o } }
def withDom (s : State) (f v : Nat) : State := s.setDom f v
/-- The power part of a state changed. -/
def withPw (s : State) (f : PwSt → PwSt) : State := { s with pw := f s.pw }
/-- FENCE_CTRL.GO is set. -/
def fencing : State := openRestored.raiseFlag gFENCE_CTRL 31

theorem wit_PowerRequestsStart :
    (openRestored.pwReady = true ∧ openRestored.pw.op = none ∧ openRestored.offRefusal 303 = none)
    ∧ (openRestored.offRefusal 511 = some pwINVALID ∧ openRestored.onRefusal 511 = some pwINVALID
      ∧ openRestored.pw.fcs = [] ∧ openRestored.pw.kbs = [])
    ∧ (let s := withDom openRestored 47 dmOFF
       s.onRefusal 303 = none ∧ s.domNum 303 = dmOFF ∧ s.domNum 303 ≠ dmDRAINED ∧ s.pwReady = true)
    ∧ (let s := withDom openRestored 55 dmDRAINED
       s.onRefusal 311 = some pwINVALID ∧ s.domNum 311 = dmDRAINED)
    ∧ (let s := withDom openRestored 47 dmDRAINED
       s.onRefusal 303 = none ∧ s.domNum 303 = dmDRAINED)
    ∧ (let s := withPw openRestored (fun w => { w with apds := [(255, 2)] })
       s.onRefusal 255 = none ∧ s.domNum 255 ≠ dmON)
    ∧ (let s := withDom (during (opOn .off 303 1 false)) 47 dmFENCING
       s.pwReady = true ∧ s.pw.op = some (opOn .off 303 1 false) ∧ s.domNum 303 = dmFENCING ∧ s.domNum 300 ≠ dmFENCING)
    ∧ (up fabCONFIGURED).pwReady = false
    ∧ (openRestored.flag gFENCE_CTRL 31 = false ∧ openRestored.fabState = fabOPEN ∧ openRestored.pwBlocked = false
      ∧ openRestored.domNum 311 = dmON ∧ openRestored.pw.reqs = [])
    ∧ (fencing.flag gFENCE_CTRL 31 = true ∧ (up fabCONFIGURED).fabState ≠ fabOPEN
      ∧ (during (opOn .off 303 1 false)).pwBlocked = true) := by decide +kernel

/-- Stop 17 still owes an acknowledgement for the set of domain 47. -/
def owing : State := withPw (during (opOn .off 303 1 false)) (fun w => { w with unacked := [(17, [.ng 47])] })
/-- A Kind B change waits out its settle. -/
def settling (c : KbChange) : PwOp := { opOn .kindB 303 3 false with change := some c }
/-- A fence is being lifted; the broadcast has reached the stops below `n`. -/
def lifting (k : PwKind) (d n : Nat) : PwOp := { opOn k d 5 true with seen := List.range n }
/-- Hearth has halted. -/
def halted (s : State) : State := s.raiseFlag gBOOT_STAT 21

theorem wit_FencesAreRaisedAndAcknowledged :
    (let s := during (opOn .off 303 1 false)
     s.hsafe = false ∧ s.pw.op = some (opOn .off 303 1 false) ∧ (opOn .off 303 1 false).set = .ng 47
       ∧ (opOn .off 303 1 false).lift = false)
    ∧ ((halted openRestored).hsafe = true ∧ openRestored.pw.op = none)
    ∧ ((Tab.get (fun _ => []) owing.pw.unacked 17).contains (FSet.ng 47) = true ∧ owing.fenceClear 17 (.ng 47) = true
      ∧ (Tab.get (fun _ => []) openRestored.pw.unacked 17).contains (FSet.ng 47) = false)
    ∧ ((opOn .fence 303 3 false).settle ≤ (during (opOn .fence 303 3 false)).frame.rcs
      ∧ (opOn .fence 303 3 false).change = none ∧ (opOn .fence 303 3 false).phase = 3)
    ∧ ((settling .rclk).change = some .rclk ∧ (settling .detour).change = some .detour ∧ KbChange.detour ≠ .rclk
      ∧ (opOn .fence 303 1 false).phase ≠ 3 ∧ (during { settling .rclk with settle := 1 }).frame.rcs < 1)
    ∧ ((during (lifting .on 311 191)).pw.op = some (lifting .on 311 191) ∧ (lifting .on 311 191).lift = true
      ∧ (insertAsc 191 (lifting .on 311 191).seen).length = 192
      ∧ (during (lifting .on 311 191)).pw.fcs = [] ∧ (during (lifting .on 311 191)).pw.kbs = []
      ∧ (during (lifting .on 311 191)).pw.reqs = [])
    ∧ ((insertAsc 191 (lifting .unfence 311 5).seen).length ≠ 192) := by decide +kernel

/-- The switching of a domain is at a stage. -/
def seqAt (f : Nat) (st : PwStage) (whole : Bool) : PwSeq :=
  { dom := f, stage := st, due := 0, good := false, whole := whole, ans := pwDONE }
/-- Domain 47 is being switched, for an ON. -/
def switched (st : PwStage) (whole : Bool) : State :=
  withPw (withDom (during (opOn .on 303 5 false)) 47 dmWAKING) (fun w => { w with seq := some (seqAt 47 st whole) })
/-- The same at start-up, with domain 47 of step 3. -/
def bootSwitched : State :=
  let s := withDom (up fabINIT) 47 dmWAKING
  withPw { s with her := { s.her with boot := { s.her.boot with dom := 47 } } } (fun w => { w with seq := some (seqAt 47 .strong true) })

theorem wit_DomainsAreSwitched :
    (let o := opOn .off 303 4 false
     (during o).drained o = true ∧ o.dom = 256 + 47 ∧ o.kind = .off ∧ o.phase = 4 ∧ (during o).hsafe = false
       ∧ (during o).pw.op = some o)
    ∧ (let o := { opOn .off 303 4 false with from_ := 0 }
       let s : State := { during o with her := { (during o).her with boot := { (during o).her.boot with hcs := 400 * 65536 } } }
       s.drainLate o = true ∧ o.kind ≠ .kindB ∧ s.pw.op = some o)
    ∧ ((opOn .off 255 4 false).dom < 256 ∧ (opOn .fence 311 4 false).kind = .fence
      ∧ (during (opOn .fence 311 4 false)).drained (opOn .fence 311 4 false) = true)
    ∧ (opOn .off 303 3 false).phase ≠ 4
    ∧ ((switched .strong true).switching 47 = true ∧ (switched .strong true).pw.seq = some (seqAt 47 .strong true)
      ∧ (seqAt 47 .strong true).due ≤ (switched .strong true).her.boot.hcs ∧ (switched .strong true).bootDom 47 = false
      ∧ (switched .strong true).pw.fcs = [] ∧ (switched .strong true).pw.kbs = [] ∧ (switched .strong true).pw.reqs = [])
    ∧ (bootSwitched.bootDom 47 = true ∧ bootSwitched.switching 47 = true)
    ∧ (let s := switched .fill false
       s.pw.seq = some (seqAt 47 .fill false) ∧ s.hsafe = false ∧ s.pw.op = some (opOn .on 303 5 false)
         ∧ s.bootDom 47 = false)
    ∧ (openRestored.bootDom 47 = false ∧ openRestored.pw.seq = none)
    ∧ (let s : State := { switched .fill true with pw := { (switched .fill true).pw with iso := [(47, false)] } }
       s.filling 191 = true ∧ ngOf 191 = 47)
    ∧ ((switched .good true).pending = [] ∧ (switched .good true).her.rstLow = false
      ∧ (switched .good true).switching 47 = true
      ∧ (seqAt 47 .good true).due ≤ (switched .good true).her.boot.hcs + 1) := by decide +kernel

/-- Region 63 of the staging map is in use and ends below its base. -/
def badRegion : State :=
  ((up fabCONFIGURED).setReg (gSTAGE_MAP + 16 * 63) 5).setReg (gSTAGE_MAP + 16 * 63 + 12) (BitVec.ofNat 32 (2 ^ 27))
/-- A staged detour names this die itself. -/
def badDetour : State := (up fabCONFIGURED).setReg gDETOUR_STG 1

theorem wit_MapAndDetoursAreApplied :
    (let s := up fabCONFIGURED
     s.fabState ≠ fabFAILED ∧ s.flag gADDR_MAP_CTRL 0 = false ∧ s.mapCheck = none ∧ s.fabState = fabCONFIGURED
       ∧ s.fabState ≠ fabOPEN ∧ s.fabState ≠ fabQUIESCING ∧ s.fabState ≠ fabQUIESCED
       ∧ s.flag gREMAP_CTRL 1 = false ∧ s.flag gDETOUR_CTRL 0 = false
       ∧ ((List.range 8).any (fun i => s.detourBad (s.reg (gDETOUR_STG + 4 * i)))) = false)
    ∧ badRegion.mapCheck = some (63, 2)
    ∧ ((List.range 8).any (fun i => badDetour.detourBad (badDetour.reg (gDETOUR_STG + 4 * i)))) = true
    ∧ ((up fabOPEN).fabState = fabOPEN ∧ (up fabOPEN).pwBlocked = false ∧ (up fabOPEN).pw.fcs = []
      ∧ (up fabOPEN).pw.kbs = [] ∧ (up fabOPEN).mapCheck = none)
    ∧ (let s := (during (opOn .off 303 1 false)).setFld gFAB_STATE 0 4 fabQUIESCED
       s.fabState = fabQUIESCED ∧ s.pwBlocked = true)
    ∧ ((up fabFAILED).fabState = fabFAILED ∧ ((up fabOPEN).raiseFlag gADDR_MAP_CTRL 0).flag gADDR_MAP_CTRL 0 = true
      ∧ ((up fabOPEN).raiseFlag gREMAP_CTRL 1).flag gREMAP_CTRL 1 = true
      ∧ ((up fabOPEN).raiseFlag gDETOUR_CTRL 0).flag gDETOUR_CTRL 0 = true) := by decide +kernel

theorem wit_TheRingClockIsHeldAndReleased :
    ((up fabCONFIGURED).flag gRCLK_CTRL 0 = false ∧ (up fabCONFIGURED).fabState = fabCONFIGURED)
    ∧ ((up fabOPEN).fabState = fabOPEN ∧ (up fabOPEN).pwBlocked = false ∧ (up fabOPEN).pw.fcs = []
      ∧ (up fabOPEN).pw.kbs = [] ∧ (up fabOPEN).flag gRCLK_CTRL 0 = false)
    ∧ ((up fabDEGRADED).fabState ≠ fabCONFIGURED ∧ (up fabDEGRADED).fabState ≠ fabOPEN)
    ∧ ((up fabOPEN).raiseFlag gRCLK_CTRL 0).flag gRCLK_CTRL 0 = true
    ∧ (let t := held (up fabCONFIGURED)
       t.cdc.hold = true ∧ t.pw.op = none ∧ t.pw.fcs = [] ∧ t.pw.kbs = [] ∧ t.pw.reqs = [])
    ∧ (let t := held (during (settling .rclk))
       t.cdc.hold = true ∧ t.hsafe = false ∧ t.pw.op = some (settling .rclk) ∧ (settling .rclk).change = some .rclk)
    ∧ (up fabOPEN).cdc.hold = false := by decide +kernel

/-! ### Die-to-die -/

/-- Port 0 (stop 48) is UP with all four modules, at die 1 on the link to die 2. -/
def linkUp (d : DpSt) : State :=
  let s := regsIn (allOn ++ [(gFAB_STATE, fabOPEN), (dpReg 0 dSTAT, lsUP + 15 * 16 + 2 * 256), (gTEMPER_CTRL, 4)])
  { s.setDp 0 { d with modsTx := 15, modsRx := 15 } with
    her := { s.her with rstLow := false }, d2d := { (s.setDp 0 { d with modsTx := 15, modsRx := 15 }).d2d with dieId := 1 } }
def beSlot : Slot := Pkt.head (pk { hd 49 0 clsREQ opRD with ddie := 1, sdie := 2 } (seqExt 0 0 (opxReq 0 false 0)))
/-- A slot that is not the first of its packet. -/
def laterSlot : Slot := { beSlot with hdr := withField beSlot.hdr 85 6 1 }.seal
def egEnt : EgEnt := { ccls := 1, transit := false, lring := 0, slot := laterSlot }
def sendDp : DpSt := { defDp 0 with egress := [egEnt], credit := List.replicate 8 1, granted := List.replicate 8 1 }
/-- Credit of class 1 is owed to the partner; a ROTATE waits. -/
def owingDp : DpSt := { defDp 0 with owed := (List.replicate 8 0).set 1 300, granted := List.replicate 8 0 }
def turningDp : DpSt := { defDp 0 with rotate := some 7, credit := List.replicate 8 1 }
def onePair : PairIn := mkPair [laterSlot] 3 255
/-- The two registers of row 3 going east at stop 48 are empty. -/
def emptyRow (s : State) : State := (s.setSlot 12 0 (emptySlot 0 0)).setSlot 13 0 (emptySlot 0 0)
def readyIn : State :=
  let s := emptyRow (linkUp { defDp 0 with ingress := [{ ccls := 1, slot := laterSlot }] })
  { s with frame := { s.frame with running := true } }

theorem wit_FlitPairsCarrySlotsAndCredit :
    ((linkUp sendDp).dpUp 0 = true ∧ ((linkUp sendDp).dp 0).modsTx ≠ 0 ∧ ((linkUp sendDp).dp 0).rotate = none
      ∧ ((linkUp sendDp).dp 0).egress = [egEnt] ∧ ((linkUp sendDp).dp 0).nextSend = some (1, egEnt)
      ∧ ((linkUp sendDp).dp 0).owed.length = 8 ∧ ((linkUp sendDp).dp 0).granted.length = 8
      ∧ egEnt.slot.crcOk = true ∧ egEnt.transit = false)
    ∧ ((linkUp (defDp 0)).dp 0).nextSend = none
    ∧ (let d := (linkUp owingDp).dp 0
       d.nextSend = none ∧ d.rotate = none ∧ ((List.range 8).find? (fun c => 0 < d.owed.getD c 0)).getD 0 = 1
         ∧ min (d.owed.getD 1 0) 255 = 255)
    ∧ (let d := (linkUp turningDp).dp 0
       d.rotate = some 7 ∧ 0 < d.credit.getD 7 0 ∧ d.egress = [])
    ∧ (onePair.nslot = 1 ∧ (slotOfImage (onePair.images.getD 0 0)).ccls = 1
      ∧ 0 < ((linkUp sendDp).dp 0).granted.getD 1 0 ∧ ((linkUp (defDp 0)).dp 0).granted.getD 1 0 = 0
      ∧ isRotate 48 (slotOfImage (onePair.images.getD 0 0)) = false ∧ ((linkUp sendDp).dp 0).credit.length = 8)
    ∧ (0 < ((linkUp sendDp).dp 0).granted.getD 7 0 ∧ ((linkUp (defDp 0)).dp 0).granted.getD 7 0 = 0)
    ∧ (up fabOPEN).dpUp 0 = false
    ∧ (let r : Rsv := { src := oldPart.src, n := 1, cls := 2, passed := 0, due := 0 }
       let s := linkUp { defDp 0 with rsvEg := [r], rsvIn := [r] }
       (s.dp 0).rsvEg.find? (fun r => r.src == oldPart.src && decide (r.due ≤ 400 * s.cdc.us) && !(s.dp 0).answering r) = some r
         ∧ (s.dp 0).rsvIn.find? (fun r => r.src == oldPart.src && decide (r.due ≤ 400 * s.cdc.us) && !(s.dp 0).answering r) = some r
         ∧ ((linkUp (defDp 0)).dp 0).rsvIn = []) := by decide +kernel

/-- PCRC does not cover itself. -/
theorem need_pcrc (a b v : Word32) (l : List (BitVec 736)) : PairIn.need ⟨a, v, l⟩ = PairIn.need ⟨a, b, l⟩ := by
  simp only [PairIn.need]

/-- Every pair the model forms passes its check. -/
theorem mkPair_good (xs : List Slot) (c n : Nat) : (mkPair xs c n).pcrc = (mkPair xs c n).need := by
  simp only [mkPair]
  exact need_pcrc _ _ _ _

/-- A pair whose PCRC differs in a bit fails it. -/
theorem flip_bad (w : Word32) : w ^^^ 1 ≠ w := by
  intro h
  have h2 : w ^^^ (w ^^^ 1) = w ^^^ w := congrArg (fun v => w ^^^ v) h
  rw [← BitVec.xor_assoc, BitVec.xor_self, BitVec.zero_xor] at h2
  exact absurd h2 (by decide)

theorem wit_FlitPairsCarrySlotsAndCredit_good : onePair.pcrc = onePair.need := mkPair_good _ _ _

/-- Whatever the pair's words and images, a PCRC that is wrong. -/
theorem wit_FlitPairsCarrySlotsAndCredit_bad (a : Word32) (l : List (BitVec 736)) :
    ∃ x : PairIn, x.w0 = a ∧ x.images = l ∧ x.pcrc ≠ x.need := by
  have h (v : Word32) : PairIn.need ⟨a, v, l⟩ = PairIn.need ⟨a, 0, l⟩ := need_pcrc _ _ _ _
  generalize PairIn.need ⟨a, 0, l⟩ = w at h
  refine ⟨⟨a, w ^^^ 1, l⟩, rfl, rfl, ?_⟩
  rw [h]
  exact flip_bad w

theorem wit_FlitPairsCarrySlotsAndCredit_ingress :
    ((readyIn.dp 0).ingress.find? (fun e => e.ccls == 1) = some { ccls := 1, slot := laterSlot }
      ∧ (readyIn.dp 0).reserveHead (ingressSlot laterSlot) (readyIn.rsvDue 0 (ingressSlot laterSlot)) = some (readyIn.dp 0)
      ∧ (ingressSlot laterSlot).grnt = false ∧ readyIn.frame.running = true
      ∧ readyIn.transitNeed 1 (ingressSlot laterSlot) = none ∧ readyIn.target (ingressSlot laterSlot) = some 49
      ∧ (readyIn.dp 0).owed.length = 8 ∧ dpStop 0 = 48
      ∧ (linkUp (defDp 0)).frame.running = false ∧ ((linkUp (defDp 0)).dp 0).ingress = []) := by decide +kernel

/-- Whether a candidate state leaves the port's buffer and its credit as they were. -/
def portSame (s : State) (u : Option State) : Bool :=
  u.any (fun u => (u.dp 0).ingress == (s.dp 0).ingress && (u.dp 0).owed == (s.dp 0).owed)

theorem wit_FlitPairsCarrySlotsAndCredit_place :
    portSame readyIn (((readyIn.setDp 0 (readyIn.dp 0)).ingressBE 48 49 (ingressSlot laterSlot)).1) = true := by decide +kernel

/-- Both registers of row 3 going east at stop 48 hold an empty slot of one kind; the frame is in rc `n`. -/
def rowOf (y : Slot) (n : Nat) : State :=
  let s := ((linkUp (defDp 0)).setSlot 12 0 y).setSlot 13 0 y
  { s with frame := { s.frame with running := true, fpos := n } }
/-- A GUAR packet of one slot for stop 49, a MGMT packet for it, a request for stop 48. -/
def guarSlot : Slot := Pkt.head (pk { hd 49 0 clsGUAR opGWR with ddie := 1, sdie := 2 } 0)
def mgmtSlot : Slot := Pkt.head (pk { hd 49 3 clsMGMT opMG_UNI with ddie := 1, sdie := 2 } 0)
def ownSlot (cls opc : Nat) : Slot := Pkt.head (pk { hd 48 3 cls opc with ddie := 1, sdie := 2 } (seqExt 0 0 0))
/-- Flow 5 enters ring 12 at stop 48, for stop `t`, in position 0 of the frame. -/
def flowRow (t n : Nat) : State :=
  (((rowOf (emptySlot stGUAR 5) n).setReg (stopReg 48 sFLOW_TABLE) (BitVec.ofNat 32 (1 + 5 * 8))).setReg
    (stopReg 48 sFLOW_TABLE + 4) (BitVec.ofNat 32 ((256 + t) * 256))).setReg (stampReg 12 0 0)
    (BitVec.ofNat 32 (stGUAR + 5 * 16))

theorem wit_FlitPairsCarrySlotsAndCredit_classes :
    (portSame (rowOf (emptySlot stMGMT 0) 0) ((rowOf (emptySlot stMGMT 0) 0).ingressMgmt 48 49 (ingressSlot mgmtSlot)) = true
      ∧ ((rowOf (emptySlot stBE 0) 0).ingressMgmt 48 49 (ingressSlot mgmtSlot)).isNone = true)
    ∧ (let n := ringDist 12 (ringCoord 12 48) + 1
       ((flowRow 49 n).ingressFlow 48 49).isSome = true
         ∧ portSame (flowRow 49 n) ((flowRow 49 n).ingressGuar 48 49 (ingressSlot guarSlot)) = true
         ∧ ((flowRow 49 (n + 1)).ingressGuar 48 49 (ingressSlot guarSlot)).isNone = true)
    ∧ (rowOf (emptySlot stBE 0) 0).ingressFlow 48 49 = none
    ∧ (let s := rowOf (emptySlot stMGMT 0) 0
       (s.ingressBE 48 49 (ingressSlot laterSlot)).1.isNone = true
         ∧ (s.ingressBE 48 49 (ingressSlot laterSlot)).2.d2d = s.d2d)
    ∧ (let s := rowOf (emptySlot stBE 0) 0
       s.target (ingressSlot (ownSlot clsRSP opCMP)) = some 48
         ∧ portSame s (s.ingressLoop 48 (emptySlot stBE 0) (ingressSlot (ownSlot clsRSP opCMP))) = true)
    ∧ (flowRow 48 0).ingressFlow 48 48 = some (stopReg 48 sFLOW_TABLE) := by decide +kernel

def goodMod : ModRep := { active := true, stream := true, flit := true, rate := 32 }
/-- Port 7 exists, is enabled and powered, in a link state. -/
def linkIn (v fab : Nat) : State :=
  let s := regsIn (allOn ++ [(gFAB_STATE, fab), (dpReg 7 dSTAT, v + 15 * 16), (dpReg 7 dCTRL, 1)])
  { s with d2d := { s.d2d with present := 255 } }

theorem wit_LinksComeUpAndGoDown :
    (let s := linkIn lsTRAINING fabCALIBRATING
     s.lstate 7 = lsTRAINING ∧ s.training 7 = true ∧ s.mayTrain 7 = true
       ∧ acceptModules [goodMod, goodMod, { goodMod with rate := 16 }] = (3, 32)
       ∧ acceptModules [{ goodMod with flit := false }] = (0, 0) ∧ lsTRAINING ≤ s.lstate 7 ∧ s.pw.fcs = [])
    ∧ (let s := linkIn lsHELLO fabCALIBRATING
       s.lstate 7 = lsHELLO ∧ s.training 7 = false ∧ dpPartner 7 = 5 ∧ (6 : Nat) ≠ dpPartner 7 ∧ s.discovering = true)
    ∧ (let s := linkIn lsDOWN fabOPEN
       s.lstate 7 < lsTRAINING ∧ s.mayTrain 7 = true ∧ s.lstate 7 ≠ lsHELLO)
    ∧ ((up fabOPEN).lstate 7 < lsTRAINING ∧ (up fabOPEN).mayTrain 7 = false)
    ∧ (let s := linkIn lsUP fabOPEN
       bitOf (BitVec.ofNat 4 (s.fld (dpReg 7 dSTAT) 4 4)) 3 = true ∧ modDrop (s.fld (dpReg 7 dSTAT) 4 4) 3 ≠ 0)
    ∧ (let s := (linkIn lsUP fabOPEN).setFld (dpReg 7 dSTAT) 4 4 8
       bitOf (BitVec.ofNat 4 (s.fld (dpReg 7 dSTAT) 4 4)) 3 = true ∧ modDrop (s.fld (dpReg 7 dSTAT) 4 4) 3 = 0
         ∧ bitOf (BitVec.ofNat 4 (s.fld (dpReg 7 dSTAT) 4 4)) 0 = false) := by decide +kernel

/-- A die in discovery with port 7 UP, `n` hc after reset. -/
def finding (root : Bool) (rel : Option (Int × Int)) (at_ : List Nat) (reps : List ((Int × Int) × Nat)) (n : Nat) : State :=
  let s := linkIn lsUP fabCALIBRATING
  { s with d2d := { s.d2d with root := root, rel := rel, rootAt := at_, reports := reps, toRoot := some 7 }
           her := { s.her with boot := { s.her.boot with hcs := n, phase := 3 } } }

theorem wit_DiscoveryGivesEveryDieItsPlace :
    (let s := finding false none [] [] 0
     s.discovering = true ∧ s.dpUp 7 = true ∧ s.d2d.rel = none ∧ s.d2d.root = false ∧ s.d2d.toRoot = some 7)
    ∧ ((finding false (some (3, 3)) [] [] 0).d2d.rel = some (3, 3) ∧ ((3, 3) : Int × Int) ≠ (3, 2))
    ∧ (let s := finding true none [] [((-1, 0), 1)] 40000
       s.discovering = true ∧ s.d2d.root = true ∧ s.reportsQuiet = true ∧ s.twoRoots = false
         ∧ s.gridOf.headD (0, 0) = (1, 0) ∧ breaksGrid s.gridOf (1, 0) = false
         ∧ s.gridOf.all (fun c => !breaksGrid s.gridOf c) = true
         ∧ (s.gridOf.filter (fun c => !breaksGrid s.gridOf c)).length = s.gridOf.length)
    ∧ (let s := finding true none [] [((3, 0), 1), ((4, 0), 1)] 40000
       breaksGrid s.gridOf (s.gridOf.headD (0, 0)) = false
         ∧ (s.gridOf.filter (fun c => !breaksGrid s.gridOf c)).length ≠ s.gridOf.length)
    ∧ (finding true none [0] [] 40000).twoRoots = true
    ∧ (let s := finding true none [] [((0, 0), 1)] 40000
       breaksGrid s.gridOf (s.gridOf.headD (0, 0)) = true)
    ∧ (let s := finding false (some (3, 3)) [] [] 0
       s.discovering = true ∧ s.d2d.rel = some (3, 3) ∧ s.twoRoots = false
         ∧ inGrid ((3 : Int) - 0, (3 : Int) - 0) = true)
    ∧ (finding false (some (3, 3)) [0, 1, 2, 3, 4, 5, 6, 7] [] 0).twoRoots = true
    ∧ (let s := finding false none [] [] (400000 * 256)
       s.her.boot.phase = 3 ∧ s.d2d.discAt + 400000 * s.fld gD2D_CTRL 16 8 ≤ s.her.boot.hcs)
    ∧ (up fabOPEN).discovering = false := by decide +kernel

def winOf (ini ack sent rcvd : Bool) (tw : Nat) : ModWin :=
  { m := 3, tw := tw, acked := ack, sent := sent, rcvd := rcvd, initiator := ini, sentAt := 0 }
/-- A port with a window, `n` hc after reset. -/
def inWindow (w : Option ModWin) (n : Nat) : State :=
  let s := linkUp { defDp 0 with window := w }
  { s with her := { s.her with boot := { s.her.boot with hcs := n } } }
/-- Port 0 leads to the root. -/
def rootward : State := { linkUp (defDp 0) with d2d := { (linkUp (defDp 0)).d2d with toRoot := some 0 } }
/-- The smallest round trip seen on port 0 is `m`. -/
def tripped (m : Nat) : State := linkUp { defDp 0 with minRtt := some m }
def asRoot (s : State) : State := { s with d2d := { s.d2d with root := true } }

theorem wit_TimeAndWindowsOverTheLinks :
    (rootward.d2d.toRoot = some 0 ∧ rootward.dpUp 0 = true ∧ rootward.hsafe = false)
    ∧ (let s := linkUp (defDp 0)
       s.d2d.toRoot ≠ some 0 ∧ s.hsafe = false ∧ s.dpUp 0 = true ∧ (s.dp 0).minRtt = none
         ∧ ((BitVec.ofNat 64 20 - BitVec.ofNat 64 0).toInt - (BitVec.ofNat 64 12 - BitVec.ofNat 64 10).toInt).toNat = 18
         ∧ (BitVec.ofNat 64 10 - BitVec.ofNat 64 0).toInt - (BitVec.ofNat 64 20 - BitVec.ofNat 64 12).toInt = 2 * 1
         ∧ (BitVec.ofNat 64 11 - BitVec.ofNat 64 0).toInt - (BitVec.ofNat 64 20 - BitVec.ofNat 64 12).toInt = 2 * 1 + 1)
    ∧ (let s := tripped 18
       ((s.dp 0).minRtt.any (fun m => if s.frame.running then decide (m + 8 < 18) else decide (m ≤ 18))) = true)
    ∧ (let s := tripped 9
       let t : State := { s with frame := { s.frame with running := true } }
       ((t.dp 0).minRtt.any (fun m => if t.frame.running then decide (m + 8 < 18) else decide (m ≤ 18))) = true
         ∧ t.frame.running = true)
    ∧ (State.reset.frame.running = false ∧ State.reset.d2d.root = false)
    ∧ ((asRoot State.reset).d2d.root = true
      ∧ (asRoot State.reset).time.master.toNat + 800000 ≤ (BitVec.ofNat 64 800000).toNat
      ∧ (BitVec.ofNat 64 799999).toNat < (asRoot State.reset).time.master.toNat + 800000)
    ∧ (let s := inWindow none (256 * 400000)
       s.winDue 0 = true ∧ (s.flag gTEMPER_CTRL 2 && s.dpUp 0 && !s.hsafe && decide (s.die < s.fld (dpReg 0 dSTAT) 8 4)
         && (s.dp 0).window.isNone && decide (1 < modCount (s.dpMods 0))) = true
         ∧ bitOf (BitVec.ofNat 4 (s.dpMods 0)) 3 = true)
    ∧ ((inWindow (some (winOf true false false false 1)) (256 * 400000)).winDue 0 = true
      ∧ (inWindow none 0).winDue 0 = false)
    ∧ (let s := inWindow (some (winOf true false false false 1)) 0
       (s.dp 0).window = some (winOf true false false false 1) ∧ s.time.master.toNat < 1
         ∧ s.winOver (winOf true false false false 1) = false)
    ∧ (let s := inWindow (some (winOf true true true true 0)) (2 ^ 16 * 400)
       (s.dp 0).window = some (winOf true true true true 0) ∧ s.winOver (winOf true true true true 0) = true)
    ∧ ((winOf true false false false 0).acked = false ∧ (winOf true false false false 0).tw ≤ (inWindow none 0).time.master.toNat)
    ∧ ((inWindow none 0).dp 0).window = none := by decide +kernel
/-! ### Start-up, flash, commits, test access -/

/-- Start-up with the given registers and progress. -/
def boots (l : List (Nat × Nat)) (f : BootSt → BootSt) : State :=
  let s := regsIn (allOn ++ l)
  { s with her := { s.her with rstLow := false, boot := f s.her.boot } }
/-- A header that passes Table 15.4, with the given SEQ. -/
def header (q : Nat) : BitVec 2048 :=
  BitVec.ofNat 2048 (0x4D49564B + 1 * 2 ^ 32 + 0x1612 * 2 ^ 48 + 3 * 2 ^ 64 + q * 2 ^ 96 + 448 * 2 ^ 128 + 1 * 2 ^ 160
    + 1 * 2 ^ 176)
/-- A fuse area of zeros but for its CRC. -/
def goodFuses : List Word32 := List.replicate 63 0 ++ [crcEnd (crcWords (List.replicate 63 0) 0xFFFFFFFF)]

/-- INIT, with some progress. -/
def inits (f : BootSt → BootSt) : State := boots [(gFAB_STATE, fabINIT)] f
def calibrates (f : BootSt → BootSt) : State := boots [(gFAB_STATE, fabCALIBRATING)] f
/-- Discovery is over and this die is alone. -/
def discovered (f : BootSt → BootSt) : State :=
  boots [(gFAB_STATE, fabCALIBRATING), (gDIE_COORD, 256), (gDIE_MAP, 1)] f

/-- A copy of a header alone, with a public key, and its trailer: the words of KEY_HASH and the signature were computed
outside Lean, from the standards. -/
def signedHeader : BitVec 2048 :=
  header 1 + BitVec.ofNat 2048 (0xf48349c123ae637f03bdaaa4befebaf0da9e2fbfc3b974ed52b805f806f5c25b88bb77a0508d020dc4766dc270594d33 * 2 ^ 768
    + 0xaabbd1ee76783d697baa92a6317eea6a871c856ff80887c6c83905cc1e228eda4adbc49d6826e95f126171cad76a210a * 2 ^ 1152)
def trailer : BitVec 768 :=
  BitVec.ofNat 768 (0xcb55d2b49f76cd4a287d033e11837e64dd0a816a44d69486a1a8b445863b4f2a9ac544881ac7e636b787bcc4f7b28405
    + 0xabbe925974d617b3fa79a952f267ff148966934134335226534d841992face0701154a6d014371b111cdac323edf6b7d * 2 ^ 384)
def keyHash : List Word32 :=
  [0xe306c6d1, 0xb380508a, 0xd6ef9960, 0x220e039a, 0xfeffdb30, 0x71754075,
   0x0bb8fea4, 0x6e86f84d, 0x9d4c9cf6, 0x9534594e, 0x69060071, 0x148b3b5c]

theorem test_copy_signature :
    copySigned signedHeader [] trailer = true ∧ keyMatches keyHash signedHeader = true := by decide +kernel
theorem test_copy_signature_bad :
    copySigned signedHeader [] (trailer + 1) = false ∧ keyMatches keyHash (header 1) = false := by decide +kernel

/-- A section of die 0 alone, with its body. -/
def dieSect (w : Word32) : ImgSect := { hdr := BitVec.ofNat 384 (8 + 4 * 2 ^ 32 + 1 * 2 ^ 64), body := [w] }

theorem wit_sections_read_again :
    sectChanged (dieSects [dieSect 5] 0) [dieSect 5] = none ∧ sectChanged (dieSects [dieSect 5] 0) [dieSect 4] = some 0
      ∧ sectChanged (dieSects [dieSect 5] 0) [] = some 0 := by decide +kernel

theorem wit_FusesAndCopiesAreRead :
    (let s := inits (fun b => { b with fuseReq := true, hcs := 101 })
     s.booting = true ∧ s.her.boot.fuseReq = true ∧ s.fuseLate = true)
    ∧ ((inits (fun b => { b with fuseReq := true, hcs := 100 })).fuseLate = false ∧ (up fabOPEN).booting = false
      ∧ (inits id).her.boot.fuseReq = false)
    ∧ (let s := inits (fun b => { b with fuses := goodFuses })
       s.booting = true ∧ s.her.boot.fuses.length = 64 ∧ s.her.boot.fuseOk = none
         ∧ s.her.boot.fuses.getD 63 0 = crcEnd (crcWords ((s.her.boot.fuses.take 63).map (fun w => w.toNat)) 0xFFFFFFFF))
    ∧ (let s := inits (fun b => { b with fuses := List.replicate 64 1 })
       s.her.boot.fuses.getD 63 0 ≠ crcEnd (crcWords ((s.her.boot.fuses.take 63).map (fun w => w.toNat)) 0xFFFFFFFF))
    ∧ (let s := inits (fun b => { b with fuseOk := some false })
       s.her.boot.fuseOk ≠ none ∧ s.her.boot.nvmUp = false ∧ s.fuse12 10 2 ≠ 3)
    ∧ (inits (fun b => { b with fuseOk := some true, fuses := List.replicate 64 0xC00 })).fuse12 10 2 = 3
    ∧ (let s := inits (fun b => { b with fuseOk := some true, nvmUp := true })
       s.booting = true ∧ s.her.boot.nvmUp = true ∧ s.her.boot.hdrs = none ∧ s.her.boot.degr = 0
         ∧ s.headerCause (some (header 7)) = 0 ∧ s.headerCause (some 0) = 1 ∧ s.headerCause none = 7
         ∧ s.causeOf 1 = 0 ∧ s.causeOf 2 = 0)
    ∧ (inits (fun b => { b with degr := 1, hdrs := some (0, 0) })).her.boot.degr ≠ 0
    ∧ (let s := calibrates (fun b => { b with copy := 2 })
       s.booting = true ∧ s.her.boot.copy = 2 ∧ s.her.boot.phase = 0 ∧ s.her.boot.degr = 0)
    ∧ (let s := calibrates (fun b => { b with copy := 1, phase := 2, fuseOk := some true, fuses := List.replicate 64 1 })
       s.her.boot.phase = 2 ∧ s.unprov = false ∧ s.her.boot.copy = 1
         ∧ keyMatches s.her.boot.fuses (s.headerOf 1) = false)
    ∧ (let s := calibrates (fun b => { b with copy := 1, phase := 2, fuseOk := some true, hdrs := some (signedHeader, 0)
                                              fuses := keyHash ++ List.replicate 52 1 })
       s.unprov = false ∧ keyMatches s.her.boot.fuses (s.headerOf 1) = true
         ∧ copySigned (s.headerOf 1) s.her.boot.sects trailer = true
         ∧ copySigned (s.headerOf 1) s.her.boot.sects 0 = false)
    ∧ (let s := calibrates (fun b => { b with copy := 1, phase := 1, fuseOk := some true, fuses := goodFuses })
       s.her.boot.phase = 1 ∧ s.unprov = true)
    ∧ (let s := discovered (fun b => { b with copy := 1, phase := 3, hdrs := some (header 1, 0) })
       s.booting = true ∧ s.her.boot.phase = 3 ∧ s.her.boot.copy = 1 ∧ s.her.boot.degr = 0 ∧ s.flag gDIE_COORD 8 = true
         ∧ dieSetVerdict (s.fld gDIE_MAP 0 16) (hdDieSet (s.headerOf 1)) (hdPartial (s.headerOf 1)) ≠ 2)
    ∧ (dieSetVerdict 3 1 true = 2 ∧ (calibrates id).flag gDIE_COORD 8 = false) := by decide +kernel

/-- A load and a store of Hearth's at the first SRAM word, with some bits of the word changed; and a fetch there. -/
def loads (bits : BitVec 88) : HAcc := { op := .load, addr := 0x40000, data := 0, mask := 0, bits := bits }
def stores : HAcc := { op := .store, addr := 0x40000, data := 5, mask := 0xFF, bits := 0 }
def fetches : HAcc := { loads 0 with op := .fetch }

theorem wit_StartUpEndsInAConfiguration :
    (let s := calibrates id
     s.booting = true ∧ s.fabState = fabCALIBRATING ∧ s.her.boot.calDone = false)
    ∧ ((calibrates (fun b => { b with calDone := true })).her.boot.calDone = true)
    ∧ (let s := calibrates (fun b => { b with copy := 1, phase := 4, calDone := true, dom := 56 })
       s.booting = true ∧ s.her.boot.phase = 4 ∧ s.her.boot.calDone = true ∧ s.her.boot.dom = 56 ∧ s.strobeEarly = false
         ∧ s.her.boot.degr = 0 ∧ s.frame.running = false
         ∧ imageF (s.her.boot.sects.filter (fun e => e.onDie s.die)) = 2016
         ∧ stampRings s.her.boot.sects s.die = [] ∧ s.fld (ringReg 111 rSTAMP_STAT) 0 1 = 0)
    ∧ (let s := inits (fun b => { b with degr := 15, dom := 56 })
       s.booting = true ∧ s.her.boot.degr ≠ 0 ∧ s.her.boot.dom = 56 ∧ s.frame.running = false)
    ∧ (let s := boots [(gFAB_STATE, fabCONFIGURED)] (fun b => { b with phase := 5 })
       s.fabState = fabCONFIGURED ∧ s.her.boot.phase = 5 ∧ s.flag gFAB_STATE 12 = false ∧ s.hsafe = false
         ∧ s.her.test.mode = false ∧ (hdHold (s.headerOf s.her.boot.copy) || s.flag gBOOT_STAT 19) = false)
    ∧ (let s := boots [(gFAB_STATE, fabCONFIGURED), (gBOOT_STAT, 2 ^ 19)] (fun b => { b with phase := 5 })
       (hdHold (s.headerOf s.her.boot.copy) || s.flag gBOOT_STAT 19) = true)
    ∧ (let s := ((up fabCONFIGURED).setFld (stopReg 0 sQS_STAT) 0 1 0).setPort 0 0 { defPort 0 with rstLvl := true }
       s.mayJoin 0 0 = true ∧ stopKind 0 = 4)
    ∧ ((boots [(gFAB_STATE, fabCONFIGURED + 4096)] id).flag gFAB_STATE 12 = true
      ∧ (boots [(gFAB_STATE, fabCONFIGURED + 4096)] id).hsafe = false ∧ (up fabOPEN).flag gFAB_STATE 12 = false)
    ∧ (let s := up fabOPEN
       s.her.rstLow = false ∧ s.her.test.mode = false ∧ s.fabState ≠ fabFAILED ∧ s.hsafe = false
         ∧ s.booting = false ∧ s.fabState ≠ fabCONFIGURED
         ∧ s.trapCause (loads 1) = none ∧ s.trapCause stores = none ∧ s.trapCause fetches = some 1
         ∧ s.trapCause (loads (1 + 2 ^ 8)) = some 5
         ∧ hmDecode (s.hmWord 32768 ^^^ (loads 1).bits) = .corrected 0 ∧ hmRom 32768 = false)
    ∧ ((calibrates id).trapCause (loads (1 + 2 ^ 8)) = some 5 ∧ (calibrates id).her.boot.trapped = false
      ∧ (calibrates (fun b => { b with trapped := true })).her.boot.trapped = true)
    ∧ (State.reset.her.rstLow = true ∧ (up fabFAILED).fabState = fabFAILED) := by decide +kernel

/-- A table that reads as `f` below a bound, and as its default from there on. -/
theorem tab_of (d f : Nat → Word32) (n : Nat) :
    ∃ t : Tab Word32, ∀ a, Tab.get d t a = if a < n then f a else d a := by
  induction n with
  | zero => exact ⟨[], fun a => by simp [Tab.get]⟩
  | succ n ih =>
    obtain ⟨t, ht⟩ := ih
    refine ⟨Tab.set d t n (f n), fun a => ?_⟩
    by_cases h : a = n
    · subst h
      rw [Tab.get_set_same, if_pos (Nat.lt_succ_self a)]
    · rw [Tab.get_set_other d t n a (f n) h, ht a]
      by_cases h2 : a < n
      · rw [if_pos h2, if_pos (Nat.lt_succ_of_lt h2)]
      · rw [if_neg h2, if_neg (fun h3 => h (Nat.le_antisymm (Nat.le_of_lt_succ h3) (Nat.le_of_not_lt h2)))]

/-- The register words of the default schedule: entry `p` of bank 0 of ring `r` at its place. -/
def stampWord (a : Nat) : Word32 :=
  let p := (a - 0x800000) % 0x10000 / 4
  let e := defaultStamp ((a - 0x800000) / 0x10000) p
  if p < 2016 then BitVec.ofNat 32 (e.1 + e.2 * 16) else 0

/-- The entries of the default schedule fit their fields. -/
theorem stamp_fields (r p : Nat) :
    (fieldOf (BitVec.ofNat 32 ((defaultStamp r p).1 + (defaultStamp r p).2 * 16)) 0 3,
      fieldOf (BitVec.ofNat 32 ((defaultStamp r p).1 + (defaultStamp r p).2 * 16)) 4 10) = defaultStamp r p := by
  have all : ∀ e ∈ [(stESC, 0), (stMGMT, 0), (stCAL, 0), (stBE, 0x3FF), (stBE, 0)],
      (fieldOf (BitVec.ofNat 32 (e.1 + e.2 * 16)) 0 3, fieldOf (BitVec.ofNat 32 (e.1 + e.2 * 16)) 4 10) = e := by
    decide
  refine all _ ?_
  simp only [defaultStamp]
  repeat' split
  all_goals simp

/-- Some state has the default schedule in the active bank of every ring. -/
theorem wit_StartUpEndsInAConfiguration_schedule :
    ∃ s : State, s.frame.flen48 = 42 ∧
      ∀ r p, r < nRings → p < 2016 → s.stampOf r (s.fld (ringReg r rSTAMP_STAT) 0 1) p = defaultStamp r p := by
  obtain ⟨t, ht⟩ := tab_of regReset stampWord (0x800000 + 112 * 0x10000)
  refine ⟨{ State.reset with regs := t }, rfl, fun r p hr hp => ?_⟩
  have hr2 : r < 112 := hr
  have h0 : State.fld { State.reset with regs := t } (ringReg r rSTAMP_STAT) 0 1 = 0 := by
    have hq : ringReg r rSTAMP_STAT - 0x800000 = r * 0x10000 + 0x7E00 := by simp only [ringReg, rSTAMP_STAT]; omega
    simp only [State.fld, State.reg, ht]
    rw [if_pos (by simp only [ringReg, rSTAMP_STAT]; omega)]
    simp only [stampWord, hq]
    rw [if_neg (by omega)]
    decide
  have h1 : (if stampReg r 0 p < 0x800000 + 112 * 0x10000 then stampWord (stampReg r 0 p) else regReset (stampReg r 0 p))
      = BitVec.ofNat 32 ((defaultStamp r p).1 + (defaultStamp r p).2 * 16) := by
    have hq : stampReg r 0 p - 0x800000 = r * 0x10000 + 4 * p := by simp only [stampReg, ringReg]; omega
    have hd : (r * 0x10000 + 4 * p) / 0x10000 = r := by omega
    have hm : (r * 0x10000 + 4 * p) % 0x10000 / 4 = p := by omega
    rw [if_pos (by simp only [stampReg, ringReg]; omega)]
    simp only [stampWord, hq, hd, hm]
    rw [if_pos hp]
  rw [h0]
  simp only [State.stampOf, State.fld, State.reg, ht, h1]
  exact stamp_fields r p

theorem wit_ResetsLeaveResetValues : State.reset.her.rstLow = true ∧ (up fabOPEN).her.rstLow = false := by decide

theorem wit_FlashAndRestoreCommandsRun :
    (let s := boots [(gFAB_STATE, fabOPEN)] (fun b => { b with nvmUp := true })
     s.flag gNVM_CMD 31 = false ∧ s.nvmOpen = true ∧ s.her.boot.nvmUp = true ∧ s.hsafe = false
       ∧ s.nvmInUse (nvmSpan .program false 255 (s.reg gNVM_ADDR).toNat) = false
       ∧ s.nvmInUse (nvmSpan .erase true 0 (s.reg gNVM_ADDR).toNat) = false ∧ s.flag gRESTORE_CTRL 0 = false
       ∧ s.pw.img = false)
    ∧ (let s := boots [(gFAB_STATE, fabOPEN), (gBOOT_STAT, 1), (gNVM_ADDR, 447)]
         (fun b => { b with nvmUp := true, hdrs := some (header 1, 0) })
       s.nvmInUse (nvmSpan .program false 0 (s.reg gNVM_ADDR).toNat) = true
         ∧ s.nvmInUse (nvmSpan .erase false 0 (s.reg gNVM_ADDR).toNat) = true)
    ∧ (up fabCONFIGURED).nvmOpen = false
    ∧ ((boots [(gNVM_CMD, 2 ^ 31 + 1 + 255 * 8)] id).flag gNVM_CMD 31 = true
      ∧ (boots [(gNVM_CMD, 2 ^ 31 + 1 + 255 * 8)] id).fld gNVM_CMD 0 2 = 1
      ∧ (boots [(gNVM_CMD, 2 ^ 31 + 2)] id).fld gNVM_CMD 0 2 ≠ 1)
    ∧ (let s := boots [(gRESTORE_CTRL, 1)] id
       s.flag gRESTORE_CTRL 0 = true ∧ s.hsafe = false ∧ s.pw.fcs = [] ∧ s.pw.kbs = [] ∧ s.pw.reqs = [])
    ∧ (withPw (up fabOPEN) (fun w => { w with img := true })).pw.img = true := by decide +kernel

/-- A die in a commit state; the root if `rootBit` is 1024. -/
def inCommit (st rootBit : Nat) (f : CmtSt → CmtSt) : State :=
  let s := regsIn (allOn ++ [(gFAB_STATE, fabOPEN), (gCOMMIT_STATUS, st), (gDIE_COORD, rootBit), (gCOMMIT_FRAME, 0)])
  { s with her := { s.her with rstLow := false, cmt := f s.her.cmt, prep := if st = 0 then [] else [191] } }
/-- Every stop has answered. -/
def allAcked (c : CmtSt) : CmtSt := { c with acked := List.range 192 }
/-- T is far ahead. -/
def early (s : State) : State := s.setReg gCOMMIT_T_HI 1
/-- COMMIT_FRAME reads `n`. -/
def frameOf (n : Nat) (s : State) : State := s.setReg gCOMMIT_FRAME (BitVec.ofNat 32 n)
/-- One entry of the register list names no stop. -/
def badList : State := ((inCommit 0 1024 id).setFld gCMT_LIST_N 0 7 1).setReg (gCMT_LIST 0 + 4) 0xFFFFFFFF
def aPrep (frame : Bool) (flen : Nat) : PrepMsg :=
  { t := 0, scope := 1, frame := frame, list := false, flen := BitVec.ofNat 8 flen, items := [] }

theorem wit_CommitsArePreparedAndDecided :
    ((up fabINIT).goRefused = true ∧ (up fabINIT).hsafe = false ∧ (halted (up fabOPEN)).hsafe = true)
    ∧ (let s := inCommit 0 1024 id
       s.goRefused = false ∧ s.hsafe = false
         ∧ (s.reg gCOMMIT_TS_LO).toNat + (s.reg gCOMMIT_TS_HI).toNat * 2 ^ 32 ≤ s.time.master.toNat + 2 ^ 32
         ∧ bitOf (BitVec.ofNat 32 0) 11 = false)
    ∧ (badList.goRefused = false ∧ bitOf (BitVec.ofNat 32 2048) 11 = true ∧ badList.listOk badList.listNow = false)
    ∧ (let s := (inCommit 0 1024 id).setReg gCOMMIT_TS_HI 2
       s.goRefused = false
         ∧ s.time.master.toNat + 2 ^ 32 < (s.reg gCOMMIT_TS_LO).toNat + (s.reg gCOMMIT_TS_HI).toNat * 2 ^ 32)
    ∧ (0 < State.reset.frame.flen48)
    ∧ (let s := inCommit cmPREPARING 1024 id
       s.hsafe = false ∧ s.cmtState = cmPREPARING ∧ s.her.prep.contains 17 = false ∧ s.cmtIncludes 17 = true
         ∧ s.isRoot = true ∧ s.her.cmt.acked.length ≠ 192 ∧ s.her.prep.contains 191 = true)
    ∧ (let s := (inCommit cmPREPARING 1024 id).setDom (ngOf 17) dmOFF
       s.cmtIncludes 17 = false ∧ s.her.prep.contains 17 = false ∧ s.her.scope % 2 = 0)
    ∧ (let s := inCommit 0 0 id
       s.isRoot = false ∧ s.cmtOpen = false ∧ s.hsafe = false ∧ s.cmtState ≠ cmPREPARING
         ∧ s.fld gFRAME_CTRL 8 8 ≠ (aPrep true 10).flen.toNat)
    ∧ (let s := early (inCommit cmPREPARING 1024 id)
       s.her.prep.contains 191 = true ∧ s.her.cmt.acked.contains 191 = false ∧ s.cmtLate = false
         ∧ (State.tableChecks 191 s.newFlen (s.cmtTables 191) s).1 = none)
    ∧ (let s := inCommit cmPREPARING 0 (fun c => { c with acked := List.range 191 })
       s.her.cmt.acked.length = 191 ∧ s.her.cmt.acked.contains 191 = false ∧ s.isRoot = false ∧ s.her.cmt.fail = none)
    ∧ ((allAcked (inCommit cmPREPARING 1024 id).her.cmt).acked.contains 191 = true)
    ∧ (let s := early (inCommit cmPREPARING 1024 (fun c => { c with dies := [15] }))
       s.her.cmt.dies.contains 15 = true ∧ s.cmtLate = false ∧ s.her.cmt.fail = none
         ∧ s.her.cmt.dies.contains 14 = false) := by decide +kernel

theorem wit_CommitsArePreparedAndDecided_decided :
    (let s := inCommit cmPREPARING 1024 allAcked
     s.her.cmt.fail = none ∧ s.cmtAll = true ∧ s.hsafe = false ∧ s.isRoot = true ∧ s.cmtState = cmPREPARING)
    ∧ ((inCommit cmPREPARING 1024 (fun c => { c with fail := some (0, 17, 2) })).her.cmt.fail ≠ none)
    ∧ (let s := inCommit cmPREPARING 1024 id
       s.cmtAll = false ∧ s.cmtLate = true ∧ (early s).cmtLate = false ∧ (early s).cmtAll = false)
    ∧ ((inCommit cmIN_DOUBT 0 id).isRoot = false ∧ (inCommit cmIN_DOUBT 0 id).cmtState = cmIN_DOUBT)
    ∧ ((inCommit 0 1024 (fun c => { c with kept := some (7, true, 9) })).her.cmt.kept = some (7, true, 9)
      ∧ (inCommit 0 1024 id).her.cmt.kept = none)
    ∧ (let s := frameOf 2 (inCommit cmPREPARING 0 allAcked)
       s.her.cmt.acked.length = 192 ∧ s.cmtState = cmPREPARING ∧ s.doubtTime = false)
    ∧ (let s := frameOf 1 (inCommit cmPREPARING 0 allAcked)
       s.doubtTime = true ∧ s.hasAcked = true ∧ s.mayAsk = true ∧ s.her.cmt.late = none)
    ∧ (let s := frameOf 1 (inCommit cmIN_DOUBT 0 (fun c => { allAcked c with asked := some 1 }))
       s.mayAsk = false ∧ (inCommit cmPREPARING 0 id).hasAcked = false) := by decide +kernel

/-- Stop 17 is to check the shadow set of ACU 0, which holds an inverted region. -/
def badShadow : State :=
  let s := inCommit cmPREPARING 0 id
  let t : State := { s with her := { s.her with scope := 2 ^ 4, prep := [17] } }
  ((t.setFld (stopReg 17 sSTOP_CMT_STAT) 9 1 1).setFld (acuReg 17 0 8) 1 2 0).setAcuSet 17 0 1 4 (BitVec.ofNat 128 (2 ^ 112 + 5))

theorem wit_CommitsArePreparedAndDecided_failed :
    badShadow.her.prep.contains 17 = true ∧ badShadow.her.cmt.acked.contains 17 = false ∧ badShadow.isRoot = false
      ∧ badShadow.her.cmt.fail = none
      ∧ (State.tableChecks 17 badShadow.newFlen (badShadow.cmtTables 17) badShadow).1 = some (4, 1) := by decide +kernel

theorem wit_CommitsSwapAtTheFrameBoundary :
    (let s := inCommit cmDECIDED 0 (fun c => { c with frame := true, flen := 168 })
     s.swapDue = true ∧ s.listOk s.her.cmt.items = true ∧ s.cmtState = cmDECIDED ∧ s.her.cmt.frame = true
       ∧ s.her.cmt.flen ≤ 168)
    ∧ (let s := inCommit cmIN_DOUBT 0 (fun c => { c with late := some 0 })
       s.swapDue = true ∧ s.listOk s.her.cmt.items = true ∧ s.cmtState = cmIN_DOUBT ∧ s.her.cmt.frame = false)
    ∧ ((frameOf 1 (inCommit cmDECIDED 0 id)).swapDue = false ∧ (up fabOPEN).cmtState ≠ cmDECIDED) := by decide +kernel

/-- Tests of some memories run. -/
def testing (ms : List Nat) (mode : Bool) : State :=
  { State.reset with her := { State.reset.her with test := { State.reset.her.test with running := ms, mode := mode } } }

theorem wit_TestAccessCommandsTakeEffect :
    (testing [] false).her.test.running.contains 1841 = false
      ∧ (testing [0] false).her.test.running.contains 0 = true ∧ (testing [] true).her.test.mode = true
      ∧ (testing [] false).her.test.mode = false := by decide
/-! ### Well-formedness: one ill-formed term for each check -/

def badSrc : Src := { die := 16, stop := 0, port := 0, tag := 0 }
def badMem : MemFlt := { bank := 4, row := 0, bits := 0, again := 0 }
def quiet : RegEnv := { fs := [], period := 416667, detour := false, same := 0 }
def rcOf (ups : List Upset) (cal : List CalObs) : RcIn := { upsets := ups, cal := cal, stall := [], again := [], early := [] }
def upsetAt (r : RingNo) (p : Nat) : Upset := { ring := r, pos := p, hdr := 0, pay := 0, ext := 0, crc := 0 }

theorem test_wf_refuses :
    [ Instr.ringCycle (rcOf [upsetAt 111 12] []), .ringCycle (rcOf [] [{ ring := 0, pos := 16, main := 0, aux := [] }]),
      .reasmDrop 0 badSrc, .requestCapture 17 0 { rdIn with req := { rd0 with opc := 64 } },
      .requestCapture 17 0 { rdIn with beats := List.replicate 130 ⟨0, 0, true, false, 0⟩ },
      .msgCapture 17 0 { peekIn with qaddr := 2 ^ 20 }, .agentResponse 17 0 { okRsp with status := 16 },
      .hsTimeoutIn 17 0 (.rsp { okRsp with tag := 1024 }), .hsTimeoutIn 17 0 (.msg { peekIn with len := 8192 }),
      .hsTimeoutIn 17 0 (.req { rd0 with addr := 2 ^ 52 }),
      .retryReceive 17 [], .grantReceive 17 [], .greleaseReceive 17 [], .completionReceive 17 [], .pwackReceive 17 [],
      .enq 17 [] calm, .enq 17 (qop opENQ 0) { calm with flts := [badMem] }, .deq 17 [] calm, .peek 17 [] calm,
      .steal 17 [] calm, .qstat 17 [] calm, .dbell 17 [] calm,
      .walkComplete 17 0 [badMem],
      .pageMoveComplete 17 0 [badMem], .devAccessComplete 17 0 [badMem], .qtlbInvAll 17 false [badMem],
      .qtlbInvQueue 17 0 false [badMem], .qtlbInvPage 17 0 0 false [badMem], .qtlbInvDone 17 [badMem],
      .poolWrite 17 0 0 [badMem], .poolFrameLeave 17 0 [badMem], .scrubStep 17 [badMem], .mergeDrain 17 0 0 [badMem],
      .rawWindowRead 17 [] [], .rawWindowWrite 17 (ctrlWrite 0 15) [badMem], .qsRemapAdd 17 0 0 [badMem],
      .fenceReceive 17 (.ng 48) false, .fenceReceive 17 (.apd 256) false, .unfenceReceive 17 (.dp 8) false,
      .unfenceReceive 17 (.dests [(0, 192, 0)]) false, .fenceAck (.stop 17 (.dies [16])),
      .flitPairReceive 0 { w0 := 0, pcrc := 0, images := List.replicate 17 0 }, .d2dRsvExpire 0 false badSrc,
      .linkTrained 0 (List.replicate 5 goodMod), .assign 0 16 0, .discoveryReport 0 (-16) 0, .final 16 0 0,
      .fabResetDeassert { root := false, present := 0, fcsBase := 0, dbg := [(4, 0)], test := false },
      .initialCalibrationDone [] [{ ring := 48, pos := 12, lane := 0, trim := 0 }],
      .nvmCmdDone true (List.replicate 257 0), .commitGo 0 0, .prepare 0 none 0,
      .tsNowRead (some []), .pmcRead 0 0 (some []),
      .recordRaise 0 { port := 4, sev := 0, cause := 0, part := none, unver := false, spec := 0 },
      .logWriteDone 65536 0, .logWriteDone 0 4096, .perrEnqDone 4096, .logEnable 16, .mgmtBad 0 [],
      .registerWrite (.packet 8 []) quiet, .registerWrite (.test 0 0) { quiet with period := 0 }
    ].all (fun c => !c.wf) = true := by decide +kernel

theorem test_wf_accepts :
    [ Instr.ringCycle (rcOf [upsetAt 111 11] []), .requestCapture 17 0 rdIn, .msgCapture 16 0 peekIn,
      .agentResponse 16 0 okRsp, .enq 17 (qop opENQ 0) calm, .assign 0 (-15) 15, .fenceReceive 17 (.ng 47) false,
      .commitGo 0 1, .registerWrite (.test 0 0) quiet, .registerWrite (.packet 8 (ctrlWrite 0 15)) quiet
    ].all Instr.wf = true := by decide +kernel

theorem test_no_word_is_a_command : decodeTableWord 32 0 = none ∧ decodeTableWord 0 0 = none := by decide

/-! ### Values from the manual's examples -/

/-- R34: the CRC of the nine ASCII bytes "123456789". -/
theorem test_crc32c : crc32c 9 0x393837363534333231 = 0xE3069283 := by decide +kernel

/-- The example of chapter 0: stop (7, 3). -/
theorem test_stop_55 :
    stopAt 7 3 = 55 ∧ ringAt 55 3 = 15 ∧ ringAt 55 7 = 79 ∧ stopReg 55 0 = 0x1DC000 ∧ stopReg 55 0x1800 = 0x1DD800 := by
  decide

/-- Chapter 1: stop (6, 5) lies in NG domain 21; the tile kinds at the corners of Table 1.1. -/
theorem test_grid : ngOf (stopAt 6 5) = 21 ∧ stopKind 0 = 4 ∧ stopKind 4 = 3 ∧ stopKind 16 = 1 ∧ stopKind 86 = 0 := by
  decide

/-- The example of chapter 4: hops and column distance of flow 37. -/
theorem test_flow_37 : ringAt 53 0 = 12 ∧ ringAt 60 4 = 96 ∧ injDir 53 124 = 0 ∧ ringDist 12 5 = 5 ∧ ringDist 96 3 = 3 := by
  decide

/-- The example of chapter 6: 8 beats of GLP-2 at an odd 32-byte place make 5 slots. -/
theorem test_glp2_write : reqPlen 1 { rd0 with opc := opWR, addr := 0x20000E20, len := 7 } = 4 := by decide

/-- The example of chapter 8: which channels an interleaved read of 512 bytes goes to. -/
theorem test_interleave :
    interleave 0xFFFF 0x001234567800 = 31 ∧ interleave 0xFFFF 0x001234567900 = 47 := by decide +kernel

/-- The example of chapter 10: the page-table entry of page 37. -/
theorem test_pte : pteLoc 0x001020009433 = .backed 0x001020009400 := by decide +kernel

/-- The example of chapter 11: frame 90, byte 512 is row 724 of banks 0 to 3. -/
theorem test_frame_word :
    (List.range 4).map (fun k => frameWord 90 (16 + k)) = [(0, 724), (1, 724), (2, 724), (3, 724)] := by decide

/-- A bit line of bank 0 stuck at row 724 of stop 120, and the scrubber at that step. -/
def stuckColumn : State :=
  (((up fabOPEN).setFld (stopReg 120 sQS_STAT) 0 1 0).setFld (stopReg 120 sQS_CTRL) 0 2 3).setFld
    (stopReg 120 sQS_SCRUB_POS) 0 11 724
def columnFlt : MemFlt := { bank := 0, row := 724, bits := BitVec.ofNat 288 (2 ^ 109), again := BitVec.ofNat 288 (2 ^ 109) }

/-- Table 11.5: the word is corrected, found persistent, and spared: entry 0 has ROW 724, STATE 1, SRC 2. -/
theorem test_stuck_column_is_spared :
    (match exec (.scrubStep 120 [columnFlt]) stuckColumn with
     | .next t => t.fld (remapReg 120 0 0) 0 10 == 724 && t.fld (remapReg 120 0 0) 10 2 == 1
         && t.fld (remapReg 120 0 0) 12 2 == 2 && t.physRow 120 0 724 == 1024
         && t.fld (stopReg 120 sQS_CE_CNT) 0 32 == 1 && (t.recBuf 120).length == 2
     | _ => false) = true := by decide +kernel


end Sys2Proof.Machine.Tests
end

section
/-! PROOFS. Discovery (R388, R392, R393): what closing the ports of a die, setting its identity and raising a
record of Hearth's do to the registers, and with it the statement about discovery. -/
namespace Sys2Proof.Machine
open Sys2Proof

/-! ### Bits and parts -/

/-- A flag is a bit of its register's word. -/
theorem State.flag_eq_testBit (s : State) (a i : Nat) : s.flag a i = (s.reg a).toNat.testBit i := by
  rw [Nat.testBit_eq_decide_div_mod_eq]
  simp only [State.flag, State.fld, fieldOf_eq, pow_one]
  rfl

/-- A flag below a field that is written reads as before. -/
theorem State.flag_setFld_below (s : State) (a lo w x i : Nat) (h : lo + w ≤ 32) (hi : i < lo) :
    (s.setFld a lo w x).flag a i = s.flag a i := by
  unfold State.flag; rw [State.fld_setFld_below s a lo w x i 1 h hi]

/-- A flag above a field that is written reads as before. -/
theorem State.flag_setFld_above (s : State) (a lo w x i : Nat) (h : lo + w ≤ 32) (hi : lo + w ≤ i) :
    (s.setFld a lo w x).flag a i = s.flag a i := by
  unfold State.flag; rw [State.fld_setFld_above s a lo w x i 1 h hi]

/-- A flag that is written reads as what was written. -/
theorem State.flag_setFld_boolNat (s : State) (a i : Nat) (b : Bool) (h : i < 32) :
    (s.setFld a i 1 (boolNat b)).flag a i = b := by
  unfold State.flag; rw [State.fld_setFld_same s a i 1 _ h]; cases b <;> rfl

theorem State.flag_congr {s t : State} {a : Nat} (h : t.reg a = s.reg a) (i : Nat) : t.flag a i = s.flag a i := by
  unfold State.flag State.fld; rw [h]

/-- The bits of a sum of different powers of two are its exponents. -/
theorem testBit_sum_two_pow {l : List Nat} (h : l.Nodup) (d : Nat) :
    ((l.map (fun n => 2 ^ n)).sum).testBit d = decide (d ∈ l) := by
  rw [Bool.eq_iff_iff, decide_eq_true_iff, ← Nat.mem_bitIndices, ← List.mem_toFinset,
    ← List.sum_toFinset (fun n => 2 ^ n) h, Finset.toFinset_bitIndices_sum_two_pow, List.mem_toFinset]

theorem onlyParts_refl (ps : List Part) (s : State) : onlyParts ps s s := by
  intro p _; cases p <;> rfl

theorem samePart_trans {s t u : State} {p : Part} (h : samePart s t p) (k : samePart t u p) : samePart s u p := by
  cases p <;> exact Eq.trans k h

theorem onlyParts_trans {ps : List Part} {s t u : State} (h : onlyParts ps s t) (k : onlyParts ps t u) :
    onlyParts ps s u := fun p hp => samePart_trans (h p hp) (k p hp)

theorem onlyParts_mono {ps qs : List Part} {s t : State} (h : onlyParts ps s t) (hs : ps ⊆ qs) : onlyParts qs s t :=
  fun p hp => h p (fun hm => hp (hs hm))

theorem onlyParts_setReg (s : State) (a : Nat) (v : Word32) : onlyParts [.regs] s (s.setReg a v) := by
  intro p hp
  cases p with
  | regs => exact absurd hp (by decide)
  | _ => rfl

/-- A change of the die-to-die state is one of that part alone. -/
theorem onlyParts_setD2d (s : State) (d : D2dSt) : onlyParts [.d2d] s { s with d2d := d } := by
  intro p hp
  cases p with
  | d2d => exact absurd hp (by decide)
  | _ => rfl

/-- The sequencer's bound adds no part to what a command changed. -/
theorem onlyParts_keepPw {ps : List Part} {s t : State} (h : onlyParts ps s t) : onlyParts ps s (s.keepPw t) := by
  intro p hp
  have hst := h p hp
  cases p with
  | frame | time | acu | tem | her | free | pending => rfl
  | _ => exact hst

@[simp] theorem State.reg_keepPw (s t : State) (a : Nat) : (s.keepPw t).reg a = t.reg a := rfl
@[simp] theorem State.flag_keepPw (s t : State) (a i : Nat) : (s.keepPw t).flag a i = t.flag a i := rfl
@[simp] theorem State.flag_tell (s : State) (ms : List (Nat × HMsg)) (a i : Nat) :
    (s.tell ms).flag a i = s.flag a i := rfl

theorem completes_mono {c : Instr} {s : State} {P Q : State → Prop} (h : completes c s P) (hPQ : ∀ t, P t → Q t) :
    completes c s Q := by
  obtain ⟨t, ht, hP⟩ := h
  exact ⟨t, ht, hPQ t hP⟩

/-! ### Registers of a port and of a stop -/

theorem stopReg_lt {st off : Nat} (hs : st < 192) (ho : off < 0x4000) : stopReg st off < 0x400000 := by
  unfold stopReg; omega

theorem dpStop_lt (p : Nat) : dpStop p < 192 := by
  unfold dpStop
  by_cases h : p < 8
  · interval_cases p <;> decide
  · rw [List.getD_eq_default _ _ (by simpa using Nat.le_of_not_lt h)]; decide

theorem le_dpReg (p off : Nat) : 0x400000 ≤ dpReg p off := by unfold dpReg; omega

theorem dpReg_dSTAT_inj {p q : Nat} (h : p ≠ q) : dpReg p dSTAT ≠ dpReg q dSTAT := by
  unfold dpReg; omega

section
variable {st a : Nat} (hs : st < 192) (ha : 0x400000 ≤ a)
include hs ha

theorem ne_stopReg {off : Nat} (ho : off < 0x4000) : a ≠ stopReg st off := by
  have := stopReg_lt hs ho; omega

/-- What a stop does to map a partition changes no register of a port. -/
theorem State.reg_mapCtx_port (s : State) (part : Nat) : (s.mapCtx st part).2.reg a = s.reg a := by
  have hne : a ≠ stopReg st sSCHED_STAT := ne_stopReg hs ha (by decide)
  unfold State.mapCtx
  simp only
  split
  · rfl
  · exact (State.reg_count_other _ _ _ _ _ _ hne).trans (State.reg_raiseFlag_other s _ _ _ hne)

theorem State.reg_enterQueue_port (s : State) (q port : Nat) (p : Pkt) (resend : Bool) (m : QMark) :
    (s.enterQueue st q port p resend m).reg a = s.reg a := by
  have hne : a ≠ stopReg st sINJ_STORE := ne_stopReg hs ha (by decide)
  unfold State.enterQueue State.hwmUpdate
  simp only
  split
  · exact State.reg_setFld_other _ _ _ _ _ _ hne
  · rfl

/-- A packet given to a stop's network interface changes no register of a port. -/
theorem State.reg_offer_port (s : State) (port : Nat) (p : Pkt) (ctx : Option Nat) (resend : Bool) :
    (s.offer st port p ctx resend).reg a = s.reg a := by
  unfold State.offer State.offerOn
  cases ctx with
  | some c =>
    simp only
    split
    · exact State.reg_enterQueue_port hs ha s _ _ _ _ _
    · rfl
  | none =>
    simp only
    split
    · exact (State.reg_enterQueue_port hs ha _ _ _ _ _ _).trans (State.reg_mapCtx_port hs ha s _)
    · rfl

theorem State.reg_refuseWith_port (s : State) (req : Slot) (status : Nat) :
    (s.refuseWith st req status).reg a = s.reg a := by
  unfold State.refuseWith State.respond
  split
  · exact State.reg_offer_port hs ha s _ _ _ _
  · split
    · rfl
    · exact State.reg_offer_port hs ha s _ _ _ _

end

theorem State.reg_setDp (s : State) (p : Nat) (v : DpSt) (a : Nat) : (s.setDp p v).reg a = s.reg a := rfl

theorem State.reg_transitBack (s : State) (e : Nat) (x : Slot) (a : Nat) : (s.transitBack e x).reg a = s.reg a := by
  unfold State.transitBack; split <;> rfl

/-- The slots a port loses change no register of a port (R400). -/
theorem reg_egLost_port {a : Nat} (ha : 0x400000 ≤ a) (p : Nat) (l : List EgEnt) (seen : List Src) (s : State) :
    (egLost p l seen s).reg a = s.reg a := by
  induction l generalizing seen s with
  | nil => rfl
  | cons e rest ih =>
    have back : (if e.transit ∧ e.ccls < 6 then s.transitBack p e.slot else s).reg a = s.reg a := by
      split
      · exact State.reg_transitBack s p e.slot a
      · rfl
    unfold egLost
    simp only
    split
    · split
      · exact (ih _ _).trans back
      · exact (ih _ _).trans ((State.reg_refuseWith_port (dpStop_lt p) ha _ _ _).trans back)
    · refine (ih _ _).trans ((State.reg_count_other _ _ _ _ _ _ ?_).trans back)
      exact ne_stopReg (dpStop_lt p) ha (by decide)

/-! ### A die that runs alone closes its ports -/

/-- A port that is emptied is DOWN. -/
theorem State.lstate_dpEmpty_same (s : State) (p : Nat) : (s.dpEmpty p).lstate p = lsDOWN := by
  unfold State.dpEmpty State.lstate State.setLstate
  rw [State.fld_setFld_below _ _ _ _ _ _ _ (by decide) (by decide),
    State.fld_setFld_below _ _ _ _ _ _ _ (by decide) (by decide), State.fld_setFld_same _ _ _ _ _ (by decide)]
  rfl

/-- The other ports keep their link states. -/
theorem State.lstate_dpEmpty_other (s : State) {p q : Nat} (h : q ≠ p) : (s.dpEmpty p).lstate q = s.lstate q := by
  have hne := dpReg_dSTAT_inj h
  have hreg : (s.dpEmpty p).reg (dpReg q dSTAT) = s.reg (dpReg q dSTAT) := by
    unfold State.dpEmpty State.setLstate
    rw [State.reg_setFld_other _ _ _ _ _ _ hne, State.reg_setFld_other _ _ _ _ _ _ hne,
      State.reg_setFld_other _ _ _ _ _ _ hne, State.reg_setDp]
    refine (State.reg_count_other _ _ _ _ _ _ ?_).trans (reg_egLost_port (le_dpReg q dSTAT) p _ _ s)
    exact ne_stopReg (dpStop_lt p) (le_dpReg q dSTAT) (by decide)
  unfold State.lstate State.fld; rw [hreg]

/-- A port that trains or has a link is closed (R393). -/
def State.shutPort (s : State) (p : Nat) : State := if s.lstate p < lsTRAINING then s else s.dpEmpty p

theorem State.goAlone_eq (s : State) : s.goAlone = ((List.range 8).foldl State.shutPort s).setDie (0, 0) 1 true := rfl

theorem State.lstate_shutPort_same (s : State) (p : Nat) : (s.shutPort p).lstate p < lsTRAINING := by
  unfold State.shutPort
  split
  · assumption
  · rw [State.lstate_dpEmpty_same]; decide

theorem State.lstate_shutPort_other (s : State) {p q : Nat} (h : q ≠ p) : (s.shutPort p).lstate q = s.lstate q := by
  unfold State.shutPort
  split
  · rfl
  · exact State.lstate_dpEmpty_other s h

/-- Ports closed one after the other stay closed. -/
theorem State.lstate_shutPorts (s : State) (n p : Nat) (h : p < n) :
    ((List.range n).foldl State.shutPort s).lstate p < lsTRAINING := by
  induction n with
  | zero => omega
  | succ n ih =>
    rw [List.range_succ, List.foldl_append, List.foldl_cons, List.foldl_nil]
    by_cases hp : p = n
    · subst hp; exact State.lstate_shutPort_same _ p
    · rw [State.lstate_shutPort_other _ hp]; exact ih (by omega)

/-! ### The identity of a die -/

theorem State.reg_setRoutes_other (s : State) (a : Nat) (h : ∀ d, d < 16 → a ≠ gDIE_ROUTE + 4 * d) :
    s.setRoutes.reg a = s.reg a :=
  forUpTo_same (fun t : State => t.reg a) 16 (fun d t => t.setReg (gDIE_ROUTE + 4 * d) (s.routeWord d)) s
    (fun d t hd => State.reg_setReg_other t _ _ _ (h d hd))

theorem State.d2d_setRoutes (s : State) : s.setRoutes.d2d = s.d2d :=
  foldl_same (fun t : State => t.d2d) _ _ s (fun t _ => State.setReg_d2d t _ _)

theorem State.onlyParts_setRoutes (s : State) : onlyParts [.regs] s s.setRoutes :=
  foldl_keeps (onlyParts [.regs] s) _ _ s (fun t _ h => onlyParts_trans h (onlyParts_setReg t _ _)) (onlyParts_refl _ s)

/-- The state in which DIE_COORD has been set and the die's number is known (R10, R392). -/
def State.setCoord (s : State) (c : Int × Int) (alone : Bool) : State :=
  ((((({ s with d2d := { s.d2d with dieId := dieIdOf c } }).setFld gDIE_COORD 0 2 c.1.toNat).setFld gDIE_COORD 2 2
    c.2.toNat).setFld gDIE_COORD 4 4 (dieIdOf c)).setFld gDIE_COORD 8 1 1).setFld gDIE_COORD 10 1 (boolNat alone)

/-- The ports that are UP learn the numbers of their neighbours (R392). -/
def State.nameNeighbours (s : State) (c : Int × Int) : State :=
  s.upPorts.foldl (fun (s : State) p => s.setFld (dpReg p dSTAT) 8 4 (dieIdOf (neighbourAt c p))) s

theorem State.setDie_eq (s : State) (c : Int × Int) (map : Nat) (alone : Bool) :
    s.setDie c map alone
      = (((s.setCoord c alone).setReg gDIE_MAP (BitVec.ofNat 32 (map % 2 ^ 16))).nameNeighbours c).setRoutes := rfl

theorem State.reg_nameNeighbours_other (s : State) (c : Int × Int) (a : Nat) (h : a < 0x400000) :
    (s.nameNeighbours c).reg a = s.reg a :=
  foldl_same (fun t : State => t.reg a) _ _ s
    (fun t p => State.reg_setFld_other t _ _ _ _ _ (by have := le_dpReg p dSTAT; omega))

/-- A neighbour's number stands above the link state. -/
theorem State.lstate_nameNeighbours (s : State) (c : Int × Int) (q : Nat) :
    (s.nameNeighbours c).lstate q = s.lstate q := by
  refine foldl_same (fun t : State => t.lstate q) _ _ s (fun t p => ?_)
  by_cases h : q = p
  · subst h; exact State.fld_setFld_below t _ _ _ _ _ _ (by decide) (by decide)
  · exact State.fld_setFld_other t _ _ _ _ _ _ _ (dpReg_dSTAT_inj h)

theorem State.d2d_nameNeighbours (s : State) (c : Int × Int) : (s.nameNeighbours c).d2d = s.d2d :=
  foldl_same (fun t : State => t.d2d) _ _ s (fun t _ => State.setFld_d2d t _ _ _ _)

theorem State.onlyParts_nameNeighbours (s : State) (c : Int × Int) : onlyParts [.regs] s (s.nameNeighbours c) :=
  foldl_keeps (onlyParts [.regs] s) _ _ s (fun t _ h => onlyParts_trans h (onlyParts_setReg t _ _)) (onlyParts_refl _ s)

theorem State.d2d_setDie (s : State) (c : Int × Int) (map : Nat) (alone : Bool) :
    (s.setDie c map alone).d2d = { s.d2d with dieId := dieIdOf c } := by
  rw [State.setDie_eq, State.d2d_setRoutes, State.d2d_nameNeighbours]; rfl

theorem State.onlyParts_setCoord (s : State) (c : Int × Int) (alone : Bool) :
    onlyParts [.regs, .d2d] s (s.setCoord c alone) := by
  have fld : ∀ {t : State} (lo w x : Nat), onlyParts [.regs, .d2d] s t →
      onlyParts [.regs, .d2d] s (t.setFld gDIE_COORD lo w x) :=
    fun _ _ _ h => onlyParts_trans h (onlyParts_mono (onlyParts_setReg _ _ _) (by decide))
  exact fld _ _ _ (fld _ _ _ (fld _ _ _ (fld _ _ _ (fld _ _ _
    (onlyParts_mono (onlyParts_setD2d s _) (by decide))))))

/-- Setting the die's identity changes registers and the die-to-die state alone. -/
theorem State.onlyParts_setDie (s : State) (c : Int × Int) (map : Nat) (alone : Bool) :
    onlyParts [.regs, .d2d] s (s.setDie c map alone) := by
  have regs : ∀ {t u : State}, onlyParts [.regs] t u → onlyParts [.regs, .d2d] t u :=
    fun h => onlyParts_mono h (by decide)
  rw [State.setDie_eq]
  exact onlyParts_trans (onlyParts_trans (onlyParts_trans (State.onlyParts_setCoord s c alone)
    (regs (onlyParts_setReg _ _ _))) (regs (State.onlyParts_nameNeighbours _ c))) (regs (State.onlyParts_setRoutes _))

/-- A register of Hearth's below the routes reads in the new identity as DIE_COORD and DIE_MAP were set. -/
theorem State.reg_setDie_low (s : State) (c : Int × Int) (map : Nat) (alone : Bool) (a : Nat) (h : a < gDIE_ROUTE) :
    (s.setDie c map alone).reg a
      = ((s.setCoord c alone).setReg gDIE_MAP (BitVec.ofNat 32 (map % 2 ^ 16))).reg a := by
  have hr : gDIE_ROUTE = 0x680 := rfl
  rw [State.setDie_eq, State.reg_setRoutes_other _ _ (fun d _ => by omega),
    State.reg_nameNeighbours_other _ _ _ (by omega)]

theorem State.reg_dieMap_setDie (s : State) (c : Int × Int) (map : Nat) (alone : Bool) :
    (s.setDie c map alone).reg gDIE_MAP = BitVec.ofNat 32 (map % 2 ^ 16) := by
  rw [State.reg_setDie_low _ _ _ _ _ (by decide), State.reg_setReg_same]

theorem State.flag_dieCoord_setDie (s : State) (c : Int × Int) (map : Nat) (alone : Bool) (i : Nat) :
    (s.setDie c map alone).flag gDIE_COORD i = (s.setCoord c alone).flag gDIE_COORD i := by
  apply State.flag_congr
  rw [State.reg_setDie_low _ _ _ _ _ (by decide), State.reg_setReg_other _ _ _ _ (by decide)]

/-- DIE_COORD.VALID stands with the identity. -/
theorem State.flag_valid_setDie (s : State) (c : Int × Int) (map : Nat) (alone : Bool) :
    (s.setDie c map alone).flag gDIE_COORD 8 = true := by
  rw [State.flag_dieCoord_setDie]
  unfold State.setCoord
  rw [State.flag_setFld_below _ _ _ _ _ _ (by decide) (by decide)]
  exact State.flag_raiseFlag _ _ _ (by decide)

/-- The flag of a die that runs alone is as given. -/
theorem State.flag_alone_setDie (s : State) (c : Int × Int) (map : Nat) (alone : Bool) :
    (s.setDie c map alone).flag gDIE_COORD 10 = alone := by
  rw [State.flag_dieCoord_setDie]
  exact State.flag_setFld_boolNat _ _ _ _ (by decide)

/-- The flag of a conflict stays. -/
theorem State.flag_conflict_setDie (s : State) (c : Int × Int) (map : Nat) (alone : Bool) :
    (s.setDie c map alone).flag gDIE_COORD 11 = s.flag gDIE_COORD 11 := by
  rw [State.flag_dieCoord_setDie]
  unfold State.setCoord
  iterate 5 rw [State.flag_setFld_above _ _ _ _ _ _ (by decide) (by decide)]
  rfl

theorem State.lstate_setDie (s : State) (c : Int × Int) (map : Nat) (alone : Bool) (p : Nat) :
    (s.setDie c map alone).lstate p = s.lstate p := by
  have hdp := le_dpReg p dSTAT
  have hr : gDIE_ROUTE = 0x680 := rfl
  have routes : ∀ t : State, t.setRoutes.lstate p = t.lstate p := by
    intro t
    unfold State.lstate State.fld
    rw [State.reg_setRoutes_other t _ (fun d _ => by omega)]
  have coord : ∀ a, a < 0x400000 → dpReg p dSTAT ≠ a := by omega
  rw [State.setDie_eq, routes, State.lstate_nameNeighbours]
  unfold State.lstate State.fld State.setCoord
  rw [State.reg_setReg_other _ _ _ _ (coord _ (by decide))]
  iterate 5 rw [State.reg_setFld_other _ _ _ _ _ _ (coord _ (by decide))]
  rfl

/-- A bit of DIE_MAP is that of the map. -/
theorem State.flag_dieMap_setDie (s : State) (c : Int × Int) (map : Nat) (alone : Bool) {d : Nat} (hd : d < 16) :
    (s.setDie c map alone).flag gDIE_MAP d = map.testBit d := by
  have hlt : map % 2 ^ 16 < 2 ^ 32 := by omega
  rw [State.flag_eq_testBit, State.reg_dieMap_setDie, BitVec.toNat_ofNat, Nat.mod_eq_of_lt hlt,
    Nat.testBit_mod_two_pow, decide_eq_true hd, Bool.true_and]

/-- A die that runs alone: die 0 of a map of one, with every port below TRAINING (R393). -/
structure State.Alone (s : State) : Prop where
  dieId : s.d2d.dieId = 0
  valid : s.flag gDIE_COORD 8 = true
  alone : s.flag gDIE_COORD 10 = true
  map   : s.reg gDIE_MAP = 1
  shut  : ∀ p, p < 8 → s.lstate p < lsTRAINING

theorem State.alone_goAlone (s : State) : s.goAlone.Alone := by
  rw [State.goAlone_eq]
  exact {
    dieId := by rw [State.d2d_setDie]; rfl
    valid := State.flag_valid_setDie _ _ _ _
    alone := State.flag_alone_setDie _ _ _ _
    map := State.reg_dieMap_setDie _ _ _ _
    shut := fun p hp => by rw [State.lstate_setDie]; exact State.lstate_shutPorts s 8 p hp }

theorem State.Alone.keepPw {t : State} (h : t.Alone) (s : State) : (s.keepPw t).Alone :=
  ⟨h.dieId, h.valid, h.alone, h.map, h.shut⟩

/-- A command that lets the die run alone does so whatever it did before. -/
theorem completes_alone {c : Instr} {s t : State} (h : exec c s = .next (s.keepPw t.goAlone)) :
    completes c s State.Alone := ⟨_, h, t.alone_goAlone.keepPw s⟩

/-! ### A record of Hearth's -/

/-- The FATAL latch takes a record (R476). -/
def State.latchFatal (s : State) (b : BitVec 512) : State :=
  if fieldOf b 78 2 = sevFATAL then
    let s := if s.recs.fatal then s else
      forUpTo 16 (fun j s => s.setReg (gERR_FATAL_REC + 4 * j) (BitVec.ofNat 32 (fieldOf b (32 * j) 32))) s
    let s := s.raiseFlag gERR_STAT 3
    { s with recs := { s.recs with fatal := true } }
  else s

/-- The memory log takes a record, or where it is off the interrupt flag may rise (R473, R477). -/
def State.logRecord (s : State) (b : BitVec 512) : State :=
  if s.flag gERR_LOG_CTRL 0 then
    ({ s with recs := { s.recs with logQ := s.recs.logQ ++ [b] } } : State).logIssue
  else if s.fld gERR_IRQ_EN 6 2 ≤ fieldOf b 78 2 then s.raiseFlag gERR_STAT 0
  else s

/-- A record with its SEQ and its CRC (R472). -/
def State.sealRecord (s : State) (b : BitVec 512) : BitVec 512 :=
  let b := withField b 104 24 (s.fld gERR_SEQ 0 24)
  withField b 480 32 (crc32c 60 (b.toNat % 2 ^ 480))

/-- The local ring takes a record (R472). -/
def State.ringRecord (s : State) (b : BitVec 512) : State :=
  let i := s.fld gERR_LOCAL_HEAD 0 6
  let t := { s with recs := { s.recs with ring := Tab.set (fun _ => 0) s.recs.ring i b } }
  (t.setFld gERR_LOCAL_HEAD 0 6 (i + 1)).setFld gERR_SEQ 0 24 (s.fld gERR_SEQ 0 24 + 1)

theorem State.collect_eq (s : State) (b : BitVec 512) :
    s.collect b = (((s.ringRecord (s.sealRecord b)).latchFatal (s.sealRecord b)).logRecord
      (s.sealRecord b)).perrRoute (s.sealRecord b) := rfl

theorem State.reg_setRecs (s : State) (r : RecSt) (a : Nat) : ({ s with recs := r } : State).reg a = s.reg a := rfl

theorem State.reg_perrRoute (s : State) (b : BitVec 512) (a : Nat) : (s.perrRoute b).reg a = s.reg a :=
  foldl_same (fun t : State => t.reg a) _ _ s (fun _ _ => rfl)

section
variable {a : Nat} (ha : a < 0xC00)
include ha

theorem State.reg_logIssue_low (s : State) : s.logIssue.reg a = s.reg a := by
  have hstat : a ≠ gERR_STAT := by unfold gERR_STAT; omega
  have hlost : a ≠ gERR_LOG_LOST := by unfold gERR_LOG_LOST; omega
  unfold State.logIssue
  split
  · rfl
  · split
    · rfl
    · split
      · rw [State.reg_setRecs, State.reg_raiseFlag_other _ _ _ _ hstat, State.reg_count_other _ _ _ _ _ _ hlost]
      · rw [State.reg_setRecs]; rfl

theorem State.reg_latchFatal_low (s : State) (b : BitVec 512) : (s.latchFatal b).reg a = s.reg a := by
  have hstat : a ≠ gERR_STAT := by unfold gERR_STAT; omega
  unfold State.latchFatal
  split
  · rw [State.reg_setRecs, State.reg_raiseFlag_other _ _ _ _ hstat]
    split
    · rfl
    · exact forUpTo_same (fun u : State => u.reg a) 16 _ s
        (fun j u _ => State.reg_setReg_other u _ _ _ (by unfold gERR_FATAL_REC; omega))
  · rfl

theorem State.reg_logRecord_low (s : State) (b : BitVec 512) : (s.logRecord b).reg a = s.reg a := by
  have hstat : a ≠ gERR_STAT := by unfold gERR_STAT; omega
  unfold State.logRecord
  split
  · rw [State.reg_logIssue_low ha, State.reg_setRecs]
  · split
    · exact State.reg_raiseFlag_other s _ _ _ hstat
    · rfl

theorem State.reg_ringRecord_low (s : State) (b : BitVec 512) : (s.ringRecord b).reg a = s.reg a := by
  have hhead : a ≠ gERR_LOCAL_HEAD := by unfold gERR_LOCAL_HEAD; omega
  have hseq : a ≠ gERR_SEQ := by unfold gERR_SEQ; omega
  unfold State.ringRecord
  rw [State.reg_setFld_other _ _ _ _ _ _ hseq, State.reg_setFld_other _ _ _ _ _ _ hhead, State.reg_setRecs]

/-- A record collected changes no register below the error log's (R473, R476, R477). -/
theorem State.reg_collect_low (s : State) (b : BitVec 512) : (s.collect b).reg a = s.reg a := by
  rw [State.collect_eq, State.reg_perrRoute, State.reg_logRecord_low ha, State.reg_latchFatal_low ha,
    State.reg_ringRecord_low ha]

theorem State.reg_raiseHearth_low (s : State) (sev cause : Nat) (spec : BitVec 256) :
    (s.raiseHearth sev cause spec).reg a = s.reg a := State.reg_collect_low ha s _

end

/-! ### The grid of dies -/

/-- The dies without a conflict, of the grid (R392 step 2). -/
def goodDies (cs : List (Int × Int)) : List (Int × Int) := cs.filter (fun c => !breaksGrid cs c)

/-- DIE_MAP of a list of dies (R10). -/
def dieMapOf (cs : List (Int × Int)) : Nat := (cs.map (fun c => 2 ^ dieIdOf c)).sum

theorem mem_goodDies {cs : List (Int × Int)} {c : Int × Int} (h : c ∈ goodDies cs) :
    inGrid c = true ∧ cs.count c ≤ 1 := by
  have hc := (List.mem_filter.mp h).2
  simpa [breaksGrid] using hc

/-- No two dies without a conflict have the same coordinates. -/
theorem nodup_goodDies (cs : List (Int × Int)) : (goodDies cs).Nodup := by
  rw [List.nodup_iff_count_le_one]
  intro c
  by_cases h : c ∈ goodDies cs
  · exact (List.filter_sublist.count_le c).trans (mem_goodDies h).2
  · rw [List.count_eq_zero_of_not_mem h]; exact Nat.zero_le 1

/-- Within the grid the die ID tells the coordinates (R10). -/
theorem dieIdOf_inj {c d : Int × Int} (hc : inGrid c = true) (hd : inGrid d = true) (h : dieIdOf c = dieIdOf d) :
    c = d := by
  simp only [inGrid, Bool.and_eq_true, decide_eq_true_eq] at hc hd
  unfold dieIdOf at h
  exact Prod.ext (by omega) (by omega)

/-- DIE_MAP of the dies without a conflict marks their numbers and no other. -/
theorem testBit_dieMapOf_goodDies (cs : List (Int × Int)) (d : Nat) :
    (dieMapOf (goodDies cs)).testBit d = (goodDies cs).any (fun c => dieIdOf c == d) := by
  have hmap : dieMapOf (goodDies cs) = (((goodDies cs).map dieIdOf).map (fun n => 2 ^ n)).sum := by
    rw [List.map_map]; rfl
  have hnodup : ((goodDies cs).map dieIdOf).Nodup :=
    (nodup_goodDies cs).map_on (fun c hc d hd => dieIdOf_inj (mem_goodDies hc).1 (mem_goodDies hd).1)
  rw [hmap, testBit_sum_two_pow hnodup, Bool.eq_iff_iff]
  simp

/-! ### The commands of discovery -/

section
variable {s : State}

/-- The first ASSIGN gives a die its coordinates (R392). -/
theorem execAssign_first {p : DpNo} (dx dy : Int) (hd : s.discovering = true) (hr : s.d2d.root = false)
    (hu : s.dpUp p.val = true) (hrel : s.d2d.rel = none) :
    execAssign p dx dy s = .next (s.keepPw { s with d2d := { s.d2d with
      rel := some (dx, dy), toRoot := some p.val
      sent := (p.val, .report dx dy s.upMask) :: s.assignOn (dx, dy) p.val } }) := by
  unfold execAssign
  rw [hd, hr, hu, hrel]; rfl

/-- A later ASSIGN with other coordinates is reported, for the root's check (log entry 72). -/
theorem execAssign_other {p : DpNo} {dx dy : Int} {c : Int × Int} (hd : s.discovering = true)
    (hr : s.d2d.root = false) (hu : s.dpUp p.val = true) (hrel : s.d2d.rel = some c) (hc : c ≠ (dx, dy)) :
    execAssign p dx dy s
      = .next (s.keepPw (s.tell [((s.d2d.toRoot).getD p.val, .report dx dy s.upMask)])) := by
  unfold execAssign
  rw [hd, hr, hu, hrel]
  exact if_neg hc

/-- ASSIGN with the coordinates a die has changes nothing. -/
theorem execAssign_own {p : DpNo} {dx dy : Int} (hd : s.discovering = true) (hr : s.d2d.root = false)
    (hu : s.dpUp p.val = true) (hrel : s.d2d.rel = some (dx, dy)) : execAssign p dx dy s = .next s := by
  unfold execAssign
  rw [hd, hr, hu, hrel]
  exact if_pos rfl

theorem execDiscoveryReport_root (dx dy : Int) (up : BitVec 8) (hd : s.discovering = true) (hr : s.d2d.root = true) :
    execDiscoveryReport dx dy up s = .next (s.keepPw { s with d2d := { s.d2d with
      reports := s.d2d.reports ++ [((dx, dy), up.toNat)], quietAt := s.her.boot.hcs } }) := by
  unfold execDiscoveryReport
  rw [hd, hr]; rfl

theorem execDiscoveryReport_onward (dx dy : Int) (up : BitVec 8) {p : Nat} (hd : s.discovering = true)
    (hr : s.d2d.root = false) (hp : s.d2d.toRoot = some p) :
    execDiscoveryReport dx dy up s = .next (s.keepPw (s.tell [(p, .report dx dy up.toNat)])) := by
  unfold execDiscoveryReport
  rw [hd, hr, hp]; rfl

/-- The place of the root itself. -/
def State.ownPlace (s : State) : Int × Int := s.gridOf.headD (0, 0)

/-- A conflict closes the root's ports toward the dies concerned, and is flagged and recorded (R392 step 2). -/
def State.markConflicts (s : State) : State :=
  if (goodDies s.gridOf).length = s.gridOf.length then s
  else
    let t := (s.upPorts.filter (fun p => s.gridOf.contains (neighbourAt s.ownPlace p)
      && breaksGrid s.gridOf (neighbourAt s.ownPlace p))).foldl (fun (t : State) p => t.goDown p) s
    (t.raiseFlag gDIE_COORD 11).raiseHearth sevFATAL caD2D_DISC 0

/-- The root's place and map, and FINAL to each of the other dies without a conflict (R392 step 3). -/
def State.finishDiscovery (s : State) : State :=
  (s.markConflicts.setDie s.ownPlace (dieMapOf (goodDies s.gridOf)) false).tell
    (((goodDies s.gridOf).filter (fun c => c != s.ownPlace)).map (fun c =>
      (16 + dieIdOf c, .final (-s.ownPlace.1) (-s.ownPlace.2) (dieMapOf (goodDies s.gridOf)))))

theorem execDiscoveryFinish_twoRoots (hd : s.discovering = true) (hr : s.d2d.root = true)
    (hq : s.reportsQuiet = true) (ht : s.twoRoots = true) :
    execDiscoveryFinish s = .next (s.keepPw s.goAlone) := by
  unfold execDiscoveryFinish
  rw [hd, hr, hq, ht]; rfl

theorem execDiscoveryFinish_oneRoot (hd : s.discovering = true) (hr : s.d2d.root = true)
    (hq : s.reportsQuiet = true) (ht : s.twoRoots = false) :
    execDiscoveryFinish s = if breaksGrid s.gridOf s.ownPlace then .next (s.keepPw s.markConflicts.goAlone)
      else .next (s.keepPw s.finishDiscovery) := by
  unfold execDiscoveryFinish
  rw [hd, hr, hq, ht]
  simp only [Bool.not_true, Bool.or_self, Bool.false_eq_true, if_false]
  rfl

/-- With its own place without a conflict the root finishes. -/
theorem execDiscoveryFinish_finishes (hd : s.discovering = true) (hr : s.d2d.root = true)
    (hq : s.reportsQuiet = true) (ht : s.twoRoots = false) (hb : breaksGrid s.gridOf s.ownPlace = false) :
    execDiscoveryFinish s = .next (s.keepPw s.finishDiscovery) := by
  rw [execDiscoveryFinish_oneRoot hd hr hq ht, hb, if_neg Bool.false_ne_true]

/-- With its own place in conflict the root runs alone. -/
theorem execDiscoveryFinish_ownConflict (hd : s.discovering = true) (hr : s.d2d.root = true)
    (hq : s.reportsQuiet = true) (ht : s.twoRoots = false) (hb : breaksGrid s.gridOf s.ownPlace = true) :
    execDiscoveryFinish s = .next (s.keepPw s.markConflicts.goAlone) := by
  rw [execDiscoveryFinish_oneRoot hd hr hq ht, hb, if_pos rfl]

/-- Where two roots were seen or its own place is in conflict, the root's die runs alone (R393). -/
theorem completes_discoveryFinish_alone (hd : s.discovering = true) (hr : s.d2d.root = true)
    (hq : s.reportsQuiet = true) (h : s.twoRoots = true ∨ breaksGrid s.gridOf s.ownPlace = true) :
    completes .discoveryFinish s State.Alone := by
  cases ht : s.twoRoots with
  | true => exact completes_alone (execDiscoveryFinish_twoRoots hd hr hq ht)
  | false =>
    have hb := h.resolve_left (by simp [ht])
    exact completes_alone (execDiscoveryFinish_ownConflict hd hr hq ht hb)

theorem State.markConflicts_none (h : (goodDies s.gridOf).length = s.gridOf.length) : s.markConflicts = s := if_pos h

theorem State.flag_markConflicts (h : (goodDies s.gridOf).length ≠ s.gridOf.length) :
    s.markConflicts.flag gDIE_COORD 11 = true := by
  unfold State.markConflicts
  rw [if_neg h, State.flag_congr (State.reg_raiseHearth_low (by decide) _ _ _ _)]
  exact State.flag_raiseFlag _ _ _ (by decide)

theorem State.onlyParts_finishDiscovery (h : (goodDies s.gridOf).length = s.gridOf.length) :
    onlyParts [.regs, .d2d] s s.finishDiscovery := by
  unfold State.finishDiscovery
  rw [State.markConflicts_none h]
  exact onlyParts_trans (State.onlyParts_setDie s _ _ _) (onlyParts_mono (onlyParts_setD2d _ _) (by decide))

/-- FINAL goes to every other die without a conflict. -/
theorem State.final_mem_finishDiscovery {c : Int × Int} (hc : c ∈ goodDies s.gridOf) (hne : c ≠ s.ownPlace) :
    (16 + dieIdOf c, HMsg.final (-s.ownPlace.1) (-s.ownPlace.2) (dieMapOf (goodDies s.gridOf)))
      ∈ s.finishDiscovery.d2d.sent :=
  List.mem_map.mpr ⟨c, List.mem_filter.mpr ⟨hc, bne_iff_ne.mpr hne⟩, rfl⟩

/-- The flags of a root that finishes are those of its identity. -/
theorem State.flag_finishDiscovery (a i : Nat) : s.finishDiscovery.flag a i
    = (s.markConflicts.setDie s.ownPlace (dieMapOf (goodDies s.gridOf)) false).flag a i := by
  unfold State.finishDiscovery
  rw [State.flag_tell]

/-- DIE_MAP marks the dies without a conflict. -/
theorem State.flag_dieMap_finishDiscovery {d : Nat} (hd : d < 16) :
    s.finishDiscovery.flag gDIE_MAP d = (goodDies s.gridOf).any (fun c => dieIdOf c == d) := by
  rw [State.flag_finishDiscovery, State.flag_dieMap_setDie _ _ _ _ hd, testBit_dieMapOf_goodDies]

theorem State.flag_dieCoord_finishDiscovery :
    s.finishDiscovery.flag gDIE_COORD 8 = true ∧ s.finishDiscovery.flag gDIE_COORD 10 = false
      ∧ s.finishDiscovery.flag gDIE_COORD 11 = s.markConflicts.flag gDIE_COORD 11 := by
  rw [State.flag_finishDiscovery, State.flag_finishDiscovery, State.flag_finishDiscovery]
  exact ⟨State.flag_valid_setDie _ _ _ _, State.flag_alone_setDie _ _ _ _, State.flag_conflict_setDie _ _ _ _⟩

theorem State.dieId_finishDiscovery : s.finishDiscovery.d2d.dieId = dieIdOf s.ownPlace := by
  unfold State.finishDiscovery State.tell
  rw [State.d2d_setDie]

theorem execFinal_oneRoot (ox oy : Int) (map : BitVec 16) {c : Int × Int} (hd : s.discovering = true)
    (hr : s.d2d.root = false) (hrel : s.d2d.rel = some c) (ht : s.twoRoots = false)
    (hg : inGrid (c.1 - ox, c.2 - oy) = true) :
    execFinal ox oy map s = .next (s.keepPw (s.setDie (c.1 - ox, c.2 - oy) map.toNat false)) := by
  unfold execFinal
  rw [hd, hr, hrel, ht]
  exact if_pos hg

theorem execFinal_twoRoots (ox oy : Int) (map : BitVec 16) {c : Int × Int} (hd : s.discovering = true)
    (hr : s.d2d.root = false) (hrel : s.d2d.rel = some c) (ht : s.twoRoots = true) :
    execFinal ox oy map s = .next (s.keepPw s.goAlone) := by
  unfold execFinal
  rw [hd, hr, hrel, ht]; rfl

theorem execDiscTo_late (hd : s.discovering = true) (hr : s.d2d.root = false) (hp : s.her.boot.phase = 3)
    (hl : s.d2d.discAt + 400000 * s.fld gD2D_CTRL 16 8 ≤ s.her.boot.hcs) :
    execDiscTo s = .next (s.keepPw s.goAlone) :=
  if_pos (by simp [hd, hr, hp, hl])

/-- Where a die does not discover, no command of discovery changes anything. -/
theorem exec_notDiscovering {c : Instr} {p : DpNo} {dx dy : Int} {up : BitVec 8} {map : BitVec 16}
    (hd : s.discovering = false)
    (hc : c = .assign p dx dy ∨ c = .discoveryReport dx dy up ∨ c = .discoveryFinish ∨ c = .final dx dy map
      ∨ c = .discTo) : exec c s = .next s := by
  rcases hc with rfl | rfl | rfl | rfl | rfl
  · exact if_pos (by simp [hd])
  · exact if_pos (by simp [hd])
  · exact if_pos (by simp [hd])
  · exact if_pos (by simp [hd])
  · exact if_neg (by simp [hd])

end

/-- Settles O52, command by command: each command of discovery has one equation for its outcome, what an identity sets
gives the root and the other dies theirs, and every way to run alone ends in `State.Alone`. That an ASSIGN with other
coordinates is reported again rests on log entry 72, and the outcome of two roots on log entry 75. -/
theorem discoveryGivesEveryDieItsPlace : Obligations.DiscoveryGivesEveryDieItsPlace := by
  unfold Obligations.DiscoveryGivesEveryDieItsPlace
  refine ⟨fun p dx dy s hd hr hu => ⟨fun hrel => ?_, fun c hrel hc => ?_, fun hrel => ?_⟩,
    fun dx dy up s hd => ⟨fun hr => ?_, fun p hr hp => ?_⟩, ?_, ?_, ?_, ?_⟩
  · exact ⟨_, execAssign_first dx dy hd hr hu hrel, rfl, rfl, rfl, onlyParts_keepPw (onlyParts_setD2d s _)⟩
  · exact ⟨_, execAssign_other hd hr hu hrel hc, hrel, rfl, onlyParts_keepPw (onlyParts_setD2d s _)⟩
  · exact ⟨s, execAssign_own hd hr hu hrel, rfl⟩
  · exact ⟨_, execDiscoveryReport_root dx dy up hd hr, rfl, rfl, onlyParts_keepPw (onlyParts_setD2d s _)⟩
  · exact ⟨_, execDiscoveryReport_onward dx dy up hd hr hp, rfl, rfl, onlyParts_keepPw (onlyParts_setD2d s _)⟩
  · intro s own good hd hr hq hown hgood
    subst hown hgood
    refine ⟨fun ht hb => ?_, fun h => ?_⟩
    · obtain ⟨hvalid, halone, hconf⟩ := State.flag_dieCoord_finishDiscovery (s := s)
      refine ⟨_, execDiscoveryFinish_finishes hd hr hq ht hb, ?_⟩
      simp only [State.flag_keepPw, State.keepPw_d2d]
      exact ⟨State.dieId_finishDiscovery, hvalid, halone, fun d h16 => State.flag_dieMap_finishDiscovery h16,
        fun c hc hne => ⟨_, State.final_mem_finishDiscovery hc hne⟩,
        fun hlen => hconf.trans (State.flag_markConflicts hlen),
        fun hlen => onlyParts_keepPw (State.onlyParts_finishDiscovery hlen)⟩
    · exact completes_mono (completes_discoveryFinish_alone hd hr hq h) fun t h => ⟨h.dieId, h.alone, h.map, h.shut⟩
  · intro ox oy map s c hd hr hrel
    refine ⟨fun ht hg => ?_, fun ht => ?_⟩
    · refine ⟨_, execFinal_oneRoot ox oy map hd hr hrel ht hg, ?_⟩
      simp only [State.keepPw_d2d, State.d2d_setDie, State.reg_keepPw, State.reg_dieMap_setDie,
        Nat.mod_eq_of_lt map.isLt, State.flag_keepPw, State.flag_valid_setDie, true_and]
      exact onlyParts_keepPw (State.onlyParts_setDie s _ _ _)
    · exact completes_mono (completes_alone (execFinal_twoRoots ox oy map hd hr hrel ht))
        fun t h => ⟨h.dieId, h.alone, h.shut⟩
  · intro s hd hr hp hl
    exact completes_mono (completes_alone (execDiscTo_late hd hr hp hl))
      fun t h => ⟨h.dieId, h.valid, h.alone, h.map, h.shut⟩
  · intro p dx dy up map s c hd hc
    exact ⟨s, exec_notDiscovering hd hc, rfl⟩

end Sys2Proof.Machine

end

section
/-! PROOFS. Rings, stops and slots (R42, R51, R58, R70, R80): one rc of the ring clock, a direction that starves, a
packet whose time to be complete is over, and the words that clear counters, from a command or from a write of one
word over the test access path. -/
namespace Sys2Proof.Machine
open Sys2Proof

/-! ### One rc -/

/-- An rc changes nothing but the parts `State.keepCycle` takes over. -/
theorem onlyParts_keepCycle (s t : State) :
    onlyParts [.frame, .regs, .ring, .ni, .recs, .pmu, .tem, .pw, .d2d] s (s.keepCycle t) := by
  intro p hp
  cases p with
  | frame | regs | ring | ni | recs | pmu | tem | pw | d2d => exact absurd hp (by decide)
  | time | mem | acu | qe | store | cdc | her | free | pending => rfl

/-- With the ring clock running and nothing due before it, RING_CYCLE does the rc's work and the counters advance. -/
theorem completes_ringCycle {s : State} (inp : RcIn) (hbroken : s.her.test.broken = false) (hruns : s.rcRuns = true)
    (hdue : s.frame.due = false) (hepoch : s.frame.epochDue = false) (hswap : s.swapDue = false) :
    completes (.ringCycle inp) s (fun t => t.frame = s.frame.tick
      ∧ onlyParts [.frame, .regs, .ring, .ni, .recs, .pmu, .tem, .pw, .d2d] s t) := by
  have hexec : execRingCycle inp s = .next (s.keepCycle { rcWork inp s with frame := s.frame.tick }) := by
    unfold execRingCycle
    rw [hbroken, hdue, hepoch, hswap, hruns]
    rfl
  exact ⟨_, hexec, rfl, onlyParts_keepCycle s _⟩

/-- The counters of a frame that has started, after one rc more (R71, R83, R494). -/
theorem Frame.tick_running {f : Frame} (h : f.running = true) : f.tick =
    { f with
      rcs := f.rcs + 1
      rcnt := (f.rcnt + 1) % 2 ^ 20
      fpos := if f.fpos + 1 < 48 * f.flen48 then f.fpos + 1 else f.fpos
      due := decide (48 * f.flen48 ≤ f.fpos + 1)
      epochPos := if f.epochPos + 1 < f.epochLen then f.epochPos + 1 else f.epochPos
      epochDue := decide (f.epochLen ≤ f.epochPos + 1) } := by
  unfold Frame.tick
  rw [h]
  rfl

/-- Settles O8: RING_CYCLE runs the rc, so the frame counters are those of `Frame.tick` and the rest is bounded by
`State.keepCycle`. -/
theorem ringCycleAdvancesOneRc : Obligations.RingCycleAdvancesOneRc := by
  unfold Obligations.RingCycleAdvancesOneRc
  intro inp s hbroken hruns hrunning hdue hepoch hswap
  refine completes_mono (completes_ringCycle inp hbroken hruns hdue hepoch hswap) fun t ht => ?_
  obtain ⟨hframe, hparts⟩ := ht
  rw [hframe, Frame.tick_running hrunning]
  exact ⟨rfl, fun h => ⟨if_pos h, decide_eq_false (Nat.not_le.mpr h)⟩,
    fun h => ⟨if_neg (Nat.not_lt.mpr h), decide_eq_true h⟩,
    fun h => ⟨if_pos h, decide_eq_false (Nat.not_le.mpr h)⟩, fun h => decide_eq_true h,
    rfl, rfl, rfl, rfl, rfl, hparts⟩

/-! ### A starved direction -/

section
variable (s : State) (st d k : Nat) (v : DirSt)

/-- A count of DEFL_CNT at a changed direction changes the ring side and the registers alone. -/
theorem State.deflCnt_setDir_bound : { s with ring := ((s.setDir st d v).deflCnt st k).ring
                                              regs := ((s.setDir st d v).deflCnt st k).regs }
    = (s.setDir st d v).deflCnt st k := rfl

theorem State.onlyParts_deflCnt_setDir : onlyParts [.regs, .ring] s ((s.setDir st d v).deflCnt st k) := by
  intro p hp
  cases p with
  | regs | ring => exact absurd hp (by decide)
  | _ => rfl

theorem State.dir_deflCnt (a b : Nat) : (s.deflCnt st k).dir a b = s.dir a b := rfl

theorem State.fld_deflCnt_setDir : ((s.setDir st d v).deflCnt st k).fld (stopReg st (sDEFL_CNT + 4 * k)) 0 32
    = satAdd 32 (s.fld (stopReg st (sDEFL_CNT + 4 * k)) 0 32) 1 :=
  State.fld_count _ _ 0 32 1 (by decide)

theorem State.regsBut_deflCnt_setDir :
    regsBut [stopReg st (sDEFL_CNT + 4 * k)] s ((s.setDir st d v).deflCnt st k) := fun _ ha =>
  State.reg_count_other _ _ _ 0 32 1 (List.ne_of_not_mem_cons ha)

end

theorem execStarvation_atLimit {s : State} {st : StopNo} {d : Fin 4}
    (hlimit : s.fld (stopReg st.val sDEFL_CTRL) 4 12 ≤ (s.dir st.val d.val).starve)
    (hnot : (s.dir st.val d.val).starved = false) : execStarvation st d s
      = .next ((s.setDir st.val d.val { s.dir st.val d.val with starved := true }).deflCnt st.val 6) := by
  unfold execStarvation
  simp only
  rw [if_pos ⟨hlimit, by rw [hnot]; rfl⟩, State.deflCnt_setDir_bound]

/-! ### A packet that stays incomplete -/

theorem State.reasm_hwmUpdate (s : State) (st q : Nat) : (s.hwmUpdate st q).ni.reasm = s.ni.reasm := by
  unfold State.hwmUpdate
  simp only
  split
  · rw [State.setFld_ni]
  · rfl

theorem State.reasm_enterQueue (s : State) (st q port : Nat) (p : Pkt) (resend : Bool) (m : QMark) :
    (s.enterQueue st q port p resend m).ni.reasm = s.ni.reasm :=
  State.reasm_hwmUpdate _ st q

theorem State.ni_mapCtx (s : State) (st part : Nat) : (s.mapCtx st part).2.ni = s.ni := by
  unfold State.mapCtx
  simp only
  split
  · rfl
  · rw [State.count_ni, State.raiseFlag_ni]

/-- A packet given to a stop's network interface touches no packet under reassembly. -/
theorem State.reasm_offer (s : State) (st port : Nat) (p : Pkt) (ctx : Option Nat) (resend : Bool) :
    (s.offer st port p ctx resend).ni.reasm = s.ni.reasm := by
  unfold State.offer State.offerOn
  cases ctx with
  | some c =>
    simp only
    split
    · exact State.reasm_enterQueue s _ _ _ _ _ _
    · rfl
  | none =>
    simp only
    split
    · exact (State.reasm_enterQueue _ _ _ _ _ _ _).trans (congrArg NiSt.reasm (State.ni_mapCtx s st _))
    · rfl

theorem State.reasm_refuseWith (s : State) (st : Nat) (req : Slot) (status : Nat) :
    (s.refuseWith st req status).ni.reasm = s.ni.reasm := by
  unfold State.refuseWith State.respond
  split
  · exact State.reasm_offer s _ _ _ _ _
  · split
    · rfl
    · exact State.reasm_offer s _ _ _ _ _

theorem State.ni_raise (s : State) (st : Nat) (r : RecIn) : (s.raise st r).ni = s.ni := by
  rw [State.raise_bound]

theorem State.reasm_congr {s t : State} (h : t.ni.reasm = s.ni.reasm) (st : Nat) : t.reasm st = s.reasm st := by
  unfold State.reasm
  rw [h]

/-- What is dropped leaves the contexts of its stop; the answer or the record of R51 enters none. -/
theorem State.reasm_dropReasm (s : State) (st : Nat) (r : Reasm) :
    (s.dropReasm st r).reasm st = (s.reasm st).filter (fun q => !(q.src == r.src && q.store == r.store)) := by
  refine Eq.trans (State.reasm_congr ?_ st) (State.reasm_setReasm_same s st _)
  unfold State.dropReasm
  simp only
  split
  · split
    · exact State.reasm_refuseWith _ _ _ _
    · exact congrArg NiSt.reasm (State.ni_raise _ _ _)
  · exact congrArg NiSt.reasm (State.ni_raise _ _ _)

theorem onlyParts_keepRec (s t : State) : onlyParts [.regs, .ni, .recs] s (s.keepRec t) := by
  intro p hp
  cases p with
  | regs | ni | recs => exact absurd hp (by decide)
  | _ => rfl

theorem execReasmDrop_late {s : State} {st : StopNo} {src : Src} {r : Reasm}
    (h : (s.reasm st.val).find? (fun r => r.src == src
      && decide (s.fld (stopReg st.val sRING_CTRL) 0 20 < s.frame.rcs - r.born) && !s.allHere st.val r) = some r) :
    execReasmDrop st src s = .next (s.keepRec (s.dropReasm st.val r)) := by
  unfold execReasmDrop
  rw [h]

/-- Settles O13: a starved direction by what a count of DEFL_CNT leaves of the other directions and registers, a
dropped packet by what the answer or record of R51 leaves of the contexts. -/
theorem starvedDirectionAndDroppedPacket : Obligations.StarvedDirectionAndDroppedPacket := by
  unfold Obligations.StarvedDirectionAndDroppedPacket
  refine ⟨fun st d s hlimit hnot => ?_, fun st src r s hlate => ?_⟩
  · refine ⟨_, execStarvation_atLimit hlimit hnot, ?_, State.fld_deflCnt_setDir s _ _ 6 _, fun a b h => ?_,
      State.regsBut_deflCnt_setDir s _ _ 6 _, State.onlyParts_deflCnt_setDir s _ _ _ _⟩
    · rw [State.dir_deflCnt, State.dir_setDir_same]
    · rw [State.dir_deflCnt, State.dir_setDir_other _ _ _ _ _ _ h]
  · exact ⟨_, execReasmDrop_late hlate, State.reasm_dropReasm s _ r, onlyParts_keepRec s _⟩

/-! ### Words that clear counters -/

/-- A field of a word reads the same once the word is cut to a width that holds the field. -/
theorem fieldOf_ofNat_toNat {m n lo w : Nat} (v : BitVec m) (h : lo + w ≤ n) :
    fieldOf (BitVec.ofNat n v.toNat) lo w = fieldOf v lo w := by
  have hn : (2 : Nat) ^ n = 2 ^ lo * 2 ^ (n - lo) := by rw [← pow_add, Nat.add_sub_cancel' (by omega)]
  rw [fieldOf_eq, fieldOf_eq, BitVec.toNat_ofNat, hn, Nat.mod_mul_right_div_self,
    Nat.mod_mod_of_dvd _ (pow_dvd_pow 2 (by omega))]

theorem clears_iff {n : Nat} (v : BitVec n) (k : Nat) : clears v k = true ↔ fieldOf v k 1 = 1 := beq_iff_eq

theorem onlyParts_setReg_of {ps : List Part} {s t : State} (h : onlyParts ps s t) (hp : .regs ∈ ps) (a : Nat)
    (v : Word32) : onlyParts ps s (t.setReg a v) :=
  onlyParts_trans h (onlyParts_mono (onlyParts_setReg t a v) (List.singleton_sublist.mpr hp).subset)

section
variable {m : Nat} (s : State) (a : Nat) (v ev : BitVec m)

/-- A register that is none of the counters stays. -/
theorem State.reg_clearWords_other {n b : Nat} (h : ∀ k, k < n → b ≠ a + 4 * k) :
    (s.clearWords a n v ev).reg b = s.reg b := by
  refine forUpTo_same (fun t : State => t.reg b) n _ s fun k t hk => ?_
  split
  · exact State.reg_setReg_other t _ b _ (h k hk)
  · rfl

/-- A counter whose bit is 1 holds the event of its rc, every other one stays (R61). -/
theorem State.reg_clearWords {n k : Nat} (hk : k < n) : (s.clearWords a n v ev).reg (a + 4 * k)
    = if fieldOf v k 1 = 1 then BitVec.ofNat 32 (fieldOf ev k 1) else s.reg (a + 4 * k) := by
  induction n with
  | zero => omega
  | succ n ih =>
    have hlast : s.clearWords a (n + 1) v ev = if clears v n
        then (s.clearWords a n v ev).setReg (a + 4 * n) (BitVec.ofNat 32 (fieldOf ev n 1))
        else s.clearWords a n v ev := forUpTo_succ n _ s
    have hkeep : (s.clearWords a n v ev).reg (a + 4 * n) = s.reg (a + 4 * n) :=
      State.reg_clearWords_other s a v ev fun j hj => by omega
    rw [hlast]
    simp only [clears_iff]
    rcases Nat.lt_succ_iff_lt_or_eq.mp hk with hlt | rfl
    · rw [← ih hlt]
      split
      · exact State.reg_setReg_other _ _ _ _ (by omega)
      · rfl
    · split
      · exact State.reg_setReg_same _ _ _
      · exact hkeep

theorem State.onlyParts_clearWords (n : Nat) : onlyParts [.regs] s (s.clearWords a n v ev) := by
  refine forUpTo_keeps (fun t => onlyParts [.regs] s t) n _ s (fun k t _ h => ?_) (onlyParts_refl _ s)
  split
  · exact onlyParts_setReg_of h (by decide) _ _
  · exact h

end

/-- The eight counters from offset `cnt` on of stop `st` are cleared where `v` says, those with an event in the same
rc to 1; besides them only register `stat` of the stop may differ. -/
structure CntCleared {m n : Nat} (st cnt stat : Nat) (v : BitVec m) (ev : BitVec n) (s t : State) : Prop where
  counts : ∀ k, k < 8 → t.reg (stopReg st (cnt + 4 * k))
    = if fieldOf v k 1 = 1 then BitVec.ofNat 32 (fieldOf ev k 1) else s.reg (stopReg st (cnt + 4 * k))
  others : regsBut (stopReg st stat :: (List.range 8).map (fun k => stopReg st (cnt + 4 * k))) s t
  parts : onlyParts [.regs] s t

theorem stopReg_add (st a b : Nat) : stopReg st (a + b) = stopReg st a + b := by
  unfold stopReg
  omega

/-- A register of a stop that is none of its counters. -/
theorem State.reg_clearWords_stop {m : Nat} (s : State) {st cnt stat : Nat} (v ev : BitVec m)
    (h : ∀ k, k < 8 → stat ≠ cnt + 4 * k) :
    (s.clearWords (stopReg st cnt) 8 v ev).reg (stopReg st stat) = s.reg (stopReg st stat) :=
  State.reg_clearWords_other s _ v ev fun k hk => by have := h k hk; unfold stopReg; omega

/-- Counters are cleared by mask; the register beside them stays. -/
theorem State.cntCleared_clearWords {m : Nat} (s : State) (st cnt stat : Nat) (v ev : BitVec m) :
    CntCleared st cnt stat v ev s (s.clearWords (stopReg st cnt) 8 v ev) where
  counts k hk := by
    rw [stopReg_add]
    exact State.reg_clearWords s _ v ev hk
  others b hb := by
    refine State.reg_clearWords_other s _ v ev fun k hk hbk => hb (List.mem_cons_of_mem _ ?_)
    exact List.mem_map.mpr ⟨k, List.mem_range.mpr hk, by rw [hbk, stopReg_add]⟩
  parts := State.onlyParts_clearWords s _ v ev 8

/-- A write of the register beside the counters leaves them as they are. -/
theorem CntCleared.setReg_stat {m n st cnt stat : Nat} {v : BitVec m} {ev : BitVec n} {s t : State}
    (h : CntCleared st cnt stat v ev s t) (hstat : ∀ k, k < 8 → stat ≠ cnt + 4 * k) (w : Word32) :
    CntCleared st cnt stat v ev s (t.setReg (stopReg st stat) w) where
  counts k hk := by
    have hne : stopReg st (cnt + 4 * k) ≠ stopReg st stat := by have := hstat k hk; unfold stopReg; omega
    rw [State.reg_setReg_other t _ _ _ hne]
    exact h.counts k hk
  others b hb := (State.reg_setReg_other t _ b w (List.ne_of_not_mem_cons hb)).trans (h.others b hb)
  parts := onlyParts_setReg_of h.parts (by decide) _ _

/-- The bound of register writes adds no part to what a command changed. -/
theorem onlyParts_keepReg {ps : List Part} {s t : State} (h : onlyParts ps s t) : onlyParts ps s (s.keepReg t) := by
  intro p hp
  have hst := h p hp
  cases p with
  | frame =>
    change { s.frame with deflNxt := t.frame.deflNxt } = s.frame
    rw [show t.frame = s.frame from hst]
  | pending => rfl
  | _ => exact hst

@[simp] theorem State.reg_keepReg (s t : State) (a : Nat) : (s.keepReg t).reg a = t.reg a := rfl
@[simp] theorem State.fld_keepReg (s t : State) (a lo w : Nat) : (s.keepReg t).fld a lo w = t.fld a lo w := rfl

theorem CntCleared.keepReg {m n st cnt stat : Nat} {v : BitVec m} {ev : BitVec n} {s t : State}
    (h : CntCleared st cnt stat v ev s t) : CntCleared st cnt stat v ev s (s.keepReg t) :=
  ⟨h.counts, h.others, onlyParts_keepReg h.parts⟩

/-- A mask that was cut from a word of the bus is read from the word itself. -/
theorem CntCleared.of_cut {m n st cnt stat : Nat} {v : BitVec m} {ev : BitVec n} {s t : State}
    (h : CntCleared st cnt stat (BitVec.ofNat 9 v.toNat) (BitVec.ofNat 9 ev.toNat) s t) :
    CntCleared st cnt stat v ev s t where
  counts k hk := by
    rw [h.counts k hk, fieldOf_ofNat_toNat v (by omega), fieldOf_ofNat_toNat ev (by omega)]
  others := h.others
  parts := h.parts

/-! ### RING_CNT_CLR and DEFL_CNT_CLR -/

theorem ringStat_ne_count (k : Nat) : sRING_STAT ≠ sRING_CNT + 4 * k := by
  unfold sRING_STAT sRING_CNT
  omega

theorem deflStat_ne_count (k : Nat) : sDEFL_STAT ≠ sDEFL_CNT + 4 * k := by
  unfold sDEFL_STAT sDEFL_CNT
  omega

section
variable (s : State) (st : Nat) (v ev : BitVec 9)

theorem State.cntCleared_ringCntClr : CntCleared st sRING_CNT sRING_STAT v ev s (s.ringCntClr st v ev) := by
  have h := State.cntCleared_clearWords s st sRING_CNT sRING_STAT v ev
  unfold State.ringCntClr
  simp only
  split
  · exact h.setReg_stat (fun k _ => ringStat_ne_count k) _
  · exact h

/-- Bit 8 clears REASM_DROP, the one field of RING_STAT. -/
theorem State.reg_ringStat_ringCntClr : (s.ringCntClr st v ev).reg (stopReg st sRING_STAT)
    = if fieldOf v 8 1 = 1 then BitVec.ofNat 32 (fieldOf ev 8 1) else s.reg (stopReg st sRING_STAT) := by
  unfold State.ringCntClr
  simp only [clears_iff]
  split
  · exact State.reg_setReg_same _ _ _
  · exact State.reg_clearWords_stop s v ev fun k _ => ringStat_ne_count k

theorem State.cntCleared_deflCntClr : CntCleared st sDEFL_CNT sDEFL_STAT v ev s (s.deflCntClr st v ev) := by
  have h := State.cntCleared_clearWords s st sDEFL_CNT sDEFL_STAT v ev
  unfold State.deflCntClr
  simp only
  split
  · exact h.setReg_stat (fun k _ => deflStat_ne_count k) _
  · exact h

/-- Bit 8 clears MAX_DEFL, the lowest field of DEFL_STAT; the fields above it stay. -/
theorem State.deflStat_deflCntClr :
    (s.deflCntClr st v ev).fld (stopReg st sDEFL_STAT) 0 4
        = (if fieldOf v 8 1 = 1 then 0 else s.fld (stopReg st sDEFL_STAT) 0 4)
      ∧ (s.deflCntClr st v ev).fld (stopReg st sDEFL_STAT) 4 28 = s.fld (stopReg st sDEFL_STAT) 4 28 := by
  have hkeep (lo w : Nat) : (s.clearWords (stopReg st sDEFL_CNT) 8 v ev).fld (stopReg st sDEFL_STAT) lo w
      = s.fld (stopReg st sDEFL_STAT) lo w := by
    unfold State.fld
    rw [State.reg_clearWords_stop s v ev fun k _ => deflStat_ne_count k]
  unfold State.deflCntClr
  simp only [clears_iff]
  split
  · exact ⟨State.fld_setFld_same _ _ 0 4 0 (by decide),
      (State.fld_setFld_above _ _ 0 4 0 4 28 (by decide) (by decide)).trans (hkeep 4 28)⟩
  · exact ⟨hkeep 0 4, hkeep 4 28⟩

end

/-! ### A word of a stop's block, written over the test access path -/

section
variable {st : StopNo} {o : Nat} {r : RegRow} (ho : o < 0x4000)
include ho

theorem regBlock_stopReg : regBlock (stopReg st.val o) = (1, o) := by
  have hst := st.isLt
  have hmod : stopReg st.val o % 0x10000000 = stopReg st.val o := by unfold stopReg; omega
  unfold regBlock
  simp only [hmod]
  rw [if_neg (by unfold stopReg; omega), if_pos (by unfold stopReg; omega)]
  exact congrArg (Prod.mk 1) (by unfold stopReg; omega)

/-- The reset value of a register of a stop. -/
theorem regReset_stopReg : regReset (stopReg st.val o) = stopReset st.val o := by
  have hst := st.isLt
  have hmod : stopReg st.val o % 0x10000000 = stopReg st.val o := by unfold stopReg; omega
  have hstop : (stopReg st.val o - 0x100000) / 0x4000 = st.val := by unfold stopReg; omega
  have hoff : (stopReg st.val o - 0x100000) % 0x4000 = o := by unfold stopReg; omega
  unfold regReset regReset0
  rw [hmod, if_neg (by unfold stopReg; omega), if_pos (by unfold stopReg; omega), hstop, hoff]

theorem State.wordWrite_stopReg (s : State) (via : Via) (x : RegEnv) (v : Word32) :
    s.wordWrite via x (stopReg st.val o) v = s.writeStop via x st o v := by
  have hst := st.isLt
  have hstop : Fin.ofNat 192 ((stopReg st.val o - 0x100000) / 0x4000) = st := by
    apply Fin.ext
    rw [Fin.val_ofNat]
    unfold stopReg
    omega
  have hoff : (stopReg st.val o - 0x100000) % 0x4000 = o := by unfold stopReg; omega
  unfold State.wordWrite
  rw [if_neg (by unfold stopReg; omega), if_pos (by unfold stopReg; omega), hstop, hoff]

variable (hrow : rowAt rowsStop o = some r)
include hrow

theorem regRow_stopReg : regRow (stopReg st.val o) = some r := by
  unfold regRow
  rw [regBlock_stopReg ho]
  exact hrow

/-- An always-on register of a stop can be reached in every power state (R510). -/
theorem State.regOpen_stopReg (s : State) (haon : r.aon = true) : s.regOpen (stopReg st.val o) = true := by
  unfold State.regOpen
  rw [regRow_stopReg ho hrow, regBlock_stopReg ho]
  simp only [haon, Bool.true_or]

/-- Where a word has no W1C bit its write is all that happens (R6). -/
theorem State.regWrite_stopReg (s : State) (via : Via) (x : RegEnv) (v : Word32) (hw1c : r.w1c = 0) :
    s.regWrite via x (stopReg st.val o) v = s.writeStop via x st o v := by
  unfold State.regWrite
  rw [regRow_stopReg ho hrow]
  simp only [hw1c, BitVec.ofNat_eq_ofNat, BitVec.and_zero, if_true]
  exact State.wordWrite_stopReg ho s via x v

/-- Outside reset the test access path writes an always-on word of a stop that has no W1C bit. -/
theorem execRegisterWrite_test_stopReg {s : State} {a : BitVec 26} (v : Word32) (x : RegEnv) (haon : r.aon = true)
    (hw1c : r.w1c = 0) (halign : o % 4 = 0) (hrst : s.her.rstLow = false) (ha : a.toNat = stopReg st.val o) :
    execRegisterWrite (.test a v) x s = .next (s.keepReg (s.writeStop none x st o v)) := by
  have hword : a.toNat / 4 * 4 = stopReg st.val o := by rw [ha]; unfold stopReg; omega
  unfold execRegisterWrite
  simp only [hword]
  rw [if_neg (by rw [hrst, State.regOpen_stopReg ho hrow s haon]; decide), State.regWrite_stopReg ho hrow s _ x v hw1c]

end

/-- The row of RING_CNT_CLR, which holds RING_STAT as well. -/
theorem rowAt_ringCntClr : rowAt rowsStop sRING_CNT_CLR = some ⟨sRING_CNT_CLR, 2, 4, 0, 0, 0, 1, true, false⟩ := by
  decide

theorem rowAt_deflCntClr : rowAt rowsStop sDEFL_CNT_CLR = some ⟨sDEFL_CNT_CLR, 1, 4, 0, 0, 0, 1, true, false⟩ := by
  decide

theorem State.writeStop_ringCntClr (s : State) (via : Via) (x : RegEnv) (st : StopNo) (v : Word32) :
    s.writeStop via x st sRING_CNT_CLR v = s.ringCntClr st.val (BitVec.ofNat 9 v.toNat) (hitsOf x 9) := rfl

theorem State.writeStop_deflCntClr (s : State) (via : Via) (x : RegEnv) (st : StopNo) (v : Word32) :
    s.writeStop via x st sDEFL_CNT_CLR v = s.deflCntClr st.val (BitVec.ofNat 9 v.toNat) (hitsOf x 9) := rfl

theorem State.reg_reset (a : Nat) : State.reset.reg a = regReset a := rfl

theorem stopReset_ringCntClr (st : Nat) : stopReset st sRING_CNT_CLR = 0 := rfl

theorem stopReset_deflCntClr (st : Nat) : stopReset st sDEFL_CNT_CLR = 0 := rfl

/-- Settles O27: what the two clears do to the counters and to the register beside them, reached by the command and by
a write of the word, whose masks are cut to 9 bits. -/
theorem ringAndDeflectionCountersClear : Obligations.RingAndDeflectionCountersClear := by
  unfold Obligations.RingAndDeflectionCountersClear
  refine ⟨fun st => ⟨?_, ?_, ?_, ?_⟩, fun st v ev s => ?_, fun st v ev s => ?_,
    fun st a v x s hrst ha => ?_, fun st a v x s hrst ha => ?_⟩
  · unfold stopReg sRING_CNT_CLR; omega
  · unfold stopReg sDEFL_CNT_CLR; omega
  · rw [State.reg_reset, regReset_stopReg (by decide), stopReset_ringCntClr]
  · rw [State.reg_reset, regReset_stopReg (by decide), stopReset_deflCntClr]
  · obtain ⟨hcounts, hothers, hparts⟩ := (State.cntCleared_ringCntClr s st.val v ev).keepReg
    exact ⟨_, rfl, hcounts, State.reg_ringStat_ringCntClr s st.val v ev, hothers, hparts⟩
  · obtain ⟨hcounts, hothers, hparts⟩ := (State.cntCleared_deflCntClr s st.val v ev).keepReg
    obtain ⟨hmax, hrest⟩ := State.deflStat_deflCntClr s st.val v ev
    exact ⟨_, rfl, hcounts, hmax, hrest, hothers, hparts⟩
  · refine ⟨_, execRegisterWrite_test_stopReg (by decide) rowAt_ringCntClr v x rfl rfl (by decide) hrst ha, ?_⟩
    rw [State.writeStop_ringCntClr]
    have hclr := State.cntCleared_ringCntClr s st.val (BitVec.ofNat 9 v.toNat) (hitsOf x 9)
    obtain ⟨hcounts, hothers, hparts⟩ := (CntCleared.of_cut hclr).keepReg
    have hstat := State.reg_ringStat_ringCntClr s st.val (BitVec.ofNat 9 v.toNat) (hitsOf x 9)
    unfold hitsOf at hstat
    rw [fieldOf_ofNat_toNat v (by decide), fieldOf_ofNat_toNat x.same (by decide)] at hstat
    exact ⟨hcounts, hstat, hothers, hparts⟩
  · refine ⟨_, execRegisterWrite_test_stopReg (by decide) rowAt_deflCntClr v x rfl rfl (by decide) hrst ha, ?_⟩
    rw [State.writeStop_deflCntClr]
    have hclr := State.cntCleared_deflCntClr s st.val (BitVec.ofNat 9 v.toNat) (hitsOf x 9)
    obtain ⟨hcounts, hothers, hparts⟩ := (CntCleared.of_cut hclr).keepReg
    obtain ⟨hmax, hrest⟩ := State.deflStat_deflCntClr s st.val (BitVec.ofNat 9 v.toNat) (hitsOf x 9)
    rw [fieldOf_ofNat_toNat v (by decide)] at hmax
    exact ⟨hcounts, hmax, hrest, hothers, hparts⟩

end Sys2Proof.Machine

end

section
/-! PROOFS. The frame counters (R71, R83, R494): their ranges, which commands may move them and which leave them. -/
namespace Sys2Proof.Machine
open Sys2Proof

/-! ### The ranges of the counters -/

theorem Frame.epochLen_pos (f : Frame) : 0 < f.epochLen := by
  unfold Frame.epochLen; omega

/-- Counters that have just started lie in their ranges once F and ESC_EPOCH do. -/
theorem Frame.ok_of_started {f : Frame} (hpos : f.fpos = 0) (hsframe : f.sframe = 0) (hepoch : f.epoch = 0)
    (hplace : f.epochPos = 0) (hrcnt : f.rcnt = 0) (hlow : 10 ≤ f.flen48) (hhigh : f.flen48 ≤ 168)
    (hsel : f.epochSel < 4) : f.Ok where
  fpos := by omega
  sframe := by omega
  low := hlow
  high := hhigh
  epoch := by omega
  sel := hsel
  place := by rw [hplace]; exact f.epochLen_pos
  rcnt := by omega

/-- A frame length that is taken over only where R83 allows it lies in its range. -/
theorem flen48_ok {n m : Nat} (h : 10 ≤ m ∧ m ≤ 168) :
    10 ≤ (if 10 ≤ n ∧ n ≤ 168 then n else m) ∧ (if 10 ≤ n ∧ n ≤ 168 then n else m) ≤ 168 := by
  split <;> assumption

/-- An rc keeps the ranges: FPOS and the place in the epoch stop at their last value until the boundary is taken. -/
theorem Frame.Ok.tick {f : Frame} (h : f.Ok) : f.tick.Ok := by
  have hrcnt : (f.rcnt + 1) % 2 ^ 20 < 2 ^ 20 := Nat.mod_lt _ (by decide)
  cases hrun : f.running with
  | false =>
    have htick : f.tick = { f with rcs := f.rcs + 1, rcnt := (f.rcnt + 1) % 2 ^ 20 } := by
      unfold Frame.tick; rw [hrun]; rfl
    rw [htick]
    exact { h with rcnt := hrcnt }
  | true =>
    have hbelow (a b : Nat) (hab : a < b) : (if a + 1 < b then a + 1 else a) < b := by split <;> omega
    rw [Frame.tick_running hrun]
    exact { h with fpos := hbelow _ _ h.fpos, place := hbelow _ _ h.place, rcnt := hrcnt }

/-- A frame boundary keeps the ranges. -/
theorem Frame.Ok.boundary {f : Frame} (h : f.Ok) : f.boundary.Ok := by
  have hpos : 0 < 48 * f.flen48 := by have := h.low; omega
  exact { h with fpos := hpos, sframe := Nat.mod_lt _ (by decide) }

/-- The frame counters after an epoch boundary (R71). -/
def Frame.epochBoundary (f : Frame) : Frame :=
  { f with epoch := (f.epoch + 1) % 48, epochPos := 0, epochDue := false
           epochSel := (f.epochNxt.getD f.epochSel) % 4, epochNxt := none }

theorem Frame.Ok.epochBoundary {f : Frame} (h : f.Ok) : f.epochBoundary.Ok :=
  { h with
    epoch := Nat.mod_lt _ (by decide)
    sel := Nat.mod_lt _ (by decide)
    place := f.epochBoundary.epochLen_pos }

/-- The frame counters as the strobe starts them (R71, R84, R85). -/
def State.strobedFrame (s : State) : Frame :=
  { s.frame with
    running := true, fpos := 0, sframe := 0, frameCnt := 0, due := false, epoch := 0
    flen48 := if 10 ≤ s.fld gFRAME_CTRL 8 8 ∧ s.fld gFRAME_CTRL 8 8 ≤ 168 then s.fld gFRAME_CTRL 8 8 else s.frame.flen48
    epochPos := 0, epochDue := false, epochSel := s.fld (stopReg hearthStop sDEFL_CTRL) 2 2, rcnt := 0, fNew := false }

theorem State.strobedFrame_ok {s : State} (h : s.frame.Ok) : s.strobedFrame.Ok :=
  have hlen := flen48_ok (n := s.fld gFRAME_CTRL 8 8) ⟨h.low, h.high⟩
  Frame.ok_of_started rfl rfl rfl rfl rfl hlen.1 hlen.2 (fieldOf_lt _ 2 2)

theorem State.reset_frame_ok : State.reset.frame.Ok :=
  Frame.ok_of_started rfl rfl rfl rfl rfl (by decide) (by decide) (by decide)

/-- ACTIVATION and MINIMAL_CONFIGURATION start the counters at 0. -/
theorem State.keepAll_frame_ok {s : State} (h : s.frame.Ok) (t : State) : (s.keepAll t).frame.Ok :=
  have hlen := flen48_ok (n := t.frame.flen48) ⟨h.low, h.high⟩
  Frame.ok_of_started rfl rfl rfl rfl rfl hlen.1 hlen.2 (Nat.mod_lt _ (by decide))

/-- A swap may change F, and finds FPOS at 0. -/
theorem State.keepSwap_frame_ok {s : State} (h : s.frame.Ok) (hdue : s.swapDue = true) (t : State) :
    (s.keepSwap t).frame.Ok := by
  have hlen := flen48_ok (n := t.frame.flen48) ⟨h.low, h.high⟩
  have hpos : s.frame.fpos = 0 := by
    simp only [State.swapDue, Bool.and_eq_true, beq_iff_eq] at hdue
    exact hdue.1.2
  have hfpos : (s.keepSwap t).frame.fpos = 0 := hpos
  have hlow : 10 ≤ (s.keepSwap t).frame.flen48 := hlen.1
  exact { h with fpos := by omega, low := hlen.1, high := hlen.2 }

/-! ### Outcomes -/

/-- Where the outcome is a next state, `P` holds of it. -/
def OnNext (P : State → Prop) (o : Host.Outcome State Fault Refusal) : Prop := ∀ t, o = .next t → P t

section
variable {P : State → Prop}

theorem OnNext.next {t : State} (h : P t) : OnNext P (.next t) := by
  rintro u ⟨rfl⟩
  exact h

theorem OnNext.fault {r : Fault} : OnNext P (.fault r) := fun _ h => by cases h

variable {c : Prop} [Decidable c] {a b : Host.Outcome State Fault Refusal}

theorem OnNext.ite_of (ha : c → OnNext P a) (hb : OnNext P b) : OnNext P (if c then a else b) := by
  split
  case isTrue hc => exact ha hc
  case isFalse => exact hb

theorem OnNext.ite (ha : OnNext P a) (hb : OnNext P b) : OnNext P (if c then a else b) := .ite_of (fun _ => ha) hb

end

/-! ### Commands that leave the counters -/

/-- No frame counter of `t` differs from that of `s`: at most a value of DEFL_CTRL waits (R79). -/
def CountersStay (s t : State) : Prop := t.frame = { s.frame with deflNxt := t.frame.deflNxt }

theorem CountersStay.frame_ok {s t : State} (hstay : CountersStay s t) (h : s.frame.Ok) : t.frame.Ok := by
  rw [hstay]
  exact ⟨h.fpos, h.sframe, h.low, h.high, h.epoch, h.sel, h.place, h.rcnt⟩

theorem CountersStay.refl (s : State) : CountersStay s s := rfl

/-- The bound of register writes lets only a value of DEFL_CTRL through. -/
theorem CountersStay.keepReg (s t : State) : CountersStay s (s.keepReg t) := rfl

theorem CountersStay.ifOpen (s t : State) (a : Nat) : CountersStay s (s.ifOpen a t) := by
  unfold State.ifOpen
  split
  · exact .keepReg s t
  · exact .refl s

/-- A read of a register pair over the test access path, which waits for the end of reset. -/
theorem CountersStay.testRead (s t : State) : CountersStay s (if s.her.rstLow then s else s.keepReg t) := by
  split
  · exact .refl s
  · exact .keepReg s t

/-- The commands that may start, advance or wrap a frame counter. -/
def movesCounters : Instr → Bool
  | .ringCycle _ | .frameStartStrobe | .frameBoundary _ | .epochBoundary | .fabResetAssert | .aonPowerOn
  | .activation _ _ | .minimalConfiguration | .commitSwap | .commitLate => true
  | _ => false

/-- Every other command leaves them: its meaning is a tree of guards whose leaves are the state itself, a fault, or a
bound that takes the frame from the state before. The cases are grouped by the shape of the tree. -/
theorem exec_countersStay {c : Instr} (s : State) (hc : movesCounters c = false) : OnNext (CountersStay s) (exec c s) := by
  cases c with
  | ringCycle | frameStartStrobe | frameBoundary | epochBoundary | fabResetAssert | aonPowerOn | activation
  | minimalConfiguration | commitSwap | commitLate => cases hc
  | resend | grantIssue | enq | deq | peek | steal | qstat | dbell | qsFill | hearthScrubStep | powerOffRequest
  | powerOnRequest | wakeRequest | fence | unfence | d2dLink | retrain | nvmRead | nvmProgram | nvmErase
  | temperBlkWrite | tsSet | recordRaise | wrapperInstruction => exact .next rfl
  | deflCtrlWrite | pmcLoad | sampleEnable | sampleBufConfig | ringCntClear | deflCntClear | absCntClear =>
    exact .next (.keepReg s _)
  | guarCntClear | injqHwmClear | injStoreHwmClear | txnCntClear | decCntClear | qeCntClear | pgCntClear
  | qsCntClear | dpCntClear | pmapEntryWrite => exact .next (.ifOpen s _ _)
  | portCnt2Clear => exact .ite (.next rfl) (.next (.ifOpen s _ _))
  | starvation | recover | retryReceive | grantReceive | greleaseReceive | grantTo | retrySweep | completionReceive
  | pwackReceive | remapWrite | acuEntryWrite | acuShadowCheck | acuSwap | delete | forceDelete | clearFault | arm
  | qtEntryWrite | qtlbInvAll | qtlbInvQueue | qtlbInvPage | poolWrite | poolFrameLeave | scrubStep | qsRemapAdd
  | flitPairSend | discTo | sync | win | rotate | fabResetDeassert | fuseAck | fuseTimeout | nvmReady
  | initialCalibrationDone | openGo | restoreGo | restoreWriteDone | nvmCmdDone | commitHostAbort | commitAbort
  | sweepEnd | tsMark | logEnable | mgmtBad | portCdcCntClear | d2dModule | memoryTest | memoryTestDone =>
    exact .ite (.next rfl) (.next rfl)
  | rawModeEnable | tickLost | flitPairReceive | linkTrained | hello | echo | detourApply | d2dWindowDue
  | fuseReadDone | headersRead | portsOpen | commitGo | prepare | inDoubt =>
    exact .ite (.next rfl) (.ite (.next rfl) (.next rfl))
  | segEntryWrite | ringClockChange | discoveryFinish | signatureDone | commit =>
    exact .ite (.next rfl) (.ite (.next rfl) (.ite (.next rfl) (.next rfl)))
  | strobeTime => exact .ite (.next rfl) (.ite (.ite (.next rfl) (.next rfl)) (.next rfl))
  | injQueueAdmit | requestRelease => exact .ite (.next rfl) .fault
  | glitch | portResetAssert | portResetDeassert | stopReq | stopRelease => exact .ite .fault (.next rfl)
  | requestCapture | msgCapture | agentResponse | oreqDeliver | omsgDeliver | ntfDeliver | pchgSwap | hsTimeoutOut
  | resyncDone | rsTimeout | portStopped | bellowsAck | lockBreak =>
    exact .ite .fault (.ite (.next rfl) (.next rfl))
  | cdcPtr | bellowsReq => exact .ite .fault (.ite (.next rfl) (.ite (.next rfl) (.next rfl)))
  | reasmDrop | mergeDrain | perrEnqDone | d2dIngressInject | d2dRsvExpire | tsCorrection | walkComplete
  | devAccessComplete =>
    dsimp only [exec, execReasmDrop, execMergeDrain, execPerrEnqDone, execD2dIngressInject, execD2dRsvExpire,
      execTsCorrection, execWalkComplete, execDevAccessComplete]
    split
    · exact .next rfl
    · exact .next rfl
  | logWriteDone | pageMoveComplete | qtlbInvDone | drainComplete | drainTo | pwrPgFail | d2dWinCancel | d2dWinOver
  | winAck =>
    dsimp only [exec, execLogWriteDone, execPageMoveComplete, execQtlbInvDone, execDrainComplete, execDrainTo,
      execPwrPgFail, execD2dWinCancel, execD2dWinOver, execWinAck]
    split
    · exact .next rfl
    · exact .ite (.next rfl) (.next rfl)
  | moduleRecalDone =>
    dsimp only [exec, execModuleRecalDone]
    split
    · exact .next rfl
    · exact .ite (.next rfl) (.ite (.next rfl) (.next rfl))
  | pgoodRise =>
    dsimp only [exec, execPgoodRise]
    split
    · exact .next rfl
    · exact .ite (.next rfl) (.ite (.next rfl) (.ite (.next rfl) (.next rfl)))
  | recordCollect =>
    dsimp only [exec, execRecordCollect]
    split
    · exact .next rfl
    · split
      · exact .next rfl
      · exact .next rfl
  | sampleIndexAlloc =>
    dsimp only [exec, execSampleIndexAlloc]
    split
    · exact .next rfl
    · split
      · exact .next rfl
      · exact .ite (.next rfl) (.next rfl)
  | addrMapApply | hearthTrap | copyReadDone | decisionRequest =>
    refine .ite (.next rfl) ?_
    split
    · exact .next rfl
    · exact .next rfl
  | unfenceReceive | fenceReceive | assign | rawWindowRead =>
    refine .ite (.next rfl) ?_
    split
    · exact .next rfl
    · exact .ite (.next rfl) (.next rfl)
  | final | commitDecide | rawWindowWrite =>
    refine .ite (.next rfl) ?_
    split
    · exact .next rfl
    · exact .ite (.next rfl) (.ite (.next rfl) (.next rfl))
  | discoveryReport =>
    refine .ite (.next rfl) (.ite (.next rfl) ?_)
    split
    · exact .next rfl
    · exact .next rfl
  | dieSpecificReadDone =>
    refine .ite (.next rfl) (.ite (.next rfl) (.ite (.next rfl) ?_))
    split
    · exact .next rfl
    · exact .next rfl
  | rclkDone =>
    refine .ite (.next rfl) ?_
    split
    · exact .ite (.next rfl) (.next rfl)
    · exact .next rfl
  | fillDone =>
    refine .ite (.next rfl) ?_
    split
    · exact .ite (.ite (.next rfl) (.next rfl)) (.next rfl)
    · exact .next rfl
  | queueDeleteDone =>
    refine .ite (.next rfl) ?_
    split
    · refine .next ?_
      split
      · rfl
      · rfl
    · exact .next rfl
  | fenceSettleDone =>
    dsimp only [exec, execFenceSettleDone]
    split
    · exact .next rfl
    · refine .ite (.next rfl) ?_
      split
      · exact .next rfl
      · exact .next rfl
      · exact .next rfl
  | fenceAck who =>
    cases who with
    | die d =>
      dsimp only [exec, execFenceAck]
      split
      · exact .ite (.next rfl) (.next rfl)
      · exact .next rfl
    | stop st set =>
      refine .ite ?_ (.next rfl)
      split
      · exact .ite (.next rfl) (.next rfl)
      · exact .next rfl
  | prepareAck frm =>
    cases frm with
    | stop st => exact .ite (.next rfl) (.ite (.next rfl) (.next rfl))
    | die d fail =>
      refine .ite (.next rfl) (.ite ?_ (.next rfl))
      split
      · exact .next rfl
      · exact .next rfl
  | cto | notify =>
    refine .ite .fault ?_
    split
    · exact .next rfl
    · exact .ite (.next rfl) (.next rfl)
  | partitionChange | stopped =>
    refine .ite .fault (.ite (.next rfl) ?_)
    dsimp only
    split
    · exact .next rfl
    · exact .next rfl
  | completionDeliver =>
    refine .ite .fault (.ite (.next rfl) (.ite (.next rfl) ?_))
    split
    · exact .next rfl
    · exact .ite (.next rfl) (.next rfl)
  | hsTimeoutIn st k part =>
    refine .ite .fault (.ite (.next rfl) ?_)
    cases part with
    | dat => exact .ite (.next rfl) (.next rfl)
    | req q => exact .next rfl
    | msg m => exact .next rfl
    | rsp r =>
      dsimp only
      split
      · exact .next rfl
      · exact .next rfl
  | registerWrite acc x =>
    cases acc with
    | packet st p => exact .ite (.next rfl) (.next (.keepReg s _))
    | test a v => exact .ite (.next rfl) (.next (.keepReg s _))
  | tsNowRead p =>
    cases p with
    | some p => exact .ite (.next (.keepReg s _)) (.next rfl)
    | none => exact .next (.testRead s _)
  | pmcRead st n p =>
    cases p with
    | some p => exact .ite (.next (.keepReg s _)) (.next rfl)
    | none => exact .next (.testRead s _)

/-! ### Every step -/

/-- A command that starts, advances or wraps the counters leaves them in their ranges. -/
theorem exec_frame_ok_of_movesCounters {c : Instr} {s : State} (hc : movesCounters c = true) (h : s.frame.Ok) :
    OnNext (fun t => t.frame.Ok) (exec c s) := by
  cases c with
  | ringCycle => exact .ite .fault (.ite (.next h) (.next h.tick))
  | frameStartStrobe => exact .ite (.next h) (.next (State.strobedFrame_ok h))
  | frameBoundary => exact .ite (.next h) (.next h.boundary)
  | epochBoundary => exact .ite (.next h) (.next h.epochBoundary)
  | fabResetAssert | aonPowerOn => exact .next State.reset_frame_ok
  | activation | minimalConfiguration => exact .ite (.next h) (.next (State.keepAll_frame_ok h _))
  | commitSwap | commitLate => exact .ite_of (fun hdue => .next (State.keepSwap_frame_ok h hdue.1 _)) (.next h)
  | _ => cases hc

/-- Every command keeps the ranges. -/
theorem exec_frame_ok {c : Instr} {s : State} (h : s.frame.Ok) : OnNext (fun t => t.frame.Ok) (exec c s) := by
  cases hc : movesCounters c with
  | true => exact exec_frame_ok_of_movesCounters hc h
  | false => exact fun t ht => (exec_countersStay s hc t ht).frame_ok h

/-- Settles O6: on an empty queue the counters stay, a command that moves them keeps their ranges, and every other one
leaves them. -/
theorem everyStepKeepsTheFrameCounters : Obligations.EveryStepKeepsTheFrameCounters := by
  unfold Obligations.EveryStepKeepsTheFrameCounters step
  intro s t h hstep
  split at hstep
  case h_1 => cases hstep; exact (CountersStay.keepReg s _).frame_ok h
  case h_2 c rest _ => exact exec_frame_ok (s := { s with pending := rest }) h t hstep

/-- Settles O5: the counters start at 0, and the memory lists no symbol. -/
theorem resetMeetsTheInvariants : Obligations.ResetMeetsTheInvariants := ⟨State.reset_frame_ok, rfl⟩

end Sys2Proof.Machine

end

section
/-! PROOFS. The strobe and the boundaries (R71, R75, R79, R84, R108, R129, R493): how the counters start, and what the
end of a frame and of an epoch make of them. -/
namespace Sys2Proof.Machine
open Sys2Proof

/-! ### The strobe -/

/-- The strobe loads every local count from the master (R463, R467). -/
def State.strobedLocals (s : State) : Tab LocalTs :=
  if (⟨s.time.master, 0, 0, none⟩ : LocalTs) = defLocal 0 then []
  else (List.range nStops).map (fun st => (st, ⟨s.time.master, 0, 0, none⟩))

theorem Tab.get_map_of_mem {α : Type} (d : Nat → α) {l : List Nat} (v : α) {k : Nat} (h : k ∈ l) :
    Tab.get d (l.map (fun j => (j, v))) k = v := by
  induction l with
  | nil => cases h
  | cons j l ih =>
    simp only [List.map_cons, Tab.get]
    split
    · rfl
    case isFalse hj => exact ih ((List.mem_cons.mp h).resolve_left (Ne.symm hj))

theorem State.get_strobedLocals (s : State) {st : Nat} (h : st < 192) :
    (Tab.get defLocal s.strobedLocals st).count = s.time.master := by
  unfold State.strobedLocals
  split
  case isTrue hz => exact (congrArg LocalTs.count hz).symm
  case isFalse => exact congrArg LocalTs.count (Tab.get_map_of_mem defLocal _ (List.mem_range.mpr h))

/-- The state in which the counters have been started. -/
def State.strobed (s : State) : State :=
  { s with
    frame := s.strobedFrame
    time := { s.time with locals := s.strobedLocals }
    tem := { s.tem with links := s.tem.links.map (fun e => (e.1, { e.2 with passes := 0 })) } }

theorem execFrameStartStrobe_starts {s : State} (hrun : s.frame.running = false) (hearly : s.strobeEarly = false) :
    execFrameStartStrobe s = .next s.strobed := by
  unfold execFrameStartStrobe
  rw [hrun, hearly]
  rfl

theorem State.onlyParts_strobed (s : State) : onlyParts [.frame, .time, .tem] s s.strobed := by
  intro p hp
  cases p with
  | frame | time | tem => exact absurd hp (by decide)
  | _ => rfl

/-- Settles O10: the strobe's outcome is one equation, from which each count is read. -/
theorem strobeStartsTheCounters : Obligations.StrobeStartsTheCounters := by
  unfold Obligations.StrobeStartsTheCounters
  intro s hrun hearly
  refine ⟨s.strobed, execFrameStartStrobe_starts hrun hearly, rfl, rfl, rfl, rfl, rfl, rfl, rfl, rfl,
    fun hlow hhigh => if_pos ⟨hlow, hhigh⟩, rfl, fun e he => ?_, fun st hst => s.get_strobedLocals hst, rfl,
    s.onlyParts_strobed⟩
  obtain ⟨l, _, rfl⟩ := List.mem_map.mp he
  rfl

/-! ### The boundary of a frame -/

/-- The state with every stop's gate cycle one frame further (R129). -/
def State.gatesOn (s : State) : State :=
  forUpTo nStops (fun st t =>
    let k := (Tab.get (fun _ => 0) t.ni.gframe st + 1) % t.gcycle st
    { t with ni := { t.ni with gframe := Tab.set (fun _ => 0) t.ni.gframe st k } }) s

/-- The helpers that had not finished are flagged and recorded (R108). -/
def State.overruns (s : State) (stale : Nat → Nat) (late : List (Fin 8 × StopNo)) : State :=
  late.foldl (fun (t : State) o => t.overrun o.1.val o.2.val (stale o.2.val)) s

/-- The snapshot of the counters, where this boundary takes one (R493). -/
def State.snapshots (s : State) (cnt : Word32) : State :=
  if s.flag gSNAP_CTRL 0 ∧ cnt.toNat % 2 ^ s.fld gSNAP_CTRL 1 4 = 0 then
    forUpTo nStops (fun st t => t.snapshot st (cnt.toNat % 2 ^ 16)) s else s

/-- What a frame boundary makes of the registers, the network interfaces and the records. -/
def State.boundaryWork (s : State) (late : List (Fin 8 × StopNo)) : State :=
  let t := s.deflApply s.frame.boundary.frameCnt
  (({ t with ni := { t.ni with gstale := [] } } : State).gatesOn.overruns
    (Tab.get (fun _ => 0) s.ni.gstale) late).snapshots s.frame.boundary.frameCnt

theorem execFrameBoundary_due {s : State} (late : List (Fin 8 × StopNo)) (hdue : s.frame.due = true) :
    execFrameBoundary late s = .next { s with
      frame := s.frame.boundary, regs := (s.boundaryWork late).regs, ni := (s.boundaryWork late).ni
      recs := (s.boundaryWork late).recs } := by
  unfold execFrameBoundary
  rw [hdue]
  rfl

/-- A DEFL_CTRL value whose boundary this is hands its ESC_EPOCH on (R71, R79). -/
theorem Frame.boundary_applies {f : Frame} {v : Word32} (h : f.deflNxt = some (v, f.frameCnt + 1)) :
    f.boundary.deflNxt = none ∧ f.boundary.epochNxt = some (fieldOf v 2 2) := by
  unfold Frame.boundary
  rw [h]
  simp

/-- Any other waits on. -/
theorem Frame.boundary_waits {f : Frame} {v n : Word32} (h : f.deflNxt = some (v, n)) (hn : n ≠ f.frameCnt + 1) :
    f.boundary.deflNxt = some (v, n) := by
  unfold Frame.boundary
  rw [h]
  dsimp only
  rw [if_neg hn]

theorem gFRAME_STAT_ne_stopReg (st o : Nat) : gFRAME_STAT ≠ stopReg st o := by
  unfold gFRAME_STAT stopReg
  omega

theorem State.flag_raise_frameStat (s : State) (st : Nat) (r : RecIn) :
    (s.raise st r).flag gFRAME_STAT 1 = s.flag gFRAME_STAT 1 := by
  refine State.flag_congr ?_ 1
  unfold State.raise
  simp only
  split
  · rw [State.reg_setRecs, State.reg_congr (State.setRecBuf_regs s st _)]
  · rw [State.reg_setRecs, State.reg_count_other _ _ _ _ _ _ (gFRAME_STAT_ne_stopReg _ _),
      State.reg_raiseFlag_other _ _ _ _ (gFRAME_STAT_ne_stopReg _ _)]

/-- A helper that overran is flagged (R108). -/
theorem State.flag_overrun (s : State) (src st back : Nat) : (s.overrun src st back).flag gFRAME_STAT 1 = true := by
  have hraise (t : State) (r : RecIn) :
      (((t.raiseFlag gFRAME_STAT 1).count gFRAME_STAT 16 16 1).raise st r).flag gFRAME_STAT 1 = true := by
    rw [State.flag_raise_frameStat]
    exact (State.flag_setFld_below _ _ _ _ _ _ (by decide) (by decide)).trans (State.flag_raiseFlag _ _ _ (by decide))
  unfold State.overrun
  simp only
  split
  · exact hraise _ _
  · exact hraise _ _

theorem State.flag_overruns (s : State) (stale : Nat → Nat) {late : List (Fin 8 × StopNo)} (h : late ≠ []) :
    (s.overruns stale late).flag gFRAME_STAT 1 = true := by
  obtain ⟨o, rest, rfl⟩ := List.exists_cons_of_ne_nil h
  exact foldl_keeps (fun t : State => t.flag gFRAME_STAT 1 = true) rest _ _ (fun t o _ => t.flag_overrun _ _ _)
    (s.flag_overrun _ _ _)

theorem State.flag_snapshot (s : State) (st cnt : Nat) : (s.snapshot st cnt).flag gFRAME_STAT 1 = s.flag gFRAME_STAT 1 := by
  refine State.flag_congr ?_ 1
  unfold State.snapshot
  simp only
  rw [State.reg_setFld_other _ _ _ _ _ _ (gFRAME_STAT_ne_stopReg _ _),
    State.reg_setFld_other _ _ _ _ _ _ (gFRAME_STAT_ne_stopReg _ _)]
  refine forUpTo_same (fun t : State => t.reg gFRAME_STAT) 16 _ s fun n t _ => ?_
  rw [State.reg_setReg_other _ _ _ _ (gFRAME_STAT_ne_stopReg _ _),
    State.reg_setReg_other _ _ _ _ (gFRAME_STAT_ne_stopReg _ _)]

theorem State.flag_snapshots (s : State) (cnt : Word32) :
    (s.snapshots cnt).flag gFRAME_STAT 1 = s.flag gFRAME_STAT 1 := by
  unfold State.snapshots
  split
  · exact forUpTo_same (fun t : State => t.flag gFRAME_STAT 1) nStops _ s (fun st t _ => t.flag_snapshot st _)
  · rfl

/-- Settles O11: the frame counters are those of `Frame.boundary`; of the boundary's other work only the flag of an
overrun is asked for. -/
theorem frameBoundaryWrapsThePosition : Obligations.FrameBoundaryWrapsThePosition := by
  unfold Obligations.FrameBoundaryWrapsThePosition
  intro late s hdue
  refine ⟨_, execFrameBoundary_due late hdue, rfl, rfl, rfl, rfl, rfl, rfl, rfl, fun v n hv hn => ?_,
    fun v n hv hn => Frame.boundary_waits hv hn, fun hlate => ?_, ?_⟩
  · subst hn
    exact Frame.boundary_applies hv
  · exact (State.flag_snapshots _ _).trans (State.flag_overruns _ _ hlate)
  · intro p hp
    cases p with
    | frame | regs | ni | recs => exact absurd hp (by decide)
    | _ => rfl

/-! ### The boundary of an epoch -/

/-- What an epoch boundary makes of the registers and the records (R71, R75). -/
def State.epochWork (s : State) : State :=
  let t := forUpTo nStops (fun st t => (t.escGap st 0).escGap st 1) s
  match s.frame.epochNxt with
  | none => t
  | some e => forUpTo nStops (fun st t => t.setFld (stopReg st sDEFL_CTRL) 2 2 e) t

theorem execEpochBoundary_due {s : State} (hepoch : s.frame.epochDue = true) (hdue : s.frame.due = false)
    (hswap : s.swapDue = false) : execEpochBoundary s = .next { s with
      frame := s.frame.epochBoundary, regs := s.epochWork.regs, recs := s.epochWork.recs
      ring := { s.ring with escSeen := [] } } := by
  unfold execEpochBoundary
  rw [hepoch, hdue, hswap]
  rfl

/-- Settles O12: the frame counters are those of `Frame.epochBoundary`, and no ESC slot counts as seen. -/
theorem epochBoundaryAdvancesTheCount : Obligations.EpochBoundaryAdvancesTheCount := by
  unfold Obligations.EpochBoundaryAdvancesTheCount
  intro s hepoch hdue hswap
  refine ⟨_, execEpochBoundary_due hepoch hdue hswap, rfl, rfl, rfl, rfl, rfl, rfl, rfl, rfl, fun st d => rfl, ?_⟩
  intro p hp
  cases p with
  | frame | regs | ring | recs => exact absurd hp (by decide)
  | _ => rfl

end Sys2Proof.Machine

end

section
/-! PROOFS. A granted packet that is sent again (R68, R178, R185): what a packet given to a network interface leaves
of it, and the outcomes of RESEND. -/
namespace Sys2Proof.Machine
open Sys2Proof

/-! ### A packet given to a network interface -/

section
variable {τ : Type} {g : NiSt → τ} (hg : ∀ n a b c, g { n with injq := a, held := b, hwm := c } = g n)
include hg

/-- A packet that enters its queue changes the queue and the high-water marks alone. -/
theorem State.enterQueue_ni_keeps (s : State) (st q port : Nat) (p : Pkt) (resend : Bool) (m : QMark) :
    g (s.enterQueue st q port p resend m).ni = g s.ni := by
  unfold State.enterQueue State.hwmUpdate
  simp only
  split
  · exact hg s.ni _ s.ni.held _
  · exact hg s.ni _ s.ni.held _

/-- A packet given to a network interface changes the queues, the receive stages and the high-water marks alone. -/
theorem State.offer_ni_keeps (s : State) (st port : Nat) (p : Pkt) (ctx : Option Nat) (resend : Bool) :
    g (s.offer st port p ctx resend).ni = g s.ni := by
  unfold State.offer State.offerOn
  cases ctx with
  | some c =>
    simp only
    split
    · exact State.enterQueue_ni_keeps hg s _ _ _ _ _ _
    · exact hg s.ni s.ni.injq _ s.ni.hwm
  | none =>
    simp only
    split
    · exact (State.enterQueue_ni_keeps hg _ _ _ _ _ _ _).trans (congrArg g (State.ni_mapCtx s st _))
    · exact hg s.ni s.ni.injq _ s.ni.hwm

end

section
variable (s : State) (st port : Nat) (p : Pkt) (ctx : Option Nat) (resend : Bool)

theorem State.pend_offer (a b : Nat) : (s.offer st port p ctx resend).pend a b = s.pend a b :=
  congrArg (fun t => Tab.get (fun _ => []) t (a * 3072 + b))
    (State.offer_ni_keeps (g := NiSt.pend) (fun _ _ _ _ => rfl) s st port p ctx resend)

theorem State.ni_txns_offer : (s.offer st port p ctx resend).ni.txns = s.ni.txns :=
  State.offer_ni_keeps (g := NiSt.txns) (fun _ _ _ _ => rfl) s st port p ctx resend

theorem State.txns_offer (a b : Nat) : (s.offer st port p ctx resend).txns a b = s.txns a b :=
  congrArg (fun t => Tab.get (fun _ => []) t (a * 4 + b)) (State.ni_txns_offer s st port p ctx resend)

end

/-! ### RESEND -/

/-- What a command of the transaction layer may change. -/
theorem onlyParts_keepTxn (s t : State) : onlyParts [.regs, .ni, .recs, .pmu, .pw] s (s.keepTxn t) := by
  intro p hp
  cases p with
  | regs | ni | recs | pmu | pw => exact absurd hp (by decide)
  | _ => rfl

/-- The entry at place `i` of the pending list for a stop is gone. -/
def State.erasePend (s : State) (st r i : Nat) : State := s.setPend st r ((s.pend st r).eraseIdx i)

theorem State.pend_erasePend (s : State) (st r i : Nat) :
    (s.erasePend st r i).pend st r = (s.pend st r).eraseIdx i := State.pend_setPend_same _ _ _ _

section
variable {s : State} {st die stop i n j : Nat} {e : Pend} {x : Txn} {c : Piece}
  (hgranted : (s.pend st (recNo die stop)).zipIdx.find? (fun e => e.1.granted.isSome) = some (e, i))
include hgranted

/-- A grant that serves no packet any more is given back (R185). -/
theorem State.resendNow_givesBack (h : e.void = true ∨
      s.txnFor st e.port e.tag e.addr (fun ph => ph == .released || ph == .posted) = none) :
    s.resendNow st die stop
      = (s.erasePend st (recNo die stop) i).sendCtl st opGRELEASE die stop (e.granted.getD 0) 0 := by
  unfold State.resendNow
  simp only [hgranted]
  split
  · rfl
  case isFalse hvoid => simp only [h.resolve_left hvoid]; rfl

variable (hvoid : e.void = false)
  (htxn : s.txnFor st e.port e.tag e.addr (fun ph => ph == .released || ph == .posted) = some n)
  (hx : (s.txns st e.port)[n]? = some x)
  (hpiece : x.pieces.zipIdx.find? (fun c => c.1.awaits e.addr) = some (c, j))
include hvoid htxn hx hpiece

/-- Before RESEND_HOLD has passed the packet waits (R68). -/
theorem State.resendNow_holds (h : s.frame.rcs - c.lastInj < s.fld (stopReg st sDEFL_CTRL) 16 16) :
    s.resendNow st die stop = s := by
  unfold State.resendNow
  simp only [hgranted, htxn, hx, hpiece]
  rw [if_neg (by rw [hvoid]; decide), if_pos h]

/-- After it the piece is marked sent again, under its grant, and given to the network interface (R185). -/
theorem State.resendNow_sends (h : s.fld (stopReg st sDEFL_CTRL) 16 16 ≤ s.frame.rcs - c.lastInj) :
    ∃ pkt, s.resendNow st die stop = ((s.erasePend st (recNo die stop) i).putTxn st e.port n (some
        { x with pieces := x.pieces.set j
                  { c with resent := true, injected := 0, grantBy := some (die, stop, e.granted.getD 0) } })).offer
      st e.port pkt none true := by
  unfold State.resendNow
  simp only [hgranted, htxn, hx, hpiece]
  rw [if_neg (by rw [hvoid]; decide), if_neg (Nat.not_lt.mpr h)]
  exact ⟨_, rfl⟩

end

/-- A transaction put in the place of another stands there. -/
theorem State.txns_putTxn_some (s : State) (st p n : Nat) (t : Txn) (h : n < (s.txns st p).length) :
    ((s.putTxn st p n (some t)).txns st p)[n]? = some t := by
  unfold State.putTxn
  rw [State.txns_setTxns_same]
  exact List.getElem?_set_self h

/-- Settles O20: RESEND sends, holds or gives back by the three equations of `State.resendNow`, and a packet given to
the network interface touches neither the pending lists nor the transactions. -/
theorem grantedPacketIsSentAgain : Obligations.GrantedPacketIsSentAgain := by
  unfold Obligations.GrantedPacketIsSentAgain
  refine ⟨fun st die stop s e i n j x c hgranted hvoid htxn hx hpiece => ⟨_, rfl, fun hpast => ?_, fun hearly => ?_,
    onlyParts_keepTxn s _⟩, fun st die stop s e i hgranted hgone => ⟨_, rfl, ?_, ?_, onlyParts_keepTxn s _⟩⟩
  · obtain ⟨pkt, hsend⟩ := State.resendNow_sends hgranted hvoid htxn hx hpiece hpast
    obtain ⟨hn, _⟩ := List.getElem?_eq_some_iff.mp hx
    rw [hsend]
    refine ⟨(State.pend_offer _ _ _ _ _ _ _ _).trans (State.pend_erasePend s _ _ i), _, rfl, ?_⟩
    exact (congrArg (·[n]?) (State.txns_offer _ _ _ _ _ _ _ _)).trans
      (State.txns_putTxn_some (s.erasePend _ _ i) _ _ n _ hn)
  · rw [State.resendNow_holds hgranted hvoid htxn hx hpiece hearly]
    rfl
  · rw [State.resendNow_givesBack hgranted hgone]
    exact (State.pend_offer _ _ _ _ _ _ _ _).trans (State.pend_erasePend s _ _ i)
  · rw [State.resendNow_givesBack hgranted hgone]
    exact State.ni_txns_offer _ _ _ _ _ _

end Sys2Proof.Machine

end
section
/-! PROOFS. Words written to registers that keep a range (R6, R481), and with them the set-up of counters, samples, the
sample buffer, the partition map and DEFL_CTRL (R79, R115, R135, R491, R495, R502). -/
namespace Sys2Proof.Machine
open Sys2Proof

/-! ### The word that a write stores -/

/-- Words whose bits agree in a field agree in the field. -/
theorem fieldOf_congr_bits {n m : Nat} {v : BitVec n} {w : BitVec m} {lo k : Nat}
    (h : ∀ i, i < k → v.getLsbD (lo + i) = w.getLsbD (lo + i)) : fieldOf v lo k = fieldOf w lo k := by
  refine Nat.eq_of_testBit_eq fun i => ?_
  unfold fieldOf
  rw [Nat.testBit_mod_two_pow, Nat.testBit_mod_two_pow, Nat.testBit_shiftRight, Nat.testBit_shiftRight]
  by_cases hi : i < k
  · exact congrArg (decide (i < k) && ·) (h i hi)
  · simp [hi]

/-- A register's word after a write, before any range applies (R6). -/
def RegRow.land (r : RegRow) (old v : Word32) : Word32 :=
  (old &&& ~~~(BitVec.ofNat 32 r.rw) &&& ~~~(v &&& BitVec.ofNat 32 r.w1c)) ||| (v &&& BitVec.ofNat 32 r.rw)

theorem RegRow.getLsbD_land {r : RegRow} (old v : Word32) {i : Nat} (h : (BitVec.ofNat 32 r.rw).getLsbD i = true) :
    (r.land old v).getLsbD i = v.getLsbD i := by
  unfold RegRow.land
  simp only [BitVec.getLsbD_or, BitVec.getLsbD_and, BitVec.getLsbD_not, h]
  simp

/-- A field whose bits are all RW holds what was written. -/
theorem RegRow.fieldOf_land {r : RegRow} (old v : Word32) {lo k : Nat}
    (h : ∀ i, i < k → (BitVec.ofNat 32 r.rw).getLsbD (lo + i) = true) : fieldOf (r.land old v) lo k = fieldOf v lo k :=
  fieldOf_congr_bits fun i hi => RegRow.getLsbD_land old v (h i hi)

/-- A word whose bits are all RW is the one written. -/
theorem RegRow.land_all {r : RegRow} (old v : Word32) (h : ∀ i, i < 32 → (BitVec.ofNat 32 r.rw).getLsbD i = true) :
    r.land old v = v := BitVec.eq_of_getLsbD_eq fun i hi => RegRow.getLsbD_land old v (h i hi)

/-- Outside event codes and sampling periods only the ranges of its fields change a word that is written. -/
theorem State.storedWord_eq (s : State) {a b o : Nat} {r : RegRow} (v : Word32) (hrow : regRow a = some r)
    (hblock : regBlock a = (b, o)) (hplain : b = 1 → (o < sPMC_CFG ∨ sPMC ≤ o) ∧ o ≠ sSMP_PERIOD) :
    s.storedWord a v = (fieldRules a).foldl (fun w f => f.apply (s.reg a) w) (r.land (s.reg a) v, false) := by
  unfold State.storedWord RegRow.land
  simp only [hrow, hblock]
  rw [if_neg fun h => ?_, if_neg fun h => (hplain h.1).2 h.2.1]
  have := (hplain h.1).1
  omega

section
variable {f : FieldRule} (hf : f.lo + f.w ≤ 32) (old : Word32) (p : Word32 × Bool)
include hf

/-- A range changes no field below its own. -/
theorem FieldRule.fieldOf_apply_below {c d : Nat} (h : c + d ≤ f.lo) :
    fieldOf (f.apply old p).1 c d = fieldOf p.1 c d := by
  unfold FieldRule.apply
  simp only
  split
  · rfl
  · split
    · exact fieldOf_withField_below _ _ _ _ _ _ hf h
    · exact fieldOf_withField_below _ _ _ _ _ _ hf h

theorem FieldRule.fieldOf_apply_above {c d : Nat} (h : f.lo + f.w ≤ c) :
    fieldOf (f.apply old p).1 c d = fieldOf p.1 c d := by
  unfold FieldRule.apply
  simp only
  split
  · rfl
  · split
    · exact fieldOf_withField_above _ _ _ _ _ _ hf h
    · exact fieldOf_withField_above _ _ _ _ _ _ hf h

variable (hc : f.clamp = true)
include hc

omit hf in
theorem FieldRule.apply_clamp_ok : (f.apply old p).2 = p.2 := by
  unfold FieldRule.apply
  simp only [hc]
  split
  · rfl
  · rfl

/-- A field with "stored as" bounds holds the value in them that is nearest (R481). -/
theorem fieldOf_apply_clamp (hmin : f.min ≤ f.max) (hmax : f.max < 2 ^ f.w) :
    fieldOf (f.apply old p).1 f.lo f.w = max f.min (min (fieldOf p.1 f.lo f.w) f.max) := by
  unfold FieldRule.apply
  simp only [hc]
  split
  case isTrue h => rw [Nat.min_eq_left h.2, Nat.max_eq_right h.1]
  case isFalse h =>
    rw [if_pos trivial, fieldOf_withField _ _ _ _ hf]
    split
    · rw [Nat.mod_eq_of_lt (by omega)]; omega
    · rw [Nat.mod_eq_of_lt hmax]; omega

end

/-! ### Plain writes -/

theorem State.regPut_of_other (s : State) (via : Via) {a b o : Nat} (v : Word32) (hblock : regBlock a = (b, o))
    (hqe : (b, o) ≠ (1, sQE_CTRL)) (hsmp : (b, o) ≠ (1, sSMP_CTRL)) (hok : (s.storedWord a v).2 = false) :
    s.regPut via a v = s.setReg a (s.storedWord a v).1 := by
  unfold State.regPut
  simp only [hblock, hqe, hsmp, hok, false_and, if_false, Bool.false_eq_true]

/-- A range failure that a stop records changes no part but registers and records. -/
theorem State.onlyParts_raise (s : State) (st : Nat) (r : RecIn) : onlyParts [.regs, .recs] s (s.raise st r) := by
  rw [State.raise_bound]
  intro p hp
  cases p with
  | regs | recs => exact absurd hp (by decide)
  | _ => rfl

/-! ### DEFL_CTRL -/

section
variable (s : State) (v : Word32)

theorem fieldRules_deflCtrl : fieldRules (stopReg 0 sDEFL_CTRL) = [⟨1, sDEFL_CTRL, 1, 4, 4, 12, 0x10, 0xFFF, true⟩] := by
  decide

theorem rowAt_deflCtrl :
    rowAt rowsStop sDEFL_CTRL = some ⟨sDEFL_CTRL, 1, 4, 0x10001002, 0xFFFFFFFF, 0, 1, true, true⟩ := by
  decide

/-- DEFL_CTRL stores what is written, with STARVE_LIMIT at least 0x10 (R79). -/
theorem State.storedWord_deflCtrl : (s.storedWord (stopReg 0 sDEFL_CTRL) v).1
    = ((⟨1, sDEFL_CTRL, 1, 4, 4, 12, 0x10, 0xFFF, true⟩ : FieldRule).apply (s.reg (stopReg 0 sDEFL_CTRL)) (v, false)).1 := by
  have hrow : regRow (stopReg 0 sDEFL_CTRL) = _ := regRow_stopReg (st := 0) (by decide) rowAt_deflCtrl
  have hblock : regBlock (stopReg 0 sDEFL_CTRL) = _ := regBlock_stopReg (st := 0) (by decide)
  rw [s.storedWord_eq v hrow hblock (by decide), fieldRules_deflCtrl, RegRow.land_all _ _ (by decide),
    List.foldl_cons, List.foldl_nil]

/-- In CONFIGURED the value waits for the boundary that Hearth names; in any other state the write is ignored (R79). -/
theorem State.deflWrite_configured (hsafe : s.hsafe = false) (h : s.fabState = fabCONFIGURED) : s.deflWrite v
    = { s with frame := { s.frame with
        deflNxt := some ((s.storedWord (stopReg 0 sDEFL_CTRL) v).1, s.frame.frameCnt + 2) } } := by
  unfold State.deflWrite
  rw [if_neg (by rw [hsafe, h]; decide)]

theorem State.deflWrite_ignored (h : s.fabState ≠ fabCONFIGURED) : s.deflWrite v = s := if_pos (.inl h)

theorem State.onlyParts_deflWrite : onlyParts [.frame] s (s.keepReg (s.deflWrite v)) := by
  have hframe : onlyParts [.frame] s (s.deflWrite v) := by
    unfold State.deflWrite
    split
    · exact onlyParts_refl _ s
    · intro p hp
      cases p with
      | frame => exact absurd hp (by decide)
      | _ => rfl
  exact onlyParts_keepReg hframe

end

/-! ### Sampling -/

section
variable (s : State) (st : StopNo) (v : Word32)

theorem rowAt_smpCtrl : rowAt rowsStop sSMP_CTRL = some ⟨sSMP_CTRL, 1, 4, 0x2, 0x3FF, 0, 1, true, true⟩ := by
  decide

theorem stopRules_smpCtrl : stopRules.filter (fun f => f.at sSMP_CTRL)
    = [⟨1, sSMP_CTRL, 1, 4, 3, 3, 0, 4, false⟩, ⟨1, sSMP_CTRL, 1, 4, 6, 4, 0, 8, false⟩] := by
  decide

/-- EN lies below the fields of SMP_CTRL that keep a range. -/
theorem State.en_storedWord_smpCtrl :
    fieldOf (s.storedWord (stopReg st.val sSMP_CTRL) v).1 0 1 = fieldOf v 0 1 := by
  have hrules : fieldRules (stopReg st.val sSMP_CTRL) = stopRules.filter (fun f => f.at sSMP_CTRL) := by
    unfold fieldRules
    rw [regBlock_stopReg (by decide)]
    rfl
  rw [s.storedWord_eq v (regRow_stopReg (by decide) rowAt_smpCtrl) (regBlock_stopReg (by decide)) (by decide),
    hrules, stopRules_smpCtrl, List.foldl_cons, List.foldl_cons, List.foldl_nil,
    FieldRule.fieldOf_apply_below (by decide) _ _ (by decide),
    FieldRule.fieldOf_apply_below (by decide) _ _ (by decide), RegRow.fieldOf_land _ _ (by decide)]

/-- SMP_CTRL holds the word, EN among it, and the LFSR its seed (R495). -/
structure SamplingOn (s t : State) (st : Nat) : Prop where
  en : t.flag (stopReg st sSMP_CTRL) 0 = true
  seed : Tab.get (fun _ => 0) t.pmu.lfsr st = 1 + 256 * s.die + st
  parts : onlyParts [.regs, .recs, .pmu] s t

theorem onlyParts_lfsrSeed (a : Nat) : onlyParts [.pmu] s (s.lfsrSeed a) := by
  intro p hp
  cases p with
  | pmu => exact absurd hp (by decide)
  | _ => rfl

theorem State.reg_lfsrSeed (a b : Nat) : (s.lfsrSeed a).reg b = s.reg b := rfl

theorem State.get_lfsrSeed (a : Nat) : Tab.get (fun _ => 0) (s.lfsrSeed a).pmu.lfsr a = 1 + 256 * s.die + a :=
  Tab.get_set_same _ _ _ _

theorem State.die_setReg (a : Nat) (w : Word32) : (s.setReg a w).die = s.die := rfl

theorem samplingOn_of_word {w : Word32} (hw : fieldOf w 0 1 = 1) :
    SamplingOn s ((s.setReg (stopReg st.val sSMP_CTRL) w).lfsrSeed st.val) st.val where
  en := by
    unfold State.flag State.fld
    rw [State.reg_lfsrSeed, State.reg_setReg_same, hw]
    rfl
  seed := by rw [State.get_lfsrSeed, State.die_setReg]
  parts := onlyParts_trans (onlyParts_mono (onlyParts_setReg s _ w) (by decide))
    (onlyParts_mono (onlyParts_lfsrSeed _ _) (by decide))

/-- A range failure at a stop leaves the registers of sampling. -/
theorem State.reg_rangeFail_stop (t : State) (part : Option Nat) (a o : Nat) (ho : o < 0x4000)
    (hne : o ≠ sSTOP_ERR_STAT) :
    (t.rangeFail (some (st.val, part)) a).reg (stopReg st.val o) = t.reg (stopReg st.val o) := by
  have herr : stopReg st.val o ≠ gERR_STAT := by unfold stopReg gERR_STAT; omega
  have hstat : stopReg st.val o ≠ stopReg st.val sSTOP_ERR_STAT := by unfold stopReg; omega
  unfold State.rangeFail State.raise
  simp only
  split
  · rw [State.reg_setRecs, State.reg_congr (State.setRecBuf_regs _ _ _), State.reg_raiseFlag_other _ _ _ _ herr]
  · rw [State.reg_setRecs, State.reg_count_other _ _ _ _ _ _ hstat, State.reg_raiseFlag_other _ _ _ _ hstat,
      State.reg_raiseFlag_other _ _ _ _ herr]

theorem State.onlyParts_rangeFail_stop (t : State) (part : Option Nat) (a : Nat) :
    onlyParts [.regs, .recs] t (t.rangeFail (some (st.val, part)) a) :=
  onlyParts_trans (onlyParts_mono (onlyParts_setReg t _ _) (by decide)) (State.onlyParts_raise _ _ _)

theorem SamplingOn.rangeFail {t : State} (h : SamplingOn s t st.val) (part : Option Nat) (a : Nat) :
    SamplingOn s (t.rangeFail (some (st.val, part)) a) st.val where
  en := (State.flag_congr (State.reg_rangeFail_stop st t part a sSMP_CTRL (by decide) (by decide)) 0).trans h.en
  seed := by
    rw [State.onlyParts_rangeFail_stop st t part a .pmu (by decide)]
    exact h.seed
  parts := onlyParts_trans h.parts (onlyParts_mono (State.onlyParts_rangeFail_stop st t part a) (by decide))

theorem SamplingOn.keepReg {t : State} {a : Nat} (h : SamplingOn s t a) : SamplingOn s (s.keepReg t) a :=
  ⟨h.en, h.seed, onlyParts_keepReg h.parts⟩

/-- A write of SMP_CTRL with EN starts sampling, with or without a range failure in the word's other fields. -/
theorem samplingOn_regPut (hen : fieldOf v 0 1 = 1) :
    SamplingOn s (s.regPut (some (st.val, none)) (stopReg st.val sSMP_CTRL) v) st.val := by
  have hbit : bitOf v 0 = true := by unfold bitOf; rw [hen]; rfl
  have hst : (stopReg st.val sSMP_CTRL - 0x100000) / 0x4000 = st.val := by unfold stopReg sSMP_CTRL; omega
  have hne : ((1, sSMP_CTRL) : Nat × Nat) ≠ (1, sQE_CTRL) := by decide
  have hon := samplingOn_of_word s st ((s.en_storedWord_smpCtrl st v).trans hen)
  unfold State.regPut
  simp only [regBlock_stopReg (st := st) (o := sSMP_CTRL) (by decide), hst, hbit, hne, false_and, and_self, if_false,
    if_true]
  split
  · exact hon.rangeFail s st none _
  · exact hon

end
/-! ### The sample buffer -/

section
variable (s : State) (v : Word32)

/-- A write of SAMPLE_BUF_BASE stores the word. -/
theorem State.storedWord_bufBase : s.storedWord gSAMPLE_BUF_BASE v = (v, false) := by
  have hrow : regRow gSAMPLE_BUF_BASE = some ⟨gSAMPLE_BUF_BASE, 1, 4, 0, 0xFFFFFFFF, 0, 1, true, false⟩ := by decide
  have hrules : fieldRules gSAMPLE_BUF_BASE = [] := by decide
  rw [s.storedWord_eq v hrow (b := 0) rfl (by decide), hrules, RegRow.land_all _ _ (by decide)]
  rfl

/-- SIZE is held at 14 at the most (R502). -/
theorem State.storedWord_bufSize : (s.storedWord gSAMPLE_BUF_SIZE v).2 = false
    ∧ fieldOf (s.storedWord gSAMPLE_BUF_SIZE v).1 0 4 = min (fieldOf v 0 4) 14 := by
  have hrow : regRow gSAMPLE_BUF_SIZE = some ⟨gSAMPLE_BUF_SIZE, 1, 4, 0, 0xF, 0, 1, true, false⟩ := by decide
  have hrules : fieldRules gSAMPLE_BUF_SIZE = [⟨0, gSAMPLE_BUF_SIZE, 1, 4, 0, 4, 0, 14, true⟩] := by decide
  rw [s.storedWord_eq v hrow (b := 0) rfl (by decide), hrules, List.foldl_cons, List.foldl_nil]
  refine ⟨FieldRule.apply_clamp_ok _ _ rfl, ?_⟩
  rw [fieldOf_apply_clamp (f := ⟨0, gSAMPLE_BUF_SIZE, 1, 4, 0, 4, 0, 14, true⟩) (by decide) _ _ rfl
    (by decide) (by decide), RegRow.fieldOf_land _ _ (by decide)]
  exact Nat.max_eq_right (Nat.zero_le _)

/-- A register written, and the two ends of the buffer at 0. -/
def State.bufSet (a : Nat) (w : Word32) : State :=
  ((s.setReg a w).setFld gSAMPLE_HEAD 0 20 0).setFld gSAMPLE_TAIL 0 20 0

theorem State.bufSet_ends (a : Nat) (w : Word32) :
    (s.bufSet a w).fld gSAMPLE_HEAD 0 20 = 0 ∧ (s.bufSet a w).fld gSAMPLE_TAIL 0 20 = 0 := by
  unfold State.bufSet
  refine ⟨?_, State.fld_setFld_same _ _ 0 20 0 (by decide)⟩
  rw [State.fld_setFld_other _ _ _ _ _ _ _ _ (by decide)]
  exact State.fld_setFld_same _ _ 0 20 0 (by decide)

theorem State.reg_bufSet {a : Nat} (w : Word32) (hhead : a ≠ gSAMPLE_HEAD) (htail : a ≠ gSAMPLE_TAIL) :
    (s.bufSet a w).reg a = w := by
  unfold State.bufSet
  rw [State.reg_setFld_other _ _ _ _ _ _ htail, State.reg_setFld_other _ _ _ _ _ _ hhead, State.reg_setReg_same]

theorem State.onlyParts_bufSet (a : Nat) (w : Word32) : onlyParts [.regs] s (s.bufSet a w) :=
  onlyParts_trans (onlyParts_trans (onlyParts_setReg s _ _) (onlyParts_setReg _ _ _)) (onlyParts_setReg _ _ _)

theorem State.sampleBuf_base (via : Via) : s.sampleBuf via gSAMPLE_BUF_BASE v = s.bufSet gSAMPLE_BUF_BASE v := by
  unfold State.sampleBuf State.bufSet
  rw [s.regPut_of_other via v (b := 0) (o := gSAMPLE_BUF_BASE) rfl (by decide) (by decide)
    (congrArg Prod.snd (s.storedWord_bufBase v)), s.storedWord_bufBase]

theorem State.sampleBuf_size (via : Via) :
    s.sampleBuf via gSAMPLE_BUF_SIZE v = s.bufSet gSAMPLE_BUF_SIZE (s.storedWord gSAMPLE_BUF_SIZE v).1 := by
  unfold State.sampleBuf State.bufSet
  rw [s.regPut_of_other via v (b := 0) (o := gSAMPLE_BUF_SIZE) rfl (by decide) (by decide) (s.storedWord_bufSize v).1]

end

/-! ### The partition map -/

theorem State.ifOpen_of_open {s t : State} {a : Nat} (h : s.regOpen a = true) : s.ifOpen a t = s.keepReg t := if_pos h

/-- With WR, an unfrozen write of PMAP_ACC to the shadow bank sets the entry (R135). -/
theorem State.pmapWrite_shadow (s : State) (st : Nat) (v : Word32) (hwr : bitOf v 31 = true)
    (hbank : fieldOf v 12 1 ≠ s.pactive st) (hfree : s.cmtFrozen st 2 = false) : s.pmapWrite st v
      = (s.setReg (stopReg st sPMAP_ACC) (v &&& 0x1FFF)).setPmap st (fieldOf v 12 1) (fieldOf v 0 12)
          (fieldOf v 22 1 * 64 + fieldOf v 16 6) := by
  unfold State.pmapWrite
  simp only [hwr, hbank, hfree, Bool.not_true, Bool.false_eq_true, if_false]

section
variable (s t : State) (a b c v : Nat)

theorem State.pmap_keepReg : (s.keepReg t).pmap a b c = t.pmap a b c := rfl
theorem State.pmap_setReg (w : Word32) : (s.setReg v w).pmap a b c = s.pmap a b c := rfl
theorem State.reg_setPmap (d : Nat) : (s.setPmap a b c v).reg d = s.reg d := rfl

end

theorem onlyParts_setPmap (s : State) (st b part v : Nat) : onlyParts [.ni] s (s.setPmap st b part v) := by
  intro p hp
  cases p with
  | ni => exact absurd hp (by decide)
  | _ => rfl

/-! ### Counters -/

section
variable (s : State) (st : StopNo) (n : Fin 16)

theorem State.pmc_setPmc_same (a b v : Nat) : (s.setPmc a b v).pmc a b = v % 2 ^ 48 := Tab.get_set_same _ _ _ _

theorem State.pmc_setPmc_other {a b c d : Nat} (v : Nat) (h : c * 16 + d ≠ a * 16 + b) :
    (s.setPmc a b v).pmc c d = s.pmc c d := Tab.get_set_other _ _ _ _ _ h

theorem onlyParts_setPmc (a b v : Nat) : onlyParts [.pmu] s (s.setPmc a b v) := by
  intro p hp
  cases p with
  | pmu => exact absurd hp (by decide)
  | _ => rfl

/-- The state in which bits [47:32] of counter `n` have been latched (R491). -/
def State.pmcLatched (a b : Nat) : State :=
  { s with pmu := { s.pmu with latch := Tab.set (fun _ => 0) s.pmu.latch (a * 16 + b) (s.pmc a b / 2 ^ 32) } }

theorem State.latch_pmcLatched (a b : Nat) :
    Tab.get (fun _ => 0) (s.pmcLatched a b).pmu.latch (a * 16 + b) = s.pmc a b / 2 ^ 32 := Tab.get_set_same _ _ _ _

theorem onlyParts_pmcLatched (a b : Nat) : onlyParts [.pmu] s (s.pmcLatched a b) := by
  intro p hp
  cases p with
  | pmu => exact absurd hp (by decide)
  | _ => rfl

/-- The address of PMC_LO_n. -/
theorem pmcLo_eq : stopReg st.val (sPMC + 8 * n.val) = 0x100000 + st.val * 0x4000 + 0x3080 + 8 * n.val := by
  unfold stopReg sPMC
  omega

/-- A read of PMC_LO_n latches the counter's upper bits (R491). -/
theorem State.readWord32_pmcLo (dbg : Bool) :
    (s.readWord32 dbg (stopReg st.val (sPMC + 8 * n.val))).2 = s.pmcLatched st.val n.val := by
  have hn := n.isLt
  have ho : sPMC + 8 * n.val < 0x4000 := by unfold sPMC; omega
  have hts : stopReg st.val (sPMC + 8 * n.val) ≠ gTS_NOW_LO := by rw [pmcLo_eq]; unfold gTS_NOW_LO; omega
  have hkey : (stopReg st.val (sPMC + 8 * n.val) - 0x100000) / 0x4000 * 16 + (sPMC + 8 * n.val - sPMC) / 8
      = st.val * 16 + n.val := by
    rw [pmcLo_eq]
    unfold sPMC
    omega
  unfold State.readWord32
  simp only
  rw [if_neg hts, regBlock_stopReg ho]
  simp only
  rw [if_pos (by unfold sPMC; omega), hkey]
  rfl

end

/-! ### A read of one word in a packet -/

/-- The words of a read that lie past its last byte have no side effect. -/
theorem readWords_past {dbg : Bool} {lo hi n a : Nat} (s : State) (h : hi < a) :
    (readWords dbg lo hi n a s).2 = s := by
  induction n generalizing a with
  | zero => rfl
  | succ n ih =>
    unfold readWords
    simp only
    rw [if_neg (by omega)]
    exact ih (by omega)

/-- A read of one aligned word has that word's side effect alone. -/
theorem readWords_one {dbg : Bool} {lo n a : Nat} (s : State) (hlo : lo % 4 = 0) (ha : a % 4 = 0) (hle : a ≤ lo)
    (hlt : lo < a + 4 * n) : (readWords dbg lo (lo + 3) n a s).2 = (s.readWord32 dbg lo).2 := by
  induction n generalizing a with
  | zero => omega
  | succ n ih =>
    unfold readWords
    simp only
    rcases Nat.eq_or_lt_of_le hle with rfl | hbelow
    · rw [if_pos (by omega)]
      exact readWords_past _ (by omega)
    · rw [if_neg (by omega)]
      exact ih (by omega) (by omega) (by omega)

theorem ite_some_ite_some_eq_none_iff {α : Type} {a b : Prop} [Decidable a] [Decidable b] {x y : α} :
    (if a then some x else if b then some y else none) = none ↔ ¬a ∧ ¬b := by
  by_cases ha : a
  · simp [ha]
  · simp [ha]

/-- An access meets no refusal that a wider one does not meet. -/
theorem State.regRefusal_none_of_subset {s : State} {h : Slot} {as bs : List Nat} (hsub : ∀ a ∈ as, a ∈ bs)
    (hnone : s.regRefusal h bs = none) : s.regRefusal h as = none := by
  have hany (f : Nat → Bool) (hf : ¬ bs.any f = true) : ¬ as.any f = true := by
    simp only [List.any_eq_true, not_exists, not_and] at hf ⊢
    exact fun a ha => hf a (hsub a ha)
  unfold State.regRefusal at hnone ⊢
  rw [ite_some_ite_some_eq_none_iff] at hnone ⊢
  exact ⟨hany _ hnone.1, hany _ hnone.2⟩

section
variable (s : State) (st port : Nat) (p : Pkt) (ctx : Option Nat) (resend : Bool)

theorem State.pmu_mapCtx (part : Nat) : (s.mapCtx st part).2.pmu = s.pmu := by
  unfold State.mapCtx
  simp only
  split
  · rfl
  · rw [State.count_pmu, State.raiseFlag_pmu]

theorem State.pmu_enterQueue (q : Nat) (m : QMark) : (s.enterQueue st q port p resend m).pmu = s.pmu := by
  unfold State.enterQueue State.hwmUpdate
  simp only
  split
  · rw [State.setFld_pmu, State.setInjq_pmu]
  · rw [State.setInjq_pmu]

theorem State.pmu_offer : (s.offer st port p ctx resend).pmu = s.pmu := by
  unfold State.offer State.offerOn
  cases ctx with
  | some c =>
    simp only
    split
    · exact State.pmu_enterQueue s _ _ _ _ _ _
    · rfl
  | none =>
    simp only
    split
    · exact (State.pmu_enterQueue _ _ _ _ _ _ _).trans (State.pmu_mapCtx s st _)
    · rfl

theorem State.inbox_offer (a b : Nat) : (s.offer st port p ctx resend).inbox a b = s.inbox a b :=
  congrArg (fun t => Tab.get (fun _ => []) t (a * 4 + b))
    (State.offer_ni_keeps (g := NiSt.inbox) (fun _ _ _ _ => rfl) s st port p ctx resend)

end

/-- Port 3 answers a read of one register that nothing refuses, and the read's side effect stands (R505). -/
theorem State.regReadPkt_one {s : State} {st lo : Nat} {p : Pkt} (haddr : (Pkt.head p).addr % 2 ^ 26 = lo)
    (hlo : lo % 4 = 0) (hrlen : (Pkt.head p).rlen = 3) (hplen : (Pkt.head p).plen = 0)
    (hnone : s.regRefusal (Pkt.head p) [lo] = none) : ∃ r, s.regReadPkt st p
      = ((s.readWord32 (s.debugSrc (Pkt.head p)) lo).2.port3Take st p).offer st 3 r none false := by
  have hread : (readWords (s.debugSrc (Pkt.head p)) lo (lo + 3) 16 (lo / 64 * 64) s).2
      = (s.readWord32 (s.debugSrc (Pkt.head p)) lo).2 :=
    readWords_one s hlo (by omega) (by omega) (by omega)
  rw [← hread]
  unfold State.regReadPkt
  simp only [haddr, hrlen, hplen]
  rw [State.regRefusal_none_of_subset (fun a ha => ?_) hnone]
  · exact ⟨_, rfl⟩
  · simp only [List.mem_filter, List.mem_map, Bool.and_eq_true, decide_eq_true_eq] at ha
    obtain ⟨⟨j, _, rfl⟩, hfrom, hto⟩ := ha
    exact List.mem_singleton.mpr (by omega)

/-- The oldest access of port 3 leaves it. -/
theorem State.inbox_port3Take {s : State} {st : Nat} {p : Pkt} {d : Deliv} {rest : List Deliv}
    (h : s.inbox st 3 = d :: rest) (hd : d.slots = p) : (s.port3Take st p).inbox st 3 = rest := by
  unfold State.port3Take
  rw [State.inbox_setInbox_same, h, List.eraseP_cons_of_pos (by rw [hd, beq_self_eq_true])]

theorem State.inbox_congr {s t : State} (h : t.ni = s.ni) (a b : Nat) : t.inbox a b = s.inbox a b := by
  unfold State.inbox
  rw [h]

/-- A read of PMC_LO_n that is the oldest access of its port latches the counter and leaves the port. -/
theorem completes_pmcRead_packet {st : StopNo} {n : Fin 16} {p : Pkt} {s : State} {d : Deliv} {rest : List Deliv}
    (hfab : s.fabState ≠ fabFAILED) (hin : s.inbox st.val 3 = d :: rest) (hd : d.slots = p)
    (hopc : (Pkt.head p).opc = opRD ∨ (Pkt.head p).opc = opRD_NC)
    (haddr : (Pkt.head p).addr % 2 ^ 26 = stopReg st.val (sPMC + 8 * n.val)) (hrlen : (Pkt.head p).rlen = 3)
    (hplen : (Pkt.head p).plen = 0)
    (hnone : s.regRefusal (Pkt.head p) [stopReg st.val (sPMC + 8 * n.val)] = none) :
    completes (.pmcRead st n (some p)) s (fun t =>
      Tab.get (fun _ => 0) t.pmu.latch (st.val * 16 + n.val) = s.pmc st.val n.val / 2 ^ 32
      ∧ t.pmc st.val n.val = s.pmc st.val n.val ∧ t.inbox st.val 3 = rest) := by
  have hst := st.isLt
  have hn := n.isLt
  have hlo := pmcLo_eq st n
  have hread : isRegRead p = true := by
    unfold isRegRead
    simp only [haddr, Bool.and_eq_true, Bool.or_eq_true, beq_iff_eq, decide_eq_true_eq]
    exact ⟨hopc, by omega⟩
  have hfirst : s.port3First st.val p = true := by
    unfold State.port3First
    rw [hin]
    simp only [List.head?_cons, Option.map_some, hd, Bool.and_eq_true, bne_iff_ne, beq_self_eq_true, and_true]
    exact hfab
  obtain ⟨r, hpkt⟩ := State.regReadPkt_one (st := st.val) haddr (by omega) hrlen hplen hnone
  have hexec : exec (.pmcRead st n (some p)) s = .next (s.keepReg (s.regReadPkt st.val p)) :=
    if_pos (by rw [hread, hfirst]; rfl)
  rw [State.readWord32_pmcLo] at hpkt
  have hpmu : (s.regReadPkt st.val p).pmu = (s.pmcLatched st.val n.val).pmu := by
    rw [hpkt]
    exact State.pmu_offer _ _ _ _ _ _
  refine ⟨_, hexec, ?_, ?_, ?_⟩
  · rw [State.keepReg_pmu, hpmu]
    exact State.latch_pmcLatched s _ _
  · exact congrArg (fun v => Tab.get (fun _ => 0) v.pmc _) hpmu
  · rw [State.inbox_congr (State.keepReg_ni s _), hpkt, State.inbox_offer]
    exact State.inbox_port3Take (s := s.pmcLatched st.val n.val) hin hd

/-! ### The commands -/

section
variable (s : State) (st : StopNo) (n : Fin 16) (v : Word32)

theorem State.pmc_keepReg (t : State) (a b : Nat) : (s.keepReg t).pmc a b = t.pmc a b := rfl

/-- A write of a counter takes its upper bits from the holding register (R491). -/
theorem completes_pmcLoad : completes (.pmcLoad st n v) s (fun t =>
    t.pmc st.val n.val = v.toNat + Tab.get (fun _ => 0) s.pmu.hold (st.val * 16 + n.val) % 2 ^ 16 * 2 ^ 32
    ∧ (∀ m, m < 16 → m ≠ n.val → t.pmc st.val m = s.pmc st.val m) ∧ onlyParts [.pmu] s t) := by
  have hv := v.isLt
  refine ⟨_, rfl, ?_, fun m _ hm => ?_, onlyParts_keepReg (onlyParts_setPmc s _ _ _)⟩
  · rw [State.pmc_keepReg, State.pmcLoad, State.pmc_setPmc_same, Nat.mod_eq_of_lt (by omega)]
  · rw [State.pmc_keepReg, State.pmcLoad, State.pmc_setPmc_other s _ (by omega)]

/-- A read of PMC_LO_n over the test access path, outside reset. -/
theorem completes_pmcRead_test (hrst : s.her.rstLow = false) : completes (.pmcRead st n none) s (fun t =>
    Tab.get (fun _ => 0) t.pmu.latch (st.val * 16 + n.val) = s.pmc st.val n.val / 2 ^ 32
    ∧ t.pmc st.val n.val = s.pmc st.val n.val ∧ onlyParts [.pmu] s t) := by
  have hexec : exec (.pmcRead st n none) s = .next (s.keepReg (s.pmcLatched st.val n.val)) := by
    rw [← State.readWord32_pmcLo s st n true]
    exact congrArg _ (if_neg (by rw [hrst]; decide))
  exact ⟨_, hexec, State.latch_pmcLatched s _ _, rfl, onlyParts_keepReg (onlyParts_pmcLatched s _ _)⟩

theorem completes_sampleEnable : completes (.sampleEnable st v) s (fun t =>
    t.flag (stopReg st.val sSMP_CTRL) 0 = true
    ∧ Tab.get (fun _ => 0) t.pmu.lfsr st.val = 1 + 256 * s.die + st.val ∧ onlyParts [.regs, .recs, .pmu] s t) := by
  have hon := (samplingOn_regPut s st (withField v 0 1 1) (fieldOf_withField _ _ _ _ (by decide))).keepReg
  exact ⟨_, rfl, hon.en, hon.seed, hon.parts⟩

theorem execSampleBufConfig_base : exec (.sampleBufConfig true v) s
    = .next (s.keepReg (s.bufSet gSAMPLE_BUF_BASE v)) := by
  rw [← s.sampleBuf_base v (some (hearthStop, none))]
  rfl

theorem execSampleBufConfig_size : exec (.sampleBufConfig false v) s
    = .next (s.keepReg (s.bufSet gSAMPLE_BUF_SIZE (s.storedWord gSAMPLE_BUF_SIZE v).1)) := by
  rw [← s.sampleBuf_size v (some (hearthStop, none))]
  rfl

/-- A write of either register of the sample buffer empties it (R502). -/
theorem completes_sampleBufConfig (base : Bool) : completes (.sampleBufConfig base v) s (fun t =>
    t.fld gSAMPLE_HEAD 0 20 = 0 ∧ t.fld gSAMPLE_TAIL 0 20 = 0
    ∧ (base = true → t.reg gSAMPLE_BUF_BASE = v)
    ∧ (base = false → t.fld gSAMPLE_BUF_SIZE 0 4 = min (fieldOf v 0 4) 14) ∧ onlyParts [.regs] s t) := by
  cases base with
  | true =>
    refine ⟨_, execSampleBufConfig_base s v, ?_⟩
    beta_reduce
    rw [State.fld_keepReg, State.fld_keepReg, State.reg_keepReg]
    obtain ⟨hhead, htail⟩ := s.bufSet_ends gSAMPLE_BUF_BASE v
    exact ⟨hhead, htail, fun _ => s.reg_bufSet v (by decide) (by decide), nofun,
      onlyParts_keepReg (s.onlyParts_bufSet _ v)⟩
  | false =>
    refine ⟨_, execSampleBufConfig_size s v, ?_⟩
    beta_reduce
    rw [State.fld_keepReg, State.fld_keepReg, State.fld_keepReg]
    obtain ⟨hhead, htail⟩ := s.bufSet_ends gSAMPLE_BUF_SIZE (s.storedWord gSAMPLE_BUF_SIZE v).1
    refine ⟨hhead, htail, nofun, fun _ => ?_, onlyParts_keepReg (s.onlyParts_bufSet _ _)⟩
    rw [← (s.storedWord_bufSize v).2, State.fld, s.reg_bufSet _ (by decide) (by decide)]

/-- A write of an entry to the shadow bank of a powered stop (R115, R135). -/
theorem completes_pmapEntryWrite (hopen : s.regOpen (stopReg st.val sPMAP_ACC) = true) (hwr : bitOf v 31 = true)
    (hbank : fieldOf v 12 1 ≠ s.pactive st.val) (hfree : s.cmtFrozen st.val 2 = false) :
    completes (.pmapEntryWrite st v) s (fun t =>
      t.pmap st.val (fieldOf v 12 1) (fieldOf v 0 12) = fieldOf v 22 1 * 64 + fieldOf v 16 6
      ∧ (∀ q, q < 4096 → q ≠ fieldOf v 0 12 → t.pmap st.val (fieldOf v 12 1) q = s.pmap st.val (fieldOf v 12 1) q)
      ∧ regsBut [stopReg st.val sPMAP_ACC] s t ∧ onlyParts [.regs, .ni] s t) := by
  have hexec : exec (.pmapEntryWrite st v) s = .next (s.keepReg (s.pmapWrite st.val v)) := by
    rw [← State.ifOpen_of_open hopen]
    rfl
  rw [State.pmapWrite_shadow s st.val v hwr hbank hfree] at hexec
  refine ⟨_, hexec, ?_, fun q _ hq => ?_, fun a ha => ?_, ?_⟩
  · rw [State.pmap_keepReg, State.pmap_setPmap_same]
  · rw [State.pmap_keepReg, State.pmap_setPmap_other _ _ _ _ _ _ _ _ (by omega), State.pmap_setReg]
  · rw [State.reg_keepReg, State.reg_setPmap, State.reg_setReg_other s _ a _ (List.ne_of_not_mem_cons ha)]
  · exact onlyParts_keepReg (onlyParts_trans (onlyParts_mono (onlyParts_setReg s _ _) (by decide))
      (onlyParts_mono (onlyParts_setPmap _ _ _ _ _) (by decide)))

/-- In CONFIGURED a value of DEFL_CTRL waits for its boundary, with STARVE_LIMIT at least 0x10 (R79). -/
theorem completes_deflCtrlWrite (hsafe : s.hsafe = false) : completes (.deflCtrlWrite v) s (fun t =>
    (s.fabState = fabCONFIGURED → ∃ w n, t.frame.deflNxt = some (w, n) ∧ fieldOf w 0 4 = fieldOf v 0 4
      ∧ fieldOf w 16 16 = fieldOf v 16 16 ∧ fieldOf w 4 12 = max (fieldOf v 4 12) 0x10)
    ∧ (s.fabState ≠ fabCONFIGURED → t.frame.deflNxt = s.frame.deflNxt)
    ∧ t.frame.fpos = s.frame.fpos ∧ onlyParts [.frame] s t) := by
  refine ⟨_, rfl, fun hconf => ?_, fun hconf => ?_, rfl, State.onlyParts_deflWrite s v⟩
  · rw [State.deflWrite_configured s v hsafe hconf, State.storedWord_deflCtrl]
    have hfit : 4 + 12 ≤ 32 := by decide
    refine ⟨_, _, rfl, ?_, ?_, ?_⟩
    · exact FieldRule.fieldOf_apply_below hfit _ _ (by decide)
    · exact FieldRule.fieldOf_apply_above hfit _ _ (by decide)
    · rw [fieldOf_apply_clamp (f := ⟨1, sDEFL_CTRL, 1, 4, 4, 12, 0x10, 0xFFF, true⟩) hfit _ _ rfl
        (by decide) (by decide), Nat.min_eq_left (Nat.le_of_lt_succ (fieldOf_lt v 4 12)), Nat.max_comm]
  · rw [State.deflWrite_ignored s v hconf]
    rfl

end

/-- Settles O35, command by command. The boundary that DEFL_CTRL_WRITE names is the second from now (log entry 124). -/
theorem countersAndSamplesAreSetUp : Obligations.CountersAndSamplesAreSetUp := by
  unfold Obligations.CountersAndSamplesAreSetUp
  exact ⟨fun st n v s => completes_pmcLoad s st n v, fun st n s hrst => ⟨s, congrArg _ (if_pos hrst), rfl⟩,
    fun st n s hrst => completes_pmcRead_test s st n hrst,
    fun st n p s d rest hfab hin hd hopc haddr hrlen hplen hnone =>
      completes_pmcRead_packet hfab hin hd hopc haddr hrlen hplen hnone,
    fun st v s => completes_sampleEnable s st v, fun base v s => completes_sampleBufConfig s v base,
    fun st v s hopen hwr hbank hfree => completes_pmapEntryWrite s st v hopen hwr hbank hfree,
    fun v s hsafe => completes_deflCtrlWrite s v hsafe⟩

end Sys2Proof.Machine

end

section
/-! PROOFS. A die-to-die port (R377 to R380, R382, R383, R402, R454): what it sends, takes and lets expire. -/
namespace Sys2Proof.Machine
open Sys2Proof

/-! ### Parts of the state and registers of a port -/

/-- A further step that changes no part but those already named. -/
theorem onlyParts_step {ps qs : List Part} {s t u : State} (h : onlyParts ps s t) (k : onlyParts qs t u)
    (hs : qs ⊆ ps := by decide) : onlyParts ps s u := onlyParts_trans h (onlyParts_mono k hs)

theorem State.onlyParts_setDp (s : State) (p : Nat) (v : DpSt) : onlyParts [.d2d] s (s.setDp p v) :=
  onlyParts_setD2d s _

theorem State.onlyParts_count (s : State) (a lo w n : Nat) : onlyParts [.regs] s (s.count a lo w n) :=
  onlyParts_setReg s _ _

theorem State.onlyParts_raiseFlag (s : State) (a i : Nat) : onlyParts [.regs] s (s.raiseFlag a i) :=
  onlyParts_setReg s _ _

/-- A record changes no register but the stop's error state. -/
theorem State.reg_raise_other (s : State) (st : Nat) (r : RecIn) {a : Nat} (h : a ≠ stopReg st sSTOP_ERR_STAT) :
    (s.raise st r).reg a = s.reg a := by
  unfold State.raise
  simp only
  split
  · rw [State.reg_setRecs, State.reg_congr (State.setRecBuf_regs s st _)]
  · rw [State.reg_setRecs, State.reg_count_other _ _ _ _ _ _ h, State.reg_raiseFlag_other _ _ _ _ h]

theorem State.d2d_raise (s : State) (st : Nat) (r : RecIn) : (s.raise st r).d2d = s.d2d := by
  rw [State.raise_bound]

theorem State.dp_congr {s t : State} (h : t.d2d = s.d2d) (p : Nat) : t.dp p = s.dp p := by
  unfold State.dp; rw [h]

section
variable (s : State) (p k n a : Nat)

@[simp] theorem State.dp_dpCnt (q : Nat) : (s.dpCnt p k n).dp q = s.dp q := State.dp_congr (State.count_d2d s _ _ _ _) q

@[simp] theorem State.dp_raiseFlag (q : Nat) : (s.raiseFlag p k).dp q = s.dp q :=
  State.dp_congr (State.raiseFlag_d2d s _ _) q

@[simp] theorem State.dp_raise (r : RecIn) (q : Nat) : (s.raise p r).dp q = s.dp q :=
  State.dp_congr (State.d2d_raise s _ _) q

@[simp] theorem State.dp_keepPw (t : State) : (s.keepPw t).dp p = t.dp p := rfl

theorem State.fld_keepPw (t : State) (lo w : Nat) : (s.keepPw t).fld a lo w = t.fld a lo w := rfl

theorem State.fld_setDp (v : DpSt) (lo w : Nat) : (s.setDp p v).fld a lo w = s.fld a lo w := rfl

theorem State.onlyParts_dpCnt : onlyParts [.regs] s (s.dpCnt p k n) := State.onlyParts_count s _ _ _ _

theorem State.fld_dpCnt_same :
    (s.dpCnt p k n).fld (dpReg p (dCNT + 4 * k)) 0 32 = satAdd 32 (s.fld (dpReg p (dCNT + 4 * k)) 0 32) n :=
  State.fld_count s _ _ _ _ (by decide)

theorem State.reg_dpCnt_other (h : a ≠ dpReg p (dCNT + 4 * k)) : (s.dpCnt p k n).reg a = s.reg a :=
  State.reg_count_other s _ _ _ _ _ h

/-- A record of a port changes no register of the ports. -/
theorem State.reg_dpRaise_port (ha : 0x400000 ≤ a) : (s.dpRaise p k n).reg a = s.reg a :=
  State.reg_raise_other _ _ _ (ne_stopReg (dpStop_lt p) ha (by decide))

theorem State.onlyParts_dpRaise : onlyParts [.regs, .recs] s (s.dpRaise p k n) := State.onlyParts_raise s _ _

end

theorem State.fld_congr {s t : State} {a : Nat} (h : t.reg a = s.reg a) (lo w : Nat) : t.fld a lo w = s.fld a lo w := by
  unfold State.fld; rw [h]

/-- What is added at one place of a list of counts is found there. -/
theorem getD_set_same {l : List Nat} {c : Nat} (v : Nat) (h : c < l.length) : (l.set c v).getD c 0 = v := by
  rw [List.getD_eq_getElem _ _ (by rwa [List.length_set]), List.getElem_set_self]

/-- A count that is spent is one less, and the others stay; one that the list does not hold is 0 before and after. -/
theorem getD_set_pred (l : List Nat) (c b : Nat) :
    (l.set c (l.getD c 0 - 1)).getD b 0 = l.getD b 0 - (if c = b then 1 else 0) := by
  by_cases hb : b < l.length
  · rw [List.getD_eq_getElem _ _ (by rwa [List.length_set]), List.getElem_set, List.getD_eq_getElem _ _ hb]
    split
    case isTrue h => subst h; rw [List.getD_eq_getElem _ _ hb]
    case isFalse => rfl
  · rw [List.getD_eq_default _ _ (by rw [List.length_set]; omega), List.getD_eq_default _ _ (by omega), Nat.zero_sub]

/-! ### Closing a pair -/

/-- The port as ROTATE to `set` leaves it; `now` is Hearth's count of hc. -/
def DpSt.rotated (d : DpSt) (set now : Nat) : DpSt :=
  { d with
    credit := d.credit.set 7 (d.credit.getD 7 0 - 1)
    rotate := none
    window := d.window.map (fun w => if bitOf (BitVec.ofNat 4 set) w.m then w
      else { w with sent := true, sentAt := now }) }

/-- The first class that is owed any credit, and what of it one pair returns. -/
def DpSt.owedCls (d : DpSt) : Nat := ((List.range 8).find? (fun c => 0 < d.owed.getD c 0)).getD 0
def DpSt.owedNum (d : DpSt) : Nat := min (d.owed.getD d.owedCls 0) 255

theorem DpSt.owedCls_lt (d : DpSt) : d.owedCls < 8 := by
  unfold DpSt.owedCls
  cases h : (List.range 8).find? (fun c => 0 < d.owed.getD c 0) with
  | none => decide
  | some c => exact List.mem_range.mp (List.mem_of_find?_eq_some h)

/-- The port once a pair of the slots `xs` stands on the FDI; `set` is a new set of modules. -/
def DpSt.paired (d : DpSt) (set : Option Nat) (xs : List Slot) : DpSt :=
  { d with
    owed := d.owed.set d.owedCls (d.owed.getD d.owedCls 0 - d.owedNum)
    granted := d.granted.set d.owedCls (d.granted.getD d.owedCls 0 + d.owedNum)
    modRot := nextModule d.modsTx d.modRot
    modsTx := set.getD d.modsTx
    tx := some (mkPair xs d.owedCls d.owedNum) }

/-- The pair of the slots `xs` is driven, unless it would carry neither slot nor credit. -/
def State.closePair (s : State) (p : Nat) (set : Option Nat) (xs : List Slot) : State :=
  if xs.isEmpty ∧ (s.dp p).owedNum = 0 then s
  else
    let t := (s.setDp p ((s.dp p).paired set xs)).dpCnt p 0 xs.length
    if xs.isEmpty then t.dpCnt p 7 1 else t

section
variable {s u : State} {p : Nat} {x : Slot} {xs : List Slot} {set : Option Nat}

theorem State.sendPair_plain (hrot : (s.dp p).rotate = none)
    (hgather : gatherPair (5 + (s.dp p).egress.length) p 5 [] s = (xs, u)) : s.sendPair p = u.closePair p none xs := by
  have hout : s.rotateOut p = ([], s) := by
    unfold State.rotateOut
    simp only [hrot]
  unfold State.sendPair
  simp only [hout, List.length_nil, Nat.sub_zero, hgather]
  rfl

theorem State.sendPair_rotate {v : State} (hout : s.rotateOut p = ([x], v))
    (hgather : gatherPair (5 + (v.dp p).egress.length) p 4 [x] v = (xs, u)) :
    s.sendPair p = u.closePair p (some (fieldOf x.ext 30 4)) xs := by
  unfold State.sendPair
  simp only [hout, List.length_singleton, hgather]
  rfl

theorem State.closePair_nothing (hn : (s.dp p).owedNum = 0) : s.closePair p set [] = s := if_pos ⟨rfl, hn⟩

theorem State.closePair_credit (hn : 0 < (s.dp p).owedNum) :
    s.closePair p set [] = ((s.setDp p ((s.dp p).paired set [])).dpCnt p 0 0).dpCnt p 7 1 :=
  if_neg (fun h => hn.ne' h.2)

theorem State.closePair_slots (hxs : xs ≠ []) :
    s.closePair p set xs = (s.setDp p ((s.dp p).paired set xs)).dpCnt p 0 xs.length := by
  cases xs with
  | nil => exact absurd rfl hxs
  | cons x xs => rfl

/-- Driving a pair changes registers and the port. -/
theorem State.onlyParts_closePair : onlyParts [.regs, .d2d] s (s.closePair p set xs) := by
  have hport : onlyParts [.regs, .d2d] s (s.setDp p ((s.dp p).paired set xs)) :=
    onlyParts_mono (s.onlyParts_setDp p _) (by decide)
  have hdriven := onlyParts_step hport (State.onlyParts_dpCnt _ p 0 xs.length)
  unfold State.closePair
  simp only
  split
  · exact onlyParts_refl _ s
  · split
    · exact onlyParts_step hdriven (State.onlyParts_dpCnt _ p 7 1)
    · exact hdriven

/-! ### Gathering slots -/

/-- An empty egress buffer has nothing to send. -/
theorem DpSt.nextSend_empty {d : DpSt} (h : d.egress = []) : d.nextSend = none := by
  unfold DpSt.nextSend
  rw [h]
  exact List.findSome?_eq_none_iff.mpr (fun _ _ => rfl)

theorem gatherPair_none (fuel room : Nat) (acc : List Slot) (h : (s.dp p).nextSend = none) :
    gatherPair fuel p room acc s = (acc, s) := by
  cases fuel with
  | zero => rfl
  | succ fuel =>
    unfold gatherPair
    rw [h]
    exact ite_self _

theorem gatherPair_good {fuel room c : Nat} {e : EgEnt} (acc : List Slot) (h : (s.dp p).nextSend = some (c, e))
    (hcrc : e.slot.crcOk = true) : gatherPair (fuel + 1) p (room + 1) acc s
      = gatherPair fuel p room (acc ++ [e.slot]) (s.egLeave p c e) := by
  rw [gatherPair, if_neg (Nat.succ_ne_zero room), h]
  simp only [hcrc, if_true]
  rfl

/-- A slot of the local part leaves the buffer and spends a credit of its class. -/
theorem State.egLeave_local {c : Nat} {e : EgEnt} (h : e.transit = false) : s.egLeave p c e = s.setDp p
    { s.dp p with
      egress := (s.dp p).egress.erase e
      clsRot := c
      credit := if c < 8 then (s.dp p).credit.set c ((s.dp p).credit.getD c 0 - 1) else (s.dp p).credit
      rsvIn := if e.slot.reserves then (s.dp p).rsvIn ++ [e.slot.rsvOf (s.rsvDue p e.slot)] else (s.dp p).rsvIn
      rsvEg := if c = 8 then rsvPass e.slot (s.dp p).rsvEg else (s.dp p).rsvEg } := by
  unfold State.egLeave
  simp only
  exact if_neg (fun hc => by rw [h] at hc; exact absurd hc.1 (by decide))

end

/-! ### The ROTATE slot -/

/-- A field of packed fields is the one that was packed there. -/
theorem fieldOf_packFields {n i lo x w : Nat} {l : List (Nat × Nat)} (hi : l[i]? = some (x, w))
    (hlo : ((l.take i).map (·.2)).sum = lo) (hn : lo + w ≤ n) :
    fieldOf (BitVec.ofNat n (packFields l)) lo w = x % 2 ^ w := by
  have hpack : ∀ (l : List (Nat × Nat)) (i : Nat), l[i]? = some (x, w) →
      packFields l / 2 ^ ((l.take i).map (·.2)).sum % 2 ^ w = x % 2 ^ w := by
    intro l
    induction l with
    | nil => intro i hi; exact absurd hi (by simp)
    | cons f rest ih =>
      intro i hi
      obtain ⟨y, b⟩ := f
      have hy : y % 2 ^ b < 2 ^ b := Nat.mod_lt _ (Nat.two_pow_pos b)
      cases i with
      | zero =>
        obtain ⟨rfl, rfl⟩ : y = x ∧ b = w := by simpa using hi
        simp [packFields]
      | succ i =>
        rw [List.take_succ_cons, List.map_cons, List.sum_cons, Nat.pow_add, ← Nat.div_div_eq_div_mul]
        simp only [packFields]
        rw [Nat.add_mul_div_right _ _ (Nat.two_pow_pos b), Nat.div_eq_of_lt hy, Nat.zero_add]
        exact ih i hi
  rw [fieldOf_eq, BitVec.toNat_ofNat]
  have hsplit : 2 ^ n = 2 ^ lo * 2 ^ (n - lo) := by rw [← Nat.pow_add]; congr 1; omega
  have hdvd : 2 ^ w ∣ 2 ^ (n - lo) := Nat.pow_dvd_pow 2 (by omega)
  rw [hsplit, Nat.mod_mul_right_div_self, Nat.mod_mod_of_dvd _ hdvd, ← hlo]
  exact hpack l i hi

section
variable (h : HdrIn) (plen pseq : Nat)

theorem HdrIn.dstop_bits : fieldOf (h.bits plen pseq) 18 8 = h.dstop % 2 ^ 8 :=
  fieldOf_packFields (n := 160) (lo := 18) (w := 8) (i := 4) rfl rfl (by decide)

theorem HdrIn.dport_bits : fieldOf (h.bits plen pseq) 26 2 = h.dport % 2 ^ 2 :=
  fieldOf_packFields (n := 160) (lo := 26) (w := 2) (i := 5) rfl rfl (by decide)

theorem HdrIn.cls_bits : fieldOf (h.bits plen pseq) 42 3 = h.cls % 2 ^ 3 :=
  fieldOf_packFields (n := 160) (lo := 42) (w := 3) (i := 9) rfl rfl (by decide)

theorem HdrIn.opc_bits : fieldOf (h.bits plen pseq) 45 6 = h.opc % 2 ^ 6 :=
  fieldOf_packFields (n := 160) (lo := 45) (w := 6) (i := 10) rfl rfl (by decide)

end

section
variable (die st peer set : Nat)

theorem cls_rotateSlot : (rotateSlot die st peer set).cls = clsMGMT := HdrIn.cls_bits _ 0 0

theorem opc_rotateSlot : (rotateSlot die st peer set).opc = opMG_UNI := HdrIn.opc_bits _ 0 0

theorem dport_rotateSlot : (rotateSlot die st peer set).dport = 3 := HdrIn.dport_bits _ 0 0

theorem dstop_rotateSlot (h : peer < 192) : (rotateSlot die st peer set).dstop = peer :=
  (HdrIn.dstop_bits _ 0 0).trans (Nat.mod_eq_of_lt (Nat.lt_trans h (by decide)))

theorem ext_rotateSlot : (rotateSlot die st peer set).ext = seqExt 0 0 (packFields [(0, 16), (0xC, 4), (set, 4)]) := rfl

/-- The slot names itself a ROTATE at the stop it is sent to, and carries the new set (R454). -/
theorem isRotate_rotateSlot (h : peer < 192) : isRotate peer (rotateSlot die st peer set) = true := by
  have hkind : fieldOf (rotateSlot die st peer set).ext 26 4 = 0xC := by
    rw [ext_rotateSlot, seqExt, fieldOf_eq, BitVec.toNat_ofNat]
    simp only [packFields]
    omega
  unfold isRotate
  rw [cls_rotateSlot, opc_rotateSlot, dport_rotateSlot, dstop_rotateSlot _ _ _ _ h, hkind]
  simp

theorem set_rotateSlot (h : set < 16) : fieldOf (rotateSlot die st peer set).ext 30 4 = set := by
  rw [ext_rotateSlot, seqExt, fieldOf_eq, BitVec.toNat_ofNat]
  simp only [packFields]
  omega

theorem ccls_rotateSlot : (rotateSlot die st peer set).ccls = 7 := by
  unfold Slot.ccls
  rw [cls_rotateSlot]
  rfl

end

/-! ### Sending -/

section
variable {p : DpNo} {s : State}

theorem exec_flitPairSend (hup : s.dpUp p.val = true) (hmods : (s.dp p.val).modsTx ≠ 0) :
    exec (.flitPairSend p) s = .next (s.keepPw (s.sendPair p.val)) := if_pos ⟨hup, hmods⟩

/-- The pair that `closePair` drives is the command's next state. -/
theorem completes_flitPairSend {P : State → Prop} {t : State} (hup : s.dpUp p.val = true)
    (hmods : (s.dp p.val).modsTx ≠ 0) (ht : s.sendPair p.val = t) (hP : P (s.keepPw t)) :
    completes (.flitPairSend p) s P := ⟨_, exec_flitPairSend hup hmods, by rwa [ht]⟩

/-- No slot may go and no credit is owed: nothing happens. Credit is owed: a pair without slots returns it. -/
theorem completes_flitPairSend_credit (hup : s.dpUp p.val = true) (hmods : (s.dp p.val).modsTx ≠ 0)
    (hrot : (s.dp p.val).rotate = none) (hnone : (s.dp p.val).nextSend = none) :
    ((s.dp p.val).owedNum = 0 → completes (.flitPairSend p) s (fun t => t = s))
    ∧ (0 < (s.dp p.val).owedNum → completes (.flitPairSend p) s (fun t =>
        t.dp p.val = (s.dp p.val).paired none []
        ∧ t.fld (dpReg p.val (dCNT + 28)) 0 32 = satAdd 32 (s.fld (dpReg p.val (dCNT + 28)) 0 32) 1
        ∧ onlyParts [.regs, .d2d] s t)) := by
  have hsend := State.sendPair_plain hrot (gatherPair_none _ 5 [] hnone)
  refine ⟨fun hn => completes_flitPairSend hup hmods (hsend.trans (State.closePair_nothing hn)) rfl,
    fun hn => completes_flitPairSend hup hmods hsend ⟨?_, ?_, onlyParts_keepPw State.onlyParts_closePair⟩⟩
  · rw [State.dp_keepPw, State.closePair_credit hn, State.dp_dpCnt, State.dp_dpCnt, State.dp_setDp_same]
  · have hne : dpReg p.val (dCNT + 28) ≠ dpReg p.val (dCNT + 4 * 0) := by unfold dpReg; omega
    rw [State.fld_keepPw, State.closePair_credit hn]
    refine (State.fld_dpCnt_same _ p.val 7 1).trans ?_
    rw [State.fld_congr (State.reg_dpCnt_other _ p.val 0 0 _ hne), State.fld_setDp]

/-- The one slot of the egress buffer goes with the credit that is owed. -/
theorem completes_flitPairSend_slot {e : EgEnt} {c : Nat} (hup : s.dpUp p.val = true)
    (hmods : (s.dp p.val).modsTx ≠ 0) (hrot : (s.dp p.val).rotate = none) (hegress : (s.dp p.val).egress = [e])
    (hnext : (s.dp p.val).nextSend = some (c, e)) (hcrc : e.slot.crcOk = true) (hlocal : e.transit = false) :
    completes (.flitPairSend p) s (fun t => (t.dp p.val).egress = []
      ∧ (t.dp p.val).tx = some (mkPair [e.slot] (s.dp p.val).owedCls (s.dp p.val).owedNum)
      ∧ (c < 8 → (t.dp p.val).credit.getD c 0 = (s.dp p.val).credit.getD c 0 - 1)
      ∧ (t.dp p.val).modRot = nextModule (s.dp p.val).modsTx (s.dp p.val).modRot
      ∧ t.fld (dpReg p.val dCNT) 0 32 = satAdd 32 (s.fld (dpReg p.val dCNT) 0 32) 1
      ∧ (∀ q, q ≠ p.val → t.dp q = s.dp q) ∧ onlyParts [.regs, .d2d] s t) := by
  have hleft : ((s.egLeave p.val c e).dp p.val).egress = [] := by
    rw [State.egLeave_local hlocal, State.dp_setDp_same, hegress]
    exact List.erase_cons_head e []
  have hgather : gatherPair (5 + (s.dp p.val).egress.length) p.val 5 [] s = ([e.slot], s.egLeave p.val c e) := by
    rw [hegress]
    exact (gatherPair_good [] hnext hcrc).trans (gatherPair_none _ _ _ (DpSt.nextSend_empty hleft))
  have hsend := (State.sendPair_plain hrot hgather).trans (State.closePair_slots (List.cons_ne_nil _ _))
  rw [State.egLeave_local hlocal] at hsend hleft
  rw [State.dp_setDp_same] at hsend hleft
  refine completes_flitPairSend hup hmods hsend ?_
  have hdp := fun v w : DpSt => (State.dp_keepPw s p.val _).trans
    ((State.dp_dpCnt (((s.setDp p.val v).setDp p.val w)) p.val 0 1 p.val).trans (State.dp_setDp_same _ p.val w))
  rw [List.length_singleton, hdp]
  refine ⟨hleft, rfl, fun hc => ?_, rfl, ?_, fun q hq => ?_, onlyParts_keepPw ?_⟩
  · exact (congrArg (fun l => List.getD l c 0) (if_pos hc)).trans ((getD_set_pred _ c c).trans (by rw [if_pos rfl]))
  · exact State.fld_dpCnt_same _ p.val 0 1
  · rw [State.dp_keepPw, State.dp_dpCnt, State.dp_setDp_other _ _ _ _ hq, State.dp_setDp_other _ _ _ _ hq]
  · exact onlyParts_step (onlyParts_step (onlyParts_mono (State.onlyParts_setDp s _ _) (by decide))
      (State.onlyParts_setDp _ _ _)) (State.onlyParts_dpCnt _ _ _ _)

/-- A ROTATE that waits goes with the next pair, and its set is the one that follows (R454). -/
theorem completes_flitPairSend_rotate {set : Nat} (hup : s.dpUp p.val = true) (hmods : (s.dp p.val).modsTx ≠ 0)
    (hrot : (s.dp p.val).rotate = some set) (hset : set < 16) (hcredit : 0 < (s.dp p.val).credit.getD 7 0)
    (hegress : (s.dp p.val).egress = []) :
    completes (.flitPairSend p) s (fun t => (t.dp p.val).rotate = none ∧ (t.dp p.val).modsTx = set
      ∧ (t.dp p.val).tx = some (mkPair [rotateSlot s.die (dpStop p.val) (dpStop (dpPartner p.val)) set]
          (s.dp p.val).owedCls (s.dp p.val).owedNum)
      ∧ (∀ w, (s.dp p.val).window = some w → bitOf (BitVec.ofNat 4 set) w.m = false →
          (t.dp p.val).window = some { w with sent := true, sentAt := s.her.boot.hcs })
      ∧ onlyParts [.regs, .d2d] s t) := by
  have hout : s.rotateOut p.val = ([rotateSlot s.die (dpStop p.val) (dpStop (dpPartner p.val)) set],
      s.setDp p.val ((s.dp p.val).rotated set s.her.boot.hcs)) := by
    unfold State.rotateOut
    simp only [hrot]
    exact if_neg hcredit.ne'
  have hempty : ((s.setDp p.val ((s.dp p.val).rotated set s.her.boot.hcs)).dp p.val).nextSend = none := by
    rw [State.dp_setDp_same]
    exact DpSt.nextSend_empty hegress
  have hsend := (State.sendPair_rotate hout (gatherPair_none _ 4 _ hempty)).trans
    (State.closePair_slots (List.cons_ne_nil _ _))
  rw [set_rotateSlot _ _ _ _ hset, State.dp_setDp_same, List.length_singleton] at hsend
  refine completes_flitPairSend hup hmods hsend ?_
  rw [State.dp_keepPw, State.dp_dpCnt, State.dp_setDp_same]
  refine ⟨rfl, rfl, rfl, fun w hw hout => ?_, onlyParts_keepPw ?_⟩
  · unfold DpSt.paired DpSt.rotated
    simp only [hw, Option.map_some, hout]
    rfl
  · exact onlyParts_step (onlyParts_step (onlyParts_mono (State.onlyParts_setDp s _ _) (by decide))
      (State.onlyParts_setDp _ _ _)) (State.onlyParts_dpCnt _ _ _ _)

end

end Sys2Proof.Machine
end

section
/-! PROOFS. A die-to-die port (R380, R382, R383, R402, R454): the slots of a good pair, ROTATE, and reservations that
run out. -/
namespace Sys2Proof.Machine
open Sys2Proof

/-! ### One slot of a pair -/

/-- The port once a slot of a good pair is in its ingress buffer, with its credit used; `due` is when the reservation
that it makes expires. -/
def DpSt.taken (d : DpSt) (x : Slot) (due : Nat) : DpSt :=
  { d with
    granted := if x.ccls < 8 then d.granted.set x.ccls (d.granted.getD x.ccls 0 - 1) else d.granted
    ingress := d.ingress ++ [{ ccls := x.ccls, slot := x }]
    rsvEg := if x.reserves && rsvFits d.rsvEg x then d.rsvEg ++ [x.rsvOf due] else d.rsvEg }

/-- The port once it has taken ROTATE to `set` (R454). -/
def DpSt.rotatedIn (d : DpSt) (set : Nat) : DpSt :=
  { d with
    granted := d.granted.set 7 (d.granted.getD 7 0 - 1)
    owed := d.owed.set 7 (d.owed.getD 7 0 + 1)
    modsRx := set % 16
    window := d.window.map (fun w => if bitOf (BitVec.ofNat 4 set) w.m then w else { w with rcvd := true }) }

section
variable {s : State} {p : Nat} {x : Slot}

theorem State.takeSlot_uncredited (hc : x.ccls < 8) (hnone : (s.dp p).granted.getD x.ccls 0 = 0) :
    s.takeSlot p x = (s.raiseFlag (dpReg p dERR) 1).dpRaise p sevCONTAINED caD2D_CREDIT := if_pos ⟨hc, hnone⟩

theorem State.takeSlot_slot (hcredit : x.ccls < 8 → (s.dp p).granted.getD x.ccls 0 ≠ 0)
    (hrot : isRotate (dpStop p) x = false) : s.takeSlot p x = s.setDp p ((s.dp p).taken x (s.rsvDue p x)) := by
  unfold State.takeSlot
  simp only [hrot]
  rw [if_neg (fun h => hcredit h.1 h.2)]
  unfold DpSt.taken
  by_cases hc : x.ccls < 8
  · simp only [if_pos hc]; rfl
  · simp only [if_neg hc]; rfl

theorem State.takeSlot_rotate (hc : x.ccls = 7) (hcredit : (s.dp p).granted.getD 7 0 ≠ 0)
    (hrot : isRotate (dpStop p) x = true) :
    (s.takeSlot p x).dp p = (s.dp p).rotatedIn (fieldOf x.ext 30 4) ∧ onlyParts [.d2d] s (s.takeSlot p x) := by
  have htake : s.takeSlot p x
      = (s.setDp p { s.dp p with
          granted := (s.dp p).granted.set 7 ((s.dp p).granted.getD 7 0 - 1)
          owed := (s.dp p).owed.set 7 ((s.dp p).owed.getD 7 0 + 1) }).rotateIn p (fieldOf x.ext 30 4) := by
    unfold State.takeSlot
    simp only [hrot, hc]
    rw [if_neg (fun h => hcredit h.2)]
    rfl
  rw [htake]
  unfold State.rotateIn
  simp only [State.dp_setDp_same]
  exact ⟨rfl, onlyParts_trans (State.onlyParts_setDp s _ _) (State.onlyParts_setDp _ _ _)⟩

/-- A flag of the port, raised with a record, stands. -/
theorem State.flag_dpRaise (s : State) (p i sev cause : Nat) (hi : i < 32) :
    ((s.raiseFlag (dpReg p dERR) i).dpRaise p sev cause).flag (dpReg p dERR) i = true :=
  (State.flag_congr (State.reg_dpRaise_port _ p sev cause _ (le_dpReg p dERR)) i).trans (State.flag_raiseFlag s _ _ hi)

theorem State.onlyParts_flagged (s : State) (p i sev cause : Nat) :
    onlyParts [.regs, .recs] s ((s.raiseFlag (dpReg p dERR) i).dpRaise p sev cause) :=
  onlyParts_step (onlyParts_mono (State.onlyParts_raiseFlag s _ _) (by decide)) (State.onlyParts_dpRaise _ p sev cause)

end

/-! ### The slots of a good pair -/

/-- What taking the slots `ys`, each with credit and none a ROTATE, makes of port `p`. -/
structure SlotsTaken (p : Nat) (ys : List Slot) (s t : State) : Prop where
  ingress : (t.dp p).ingress = (s.dp p).ingress ++ ys.map (fun y => { ccls := y.ccls, slot := y })
  granted : ∀ c, c < 8 → (t.dp p).granted.getD c 0
    = (s.dp p).granted.getD c 0 - (ys.filter (fun y => y.ccls == c)).length
  credit : (t.dp p).credit = (s.dp p).credit
  others : ∀ q, q ≠ p → t.dp q = s.dp q
  parts : onlyParts [.d2d] s t

theorem DpSt.granted_taken (d : DpSt) (x : Slot) (due : Nat) {c : Nat} (hc : c < 8) :
    (d.taken x due).granted.getD c 0 = d.granted.getD c 0 - ([x].filter (fun y => y.ccls == c)).length := by
  have hlist : ([x].filter (fun y => y.ccls == c)).length = if x.ccls = c then 1 else 0 := by
    by_cases h : x.ccls = c <;> simp [h]
  rw [hlist]
  unfold DpSt.taken
  simp only
  split
  · exact getD_set_pred _ _ _
  · rw [if_neg (by omega), Nat.sub_zero]

theorem SlotsTaken.one {s : State} {p : Nat} {x : Slot} (hcredit : x.ccls < 8 → (s.dp p).granted.getD x.ccls 0 ≠ 0)
    (hrot : isRotate (dpStop p) x = false) : SlotsTaken p [x] s (s.takeSlot p x) := by
  rw [State.takeSlot_slot hcredit hrot]
  exact {
    ingress := by rw [State.dp_setDp_same]; rfl
    granted := fun c hc => by rw [State.dp_setDp_same]; exact DpSt.granted_taken _ x _ hc
    credit := by rw [State.dp_setDp_same]; rfl
    others := fun q hq => State.dp_setDp_other _ _ _ _ hq
    parts := State.onlyParts_setDp s _ _ }

theorem SlotsTaken.trans {p : Nat} {xs ys : List Slot} {s t u : State} (h : SlotsTaken p xs s t)
    (k : SlotsTaken p ys t u) : SlotsTaken p (xs ++ ys) s u where
  ingress := by rw [k.ingress, h.ingress, List.map_append, List.append_assoc]
  granted c hc := by rw [k.granted c hc, h.granted c hc, List.filter_append, List.length_append]; omega
  credit := k.credit.trans h.credit
  others q hq := (k.others q hq).trans (h.others q hq)
  parts := onlyParts_trans h.parts k.parts

theorem slotsTaken_foldl {p : Nat} {ys : List Slot} {s : State} (hrot : ∀ y ∈ ys, isRotate (dpStop p) y = false)
    (hcredit : ∀ c, c < 8 → (ys.filter (fun y => y.ccls == c)).length ≤ (s.dp p).granted.getD c 0) :
    SlotsTaken p ys s (ys.foldl (fun t y => t.takeSlot p y) s) := by
  induction ys generalizing s with
  | nil => exact ⟨(List.append_nil _).symm, fun _ _ => rfl, rfl, fun _ _ => rfl, onlyParts_refl _ s⟩
  | cons y ys ih =>
    have hone : SlotsTaken p [y] s (s.takeSlot p y) := by
      refine SlotsTaken.one (fun hc => ?_) (hrot y List.mem_cons_self)
      have hcount := hcredit y.ccls hc
      rw [List.filter_cons_of_pos (by simp), List.length_cons] at hcount
      omega
    refine hone.trans (ih (fun z hz => hrot z (List.mem_cons_of_mem _ hz)) (fun c hc => ?_))
    have hcount := hcredit c hc
    rw [← List.singleton_append, List.filter_append, List.length_append] at hcount
    rw [hone.granted c hc]
    omega

/-! ### FLIT_PAIR_RECEIVE and ROTATE -/

section
variable {p : DpNo} {x : PairIn} {s : State} {ys : List Slot}

/-- The credit a pair returns is added. -/
def DpSt.credited (d : DpSt) (x : PairIn) : DpSt :=
  { d with credit := d.credit.set (fieldOf x.w0 4 3) (d.credit.getD (fieldOf x.w0 4 3) 0 + fieldOf x.w0 7 8) }

theorem exec_flitPairReceive_good (hup : s.dpUp p.val = true) (hcrc : x.pcrc = x.need) (hslots : x.nslot ≤ 5)
    (hys : ys = (List.range x.nslot).map (fun j => slotOfImage (x.images.getD j 0))) :
    exec (.flitPairReceive p x) s = .next (s.keepPw ((ys.foldl (fun t y => t.takeSlot p.val y)
      (s.setDp p.val ((s.dp p.val).credited x))).dpCnt p.val 1 x.nslot)) := by
  subst hys
  show execFlitPairReceive p x s = _
  unfold execFlitPairReceive
  have hgood : ¬ (x.pcrc ≠ x.need ∨ 5 < x.nslot) := by
    rintro (hne | hlt)
    · exact hne hcrc
    · omega
  simp only [hup]
  exact if_neg hgood

/-- The slots of a good pair stand last in the ingress buffer. -/
theorem completes_flitPairReceive_slots (hup : s.dpUp p.val = true)
    (hys : ys = (List.range x.nslot).map (fun j => slotOfImage (x.images.getD j 0)))
    (hcrc : x.pcrc = x.need) (hslots : x.nslot ≤ 5) (hrot : ∀ y ∈ ys, isRotate (dpStop p.val) y = false)
    (hcredit : ∀ c, c < 8 → (ys.filter (fun y => y.ccls == c)).length ≤ (s.dp p.val).granted.getD c 0)
    (hlength : (s.dp p.val).credit.length = 8) : completes (.flitPairReceive p x) s (fun t =>
      (t.dp p.val).ingress = (s.dp p.val).ingress ++ ys.map (fun y => { ccls := y.ccls, slot := y })
      ∧ (∀ c, c < 8 → (t.dp p.val).granted.getD c 0
          = (s.dp p.val).granted.getD c 0 - (ys.filter (fun y => y.ccls == c)).length)
      ∧ (t.dp p.val).credit.getD (fieldOf x.w0 4 3) 0
          = (s.dp p.val).credit.getD (fieldOf x.w0 4 3) 0 + fieldOf x.w0 7 8
      ∧ t.fld (dpReg p.val (dCNT + 4)) 0 32 = satAdd 32 (s.fld (dpReg p.val (dCNT + 4)) 0 32) x.nslot
      ∧ (∀ q, q ≠ p.val → t.dp q = s.dp q) ∧ onlyParts [.regs, .d2d] s t) := by
  have hdp := State.dp_setDp_same s p.val ((s.dp p.val).credited x)
  have htaken := slotsTaken_foldl (s := s.setDp p.val ((s.dp p.val).credited x)) hrot (by rw [hdp]; exact hcredit)
  refine ⟨_, exec_flitPairReceive_good hup hcrc hslots hys, ?_⟩
  simp only [State.dp_keepPw, State.dp_dpCnt]
  refine ⟨?_, fun c hc => ?_, ?_, ?_, fun q hq => ?_, onlyParts_keepPw ?_⟩
  · rw [htaken.ingress, hdp]; rfl
  · rw [htaken.granted c hc, hdp]; rfl
  · have hlt : fieldOf x.w0 4 3 < (s.dp p.val).credit.length := by
      rw [hlength]
      exact fieldOf_lt x.w0 4 3
    rw [htaken.credit, hdp]
    exact getD_set_same _ hlt
  · refine (State.fld_dpCnt_same _ p.val 1 x.nslot).trans ?_
    rw [State.fld_congr (State.reg_congr (htaken.parts .regs (by decide)) _)]
    rfl
  · exact (htaken.others q hq).trans (State.dp_setDp_other _ _ _ _ hq)
  · exact onlyParts_step (onlyParts_mono (onlyParts_trans (State.onlyParts_setDp s _ _) htaken.parts) (by decide))
      (State.onlyParts_dpCnt _ _ _ _)

/-- A slot without credit is dropped and flagged. -/
theorem completes_flitPairReceive_uncredited {y : Slot} (hup : s.dpUp p.val = true)
    (hys : [y] = (List.range x.nslot).map (fun j => slotOfImage (x.images.getD j 0))) (hcrc : x.pcrc = x.need)
    (hc : y.ccls < 8) (hnone : (s.dp p.val).granted.getD y.ccls 0 = 0) : completes (.flitPairReceive p x) s (fun t =>
      (t.dp p.val).ingress = (s.dp p.val).ingress
      ∧ t.flag (dpReg p.val dERR) 1 = true ∧ onlyParts [.regs, .recs, .d2d] s t) := by
  have hslots : x.nslot ≤ 5 := by
    have hlen := congrArg List.length hys
    simp only [List.length_singleton, List.length_map, List.length_range] at hlen
    omega
  have hdp := State.dp_setDp_same s p.val ((s.dp p.val).credited x)
  have htake := State.takeSlot_uncredited (s := s.setDp p.val ((s.dp p.val).credited x)) (p := p.val) hc
    (by rw [hdp]; exact hnone)
  refine ⟨_, exec_flitPairReceive_good hup hcrc hslots hys, ?_⟩
  rw [List.foldl_cons, List.foldl_nil, htake]
  refine ⟨?_, ?_, onlyParts_keepPw ?_⟩
  · rw [State.dp_keepPw, State.dp_dpCnt]
    unfold State.dpRaise
    rw [State.dp_raise, State.dp_raiseFlag, hdp]
    rfl
  · have hne : dpReg p.val dERR ≠ dpReg p.val (dCNT + 4 * 1) := by unfold dpReg dERR dCNT; omega
    rw [State.flag_keepPw, State.flag_congr (State.reg_dpCnt_other _ p.val 1 _ _ hne)]
    exact State.flag_dpRaise _ p.val 1 _ _ (by decide)
  · exact onlyParts_step (onlyParts_step (onlyParts_mono (State.onlyParts_setDp s _ _) (by decide))
      (State.onlyParts_flagged _ _ _ _ _)) (State.onlyParts_dpCnt _ _ _ _)

theorem exec_rotate (set : Fin 16) (hup : s.dpUp p.val = true) : exec (.rotate p set) s = .next
    (s.keepPw (s.takeSlot p.val (rotateSlot s.die (dpStop (dpPartner p.val)) (dpStop p.val) set.val))) := if_pos hup

/-- ROTATE with MGMT credit names the receive set. -/
theorem completes_rotate_credited (set : Fin 16) (hup : s.dpUp p.val = true)
    (hcredit : 0 < (s.dp p.val).granted.getD 7 0) (hlength : (s.dp p.val).owed.length = 8) :
    completes (.rotate p set) s (fun t => (t.dp p.val).modsRx = set.val
      ∧ (t.dp p.val).owed.getD 7 0 = (s.dp p.val).owed.getD 7 0 + 1
      ∧ (∀ w, (s.dp p.val).window = some w → bitOf (BitVec.ofNat 4 set.val) w.m = false →
          (t.dp p.val).window = some { w with rcvd := true })
      ∧ onlyParts [.d2d] s t) := by
  obtain ⟨hdp, hparts⟩ := State.takeSlot_rotate (s := s) (p := p.val) (ccls_rotateSlot _ _ _ _) hcredit.ne'
    (isRotate_rotateSlot s.die (dpStop (dpPartner p.val)) (dpStop p.val) set.val (dpStop_lt p.val))
  rw [set_rotateSlot _ _ _ _ set.isLt] at hdp
  refine ⟨_, exec_rotate set hup, ?_⟩
  beta_reduce
  rw [State.dp_keepPw, hdp]
  refine ⟨Nat.mod_eq_of_lt set.isLt, getD_set_same _ (by omega), fun w hw hout => ?_, onlyParts_keepPw hparts⟩
  unfold DpSt.rotatedIn
  simp only [hw, Option.map_some, hout]
  rfl

theorem completes_rotate_uncredited (set : Fin 16) (hup : s.dpUp p.val = true)
    (hnone : (s.dp p.val).granted.getD 7 0 = 0) : completes (.rotate p set) s (fun t =>
      (t.dp p.val).modsRx = (s.dp p.val).modsRx ∧ t.flag (dpReg p.val dERR) 1 = true
      ∧ onlyParts [.regs, .recs] s t) := by
  have hcls := ccls_rotateSlot s.die (dpStop (dpPartner p.val)) (dpStop p.val) set.val
  have htake := State.takeSlot_uncredited (s := s) (p := p.val) (hcls ▸ (by decide : 7 < 8)) (hcls ▸ hnone)
  refine ⟨_, exec_rotate set hup, ?_⟩
  rw [htake]
  refine ⟨?_, ?_, onlyParts_keepPw (State.onlyParts_flagged s p.val 1 _ _)⟩
  · rw [State.dp_keepPw]
    unfold State.dpRaise
    rw [State.dp_raise, State.dp_raiseFlag]
  · rw [State.flag_keepPw]
    exact State.flag_dpRaise s p.val 1 _ _ (by decide)

/-- A port that is not UP neither sends nor takes anything. -/
theorem completes_port_down (set : Fin 16) (hdown : s.dpUp p.val = false) :
    completes (.flitPairSend p) s (fun t => t = s) ∧ completes (.flitPairReceive p x) s (fun t => t = s)
    ∧ completes (.rotate p set) s (fun t => t = s) := by
  refine ⟨⟨s, if_neg (fun h => ?_), rfl⟩, ⟨s, if_pos ?_, rfl⟩, ⟨s, if_neg ?_, rfl⟩⟩
  · rw [hdown] at h
    exact absurd h.1 (by decide)
  · rw [hdown]; rfl
  · rw [hdown]; decide

/-! ### D2D_RSV_EXPIRE -/

/-- The port without the reservation `r` of its egress (`eg`) or ingress region. -/
def DpSt.rsvFreed (d : DpSt) (eg : Bool) (r : Rsv) : DpSt :=
  if eg then { d with rsvEg := d.rsvEg.erase r } else { d with rsvIn := d.rsvIn.erase r }

theorem completes_d2dRsvExpire_none {eg : Bool} {src : Src}
    (h : (if eg then (s.dp p.val).rsvEg else (s.dp p.val).rsvIn).find? (fun r =>
      r.src == src && decide (r.due ≤ 400 * s.cdc.us) && !(s.dp p.val).answering r) = none) :
    completes (.d2dRsvExpire p eg src) s (fun t => t = s) := by
  refine ⟨s, ?_, rfl⟩
  show execD2dRsvExpire p eg src s = _
  unfold execD2dRsvExpire
  simp only [h]

theorem completes_d2dRsvExpire_some {eg : Bool} {src : Src} {r : Rsv}
    (h : (if eg then (s.dp p.val).rsvEg else (s.dp p.val).rsvIn).find? (fun r =>
      r.src == src && decide (r.due ≤ 400 * s.cdc.us) && !(s.dp p.val).answering r) = some r) :
    completes (.d2dRsvExpire p eg src) s (fun t => t.dp p.val = (s.dp p.val).rsvFreed eg r
      ∧ t.fld (dpReg p.val (dCNT + 20)) 0 32 = satAdd 32 (s.fld (dpReg p.val (dCNT + 20)) 0 32) 1
      ∧ regsBut [dpReg p.val (dCNT + 20)] s t ∧ onlyParts [.regs, .d2d] s t) := by
  have hexec : exec (.d2dRsvExpire p eg src) s
      = .next (s.keepPw ((s.setDp p.val ((s.dp p.val).rsvFreed eg r)).dpCnt p.val 5 1)) := by
    show execD2dRsvExpire p eg src s = _
    unfold execD2dRsvExpire
    simp only [h]
    rfl
  refine ⟨_, hexec, ?_, State.fld_dpCnt_same _ p.val 5 1, fun a ha => ?_, onlyParts_keepPw ?_⟩
  · rw [State.dp_keepPw, State.dp_dpCnt, State.dp_setDp_same]
  · rw [State.reg_keepPw, State.reg_dpCnt_other _ _ _ _ _ (fun h => ha (List.mem_singleton.mpr h)), State.reg_setDp]
  · exact onlyParts_step (onlyParts_mono (State.onlyParts_setDp s _ _) (by decide)) (State.onlyParts_dpCnt _ _ _ _)

end

end Sys2Proof.Machine
end

section
/-! PROOFS. A port goes DOWN (R400, R401): what waits for Hearth's sequencer, the sibling's Kind B change among it, may
start and leaves the ports alone. -/
namespace Sys2Proof.Machine
open Sys2Proof

/-! ### Packets a stop offers -/

theorem onlyParts_setNi (s : State) (v : NiSt) : onlyParts [.ni] s { s with ni := v } := by
  intro p hp
  cases p with
  | ni => exact absurd hp (by decide)
  | _ => rfl

theorem State.onlyParts_setHeld (s : State) (st p : Nat) (v : List Held) : onlyParts [.ni] s (s.setHeld st p v) :=
  onlyParts_setNi s _

theorem State.onlyParts_hwmUpdate (s : State) (st q : Nat) : onlyParts [.regs, .ni] s (s.hwmUpdate st q) := by
  have hni (v : NiSt) : onlyParts [.regs, .ni] s { s with ni := v } := onlyParts_mono (onlyParts_setNi s v) (by decide)
  unfold State.hwmUpdate
  simp only
  split
  · exact onlyParts_setReg_of (hni _) (by decide) _ _
  · exact hni _

theorem State.onlyParts_mapCtx (s : State) (st part : Nat) : onlyParts [.regs] s (s.mapCtx st part).2 := by
  unfold State.mapCtx
  simp only
  split
  · exact onlyParts_refl _ s
  · exact onlyParts_trans (State.onlyParts_raiseFlag s _ _) (State.onlyParts_count _ _ _ _ _)

theorem State.onlyParts_enterQueue (s : State) (st q port : Nat) (p : Pkt) (resend : Bool) (m : QMark) :
    onlyParts [.regs, .ni] s (s.enterQueue st q port p resend m) :=
  onlyParts_step (onlyParts_mono (onlyParts_setNi s _) (by decide)) (State.onlyParts_hwmUpdate _ st q)

theorem State.onlyParts_offerOn (s : State) (st port : Nat) (p : Pkt) (ctx : Option Nat) (resend : Bool) (m : QMark) :
    onlyParts [.regs, .ni] s (s.offerOn st port p ctx resend m) := by
  unfold State.offerOn
  cases ctx with
  | some c =>
    simp only
    split
    · exact State.onlyParts_enterQueue s _ _ _ _ _ _
    · exact onlyParts_mono (State.onlyParts_setHeld s _ _ _) (by decide)
  | none =>
    simp only
    split
    · exact onlyParts_step (onlyParts_mono (State.onlyParts_mapCtx s _ _) (by decide))
        (State.onlyParts_enterQueue _ _ _ _ _ _ _)
    · exact onlyParts_mono (State.onlyParts_setHeld s _ _ _) (by decide)

/-- A packet with a context of its own changes one register of its stop at most. -/
theorem State.reg_offerOn_other (s : State) (st port c : Nat) (p : Pkt) (resend : Bool) (m : QMark) {a : Nat}
    (h : a ≠ stopReg st sINJ_STORE) : (s.offerOn st port p (some c) resend m).reg a = s.reg a := by
  have henter (q : Nat) : (s.enterQueue st q port p resend m).reg a = s.reg a := by
    unfold State.enterQueue State.hwmUpdate
    simp only
    split
    · exact State.reg_setFld_other _ _ _ _ _ _ h
    · rfl
  unfold State.offerOn
  simp only
  split
  · exact henter _
  · rfl

/-! ### What the sequencer starts -/

/-- The state in which a Kind B change waits for its turn (R346, R439). -/
def State.kbWaits (s : State) : Prop :=
  s.fabState = fabOPEN ∨ s.fabState = fabQUIESCING ∨ s.fabState = fabQUIESCED

/-- What the sequencer starts leaves the ports and their registers, and a state in which changes wait. -/
structure Sequenced (s t : State) : Prop where
  reg : ∀ a, 0x400000 ≤ a → t.reg a = s.reg a
  d2d : t.d2d = s.d2d
  waits : s.kbWaits → t.kbWaits

namespace Sequenced

variable {s t u : State}

theorem trans (h : Sequenced s t) (k : Sequenced t u) : Sequenced s u :=
  ⟨fun a ha => (k.reg a ha).trans (h.reg a ha), k.d2d.trans h.d2d, fun hs => k.waits (h.waits hs)⟩

theorem refl (s : State) : Sequenced s s := ⟨fun _ _ => rfl, rfl, id⟩

/-- FAB_STATE and the registers of the ports may be compared instead. -/
theorem of_reg (hfab : t.reg gFAB_STATE = s.reg gFAB_STATE) (hreg : ∀ a, 0x400000 ≤ a → t.reg a = s.reg a)
    (hd2d : t.d2d = s.d2d) : Sequenced s t where
  reg := hreg
  d2d := hd2d
  waits := by unfold State.kbWaits State.fabState; rw [State.fld_congr hfab]; exact id

theorem setPw (s : State) (v : PwSt) : Sequenced s { s with pw := v } := ⟨fun _ _ => rfl, rfl, id⟩

theorem setFld (s : State) (a lo w x : Nat) (hne : gFAB_STATE ≠ a := by decide) (ha : a < 0x400000 := by decide) :
    Sequenced s (s.setFld a lo w x) :=
  .of_reg (State.reg_setFld_other s _ _ _ _ _ hne) (fun b hb => State.reg_setFld_other s _ _ _ _ _ (by omega)) rfl

theorem setDomNum (s : State) (v : Nat) {d : Nat} (hd : d < 312) : Sequenced s (s.setDomNum d v) := by
  unfold State.setDomNum
  split
  · exact .setPw s _
  · exact .setFld s _ _ _ _ (by unfold gFAB_STATE gPWR_DOMAIN_STATE; omega) (by unfold gPWR_DOMAIN_STATE; omega)

theorem offerOn (s : State) (port c : Nat) (p : Pkt) (resend : Bool) (m : QMark) :
    Sequenced s (s.offerOn hearthStop port p (some c) resend m) :=
  .of_reg (State.reg_offerOn_other s _ _ _ _ _ _ (by decide))
    (fun a ha => State.reg_offerOn_other s _ _ _ _ _ _ (ne_stopReg (by decide) ha (by decide)))
    (State.onlyParts_offerOn s _ _ _ _ _ _ .d2d (by decide))

theorem broadcast (s : State) : Sequenced s s.broadcast :=
  have hmerged (t : State) : Sequenced t (t.setMerged hearthStop []) := ⟨fun _ _ => rfl, rfl, id⟩
  ((Sequenced.offerOn s _ _ _ _ _).trans (hmerged _)).trans (Sequenced.offerOn _ _ _ _ _ _)

theorem setOp (s : State) (o : Option PwOp) : Sequenced s (s.setOp o) :=
  ((Sequenced.setPw s _).trans (.setFld _ _ _ _ _)).trans (.setFld _ _ _ _ _)

theorem setResult (s : State) (dom status : Nat) : Sequenced s (s.setResult dom status) :=
  (Sequenced.setFld s _ _ _ _).trans (.setFld _ _ _ _ _)

theorem pwRefuse (s : State) (dom status : Nat) : Sequenced s (s.pwRefuse dom status) :=
  ((Sequenced.setPw s _).trans (.setResult _ _ _)).trans (.setFld _ _ _ _ _)

theorem liftStart (s : State) (o : PwOp) : Sequenced s (s.liftStart o) := (Sequenced.setOp s _).trans (.broadcast _)

theorem fenceStart (s : State) (kind : PwKind) (set : FSet) (change : Option KbChange) {dom : Nat} (hd : dom < 312) :
    Sequenced s (s.fenceStart kind dom set change) := by
  have hcount := Sequenced.setFld s gFENCE_STATUS 16 16 (s.fld gFENCE_STATUS 16 16 + 1)
  unfold State.fenceStart
  simp only
  split
  · exact (hcount.trans (.setOp _ _)).trans (.broadcast _)
  · exact (((hcount.trans (.setDomNum _ _ hd)).trans (.setFld _ _ _ _ _)).trans (.setOp _ _)).trans (.broadcast _)

theorem wakeStart (s : State) {d : Nat} (hd : d < 312) (hfab : ¬ d < 256) : Sequenced s (s.wakeStart (d - 256)) := by
  have hdom := Sequenced.setDomNum s dmWAKING hd
  rw [State.setDomNum, if_neg hfab] at hdom
  exact ((hdom.trans (.setPw _ _)).trans (.setPw _ _))

end Sequenced

theorem State.lt_of_offRefusal_none {s : State} {d : Nat} (h : s.offRefusal d = none) : d < 312 := by
  by_contra hd
  unfold State.offRefusal at h
  rw [if_pos (by simp [Nat.not_lt.mp hd])] at h
  cases h

theorem State.lt_of_onRefusal_none {s : State} {d : Nat} (h : s.onRefusal d = none) : d < 312 := by
  by_contra hd
  unfold State.onRefusal at h
  rw [if_pos (by simp [Nat.not_lt.mp hd])] at h
  cases h

namespace Sequenced

theorem pwStart (s : State) (d : Nat) (on : Bool) : Sequenced s (s.pwStart d on) := by
  unfold State.pwStart
  cases on with
  | false =>
    cases h : s.offRefusal d with
    | some r => simp only [Bool.false_eq_true, if_false]; exact .pwRefuse s d r
    | none => simp only [Bool.false_eq_true, if_false]; exact .fenceStart s _ _ _ (State.lt_of_offRefusal_none h)
  | true =>
    cases h : s.onRefusal d with
    | some r => simp only [if_true]; exact .pwRefuse s d r
    | none =>
      have hdom := Sequenced.setFld s gFENCE_STATUS 4 9 d
      simp only [if_true, Bool.not_true, Bool.false_eq_true, if_false]
      split
      case isTrue => exact hdom.trans (.liftStart _ _)
      case isFalse hoff =>
        exact (hdom.trans (.wakeStart _ (State.lt_of_onRefusal_none h) (fun hd => hoff (Or.inl hd)))).trans (.setOp _ _)

theorem fcStart (s : State) (d : Nat) (un : Bool) : Sequenced s (s.fcStart d un) := by
  have hrefused : Sequenced s ((s.setResult d pwINVALID).setFld gFENCE_CTRL 31 1 0) :=
    (Sequenced.setResult s _ _).trans (.setFld _ _ _ _ _)
  unfold State.fcStart
  simp only
  split
  · exact hrefused
  next hd =>
    split
    · split
      · exact .liftStart s _
      · exact hrefused
    · split
      · exact .fenceStart s _ _ _ (Nat.not_le.mp hd)
      · exact hrefused

theorem kbStart (s : State) (c : KbChange) : Sequenced s (s.kbStart c) := by
  have hclock : Sequenced s { s.setFab fabQUIESCING with cdc := { s.cdc with ret := s.fabState, lost := [] } } := by
    refine ⟨fun a ha => ?_, rfl, fun _ => Or.inr (Or.inl ?_)⟩
    · exact State.reg_setFld_other s gFAB_STATE a _ _ _ (by unfold gFAB_STATE; omega)
    · exact State.fld_setFld_same s gFAB_STATE 0 4 fabQUIESCING (by decide)
  unfold State.kbStart
  simp only
  split
  · exact hclock.trans (.fenceStart _ _ _ _ (by decide))
  · exact .fenceStart s _ _ _ (by decide)

theorem pwNext (n : Nat) {s : State} (hs : s.kbWaits) : Sequenced s (pwNext n s) := by
  induction n generalizing s with
  | zero => exact .refl s
  | succ n ih =>
    have go {t : State} (h : Sequenced s t) : Sequenced s (Machine.pwNext n t) := h.trans (ih (h.waits hs))
    unfold Machine.pwNext
    split
    · exact .refl s
    · split
      · exact go ((Sequenced.setPw s _).trans (.fcStart _ _ _))
      · split
        · exact go ((Sequenced.setPw s _).trans (.kbStart _ _))
        next hopen =>
          rw [if_pos (hs.resolve_left hopen)]
          exact .refl s
      · split
        · exact .refl s
        · exact go ((Sequenced.setPw s _).trans (.pwStart _ _ _))
      · exact .refl s

theorem pwGo {s : State} (hs : s.kbWaits) : Sequenced s s.pwGo := .pwNext _ hs

theorem setRoutes (s : State) : Sequenced s s.setRoutes :=
  have hreg (a : Nat) (ha : ∀ d, d < 16 → a ≠ gDIE_ROUTE + 4 * d) : s.setRoutes.reg a = s.reg a :=
    State.reg_setRoutes_other s a ha
  .of_reg (hreg _ (fun d _ => by unfold gFAB_STATE gDIE_ROUTE; omega))
    (fun a ha => hreg a (fun d hd => by unfold gDIE_ROUTE; omega)) (State.d2d_setRoutes s)

theorem imgStale (s : State) : Sequenced s s.imgStale := by
  unfold State.imgStale
  split
  · exact .setPw s _
  · exact .refl s

/-- The sibling of a port takes over, at once or when its turn comes. -/
theorem kbRequest_sibling (s : State) (p : Nat) : Sequenced s (s.kbRequest (.sibling p)) := by
  unfold State.kbRequest
  split
  case isTrue hs => exact (Sequenced.setPw s { s.pw with kbs := s.pw.kbs ++ [.sibling p] }).trans (.pwGo hs)
  case isFalse => exact (Sequenced.setRoutes s).trans (.imgStale _)

end Sequenced

/-! ### The port itself -/

/-- A port that has lost its link: its buffers are empty, and it is not UP. -/
structure PortDown (p : Nat) (t : State) : Prop where
  down : t.dpUp p = false
  ingress : (t.dp p).ingress = []
  egress : (t.dp p).egress = []

section
variable {s t : State} {p : Nat}

theorem State.dpUp_of_lstate {v : Nat} (h : s.lstate p = v) (hv : v ≠ lsUP := by decide) : s.dpUp p = false := by
  rw [State.dpUp, beq_eq_false_iff_ne]
  exact fun h4 => hv (h.symm.trans h4)

theorem PortDown.dpEmpty (s : State) (p : Nat) : PortDown p (s.dpEmpty p) := by
  have hdp : ((s.dpEmpty p).dp p).ingress = [] ∧ ((s.dpEmpty p).dp p).egress = [] := by
    unfold State.dpEmpty State.setLstate
    rw [State.dp_congr (State.setFld_d2d _ _ _ _ _), State.dp_congr (State.setFld_d2d _ _ _ _ _),
      State.dp_congr (State.setFld_d2d _ _ _ _ _), State.dp_setDp_same]
    exact ⟨rfl, rfl⟩
  exact ⟨State.dpUp_of_lstate (State.lstate_dpEmpty_same s p), hdp.1, hdp.2⟩

/-- A port's error flags stay as it is emptied. -/
theorem State.reg_dpEmpty_dERR (s : State) (p : Nat) : (s.dpEmpty p).reg (dpReg p dERR) = s.reg (dpReg p dERR) := by
  have hne : dpReg p dERR ≠ dpReg p dSTAT := by unfold dpReg dERR dSTAT; omega
  unfold State.dpEmpty State.setLstate
  rw [State.reg_setFld_other _ _ _ _ _ _ hne, State.reg_setFld_other _ _ _ _ _ _ hne,
    State.reg_setFld_other _ _ _ _ _ _ hne, State.reg_setDp]
  exact (State.reg_count_other _ _ _ _ _ _ (ne_stopReg (dpStop_lt p) (le_dpReg p dERR) (by decide))).trans
    (reg_egLost_port (le_dpReg p dERR) p _ _ s)

/-- What leaves the port's state and its link state keeps it down. -/
theorem PortDown.congr (h : PortDown p s) (hstat : t.reg (dpReg p dSTAT) = s.reg (dpReg p dSTAT))
    (hd2d : t.d2d = s.d2d) : PortDown p t where
  down := by
    have hlink : t.dpUp p = s.dpUp p := congrArg (· == lsUP) (State.fld_congr hstat 0 3)
    rw [hlink, h.down]
  ingress := by rw [State.dp_congr hd2d, h.ingress]
  egress := by rw [State.dp_congr hd2d, h.egress]

/-- The registers of the ports, DP_CTRL apart, read after a port's fall as its emptying left them. -/
theorem State.reg_goDown (h : ¬ s.lstate p < lsTRAINING) {a : Nat} (ha : 0x400000 ≤ a) (hctrl : a ≠ dpReg p dCTRL) :
    (s.goDown p).reg a = ((s.dpEmpty p).raiseFlag (dpReg p dERR) 4).reg a := by
  unfold State.goDown
  rw [if_neg h]
  exact ((Sequenced.kbRequest_sibling _ p).reg a ha).trans
    ((State.reg_setFld_other _ _ _ _ _ _ hctrl).trans (State.reg_dpRaise_port _ p _ _ a ha))

theorem State.d2d_goDown (h : ¬ s.lstate p < lsTRAINING) : (s.goDown p).d2d = (s.dpEmpty p).d2d := by
  unfold State.goDown
  rw [if_neg h]
  exact (Sequenced.kbRequest_sibling _ p).d2d.trans ((State.setFld_d2d _ _ _ _ _).trans
    ((State.d2d_raise _ _ _).trans (State.raiseFlag_d2d _ _ _)))

theorem PortDown.goDown (h : ¬ s.lstate p < lsTRAINING) : PortDown p (s.goDown p) := by
  have hstat : dpReg p dSTAT ≠ dpReg p dCTRL ∧ dpReg p dSTAT ≠ dpReg p dERR := by
    unfold dpReg dSTAT dCTRL dERR; omega
  exact (PortDown.dpEmpty s p).congr ((State.reg_goDown h (le_dpReg p dSTAT) hstat.1).trans
    (State.reg_raiseFlag_other _ _ _ _ hstat.2)) (State.d2d_goDown h)

/-- The flag of a failed pair stays as the port goes DOWN. -/
theorem State.flag_goDown (h : ¬ s.lstate p < lsTRAINING) :
    (s.goDown p).flag (dpReg p dERR) 0 = s.flag (dpReg p dERR) 0 := by
  have hctrl : dpReg p dERR ≠ dpReg p dCTRL := by unfold dpReg dCTRL dERR; omega
  rw [State.flag_congr (State.reg_goDown h (le_dpReg p dERR) hctrl)]
  exact (State.flag_setFld_below _ _ _ _ _ _ (by decide) (by decide)).trans
    (State.flag_congr (State.reg_dpEmpty_dERR s p) 0)

/-- A port that trains again is not UP yet. -/
theorem PortDown.train (h : PortDown p s) : PortDown p ((s.setLstate p lsTRAINING).raiseFlag (dpReg p dCTRL) 1) where
  down := by
    have hne : dpReg p dSTAT ≠ dpReg p dCTRL := by unfold dpReg dSTAT dCTRL; omega
    exact State.dpUp_of_lstate ((State.fld_congr (State.reg_raiseFlag_other _ _ _ _ hne) 0 3).trans
      (State.fld_setFld_same s _ 0 3 lsTRAINING (by decide)))
  ingress := h.ingress
  egress := h.egress

theorem PortDown.retrain (h : ¬ s.lstate p < lsTRAINING) : PortDown p (s.retrain p) := by
  unfold State.retrain
  simp only
  split
  · exact (PortDown.goDown h).train
  · exact PortDown.goDown h

theorem State.flag_retrain (h : ¬ s.lstate p < lsTRAINING) :
    (s.retrain p).flag (dpReg p dERR) 0 = s.flag (dpReg p dERR) 0 := by
  have hne : dpReg p dERR ≠ dpReg p dCTRL ∧ dpReg p dERR ≠ dpReg p dSTAT := by unfold dpReg dSTAT dCTRL dERR; omega
  unfold State.retrain
  simp only
  split
  · exact (State.flag_congr ((State.reg_raiseFlag_other _ _ _ _ hne.1).trans
      (State.reg_setFld_other _ _ _ _ _ _ hne.2)) 0).trans (State.flag_goDown h)
  · exact State.flag_goDown h

end

/-- A pair that fails its check is flagged, counted and recorded. -/
def State.pairFailed (s : State) (p : Nat) : State :=
  ((s.raiseFlag (dpReg p dERR) 0).dpCnt p 6 1).dpRaise p sevCONTAINED caD2D_PCRC

theorem State.reg_pairFailed (s : State) (p : Nat) {off : Nat} (hoff : off < dCNT) :
    (s.pairFailed p).reg (dpReg p off) = (s.raiseFlag (dpReg p dERR) 0).reg (dpReg p off) :=
  (State.reg_dpRaise_port _ p _ _ _ (le_dpReg p off)).trans
    (State.reg_dpCnt_other _ _ _ _ _ (by unfold dpReg; omega))

theorem State.lstate_pairFailed (s : State) (p : Nat) : (s.pairFailed p).lstate p = s.lstate p :=
  have hne : dpReg p dSTAT ≠ dpReg p dERR := by unfold dpReg dSTAT dERR; omega
  State.fld_congr ((State.reg_pairFailed s p (by decide)).trans (State.reg_raiseFlag_other s _ _ _ hne)) 0 3

/-- A pair that fails its check takes the port DOWN (R401). -/
theorem completes_flitPairReceive_bad {p : DpNo} {x : PairIn} {s : State} (hup : s.dpUp p.val = true)
    (hbad : x.pcrc ≠ x.need ∨ 5 < x.nslot) : completes (.flitPairReceive p x) s (fun t => t.dpUp p.val = false
      ∧ t.flag (dpReg p.val dERR) 0 = true ∧ (t.dp p.val).ingress = [] ∧ (t.dp p.val).egress = []) := by
  have hexec : exec (.flitPairReceive p x) s = .next (s.keepPw ((s.pairFailed p.val).retrain p.val)) := by
    show execFlitPairReceive p x s = _
    unfold execFlitPairReceive
    simp only [hup]
    exact if_pos hbad
  have hlink : ¬ (s.pairFailed p.val).lstate p.val < lsTRAINING := by
    have hlstate : s.lstate p.val = lsUP := eq_of_beq hup
    rw [State.lstate_pairFailed, hlstate]
    decide
  have hdown := PortDown.retrain hlink
  refine ⟨_, hexec, hdown.down, ?_, hdown.ingress, hdown.egress⟩
  rw [State.flag_keepPw, State.flag_retrain hlink, State.flag_congr (State.reg_pairFailed s p.val (by decide))]
  exact State.flag_raiseFlag s _ _ (by decide)

end Sys2Proof.Machine
end

section
/-! PROOFS. The ingress side of a die-to-die port (R62, R99, R382, R383, R385, R386): which parts of the state the
injection of a slot touches, and with it the statement about flit pairs. -/
namespace Sys2Proof.Machine
open Sys2Proof

/-! ### Parts that an arriving slot touches at its target -/

theorem State.onlyParts_offer (s : State) (st port : Nat) (p : Pkt) (ctx : Option Nat) (resend : Bool) :
    onlyParts [.regs, .ni] s (s.offer st port p ctx resend) := State.onlyParts_offerOn s _ _ _ _ _ _

theorem State.onlyParts_respond (s : State) (st : Nat) (req : Slot) (opc status : Nat) :
    onlyParts [.regs, .ni] s (s.respond st req opc status) := State.onlyParts_offer s _ _ _ _ _

theorem State.onlyParts_refuseWith (s : State) (st : Nat) (req : Slot) (status : Nat) :
    onlyParts [.regs, .ni] s (s.refuseWith st req status) := by
  unfold State.refuseWith
  split
  · exact State.onlyParts_respond s _ _ _ _
  · split
    · exact onlyParts_refl _ s
    · exact State.onlyParts_respond s _ _ _ _

theorem onlyParts_setPmu (s : State) (v : PmuSt) : onlyParts [.pmu] s { s with pmu := v } := by
  intro p hp
  cases p with
  | pmu => exact absurd hp (by decide)
  | _ => rfl

theorem onlyParts_setRing (s : State) (v : RingSt) : onlyParts [.ring] s { s with ring := v } := by
  intro p hp
  cases p with
  | ring => exact absurd hp (by decide)
  | _ => rfl

theorem onlyParts_setPw (s : State) (v : PwSt) : onlyParts [.pw] s { s with pw := v } := by
  intro p hp
  cases p with
  | pw => exact absurd hp (by decide)
  | _ => rfl

theorem State.onlyParts_ev (s : State) (st code lring port : Nat) (h : BitVec 160) :
    onlyParts [.pmu] s (s.ev st code lring port h) := onlyParts_setPmu s _

theorem onlyParts_ite {c : Prop} [Decidable c] {ps : List Part} {s t u : State} (ht : onlyParts ps s t)
    (hu : onlyParts ps s u) : onlyParts ps s (if c then t else u) := by
  split <;> assumption

/-- The parts that an arriving slot may change at its target. -/
def ejectParts : List Part := [.regs, .ni, .recs, .pmu, .pw, .d2d]

section
variable (s : State) (st : Nat) (x : Slot)

theorem State.onlyParts_refused : onlyParts ejectParts s (s.refused st x) := by
  have hset (t : State) (r : Nat) (v : Retry) : onlyParts ejectParts t (t.setRetry st r v) :=
    onlyParts_mono (onlyParts_setNi t _) (by decide)
  unfold State.refused
  simp only
  split
  · exact onlyParts_step (onlyParts_step (onlyParts_step (hset s _ _) (State.onlyParts_respond _ _ _ _ _))
      (State.onlyParts_count _ _ _ _ _)) (State.onlyParts_ev _ _ _ _ _ _)
  · exact hset s _ _

/-- A refused slot is counted as well. -/
theorem State.onlyParts_refused_deflCnt (k : Nat) : onlyParts ejectParts s ((s.refused st x).deflCnt st k) :=
  onlyParts_step (State.onlyParts_refused s st x) (State.onlyParts_count _ _ _ _ _)

theorem State.onlyParts_allocReq (grnt : Bool) : onlyParts [.regs, .ni] s (s.allocReq st x grnt) := by
  have hni (t : State) (v : NiSt) : onlyParts [.regs, .ni] t { t with ni := v } :=
    onlyParts_mono (onlyParts_setNi t v) (by decide)
  have hexp (c : Prop) [Decidable c] (v : NiSt) : onlyParts [.regs, .ni] s (if c then { s with ni := v } else s) :=
    onlyParts_ite (hni s v) (onlyParts_refl _ s)
  unfold State.allocReq
  exact onlyParts_trans (onlyParts_ite (onlyParts_trans (hexp _ _) (State.onlyParts_respond _ _ _ _ _)) (hexp _ _))
    (hni _ _)

theorem State.onlyParts_ejectReq (free : Nat) (portStop again : Bool) :
    onlyParts ejectParts s (s.ejectReq st x free portStop again).2.2 := by
  have hstray : onlyParts ejectParts s (if x.grnt && !portStop then
      s.raise st (recGen 3 sevCONTAINED caGRNT_STRAY (some x.part)
        (specGen x.addr x.opc x.tag (peerOf x.sdie x.sstop x.sport) 0 0 0)) else s) :=
    onlyParts_ite (onlyParts_mono (State.onlyParts_raise s _ _) (by decide)) (onlyParts_refl _ s)
  unfold State.ejectReq
  simp only
  generalize (if (x.grnt && !portStop) = true then
      s.raise st (recGen 3 sevCONTAINED caGRNT_STRAY (some x.part)
        (specGen x.addr x.opc x.tag (peerOf x.sdie x.sstop x.sport) 0 0 0)) else s) = u at hstray ⊢
  split
  · exact onlyParts_refl _ s
  · split
    · exact onlyParts_step (onlyParts_mono (onlyParts_setNi s _) (by decide)) (State.onlyParts_allocReq _ st x true)
    · split
      · split
        · exact onlyParts_trans hstray (State.onlyParts_refused_deflCnt u st x 2)
        · exact onlyParts_trans hstray (State.onlyParts_refused_deflCnt u st x 3)
      · split
        · exact onlyParts_step hstray (State.onlyParts_allocReq u st x false)
        · split
          · exact onlyParts_trans hstray (State.onlyParts_refused_deflCnt u st x 2)
          · exact onlyParts_step hstray (State.onlyParts_count u _ _ _ _)

theorem State.onlyParts_ejectGuar : onlyParts ejectParts s (s.ejectGuar st x).2 := by
  have hni (t : State) (v : NiSt) : onlyParts ejectParts t { t with ni := v } :=
    onlyParts_mono (onlyParts_setNi t v) (by decide)
  unfold State.ejectGuar
  simp only
  split
  · exact onlyParts_step (hni s _) (State.onlyParts_count _ _ _ _ _)
  · split
    · exact hni s _
    · exact onlyParts_step (onlyParts_step (onlyParts_ite (onlyParts_trans (hni s _) (hni _ _)) (hni s _))
        (State.onlyParts_count _ _ _ _ _)) (State.onlyParts_raise _ _ _)

theorem State.onlyParts_absAnswer : onlyParts ejectParts s (s.absAnswer st x) := by
  unfold State.absAnswer
  simp only
  split
  · exact onlyParts_refl _ s
  · split
    · exact onlyParts_mono (onlyParts_setPw s _) (by decide)
    · exact onlyParts_mono (State.onlyParts_count s _ _ _ _) (by decide)

theorem State.onlyParts_absentSlot : onlyParts ejectParts s (s.absentSlot st x) := by
  have hcount := onlyParts_mono (qs := ejectParts) (State.onlyParts_count s (stopReg st sABS_CNT) 0 8 1) (by decide)
  unfold State.absentSlot
  simp only
  split
  · exact onlyParts_step hcount (State.onlyParts_count _ _ _ _ _)
  · split
    · split
      · exact onlyParts_trans hcount (State.onlyParts_absAnswer _ st x)
      · exact onlyParts_step hcount (State.onlyParts_refuseWith _ _ _ _)
    · exact hcount

theorem State.onlyParts_noPortSlot : onlyParts ejectParts s (s.noPortSlot st x) := by
  unfold State.noPortSlot
  split
  · exact onlyParts_step (onlyParts_step (onlyParts_mono (State.onlyParts_refuseWith s _ _ _) (by decide))
      (State.onlyParts_count _ _ _ _ _)) (State.onlyParts_raise _ _ _)
  · exact onlyParts_refl _ s

theorem State.onlyParts_egressAdmit (free : Nat) (again : Bool) :
    onlyParts ejectParts s (s.egressAdmit st x free again).2.2 := by
  have hcount (t : State) (a lo w n : Nat) : onlyParts ejectParts t (t.count a lo w n) :=
    onlyParts_mono (State.onlyParts_count t a lo w n) (by decide)
  unfold State.egressAdmit
  split
  · exact onlyParts_refl _ s
  · simp only
    split
    · exact onlyParts_refl _ s
    · split
      · exact State.onlyParts_ejectGuar s st x
      · split
        · split
          · exact onlyParts_refl _ s
          · exact hcount s _ _ _ _
        · split
          · exact onlyParts_refl _ s
          · split
            · split
              · exact onlyParts_refl _ s
              · split
                · exact hcount s _ _ _ _
                · split
                  · exact State.onlyParts_refused_deflCnt s st x 2
                  · exact hcount s _ _ _ _
            · split
              · exact onlyParts_refl _ s
              · have hreq := State.onlyParts_ejectReq s st x
                split
                · exact onlyParts_step (onlyParts_step (hreq _ true again) (onlyParts_setNi _ _))
                    (State.onlyParts_setDp _ _ _)
                · split
                  · exact onlyParts_trans (hreq _ true again) (hcount _ _ _ _ _)
                  · exact hreq _ true again

/-- Whatever becomes of a slot at its target. -/
theorem State.onlyParts_eject (free : Nat) (again : Bool) :
    onlyParts ejectParts s (s.eject st x free again).2.2 := by
  unfold State.eject
  split
  · exact State.onlyParts_egressAdmit s st x free again
  · split
    · exact onlyParts_refl _ s
    · split
      · exact State.onlyParts_absentSlot s st x
      · split
        · exact State.onlyParts_noPortSlot s st x
        · split
          · exact State.onlyParts_absentSlot s st x
          · split
            · exact onlyParts_refl _ s
            · split
              · exact State.onlyParts_ejectGuar s st x
              · exact State.onlyParts_ejectReq s st x free false again

end

/-! ### Parts that an injected slot touches -/

/-- The parts that a slot of a port's ingress buffer may change as it goes in. -/
def ingressParts : List Part := [.regs, .ring, .ni, .recs, .pmu, .pw, .d2d]

section
variable (s : State) (st t l : Nat) (x y : Slot)

theorem State.onlyParts_ingressFill : onlyParts [.ring, .pmu] s (s.ingressFill st l y x) :=
  onlyParts_step (onlyParts_mono (onlyParts_setRing s _) (by decide)) (State.onlyParts_ev _ _ _ _ _ _)

theorem onlyParts_escFilled : onlyParts [.regs, .pmu] s (escFilled st l y s) :=
  onlyParts_ite (onlyParts_step (onlyParts_mono (State.onlyParts_count s _ _ _ _) (by decide))
    (State.onlyParts_ev _ _ _ _ _ _)) (onlyParts_refl _ s)

theorem State.onlyParts_starveEnd (d rc : Nat) : onlyParts [.ring] s (s.starveEnd st d rc) := onlyParts_setRing s _

/-- A slot that finds a place in a run or a MGMT slot ends the starvation of its direction. -/
theorem State.onlyParts_ingressFill_starveEnd (d rc : Nat) :
    onlyParts ingressParts s ((s.ingressFill st l y x).starveEnd st d rc) :=
  onlyParts_step (onlyParts_mono (State.onlyParts_ingressFill s st l x y) (by decide))
    (State.onlyParts_starveEnd _ _ _ _)

variable {s st t x y} {u w : State}

theorem State.onlyParts_ingressBE (h : s.ingressBE st t x = (some u, w)) : onlyParts ingressParts s u := by
  have hput (m d : Nat) (v : DirSt) (rc : Nat) : onlyParts ingressParts s
      ((((escFilled st m (s.regAt st m) s).ingressFill st m (s.regAt st m) x).setDir st d v).starveEnd st d rc) :=
    onlyParts_step (onlyParts_step (onlyParts_step (onlyParts_mono (onlyParts_escFilled s _ _ _) (by decide))
      (State.onlyParts_ingressFill _ _ _ _ _)) (onlyParts_setRing _ _)) (State.onlyParts_starveEnd _ _ _ _)
  unfold State.ingressBE at h
  simp only at h
  split at h
  · cases h; exact hput _ _ _ _
  · split at h
    · cases h; exact hput _ _ _ _
    · split at h
      · cases h; exact hput _ _ _ _
      · cases h

theorem State.onlyParts_ingressMgmt (h : s.ingressMgmt st t x = some u) : onlyParts ingressParts s u := by
  unfold State.ingressMgmt at h
  simp only at h
  split at h
  · cases h; exact State.onlyParts_ingressFill_starveEnd s _ _ _ _ _ _
  · split at h
    · cases h; exact State.onlyParts_ingressFill_starveEnd s _ _ _ _ _ _
    · cases h

theorem State.onlyParts_ingressGuar (h : s.ingressGuar st t x = some u) : onlyParts ingressParts s u := by
  obtain ⟨m, _, hm⟩ := List.exists_of_findSome?_eq_some h
  simp only at hm
  split at hm
  · cases hm; exact State.onlyParts_ingressFill_starveEnd s _ _ _ _ _ _
  · cases hm

theorem State.onlyParts_ingressLoop (h : s.ingressLoop st y x = some u) : onlyParts ingressParts s u := by
  have heject := State.onlyParts_eject s st (y.fill x) (128 - s.reqUsed st) false
  unfold State.ingressLoop at h
  simp only at h
  split at h
  next hres =>
    rw [hres] at heject
    cases h
    exact onlyParts_step (onlyParts_mono heject (by decide)) (onlyParts_setRing _ _)
  next hres =>
    rw [hres] at heject
    cases h
    exact onlyParts_mono heject (by decide)
  next hres =>
    rw [hres] at heject
    cases h
    exact onlyParts_mono heject (by decide)
  next => cases h

end

/-! ### The head of a class region -/

section
variable {s v : State} {p c n : Nat} {e : IgEnt} {x : Slot} {d : DpSt}

/-- Where the head, as it is injected in `x`, goes once nothing holds it back and the frame runs. -/
def State.ingressPlace (v : State) (p c n : Nat) (e : IgEnt) (x : Slot) : State :=
  let fin : Option State → State
    | some u => u.ingressLeave p c e
    | none => v
  let st := dpStop p
  if c = 6 then
    (match v.ingressFlow st n with
     | none => (v.ingressNoFlow st x).ingressLeave p c e
     | some a =>
       if n = st then fin (v.ingressLoop st (emptySlot stGUAR (v.fld a 3 10)) x) else fin (v.ingressGuar st n x))
  else if n = st then fin (v.ingressLoop st (emptySlot stBE 0) x)
  else if c = 7 then fin (v.ingressMgmt st n x)
  else
    match v.ingressBE st n x with
    | (some u, _) => u.ingressLeave p c e
    | (none, u) => u

/-- A head that has a target, its reservation and its credit, and need not wait, goes in while the frame runs. The
definition is opened as a function and the slot made a variable before its cases are looked at: the kernel would
otherwise work out the slot's header bit by bit. -/
theorem State.ingressTry_place (hx : x = ingressSlot e.slot) (htarget : s.target x = some n)
    (hreserve : (s.dp p).reserveHead x (s.rsvDue p x) = some d)
    (hhold : x.grnt = false ∨ x.pseq ≠ 0 ∨ (s.dp p).lastInj.getD c 0 = 0)
    (hcredit : ∀ k, s.transitNeed c x = some k → 0 < Tab.get (fun _ => 0) (s.dp p).transit k) :
    s.ingressTry p c e
      = if s.frame.running then (s.setDp p d).ingressPlace p c n e x else s.setDp p d := by
  have hfree (rcs lim : Nat) : (x.grnt && x.pseq == 0
      && (s.dp p).lastInj.getD c 0 != 0 && decide (rcs + 1 < (s.dp p).lastInj.getD c 0 + lim)) = false := by
    rcases hhold with h | h | h
    · rw [h]; rfl
    · rw [beq_eq_false_iff_ne.mpr h, Bool.and_false]; rfl
    · rw [h, bne_self_eq_false, Bool.and_false]; rfl
  have hopen : ∀ f, State.ingressTry = f → f s p c e
      = if s.frame.running then (s.setDp p d).ingressPlace p c n e x else s.setDp p d := by
    intro f hf
    delta State.ingressTry at hf
    subst hf
    beta_reduce
    rw [← hx]
    clear hx
    simp only [htarget, hreserve, hfree, Bool.false_or]
    cases hrun : s.frame.running with
    | false => simp
    | true =>
      cases hk : s.transitNeed c x with
      | none =>
        simp only [Bool.not_true, Bool.or_self, Bool.false_eq_true, if_false, if_true]
        rfl
      | some k =>
        simp only [hcredit k hk, decide_true, Bool.not_true, Bool.or_self, Bool.false_eq_true, if_false, if_true]
        rfl
  exact hopen _ rfl

/-- What a slot that goes in leaves of the port (R382, R386). -/
structure HeadGone (p c : Nat) (e : IgEnt) (s u t : State) : Prop where
  ingress : (t.dp p).ingress = (s.dp p).ingress.erase e
  owed : c < 8 → (t.dp p).owed.getD c 0 = (s.dp p).owed.getD c 0 + 1
  ring : t.ring = u.ring

theorem HeadGone.ingressLeave {u : State} (hingress : (u.dp p).ingress = (s.dp p).ingress)
    (howed : (u.dp p).owed = (s.dp p).owed) (hlength : (s.dp p).owed.length = 8) :
    HeadGone p c e s u (u.ingressLeave p c e) := by
  unfold State.ingressLeave
  refine ⟨?_, fun hc => ?_, rfl⟩
  · rw [State.dp_setDp_same, ← hingress]
  · rw [State.dp_setDp_same]
    simp only [if_pos hc]
    rw [getD_set_same _ (by rw [howed, hlength]; exact hc), howed]

theorem State.onlyParts_ingressLeave (u : State) : onlyParts [.d2d] u (u.ingressLeave p c e) :=
  State.onlyParts_setDp u _ _

/-- Where the head finds its place, by the class region and the target. -/
inductive HeadPlaced (v : State) (p c n : Nat) (x : Slot) (u : State) : Prop
  | be (w : State) (hguar : c ≠ 6) (hmgmt : c ≠ 7) (hown : n ≠ dpStop p) (h : v.ingressBE (dpStop p) n x = (some u, w))
  | mgmt (hc : c = 7) (hown : n ≠ dpStop p) (h : v.ingressMgmt (dpStop p) n x = some u)
  | guar (a : Nat) (hc : c = 6) (hown : n ≠ dpStop p) (hflow : v.ingressFlow (dpStop p) n = some a)
      (h : v.ingressGuar (dpStop p) n x = some u)
  | own (hc : c ≠ 6) (hown : n = dpStop p) (h : v.ingressLoop (dpStop p) (emptySlot stBE 0) x = some u)
  | ownGuar (a : Nat) (hc : c = 6) (hown : n = dpStop p) (hflow : v.ingressFlow (dpStop p) n = some a)
      (h : v.ingressLoop (dpStop p) (emptySlot stGUAR (v.fld a 3 10)) x = some u)

theorem HeadPlaced.ingressPlace {u : State} (h : HeadPlaced v p c n x u) :
    v.ingressPlace p c n e x = u.ingressLeave p c e := by
  unfold State.ingressPlace
  cases h with
  | be w hguar hmgmt hown h => simp only [if_neg hguar, if_neg hown, if_neg hmgmt, h]
  | mgmt hc hown h =>
    subst hc
    simp only [if_neg hown, h]
    rfl
  | guar a hc hown hflow h => simp only [if_pos hc, hflow, if_neg hown, h]
  | own hc hown h => simp only [if_neg hc, if_pos hown, h]
  | ownGuar a hc hown hflow h => simp only [if_pos hc, hflow, if_pos hown, h]

theorem HeadPlaced.onlyParts {u : State} (h : HeadPlaced v p c n x u) : onlyParts ingressParts v u := by
  cases h with
  | be w hguar hmgmt hown h => exact State.onlyParts_ingressBE h
  | mgmt hc hown h => exact State.onlyParts_ingressMgmt h
  | guar a hc hown hflow h => exact State.onlyParts_ingressGuar h
  | own hc hown h => exact State.onlyParts_ingressLoop h
  | ownGuar a hc hown hflow h => exact State.onlyParts_ingressLoop h

/-- A GUAR packet that no INJ entry names is dropped and, with its first slot, counted (Table 4.9). -/
theorem State.ingressPlace_noFlow (hc : c = 6) (hflow : v.ingressFlow (dpStop p) n = none) :
    v.ingressPlace p c n e x = (v.ingressNoFlow (dpStop p) x).ingressLeave p c e := by
  unfold State.ingressPlace
  simp only [if_pos hc, hflow]

section
variable (st : Nat)

theorem State.onlyParts_ingressNoFlow : onlyParts [.regs, .recs] v (v.ingressNoFlow st x) :=
  onlyParts_ite (onlyParts_step (onlyParts_mono (State.onlyParts_count v _ _ _ _) (by decide))
    (State.onlyParts_raise _ _ _)) (onlyParts_refl _ v)

theorem State.fld_ingressNoFlow (hfirst : x.pseq = 0) :
    (v.ingressNoFlow st x).fld (stopReg st (sGUAR_CNT + 8)) 0 32
      = satAdd 32 (v.fld (stopReg st (sGUAR_CNT + 8)) 0 32) 1 := by
  have hne : stopReg st (sGUAR_CNT + 8) ≠ stopReg st sSTOP_ERR_STAT := by
    unfold stopReg sGUAR_CNT sSTOP_ERR_STAT; omega
  unfold State.ingressNoFlow
  rw [if_pos hfirst]
  exact (State.fld_congr (State.reg_raise_other _ _ _ hne) 0 32).trans (State.fld_count v _ _ _ _ (by decide))

end

/-- A head that finds no place by track, run or MGMT slot waits. -/
theorem State.ingress_ingressPlace_waits (hown : n ≠ dpStop p)
    (h : (c ≠ 6 ∧ c ≠ 7 ∧ ∃ w, v.ingressBE (dpStop p) n x = (none, w) ∧ w.d2d = v.d2d)
      ∨ (c = 7 ∧ v.ingressMgmt (dpStop p) n x = none)
      ∨ (c = 6 ∧ (v.ingressFlow (dpStop p) n).isSome = true ∧ v.ingressGuar (dpStop p) n x = none)) :
    (v.ingressPlace p c n e x).dp p = v.dp p := by
  unfold State.ingressPlace
  rcases h with ⟨hguar, hmgmt, w, hw, hd2d⟩ | ⟨hc, hnone⟩ | ⟨hc, hflow, hnone⟩
  · simp only [if_neg hguar, if_neg hown, if_neg hmgmt, hw]
    exact State.dp_congr hd2d p
  · subst hc
    simp only [if_neg hown, hnone]
    rfl
  · obtain ⟨a, ha⟩ := Option.isSome_iff_exists.mp hflow
    simp only [if_pos hc, ha, if_neg hown, hnone]

/-- Making a reservation leaves the buffers and the credit of the port. -/
theorem DpSt.reserveHead_keeps {d' : DpSt} {due : Nat} (h : d.reserveHead x due = some d') :
    d'.ingress = d.ingress ∧ d'.owed = d.owed := by
  unfold DpSt.reserveHead at h
  split at h
  · cases h; exact ⟨rfl, rfl⟩
  · split at h
    · cases h; exact ⟨rfl, rfl⟩
    · cases h

end

/-! ### D2D_INGRESS_INJECT -/

section
variable {p : DpNo} {c : Fin 9} {s v : State} {e : IgEnt} {n : Nat} {x : Slot} {d : DpSt}

/-- The region has a head that may go: its target, its reservation and its credit are there, and it need not wait. -/
structure HeadReady (p : DpNo) (c : Fin 9) (s : State) (e : IgEnt) (n : Nat) (x : Slot) (d : DpSt) : Prop where
  head : (s.dp p.val).ingress.find? (fun e => e.ccls == c.val) = some e
  slot : x = ingressSlot e.slot
  target : s.target x = some n
  reserved : (s.dp p.val).reserveHead x (s.rsvDue p.val x) = some d
  free : x.grnt = false ∨ x.pseq ≠ 0 ∨ (s.dp p.val).lastInj.getD c.val 0 = 0
  credit : ∀ k, s.transitNeed c.val x = some k → 0 < Tab.get (fun _ => 0) (s.dp p.val).transit k

theorem exec_d2dIngressInject (h : (s.dp p.val).ingress.find? (fun e => e.ccls == c.val) = some e) :
    exec (.d2dIngressInject p c) s = .next (s.keepPw (s.ingressTry p.val c.val e)) := by
  show execD2dIngressInject p c s = _
  unfold execD2dIngressInject
  simp only [h]

theorem HeadReady.exec_running (h : HeadReady p c s e n x d) (hrun : s.frame.running = true) :
    exec (.d2dIngressInject p c) s = .next (s.keepPw ((s.setDp p.val d).ingressPlace p.val c.val n e x)) := by
  rw [exec_d2dIngressInject h.head, State.ingressTry_place h.slot h.target h.reserved h.free h.credit, if_pos hrun]

theorem HeadReady.completes_placed {u : State} (h : HeadReady p c s e n x d) (hrun : s.frame.running = true)
    (hplace : HeadPlaced (s.setDp p.val d) p.val c.val n x u) (hlength : (s.dp p.val).owed.length = 8)
    (hingress : (u.dp p.val).ingress = (s.dp p.val).ingress) (howed : (u.dp p.val).owed = (s.dp p.val).owed) :
    completes (.d2dIngressInject p c) s (fun t => (t.dp p.val).ingress = (s.dp p.val).ingress.erase e
      ∧ (c.val < 8 → (t.dp p.val).owed.getD c.val 0 = (s.dp p.val).owed.getD c.val 0 + 1)
      ∧ t.ring = u.ring ∧ onlyParts [.regs, .ring, .ni, .recs, .pmu, .pw, .d2d] s t) := by
  have hgone := HeadGone.ingressLeave (c := c.val) (e := e) hingress howed hlength
  refine ⟨_, h.exec_running hrun, ?_⟩
  rw [hplace.ingressPlace]
  refine ⟨hgone.ingress, hgone.owed, hgone.ring, onlyParts_keepPw ?_⟩
  exact onlyParts_step (onlyParts_trans (onlyParts_mono (State.onlyParts_setDp s _ _) (by decide)) hplace.onlyParts)
    (State.onlyParts_ingressLeave u)

theorem HeadReady.completes_noFlow (h : HeadReady p c s e n x d) (hrun : s.frame.running = true) (hc : c.val = 6)
    (hflow : (s.setDp p.val d).ingressFlow (dpStop p.val) n = none) (hlength : (s.dp p.val).owed.length = 8) :
    completes (.d2dIngressInject p c) s (fun t => (t.dp p.val).ingress = (s.dp p.val).ingress.erase e
      ∧ (x.pseq = 0 → t.fld (stopReg (dpStop p.val) (sGUAR_CNT + 8)) 0 32
          = satAdd 32 (s.fld (stopReg (dpStop p.val) (sGUAR_CNT + 8)) 0 32) 1)
      ∧ t.ring = s.ring ∧ onlyParts [.regs, .recs, .d2d] s t) := by
  obtain ⟨hingress, howed⟩ := DpSt.reserveHead_keeps h.reserved
  have hparts := State.onlyParts_ingressNoFlow (v := s.setDp p.val d) (x := x) (dpStop p.val)
  have hdp := (State.dp_congr (hparts .d2d (by decide)) p.val).trans (State.dp_setDp_same s p.val d)
  have hgone := HeadGone.ingressLeave (s := s) (c := c.val) (e := e) (by rw [hdp, hingress]) (by rw [hdp, howed])
    hlength
  refine ⟨_, h.exec_running hrun, ?_⟩
  rw [State.ingressPlace_noFlow hc hflow]
  refine ⟨hgone.ingress, fun hfirst => State.fld_ingressNoFlow _ hfirst, ?_, onlyParts_keepPw ?_⟩
  · exact hgone.ring.trans (hparts .ring (by decide))
  · exact onlyParts_step (onlyParts_step (onlyParts_mono (State.onlyParts_setDp s _ _) (by decide)) hparts)
      (State.onlyParts_ingressLeave _)

theorem HeadReady.completes_waits (h : HeadReady p c s e n x d) (hrun : s.frame.running = true)
    (hown : n ≠ dpStop p.val)
    (hwait : (c.val ≠ 6 ∧ c.val ≠ 7 ∧ ∃ w, (s.setDp p.val d).ingressBE (dpStop p.val) n x = (none, w)
        ∧ w.d2d = (s.setDp p.val d).d2d)
      ∨ (c.val = 7 ∧ (s.setDp p.val d).ingressMgmt (dpStop p.val) n x = none)
      ∨ (c.val = 6 ∧ ((s.setDp p.val d).ingressFlow (dpStop p.val) n).isSome = true
          ∧ (s.setDp p.val d).ingressGuar (dpStop p.val) n x = none)) :
    completes (.d2dIngressInject p c) s (fun t => (t.dp p.val).ingress = (s.dp p.val).ingress) := by
  refine ⟨_, h.exec_running hrun, ?_⟩
  beta_reduce
  rw [State.dp_keepPw, State.ingress_ingressPlace_waits hown hwait, State.dp_setDp_same]
  exact (DpSt.reserveHead_keeps h.reserved).1

theorem HeadReady.completes_stopped (h : HeadReady p c s e n x d) (hrun : s.frame.running = false) :
    completes (.d2dIngressInject p c) s (fun t =>
      (t.dp p.val).ingress = (s.dp p.val).ingress ∧ onlyParts [.d2d] s t) := by
  have hstop : s.ingressTry p.val c.val e = s.setDp p.val d := by
    rw [State.ingressTry_place h.slot h.target h.reserved h.free h.credit, hrun]
    rfl
  refine ⟨_, exec_d2dIngressInject h.head, ?_⟩
  rw [hstop]
  refine ⟨?_, onlyParts_keepPw (State.onlyParts_setDp s _ _)⟩
  rw [State.dp_keepPw, State.dp_setDp_same]
  exact (DpSt.reserveHead_keeps h.reserved).1

theorem completes_d2dIngressInject_empty (h : ∀ e ∈ (s.dp p.val).ingress, e.ccls ≠ c.val) :
    completes (.d2dIngressInject p c) s (fun t => t = s) := by
  have hnone : (s.dp p.val).ingress.find? (fun e => e.ccls == c.val) = none :=
    List.find?_eq_none.mpr (fun e he hc => h e he (eq_of_beq hc))
  refine ⟨s, ?_, rfl⟩
  show execD2dIngressInject p c s = _
  unfold execD2dIngressInject
  simp only [hnone]

end

/-- Settles O50: each command by the kind of its pair, its slot or its place. That a pair returns the credit of the
first class that is owed any is log entry 64. -/
theorem flitPairsCarrySlotsAndCredit : Obligations.FlitPairsCarrySlotsAndCredit := by
  refine ⟨⟨?_, ?_, ?_, ?_, ?_⟩, ?_, ?_⟩
  · intro p s xs k n hup hmods hk hn howed hgranted
    have howedCls : k = (s.dp p.val).owedCls := hk
    subst howedCls
    have howedNum : n = (s.dp p.val).owedNum := hn
    subst howedNum
    refine ⟨fun hrot hxs hnone => ?_,
      fun e c hrot hegress hnext hcrc hlocal =>
        completes_flitPairSend_slot hup hmods hrot hegress hnext hcrc hlocal,
      fun set hrot hset hcredit hegress => completes_flitPairSend_rotate hup hmods hrot hset hcredit hegress⟩
    · subst hxs
      obtain ⟨hzero, hpos⟩ := completes_flitPairSend_credit hup hmods hrot hnone
      refine ⟨hzero, fun hn => completes_mono (hpos hn) (fun t ⟨hdp, hcount, hparts⟩ => ?_)⟩
      have hlt := (s.dp p.val).owedCls_lt
      rw [hdp]
      exact ⟨rfl, rfl, getD_set_same _ (by omega), getD_set_same _ (by omega), hcount, hparts⟩
  · intro p x s ys hup hys
    refine ⟨fun hcrc hslots hrot hcredit hlength =>
        completes_flitPairReceive_slots hup hys hcrc hslots hrot hcredit hlength,
      fun y hcrc hy hc hnone => completes_flitPairReceive_uncredited hup (hy ▸ hys) hcrc hc hnone,
      fun hbad => completes_flitPairReceive_bad hup hbad⟩
  · intro p set s hup
    exact ⟨completes_rotate_credited set hup, completes_rotate_uncredited set hup⟩
  · intro p x set s hdown
    exact completes_port_down set hdown
  · intro p eg src s f hf
    refine ⟨fun r hr => ?_, fun hnone => completes_d2dRsvExpire_none (hf.symm.trans hnone)⟩
    refine completes_mono (completes_d2dRsvExpire_some (hf.symm.trans hr)) (fun t ⟨hdp, hcount, hregs, hparts⟩ => ?_)
    rw [hdp]
    cases eg with
    | false => exact ⟨⟨rfl, rfl⟩, hcount, hregs, hparts⟩
    | true => exact ⟨⟨rfl, rfl⟩, hcount, hregs, hparts⟩
  · intro p c s e n x d v hhead hslot htarget hreserved hv hfree hcredit hlength
    subst hv
    have hready : HeadReady p c s e n x d := ⟨hhead, hslot, htarget, hreserved, hfree, hcredit⟩
    refine ⟨fun u hrun hplace hingress howed => hready.completes_placed hrun ?_ hlength hingress howed,
      fun hrun hc hflow => hready.completes_noFlow hrun hc hflow hlength,
      fun hrun hown hwait => hready.completes_waits hrun hown hwait, hready.completes_stopped⟩
    rcases hplace with ⟨hguar, hmgmt, hown, w, h⟩ | ⟨hc, hown, h⟩ | ⟨hc, hown, hflow, h⟩ | ⟨hc, hown, h⟩
      | ⟨a, hc, hown, hflow, h⟩
    · exact .be w hguar hmgmt hown h
    · exact .mgmt hc hown h
    · obtain ⟨a, ha⟩ := Option.isSome_iff_exists.mp hflow
      exact .guar a hc hown ha h
    · exact .own hc hown h
    · exact .ownGuar a hc hown hflow h
  · intro p c s h
    exact completes_d2dIngressInject_empty h

end Sys2Proof.Machine
end

section
/-! PROOFS. The clears of counters other than those of a ring and of deflections (R103, R136, R170, R196, R241, R272,
R295, R323, R347, R372, R404): counters of a word each, fields of one word, and high values that start again. -/
namespace Sys2Proof.Machine
open Sys2Proof

/-! ### Counters of a word each -/

/-- A register that can be reached takes its change. -/
theorem State.ifOpen_open {s : State} {a : Nat} (h : s.regOpen a = true) (t : State) : s.ifOpen a t = s.keepReg t :=
  if_pos h

theorem regsBut_setReg (s : State) (a : Nat) (v : Word32) : regsBut [a] s (s.setReg a v) :=
  fun b hb => State.reg_setReg_other s a b v (List.ne_of_not_mem_cons hb)

theorem regsBut_trans {as : List Nat} {s t u : State} (h : regsBut as s t) (k : regsBut as t u) : regsBut as s u :=
  fun a ha => (k a ha).trans (h a ha)

/-- A command that clears `n` counters by mask, at a unit that has power, does just that. -/
theorem completes_clearWords {m n a r : Nat} {v ev : BitVec m} {c : Instr} {s : State} (hopen : s.regOpen r = true)
    (hexec : exec c s = .next (s.ifOpen r (s.clearWords a n v ev))) :
    completes c s (fun t =>
      (∀ k, k < n → t.reg (a + 4 * k)
        = if fieldOf v k 1 = 1 then BitVec.ofNat 32 (fieldOf ev k 1) else s.reg (a + 4 * k))
      ∧ regsBut ((List.range n).map (fun k => a + 4 * k)) s t ∧ onlyParts [.regs] s t) := by
  rw [State.ifOpen_open hopen] at hexec
  refine ⟨_, hexec, fun k hk => State.reg_clearWords s a v ev hk, fun b hb => ?_,
    onlyParts_keepReg (State.onlyParts_clearWords s a v ev n)⟩
  refine State.reg_clearWords_other s a v ev fun k hk hbk => hb ?_
  exact List.mem_map.mpr ⟨k, List.mem_range.mpr hk, hbk.symm⟩

/-- A command whose change is one of registers alone, at a unit that has power. -/
theorem completes_ifOpen {P : State → Prop} {as : List Nat} {r : Nat} {c : Instr} {s t : State}
    (hopen : s.regOpen r = true) (hexec : exec c s = .next (s.ifOpen r t)) (hP : P (s.keepReg t))
    (hregs : regsBut as s t) (hparts : onlyParts [.regs] s t) :
    completes c s (fun t => P t ∧ regsBut as s t ∧ onlyParts [.regs] s t) :=
  ⟨_, hexec.trans (by rw [State.ifOpen_open hopen]), hP, hregs, onlyParts_keepReg hparts⟩

/-- A command that writes one register and nothing else. -/
theorem completes_setReg {a : Nat} {v : Word32} {c : Instr} {s : State}
    (hexec : exec c s = .next (s.keepReg (s.setReg a v))) :
    completes c s (fun t => t.reg a = v ∧ regsBut [a] s t ∧ onlyParts [.regs] s t) :=
  ⟨_, hexec, State.reg_setReg_same s a v, regsBut_setReg s a v, onlyParts_keepReg (onlyParts_setReg s a v)⟩

/-! ### Fields of DEC_CNT -/

section
variable (s : State) (st : Nat) (v ev : BitVec 4)

/-- The fields below `n` of DEC_CNT, cleared by mask. -/
def State.decClears (n : Nat) : State :=
  forUpTo n (fun k s => if clears v k then s.setFld (stopReg st sDEC_CNT) (8 * k) 8 (fieldOf ev k 1) else s) s

theorem State.decClears_succ (n : Nat) : s.decClears st v ev (n + 1) = if clears v n
    then (s.decClears st v ev n).setFld (stopReg st sDEC_CNT) (8 * n) 8 (fieldOf ev n 1)
    else s.decClears st v ev n := forUpTo_succ n _ s

/-- A field that is not yet cleared stays. -/
theorem State.fld_decClears_above {n k : Nat} (hn : n ≤ 4) (hk : n ≤ k) :
    (s.decClears st v ev n).fld (stopReg st sDEC_CNT) (8 * k) 8 = s.fld (stopReg st sDEC_CNT) (8 * k) 8 := by
  refine forUpTo_same (fun t : State => t.fld (stopReg st sDEC_CNT) (8 * k) 8) n _ s fun j t hj => ?_
  split
  · exact State.fld_setFld_above t _ _ _ _ _ _ (by omega) (by omega)
  · rfl

/-- A field of DEC_CNT whose bit is 1 holds the event of its rc, every other one stays (R61, R241). -/
theorem State.fld_decClears {n k : Nat} (hn : n ≤ 4) (hk : k < n) :
    (s.decClears st v ev n).fld (stopReg st sDEC_CNT) (8 * k) 8
      = if fieldOf v k 1 = 1 then fieldOf ev k 1 else s.fld (stopReg st sDEC_CNT) (8 * k) 8 := by
  induction n with
  | zero => omega
  | succ n ih =>
    rw [State.decClears_succ]
    simp only [clears_iff]
    rcases Nat.lt_succ_iff_lt_or_eq.mp hk with hlt | rfl
    · rw [← ih (by omega) hlt]
      split
      · exact State.fld_setFld_below _ _ _ _ _ _ _ (by omega) (by omega)
      · rfl
    · have hev : fieldOf ev k 1 % 2 ^ 8 = fieldOf ev k 1 := Nat.mod_eq_of_lt ((fieldOf_lt ev k 1).trans (by decide))
      split
      · rw [State.fld_setFld_same _ _ _ _ _ (by omega), hev]
      · exact State.fld_decClears_above s st v ev (by omega) (le_refl k)

theorem State.regsBut_decClears (n : Nat) : regsBut [stopReg st sDEC_CNT] s (s.decClears st v ev n) := by
  refine forUpTo_keeps (fun t => regsBut [stopReg st sDEC_CNT] s t) n _ s (fun k t _ h => ?_) fun _ _ => rfl
  split
  · exact regsBut_trans h (regsBut_setReg t _ _)
  · exact h

theorem State.onlyParts_decClears (n : Nat) : onlyParts [.regs] s (s.decClears st v ev n) := by
  refine forUpTo_keeps (fun t => onlyParts [.regs] s t) n _ s (fun k t _ h => ?_) (onlyParts_refl _ s)
  split
  · exact onlyParts_setReg_of h (by decide) _ _
  · exact h

end

/-! ### The counters of an agent port, and high values -/

section
variable {s : State} {st : StopNo}

/-- The clear of PORT_CNT2 writes the two fields of counts one after the other. -/
theorem State.reg_portCnt2Clr (s : State) (st k : Nat) (ev : BitVec 2) :
    (s.portCnt2Clr st k ev).reg (portReg st k pCNT2)
      = withField (withField (s.reg (portReg st k pCNT2)) 16 8 (fieldOf ev 0 1)) 24 7 (fieldOf ev 1 1) := by
  unfold State.portCnt2Clr
  rw [State.reg_setFld_same, State.reg_setFld_same]

theorem State.regsBut_portCnt2Clr (s : State) (st k : Nat) (ev : BitVec 2) :
    regsBut [portReg st k pCNT2] s (s.portCnt2Clr st k ev) :=
  regsBut_trans (regsBut_setReg s _ _) (regsBut_setReg _ _ _)

theorem State.onlyParts_portCnt2Clr (s : State) (st k : Nat) (ev : BitVec 2) :
    onlyParts [.regs] s (s.portCnt2Clr st k ev) :=
  onlyParts_setReg_of (onlyParts_setReg s _ _) (by decide) _ _

theorem exec_portCnt2Clear {k : PortNo} (ev : BitVec 2) (hk : portGen st.val k.val ≠ 0) :
    exec (.portCnt2Clear st ⟨k, ev⟩) s
      = .next (s.ifOpen (portReg st.val k.val pCNT2) (s.portCnt2Clr st.val k.val ev)) := by
  change execPortCnt2Clear st ⟨k, ev⟩ s = _
  exact if_neg hk

/-- The registers of PORT_CDC_CNT_CLEAR: two fields of PORT_CDC_CNT and the upper half of PORT_CDC_STAT (R347). -/
def State.cdcCntClr (s : State) (st k : Nat) (ev : BitVec 3) : State :=
  ((s.setFld (portReg st k pCDC_CNT) 0 16 (fieldOf ev 0 1)).setFld (portReg st k pCDC_CNT) 16 15
    (fieldOf ev 1 1)).setFld (portReg st k pCDC_STAT) 16 16 (fieldOf ev 2 1)

theorem exec_portCdcCntClear {k : PortNo} (ev : BitVec 3) (hk : portGen st.val k.val ≠ 0)
    (hon : s.niOn st.val = true) :
    exec (.portCdcCntClear st ⟨k, ev⟩) s = .next { s with regs := (s.cdcCntClr st.val k.val ev).regs } := by
  change execPortCdcCntClear st ⟨k, ev⟩ s = _
  unfold execPortCdcCntClear
  simp only [hon, hk, decide_false, Bool.not_true, Bool.or_self, Bool.false_eq_true, if_false]
  rfl

theorem cdcStat_ne_cdcCnt (st k : Nat) : portReg st k pCDC_STAT ≠ portReg st k pCDC_CNT := by
  unfold portReg stopReg pCDC_STAT pCDC_CNT
  omega

/-- Each crossing counter holds the event of its rc; the flags beside WAKE_CNT stay. -/
theorem State.fld_cdcCntClr (s : State) (st k : Nat) (ev : BitVec 3) :
    (s.cdcCntClr st k ev).fld (portReg st k pCDC_CNT) 0 16 = fieldOf ev 0 1
      ∧ (s.cdcCntClr st k ev).fld (portReg st k pCDC_CNT) 16 15 = fieldOf ev 1 1
      ∧ (s.cdcCntClr st k ev).fld (portReg st k pCDC_STAT) 16 16 = fieldOf ev 2 1
      ∧ (s.cdcCntClr st k ev).fld (portReg st k pCDC_STAT) 0 16 = s.fld (portReg st k pCDC_STAT) 0 16 := by
  have hev (i : Nat) {w : Nat} (hw : 2 ^ 1 ≤ 2 ^ w) : fieldOf ev i 1 % 2 ^ w = fieldOf ev i 1 :=
    Nat.mod_eq_of_lt ((fieldOf_lt ev i 1).trans_le hw)
  have hne := cdcStat_ne_cdcCnt st k
  unfold State.cdcCntClr
  refine ⟨?_, ?_, ?_, ?_⟩
  · rw [State.fld_setFld_other _ _ _ _ _ _ _ _ hne.symm, State.fld_setFld_below _ _ _ _ _ _ _ (by decide) (by decide),
      State.fld_setFld_same _ _ _ _ _ (by decide), hev 0 (by decide)]
  · rw [State.fld_setFld_other _ _ _ _ _ _ _ _ hne.symm, State.fld_setFld_same _ _ _ _ _ (by decide), hev 1 (by decide)]
  · rw [State.fld_setFld_same _ _ _ _ _ (by decide), hev 2 (by decide)]
  · rw [State.fld_setFld_below _ _ _ _ _ _ _ (by decide) (by decide), State.fld_setFld_other _ _ _ _ _ _ _ _ hne,
      State.fld_setFld_other _ _ _ _ _ _ _ _ hne]

theorem State.regsBut_cdcCntClr (s : State) (st k : Nat) (ev : BitVec 3) :
    regsBut [portReg st k pCDC_CNT, portReg st k pCDC_STAT] s (s.cdcCntClr st k ev) := by
  intro a ha
  obtain ⟨hcnt, hstat⟩ : a ≠ portReg st k pCDC_CNT ∧ a ≠ portReg st k pCDC_STAT := by simpa using ha
  unfold State.cdcCntClr
  rw [State.reg_setFld_other _ _ _ _ _ _ hstat, State.reg_setFld_other _ _ _ _ _ _ hcnt,
    State.reg_setFld_other _ _ _ _ _ _ hcnt]

theorem State.fld_setRegs (s t : State) (a lo w : Nat) :
    ({ s with regs := t.regs } : State).fld a lo w = t.fld a lo w := rfl

theorem regsBut_setRegs {as : List Nat} {s t : State} (h : regsBut as s t) : regsBut as s { s with regs := t.regs } := h

theorem onlyParts_setRegs (s : State) (r : Tab Word32) : onlyParts [.regs] s { s with regs := r } := by
  intro p hp
  cases p with
  | regs => exact absurd List.mem_cons_self hp
  | _ => rfl

/-- Beside the register that names the queue, INJQ_HWM_CLEAR changes the high values of that queue alone (R136). -/
theorem State.hwm_injqHwmClr (s : State) (st q : Nat) :
    Tab.get (fun _ => (0, 0)) (s.injqHwmClr st q).ni.hwm (st * 512 + q) = (occOf (s.injq st q), 0)
      ∧ ∀ n, n ≠ st * 512 + q →
          Tab.get (fun _ => (0, 0)) (s.injqHwmClr st q).ni.hwm n = Tab.get (fun _ => (0, 0)) s.ni.hwm n :=
  ⟨Tab.get_set_same _ _ _ _, fun _ h => Tab.get_set_other _ _ _ _ _ h⟩

theorem State.injqHwmCleared {a st q : Nat} {v : Word32} {t : State}
    (ht : t = s.keepReg ((s.setReg a v).injqHwmClr st q)) :
    Tab.get (fun _ => (0, 0)) t.ni.hwm (st * 512 + q) = (occOf (s.injq st q), 0)
      ∧ (∀ n, n ≠ st * 512 + q → Tab.get (fun _ => (0, 0)) t.ni.hwm n = Tab.get (fun _ => (0, 0)) s.ni.hwm n)
      ∧ t.reg a = v ∧ regsBut [a] s t ∧ onlyParts [.regs, .ni] s t := by
  subst ht
  obtain ⟨hsame, hother⟩ := State.hwm_injqHwmClr (s.setReg a v) st q
  refine ⟨hsame, hother, State.reg_setReg_same s a v, regsBut_setReg s a v, onlyParts_keepReg ?_⟩
  exact onlyParts_trans (onlyParts_mono (onlyParts_setReg s a v) (by decide))
    (onlyParts_mono (onlyParts_setNi _ _) (by decide))

theorem exec_injqHwmClear (q : Fin 512) (hopen : s.regOpen (stopReg st.val sINJQ_SEL) = true) :
    exec (.injqHwmClear st q) s = .next (s.keepReg ((s.setReg (stopReg st.val sINJQ_SEL)
      (BitVec.ofNat 32 q.val)).injqHwmClr st.val (8 * (q.val % 64) + q.val / 64))) :=
  congrArg Host.Outcome.next (State.ifOpen_open hopen _)

theorem exec_injStoreHwmClear (hopen : s.regOpen (stopReg st.val sINJ_STORE) = true) :
    exec (.injStoreHwmClear st) s = .next (s.keepReg (s.setReg (stopReg st.val sINJ_STORE)
      (withField (s.reg (stopReg st.val sINJ_STORE)) 16 10 (s.injUsed st.val)))) :=
  congrArg Host.Outcome.next (State.ifOpen_open hopen _)

theorem exec_absCntClear (st : StopNo) (ev : Bool) (s : State) : exec (.absCntClear ⟨st, ev⟩) s
    = .next (s.keepReg (s.setReg (stopReg st.val sABS_CNT) (BitVec.ofNat 32 (boolNat ev)))) := rfl

theorem exec_decCntClear (st : StopNo) (v ev : BitVec 4) (s : State) : exec (.decCntClear st ⟨v, ev⟩) s
    = .next (s.ifOpen (stopReg st.val sDEC_CNT) (s.decClears st.val v ev 4)) := rfl

end

/-- Settles O28: a command that clears words is `State.clearWords` at a unit that has power; the others write fields of
one or two registers, or the high values of one queue. -/
theorem otherCountersClear : Obligations.OtherCountersClear := by
  unfold Obligations.OtherCountersClear
  refine ⟨fun _ _ _ _ hopen => completes_clearWords hopen rfl, fun _ _ _ _ hopen => completes_clearWords hopen rfl,
    fun _ _ _ _ hopen => completes_clearWords hopen rfl, fun _ _ _ _ hopen => completes_clearWords hopen rfl,
    fun _ _ _ _ hopen => completes_clearWords hopen rfl, fun _ _ _ _ hopen => completes_clearWords hopen rfl,
    fun st v ev s hopen => ?_, fun st ev s => ?_, fun st k ev s hk hopen => ?_, fun st k ev s hk hon => ?_,
    fun st s hopen => ?_, fun st q s hopen => ?_⟩
  · refine completes_ifOpen hopen (exec_decCntClear st v ev s) (fun k hk => ?_)
      (State.regsBut_decClears s st.val v ev 4) (State.onlyParts_decClears s st.val v ev 4)
    rw [State.fld_keepReg]
    exact State.fld_decClears s st.val v ev (le_refl 4) hk
  · exact completes_setReg (exec_absCntClear st ev s)
  · refine completes_ifOpen hopen (exec_portCnt2Clear ev hk) ?_ (State.regsBut_portCnt2Clr s st.val k.val ev)
      (State.onlyParts_portCnt2Clr s st.val k.val ev)
    rw [State.reg_keepReg]
    exact State.reg_portCnt2Clr s st.val k.val ev
  · obtain ⟨hdisc, hstop, hwake, hflags⟩ := State.fld_cdcCntClr s st.val k.val ev
    refine ⟨_, exec_portCdcCntClear ev hk hon, ?_⟩
    simp only [State.fld_setRegs]
    exact ⟨hdisc, hstop, hwake, hflags, regsBut_setRegs (State.regsBut_cdcCntClr s st.val k.val ev),
      onlyParts_setRegs s _⟩
  · exact completes_setReg (exec_injStoreHwmClear hopen)
  · exact ⟨_, exec_injqHwmClear q hopen, State.injqHwmCleared rfl⟩

end Sys2Proof.Machine
end

section
/-! PROOFS. The target side of an agent port (R101, R145, R149, R152, R158, R160, R161, R163, R197 to R199, R329): the
beats a channel carries, what an answer leaves of a port, and the requests, responses and notifications there. -/
namespace Sys2Proof.Machine
open Sys2Proof

/-! ### The beats of an outward channel -/

/-- The channels in the order of their numbers. -/
def allChans : List Chan := [.req, .dat, .msg, .rsp] ++ outChans

theorem allChans_getD_chanCode (c : Chan) : allChans.getD (chanCode c) .req = c := by cases c <;> rfl

theorem chanCode_inj {c d : Chan} (h : chanCode c = chanCode d) : c = d := by
  rw [← allChans_getD_chanCode c, h, allChans_getD_chanCode]

theorem PortSt.fifo_setFifo_same (v : PortSt) (c : Chan) (f : Fifo) : (v.setFifo c f).fifo c = f :=
  Tab.get_set_same _ _ _ _

theorem PortSt.fifo_setFifo_other (v : PortSt) {c d : Chan} (f : Fifo) (h : d ≠ c) :
    (v.setFifo c f).fifo d = v.fifo d :=
  Tab.get_set_other _ _ _ _ _ fun hcode => h (chanCode_inj hcode)

theorem PortSt.queued_setFifo_same (v : PortSt) (c : Chan) (f : Fifo) : (v.setFifo c f).queued c = f.ents ++ f.send := by
  unfold PortSt.queued
  rw [PortSt.fifo_setFifo_same]

theorem PortSt.queued_setFifo_other (v : PortSt) {c d : Chan} (f : Fifo) (h : d ≠ c) :
    (v.setFifo c f).queued d = v.queued d := by
  unfold PortSt.queued
  rw [PortSt.fifo_setFifo_other v f h]

/-- The beats of one channel, handed to it behind what it carries. -/
def PortSt.driveOn (bs : List OutBeat) (v : PortSt) (c : Chan) : PortSt :=
  let mine := bs.filter (fun b => b.chan == c)
  if mine.isEmpty then v else v.setFifo c { v.fifo c with send := (v.fifo c).send ++ mine }

theorem PortSt.drive_eq (v : PortSt) (bs : List OutBeat) : v.drive bs = outChans.foldl (PortSt.driveOn bs) v := rfl

theorem PortSt.queued_driveOn_same (v : PortSt) (bs : List OutBeat) (c : Chan) :
    (v.driveOn bs c).queued c = v.queued c ++ bs.filter (fun b => b.chan == c) := by
  unfold PortSt.driveOn
  simp only
  split
  case isTrue h => rw [List.isEmpty_iff.mp h, List.append_nil]
  case isFalse => rw [PortSt.queued_setFifo_same, ← List.append_assoc]; rfl

theorem PortSt.queued_driveOn_other (v : PortSt) (bs : List OutBeat) {c d : Chan} (h : d ≠ c) :
    (v.driveOn bs c).queued d = v.queued d := by
  unfold PortSt.driveOn
  simp only
  split
  · rfl
  · exact PortSt.queued_setFifo_other v _ h

/-- Beats handed to some channels, each once, stand behind what those carried. -/
theorem PortSt.queued_driveOns (bs : List OutBeat) {d : Chan} {cs : List Chan} (hcs : cs.Nodup) (v : PortSt) :
    (cs.foldl (PortSt.driveOn bs) v).queued d
      = v.queued d ++ (if d ∈ cs then bs.filter (fun b => b.chan == d) else []) := by
  induction cs generalizing v with
  | nil => simp
  | cons c cs ih =>
    obtain ⟨hc, hrest⟩ := List.nodup_cons.mp hcs
    rw [List.foldl_cons, ih hrest]
    by_cases hd : d = c
    · subst hd
      rw [PortSt.queued_driveOn_same, if_neg hc, if_pos List.mem_cons_self, List.append_nil]
    · rw [PortSt.queued_driveOn_other v bs hd]
      simp only [List.mem_cons, hd, false_or]

theorem PortSt.queued_drive (v : PortSt) (bs : List OutBeat) {c : Chan} (hc : c ∈ outChans) :
    (v.drive bs).queued c = v.queued c ++ bs.filter (fun b => b.chan == c) := by
  rw [PortSt.drive_eq, PortSt.queued_driveOns bs (by decide), if_pos hc]

/-- A FIFO that takes what it has entries for carries the same beats. -/
theorem Fifo.beats_fill (n : Nat) (f : Fifo) : (f.fill n).ents ++ (f.fill n).send = f.ents ++ f.send := by
  unfold Fifo.fill
  simp only
  rw [List.append_assoc, List.take_append_drop]

/-- One channel's FIFO takes what it has entries for. -/
def PortSt.fillOn (depth : Chan → Nat) (v : PortSt) (c : Chan) : PortSt :=
  if (v.fifo c).send.isEmpty then v else v.setFifo c ((v.fifo c).fill (depth c))

theorem PortSt.queued_fillOn (depth : Chan → Nat) (v : PortSt) (c d : Chan) :
    (v.fillOn depth c).queued d = v.queued d := by
  unfold PortSt.fillOn
  split
  · rfl
  · by_cases h : d = c
    · subst h
      rw [PortSt.queued_setFifo_same, Fifo.beats_fill]
      rfl
    · exact PortSt.queued_setFifo_other v _ h

/-- The outward FIFOs of a port, once they have taken what they have entries for. -/
def PortSt.fillAll (depth : Chan → Nat) (v : PortSt) : PortSt := outChans.foldl (PortSt.fillOn depth) v

/-- A port with another count of entries reserved for its response. -/
def PortSt.setSendResv (v : PortSt) (n : Nat) : PortSt := { v with sendResv := n }

/-- The port after its outward FIFOs have taken what they have entries for (R176). -/
def PortSt.filled (depth : Chan → Nat) (v : PortSt) : PortSt :=
  (v.fillAll depth).setSendResv
    (if ((v.fillAll depth).fifo .orsp).send.isEmpty then 0 else (v.fillAll depth).sendResv)

theorem State.drive_eq (s : State) (st k : Nat) (bs : List OutBeat) : s.drive st k bs
    = (s.setPort st k ((s.port st k).drive bs)).setPort st k
        (((s.setPort st k ((s.port st k).drive bs)).port st k).filled
          ((s.setPort st k ((s.port st k).drive bs)).chanDepth st k)) := rfl

theorem PortSt.queued_fillAll (depth : Chan → Nat) (v : PortSt) (c : Chan) : (v.fillAll depth).queued c = v.queued c :=
  foldl_same (fun w : PortSt => w.queued c) outChans (PortSt.fillOn depth) v
    fun w d => PortSt.queued_fillOn depth w d c

theorem PortSt.queued_setSendResv (v : PortSt) (n : Nat) (c : Chan) : (v.setSendResv n).queued c = v.queued c := rfl

theorem PortSt.ntf_setSendResv (v : PortSt) (n : Nat) : (v.setSendResv n).ntf = v.ntf := rfl

theorem PortSt.queued_filled (depth : Chan → Nat) (v : PortSt) (c : Chan) : (v.filled depth).queued c = v.queued c := by
  unfold PortSt.filled
  rw [PortSt.queued_setSendResv, PortSt.queued_fillAll]

theorem PortSt.ntf_fillOn (depth : Chan → Nat) (v : PortSt) (c : Chan) : (v.fillOn depth c).ntf = v.ntf := by
  unfold PortSt.fillOn
  split <;> rfl

/-- The notify stage is no FIFO. -/
theorem PortSt.ntf_fillAll (depth : Chan → Nat) (v : PortSt) : (v.fillAll depth).ntf = v.ntf :=
  foldl_same (fun w : PortSt => w.ntf) outChans (PortSt.fillOn depth) v fun w d => PortSt.ntf_fillOn depth w d

theorem PortSt.ntf_filled (depth : Chan → Nat) (v : PortSt) : (v.filled depth).ntf = v.ntf := by
  unfold PortSt.filled
  rw [PortSt.ntf_setSendResv, PortSt.ntf_fillAll]

theorem PortSt.ntf_drive (v : PortSt) (bs : List OutBeat) : (v.drive bs).ntf = v.ntf := by
  refine foldl_same (fun w : PortSt => w.ntf) outChans (PortSt.driveOn bs) v fun w d => ?_
  unfold PortSt.driveOn
  simp only
  split <;> rfl

section
variable (s : State) (st k : Nat) (bs : List OutBeat)

/-- What a port drives stands behind what its channel carried. -/
theorem State.queued_drive {c : Chan} (hc : c ∈ outChans) : ((s.drive st k bs).port st k).queued c
    = (s.port st k).queued c ++ bs.filter (fun b => b.chan == c) := by
  rw [State.drive_eq, State.port_setPort_same, PortSt.queued_filled, State.port_setPort_same, PortSt.queued_drive _ _ hc]

theorem State.ntf_drive : ((s.drive st k bs).port st k).ntf = (s.port st k).ntf := by
  rw [State.drive_eq, State.port_setPort_same, PortSt.ntf_filled, State.port_setPort_same, PortSt.ntf_drive]

theorem State.onlyParts_setPort (v : PortSt) : onlyParts [.ni] s (s.setPort st k v) := onlyParts_setNi s _

theorem State.inbox_setPort (v : PortSt) (a b : Nat) : (s.setPort st k v).inbox a b = s.inbox a b := rfl

theorem State.ttxns_setPort (v : PortSt) (a b : Nat) : (s.setPort st k v).ttxns a b = s.ttxns a b := rfl

theorem State.inbox_drive (a b : Nat) : (s.drive st k bs).inbox a b = s.inbox a b := by
  rw [State.drive_eq, State.inbox_setPort, State.inbox_setPort]

theorem State.ttxns_drive (a b : Nat) : (s.drive st k bs).ttxns a b = s.ttxns a b := by
  rw [State.drive_eq, State.ttxns_setPort, State.ttxns_setPort]

theorem State.onlyParts_drive : onlyParts [.ni] s (s.drive st k bs) := by
  rw [State.drive_eq]
  exact onlyParts_trans (State.onlyParts_setPort s st k _) (State.onlyParts_setPort _ st k _)

end

theorem OutBeat.chan_withPar (n : Nat) (b : OutBeat) : (b.withPar n).chan = b.chan := by cases b <;> rfl

theorem OutBeat.chan_seal (gen : Nat) (inv : Bool) (b : OutBeat) : (b.seal gen inv).chan = b.chan := by
  unfold OutBeat.seal
  split
  · rfl
  · exact OutBeat.chan_withPar _ b

/-! ### What an answer leaves of a port -/

/-- Of a port nothing but its lock, and of what stands there neither the packets delivered nor the requests at its
agent, differs between `s` and `t`. -/
structure PortKept (st k : Nat) (s t : State) : Prop where
  inbox : t.inbox st k = s.inbox st k
  ttxns : t.ttxns st k = s.ttxns st k
  port : ∃ o, t.port st k = { s.port st k with lockedBy := o }

namespace PortKept
variable {st k : Nat} {s t u : State}

theorem of_ni (h : t.ni = s.ni) : PortKept st k s t where
  inbox := by unfold State.inbox; rw [h]
  ttxns := by unfold State.ttxns; rw [h]
  port := ⟨(s.port st k).lockedBy, by unfold State.port; rw [h]⟩

theorem refl (s : State) : PortKept st k s s := of_ni rfl

theorem trans (h : PortKept st k s t) (h' : PortKept st k t u) : PortKept st k s u where
  inbox := h'.inbox.trans h.inbox
  ttxns := h'.ttxns.trans h.ttxns
  port := by
    obtain ⟨o, ho⟩ := h.port
    obtain ⟨o', ho'⟩ := h'.port
    exact ⟨o', by rw [ho', ho]⟩

theorem ite {c : Prop} [Decidable c] (ht : PortKept st k s t) (hu : PortKept st k s u) :
    PortKept st k s (if c then t else u) := by
  split <;> assumption

theorem queued (h : PortKept st k s t) (c : Chan) : (t.port st k).queued c = (s.port st k).queued c := by
  obtain ⟨o, ho⟩ := h.port
  rw [ho]
  rfl

theorem ntf (h : PortKept st k s t) : (t.port st k).ntf = (s.port st k).ntf := by
  obtain ⟨o, ho⟩ := h.port
  rw [ho]

theorem state (h : PortKept st k s t) : (t.port st k).state = (s.port st k).state := by
  obtain ⟨o, ho⟩ := h.port
  rw [ho]

theorem brokenFor (h : PortKept st k s t) : (t.port st k).brokenFor = (s.port st k).brokenFor := by
  obtain ⟨o, ho⟩ := h.port
  rw [ho]

theorem raise (s : State) (a : Nat) (r : RecIn) : PortKept st k s (s.raise a r) := of_ni (State.ni_raise s a r)

theorem offer (s : State) (a port : Nat) (p : Pkt) (ctx : Option Nat) (resend : Bool) :
    PortKept st k s (s.offer a port p ctx resend) where
  inbox := State.inbox_offer s a port p ctx resend st k
  ttxns := congrArg (fun t => Tab.get (fun _ => []) t (st * 2 + k))
    (State.offer_ni_keeps (g := NiSt.ttxns) (fun _ _ _ _ => rfl) s a port p ctx resend)
  port := ⟨(s.port st k).lockedBy, congrArg (fun t => Tab.get defPort t (st * 2 + k))
    (State.offer_ni_keeps (g := NiSt.ports) (fun _ _ _ _ => rfl) s a port p ctx resend)⟩

theorem endLock (s : State) (h : Slot) : PortKept st k s (s.endLock st k h) := by
  unfold State.endLock
  refine ite ⟨rfl, rfl, none, ?_⟩ (refl s)
  exact State.port_setPort_same s st k _

theorem answerSelf (s : State) (a : Nat) (d : Deliv) (status : Nat) : PortKept st k s (s.answerSelf a d status) :=
  offer s _ _ _ _ _

theorem targetNotice (s : State) (a : Nat) (h : Slot) (status : Nat) : PortKept st k s (s.targetNotice a h status) :=
  raise s _ _

/-- Poison that is not handed on is recorded, and answered or noticed in place of its agent (R161, R199). -/
theorem dropPoison (s : State) (d : Deliv) : PortKept st k s (s.dropPoison st k d) :=
  (raise s _ _).trans (((ite (answerSelf _ _ _ _) (ite (answerSelf _ _ _ _) (ite (targetNotice _ _ _ _) (refl _)))).trans
    (endLock _ _)))

end PortKept

/-! ### What a command of a port may change -/

theorem onlyParts_keepPort (s t : State) : onlyParts [.regs, .ni, .recs, .pmu, .free] s (s.keepPort t) := by
  intro p hp
  cases p with
  | regs | ni | recs | pmu | free => exact absurd hp (by decide)
  | _ => rfl

/-- The bound of a port's commands adds no part to what a command changed. -/
theorem onlyParts_keepPort_of {ps : List Part} {s t : State} (h : onlyParts ps s t) :
    onlyParts ps s (s.keepPort t) := by
  intro p hp
  have hst := h p hp
  cases p with
  | regs | ni | recs | pmu | free => exact hst
  | _ => rfl

section
variable (s t : State) (a b : Nat)

@[simp] theorem State.keepPort_self : s.keepPort s = s := rfl
@[simp] theorem State.inbox_keepPort : (s.keepPort t).inbox a b = t.inbox a b := rfl
@[simp] theorem State.ttxns_keepPort : (s.keepPort t).ttxns a b = t.ttxns a b := rfl
@[simp] theorem State.port_keepPort : (s.keepPort t).port a b = t.port a b := rfl
@[simp] theorem State.flag_keepPort : (s.keepPort t).flag a b = t.flag a b := rfl

end

/-! ### Requests to the agent -/

/-- The request as its port holds it under a target tag (R152). -/
def State.heldReq (s : State) (st k : Nat) (d : Deliv) : TTxn :=
  { ttag := if portGen st k = 1 then 0 else freeTtag (s.ttxns st k), head := d.slots.getLastD (Pkt.head d.slots)
    bursts := (outBursts (portGen st k) (Pkt.head d.slots)).length, status := stOK, data := [], stamp := d.arr }

section
variable {s : State} {st : StopNo} {k : PortNo} {d : Deliv} {i : Nat}

theorem exec_oreqDeliver (hgen : portGen st.val k.val ≠ 0) (hopen : (s.port st.val k.val).state = 2)
    (hstop : (s.port st.val k.val).stopLvl = false) :
    exec (.oreqDeliver st k) s = .next (s.keepPort (s.oreqDeliver st.val k.val)) := by
  change execOreqDeliver st k s = _
  unfold execOreqDeliver
  rw [if_neg hgen, if_neg (by simp [hopen, hstop])]

end

section
variable {s : State} {st k : Nat} {d : Deliv} {i : Nat} (hnext : s.nextDeliv st k = some (d, i))
include hnext

/-- The packet that goes next has left the inbox. -/
theorem State.oreqDeliver_broken
    (hbroken : (s.port st k).brokenFor.contains { (Pkt.head d.slots).src with tag := 0 } = true) :
    ∃ t, s.oreqDeliver st k = t ∧ PortKept st k ((s.setInbox st k ((s.inbox st k).eraseIdx i)).setPort st k
      { s.port st k with
        brokenFor := (s.port st k).brokenFor.erase { (Pkt.head d.slots).src with tag := 0 } }) t := by
  refine ⟨_, rfl, ?_⟩
  unfold State.oreqDeliver
  rw [hnext]
  simp only [hbroken, if_true]
  exact .ite (.answerSelf _ _ _ _) (.ite (.targetNotice _ _ _ _) (.refl _))

/-- An ATOM at a GLP-2 port and data that the port cannot hand on poisoned leave the inbox, and the port as it was. -/
theorem State.oreqDeliver_dropped
    (hbroken : (s.port st k).brokenFor.contains { (Pkt.head d.slots).src with tag := 0 } = false)
    (hdrop : ((Pkt.head d.slots).opc = opATOM ∧ portGen st k = 1)
      ∨ (opCarriesData (Pkt.head d.slots).opc = true ∧ (Pkt.head d.slots).attrBit attrPois = true
        ∧ s.poisonOk st k = false)) :
    PortKept st k (s.setInbox st k ((s.inbox st k).eraseIdx i)) (s.oreqDeliver st k) := by
  unfold State.oreqDeliver
  rw [hnext]
  simp only [hbroken, Bool.false_eq_true, if_false]
  by_cases hatom : (Pkt.head d.slots).opc = opATOM ∧ portGen st k = 1
  · rw [if_pos hatom]
    exact .answerSelf _ _ _ _
  · obtain ⟨hdata, hpois, hok⟩ := hdrop.resolve_left hatom
    rw [if_neg hatom, if_pos (by simp [hdata, hpois, hok])]
    exact .dropPoison _ _

variable (hbroken : (s.port st k).brokenFor.contains { (Pkt.head d.slots).src with tag := 0 } = false)
  (hatom : (Pkt.head d.slots).opc = opATOM → portGen st k ≠ 1)
  (hpois : opCarriesData (Pkt.head d.slots).opc = true → (Pkt.head d.slots).attrBit attrPois = true →
    s.poisonOk st k = true)
include hbroken hatom hpois

/-- What becomes of a request that nothing bars. -/
theorem State.oreqDeliver_presents : s.oreqDeliver st k
    = if s.mayPresent st k (Pkt.head d.slots) = false then s
      else if wantsRsp (Pkt.head d.slots).opc then
        if s.fld (portReg st k pCFG) 16 10 < (s.ttxns st k).length then s
        else (((s.setInbox st k ((s.inbox st k).eraseIdx i)).setTtxns st k (s.ttxns st k ++ [s.heldReq st k d])).present
          st k (s.heldReq st k d).ttag d)
      else ((s.setInbox st k ((s.inbox st k).eraseIdx i)).present st k 0 d).endLock st k (Pkt.head d.slots) := by
  have hatom' : ¬ ((Pkt.head d.slots).opc = opATOM ∧ portGen st k = 1) := fun h => hatom h.1 h.2
  have hpois' : (opCarriesData (Pkt.head d.slots).opc && (Pkt.head d.slots).attrBit attrPois
      && !s.poisonOk st k) = false := by
    cases hd : opCarriesData (Pkt.head d.slots).opc <;> cases hp : (Pkt.head d.slots).attrBit attrPois <;>
      simp_all
  unfold State.oreqDeliver
  rw [hnext]
  simp only [hbroken, hatom', hpois', Bool.false_eq_true, if_false, Bool.not_eq_true']
  rfl

end
/-- The beats of a request stand behind what its channels carried, and nothing else of the port changes there. -/
theorem State.queued_present (s : State) (st k ttag : Nat) (d : Deliv) {c : Chan} (hc : c ∈ outChans) :
    ((s.present st k ttag d).port st k).queued c
      = (s.port st k).queued c ++ (s.oreqOf st k ttag d.slots).filter (fun b => b.chan == c) := by
  unfold State.present
  simp only
  rw [State.queued_drive _ _ _ _ hc, State.port_setPort_same]
  rfl

theorem State.ttxns_present (s : State) (st k ttag a b : Nat) (d : Deliv) :
    (s.present st k ttag d).ttxns a b = s.ttxns a b := State.ttxns_drive _ _ _ _ a b

theorem State.inbox_present (s : State) (st k ttag a b : Nat) (d : Deliv) :
    (s.present st k ttag d).inbox a b = s.inbox a b := State.inbox_drive _ _ _ _ a b

/-- The beats of a request depend on the port's registers alone. -/
theorem State.oreqOf_setInbox (s : State) (st k ttag a b : Nat) (v : List Deliv) (slots : List Slot) :
    (s.setInbox a b v).oreqOf st k ttag slots = s.oreqOf st k ttag slots := rfl

theorem State.oreqOf_setTtxns (s : State) (st k ttag a b : Nat) (v : List TTxn) (slots : List Slot) :
    (s.setTtxns a b v).oreqOf st k ttag slots = s.oreqOf st k ttag slots := rfl

/-- A request that nothing bars is presented, or waits where a channel or a target tag is wanting. -/
theorem completes_oreqDeliver_presents {s : State} {st : StopNo} {k : PortNo} {d : Deliv} {i : Nat}
    (hgen : portGen st.val k.val ≠ 0) (hopen : (s.port st.val k.val).state = 2)
    (hstop : (s.port st.val k.val).stopLvl = false) (hnext : s.nextDeliv st.val k.val = some (d, i))
    (hbroken : (s.port st.val k.val).brokenFor.contains { (Pkt.head d.slots).src with tag := 0 } = false)
    (hatom : (Pkt.head d.slots).opc = opATOM → portGen st.val k.val ≠ 1)
    (hpois : opCarriesData (Pkt.head d.slots).opc = true → (Pkt.head d.slots).attrBit attrPois = true →
      s.poisonOk st.val k.val = true) :
    completes (.oreqDeliver st k) s (fun t =>
      (s.mayPresent st.val k.val (Pkt.head d.slots) = true → wantsRsp (Pkt.head d.slots).opc = true →
        (s.ttxns st.val k.val).length ≤ s.fld (portReg st.val k.val pCFG) 16 10 →
        t.inbox st.val k.val = (s.inbox st.val k.val).eraseIdx i
        ∧ ∃ x : TTxn, t.ttxns st.val k.val = s.ttxns st.val k.val ++ [x]
            ∧ x.head = d.slots.getLastD (Pkt.head d.slots) ∧ x.status = stOK ∧ x.data = []
            ∧ x.bursts = (outBursts (portGen st.val k.val) (Pkt.head d.slots)).length
            ∧ driven st.val k.val .oreq ((s.oreqOf st.val k.val x.ttag d.slots).filter (·.chan == .oreq)) s t
            ∧ driven st.val k.val .odat ((s.oreqOf st.val k.val x.ttag d.slots).filter (·.chan == .odat)) s t)
      ∧ (s.mayPresent st.val k.val (Pkt.head d.slots) = true → wantsRsp (Pkt.head d.slots).opc = false →
        t.inbox st.val k.val = (s.inbox st.val k.val).eraseIdx i ∧ t.ttxns st.val k.val = s.ttxns st.val k.val
        ∧ driven st.val k.val .oreq ((s.oreqOf st.val k.val 0 d.slots).filter (·.chan == .oreq)) s t
        ∧ driven st.val k.val .odat ((s.oreqOf st.val k.val 0 d.slots).filter (·.chan == .odat)) s t)
      ∧ (s.mayPresent st.val k.val (Pkt.head d.slots) = false → t = s)
      ∧ (wantsRsp (Pkt.head d.slots).opc = true →
          s.fld (portReg st.val k.val pCFG) 16 10 < (s.ttxns st.val k.val).length → t = s)
      ∧ onlyParts [.regs, .ni, .recs, .pmu, .free] s t) := by
  have hstep := State.oreqDeliver_presents hnext hbroken hatom hpois
  refine ⟨_, exec_oreqDeliver hgen hopen hstop, fun hmay hwants hroom => ?_, fun hmay hwants => ?_, fun hmay => ?_,
    fun hwants hfull => ?_, onlyParts_keepPort s _⟩
  · rw [hstep, if_neg (by simp [hmay]), if_pos hwants, if_neg (by omega)]
    simp only [driven, State.inbox_keepPort, State.ttxns_keepPort, State.port_keepPort, State.inbox_present,
      State.ttxns_present]
    exact ⟨State.inbox_setInbox_same s _ _ _, s.heldReq st.val k.val d, State.ttxns_setTtxns_same _ _ _ _, rfl, rfl,
      rfl, rfl, State.queued_present _ _ _ _ d (by decide), State.queued_present _ _ _ _ d (by decide)⟩
  · rw [hstep, if_neg (by simp [hmay]), if_neg (by simp [hwants])]
    have hkept := PortKept.endLock (st := st.val) (k := k.val)
      ((s.setInbox st.val k.val ((s.inbox st.val k.val).eraseIdx i)).present st.val k.val 0 d) (Pkt.head d.slots)
    simp only [driven, State.inbox_keepPort, State.ttxns_keepPort, State.port_keepPort]
    exact ⟨hkept.inbox.trans ((State.inbox_present _ _ _ _ _ _ d).trans (State.inbox_setInbox_same s _ _ _)),
      hkept.ttxns.trans (State.ttxns_present _ _ _ _ _ _ d),
      (hkept.queued .oreq).trans (State.queued_present _ _ _ _ d (by decide)),
      (hkept.queued .odat).trans (State.queued_present _ _ _ _ d (by decide))⟩
  · rw [hstep, if_pos hmay, State.keepPort_self]
  · rw [hstep, if_pos hwants, if_pos hfull, ite_self, State.keepPort_self]

theorem completes_oreqDeliver_barred {s : State} {st : StopNo} {k : PortNo} {d : Deliv} {i : Nat}
    (hgen : portGen st.val k.val ≠ 0) (hopen : (s.port st.val k.val).state = 2)
    (hstop : (s.port st.val k.val).stopLvl = false) (hnext : s.nextDeliv st.val k.val = some (d, i))
    (hbar : (s.port st.val k.val).brokenFor.contains { (Pkt.head d.slots).src with tag := 0 } = true
      ∨ ((Pkt.head d.slots).opc = opATOM ∧ portGen st.val k.val = 1)
      ∨ (opCarriesData (Pkt.head d.slots).opc = true ∧ (Pkt.head d.slots).attrBit attrPois = true
          ∧ s.poisonOk st.val k.val = false)) :
    completes (.oreqDeliver st k) s (fun t =>
      t.inbox st.val k.val = (s.inbox st.val k.val).eraseIdx i ∧ t.ttxns st.val k.val = s.ttxns st.val k.val
      ∧ (∀ c, driven st.val k.val c [] s t)
      ∧ ((s.port st.val k.val).brokenFor.contains { (Pkt.head d.slots).src with tag := 0 } = true →
        (t.port st.val k.val).brokenFor
          = (s.port st.val k.val).brokenFor.erase { (Pkt.head d.slots).src with tag := 0 })
      ∧ onlyParts [.regs, .ni, .recs, .pmu, .free] s t) := by
  refine ⟨_, exec_oreqDeliver hgen hopen hstop, ?_⟩
  simp only [State.inbox_keepPort, State.ttxns_keepPort, State.port_keepPort, driven, List.append_nil]
  cases hbroken : (s.port st.val k.val).brokenFor.contains { (Pkt.head d.slots).src with tag := 0 } with
  | true =>
    obtain ⟨t, ht, hkept⟩ := State.oreqDeliver_broken hnext hbroken
    rw [ht]
    refine ⟨hkept.inbox.trans (State.inbox_setInbox_same s _ _ _), hkept.ttxns, fun c => (hkept.queued c).trans ?_,
      fun _ => hkept.brokenFor.trans ?_, onlyParts_keepPort s _⟩
    · rw [State.port_setPort_same]
      rfl
    · rw [State.port_setPort_same]
  | false =>
    rw [hbroken] at hbar
    have hkept := State.oreqDeliver_dropped hnext hbroken (hbar.resolve_left Bool.false_ne_true)
    exact ⟨hkept.inbox.trans (State.inbox_setInbox_same s _ _ _), hkept.ttxns, hkept.queued,
      fun h => absurd h Bool.false_ne_true, onlyParts_keepPort s _⟩

end Sys2Proof.Machine
end

section
/-! PROOFS. Responses from the agent of a port, and the notifications that it takes (R114, R147, R149, R152, R158 to
R163, R265, R329). -/
namespace Sys2Proof.Machine
open Sys2Proof

/-! ### The parity checks of a response -/

/-- The counter and the flags of one beat with a parity error (R160). -/
def State.parFlags (s : State) (st k : Nat) (e : BeatErr) : State :=
  let s := s.count (portReg st k pERRCNT) 0 8 1
  let s := if e.tag || e.hdr then s.raiseFlag (portReg st k pERR) 0 else s
  if e.dat then s.raiseFlag (portReg st k pERR) 1 else s

/-- The record of one beat with a parity error. -/
def State.parLog (s : State) (st k : Nat) (h : HdrRec) (sev : Nat) : State :=
  s.portRec st k sev caPORT_PARITY h.part h.addr h.opc h.tag h.status

section
variable (s : State) (st k : Nat) (h : HdrRec) (raw : Nat) (o : ParOut) (e : BeatErr)

theorem State.parBeat_eq (keep : Bool) : s.parBeat st k h raw keep o e
    = if o.fate != .fwd || e.clean then (o, s)
      else if e.tag then ({ o with fate := .lost }, (s.parFlags st k e).raise st
        { port := k, sev := sevCONTAINED, cause := caPORT_PARITY, part := some h.part, unver := true,
          spec := BitVec.ofNat 256 raw })
      else if e.hdr && !keep then ({ o with fate := .drop }, (s.parFlags st k e).parLog st k h sevCONTAINED)
      else ({ o with force := o.force || e.hdr, pois := o.pois || e.dat },
        let u := if e.hdr then (s.parFlags st k e).parLog st k h sevCONTAINED else s.parFlags st k e
        if e.dat then u.parLog st k h sevDEFERRED else u) := rfl

theorem State.ni_parFlags : (s.parFlags st k e).ni = s.ni := by
  unfold State.parFlags
  simp only
  split <;> split <;> simp only [State.raiseFlag_ni, State.count_ni]

theorem PortKept.parFlags (a b : Nat) : PortKept a b s (s.parFlags st k e) := .of_ni (State.ni_parFlags s st k e)

theorem PortKept.parLog (a b sev : Nat) : PortKept a b s (s.parLog st k h sev) := .raise _ _ _

theorem PortKept.parBeat (a b : Nat) (keep : Bool) : PortKept a b s (s.parBeat st k h raw keep o e).2 := by
  have hflags := PortKept.parFlags s st k e a b
  rw [State.parBeat_eq]
  split
  · exact .refl s
  · split
    · exact hflags.trans (.raise _ _ _)
    · split
      · exact hflags.trans (.parLog _ _ _ _ a b _)
      · exact hflags.trans (.trans (.ite (.parLog _ _ _ _ a b _) (.refl _)) (.ite (.parLog _ _ _ _ a b _) (.refl _)))

/-- On rsp a beat without an error in its tag bytes leaves the response forwarded (Table 6.11). -/
theorem State.parBeat_fwd (hfwd : o.fate = .fwd) (htag : e.tag = false) :
    (s.parBeat st k h raw true o e).1.fate = .fwd := by
  rw [State.parBeat_eq, htag]
  split
  · exact hfwd
  · simpa using hfwd

/-- Once a packet is dropped its beats are consumed unchecked. -/
theorem State.parBeat_lost (keep : Bool) (hlost : o.fate = .lost) : s.parBeat st k h raw keep o e = (o, s) := by
  rw [State.parBeat_eq, hlost]
  rfl

theorem pERR_ne_stopErrStat (st k : Nat) : portReg st k pERR ≠ stopReg st sSTOP_ERR_STAT := by
  unfold portReg stopReg pERR sSTOP_ERR_STAT
  omega

/-- A record leaves the error flags of the ports. -/
theorem State.flag_raise_pERR (a i : Nat) (r : RecIn) :
    (s.raise st r).flag (portReg st a pERR) i = s.flag (portReg st a pERR) i := by
  unfold State.flag State.fld
  rw [State.reg_raise_other s st r (pERR_ne_stopErrStat st a)]

/-- A flag that stands stays when another one of its word is raised. -/
theorem State.flag_raiseFlag_keeps (a : Nat) {i j : Nat} (hij : i < j) (hj : j < 32) :
    (s.raiseFlag a j).flag a i = s.flag a i := by
  unfold State.flag State.raiseFlag
  rw [State.fld_setFld_below s a j 1 1 i 1 (by omega) (by omega)]

theorem State.flag_parFlags_tag (htag : e.tag = true) : (s.parFlags st k e).flag (portReg st k pERR) 0 = true := by
  unfold State.parFlags
  simp only [htag, Bool.true_or, if_true]
  split
  · rw [State.flag_raiseFlag_keeps _ _ (by decide) (by decide)]
    exact State.flag_raiseFlag _ _ _ (by decide)
  · exact State.flag_raiseFlag _ _ _ (by decide)

/-- A beat with an error in its tag bytes loses the packet. -/
theorem State.parBeat_tag (keep : Bool) (hfwd : o.fate = .fwd) (htag : e.tag = true) :
    (s.parBeat st k h raw keep o e).1.fate = .lost
      ∧ (s.parBeat st k h raw keep o e).2.flag (portReg st k pERR) 0 = true := by
  rw [State.parBeat_eq, if_neg (by simp [hfwd, BeatErr.clean, htag]), if_pos htag]
  exact ⟨rfl, (State.flag_raise_pERR _ st k 0 _).trans (State.flag_parFlags_tag s st k e htag)⟩

/-- The beats of a packet at the parity checker, one after the other. -/
def State.parBeats (keep : Bool) (es : List BeatErr) : ParOut × State :=
  es.foldl (fun (acc : ParOut × State) e => State.parBeat acc.2 st k h raw keep acc.1 e) (o, s)

theorem PortKept.parBeats (a b : Nat) (keep : Bool) (es : List BeatErr) :
    PortKept a b s (s.parBeats st k h raw o keep es).2 :=
  foldl_keeps (fun acc : ParOut × State => PortKept a b s acc.2) es _ (o, s)
    (fun _ e hacc => hacc.trans (.parBeat _ st k h raw _ e a b keep)) (.refl s)

theorem State.parBeats_fwd {es : List BeatErr} (hfwd : o.fate = .fwd) (htags : ∀ e ∈ es, e.tag = false) :
    (s.parBeats st k h raw o true es).1.fate = .fwd := by
  induction es generalizing s o with
  | nil => exact hfwd
  | cons e es ih =>
    exact ih _ _ (State.parBeat_fwd s st k h raw o e hfwd (htags e List.mem_cons_self))
      fun x hx => htags x (List.mem_cons_of_mem _ hx)

theorem State.parBeats_lost (keep : Bool) (es : List BeatErr) (hlost : o.fate = .lost) :
    s.parBeats st k h raw o keep es = (o, s) := by
  induction es with
  | nil => rfl
  | cons e es ih =>
    unfold State.parBeats
    rw [List.foldl_cons, State.parBeat_lost s st k h raw o e keep hlost]
    exact ih

theorem State.parCheck_eq (keep stable : Bool) (es : List BeatErr) : s.parCheck st k h raw keep stable es
    = let r := s.parBeats st k h raw { fate := .fwd, force := false, pois := false } keep
        (if s.parityOn st k then es else [])
      (r.1, if r.1.fate = .fwd && !stable then r.2.unstable st k h.part else r.2) := rfl

theorem State.ni_portErr (flag lo : Nat) : (s.portErr st k flag lo).ni = s.ni := by
  unfold State.portErr
  rw [State.count_ni, State.raiseFlag_ni]

theorem PortKept.portErr (a b flag lo : Nat) : PortKept a b s (s.portErr st k flag lo) :=
  .of_ni (State.ni_portErr s st k flag lo)

theorem PortKept.unstable (a b part : Nat) : PortKept a b s (s.unstable st k part) :=
  (PortKept.portErr s st k a b 2 8).trans (.raise _ _ _)

theorem PortKept.parCheck (a b : Nat) (keep stable : Bool) (es : List BeatErr) :
    PortKept a b s (s.parCheck st k h raw keep stable es).2 := by
  rw [State.parCheck_eq]
  exact (PortKept.parBeats s st k h raw _ a b keep _).trans (.ite (.unstable _ st k a b _) (.refl _))

/-- A response without an error in its tag bytes is forwarded. -/
theorem State.parCheck_fwd (stable : Bool) {es : List BeatErr}
    (htags : s.parityOn st k = true → ∀ e ∈ es, e.tag = false) :
    (s.parCheck st k h raw true stable es).1.fate = .fwd := by
  rw [State.parCheck_eq]
  refine State.parBeats_fwd s st k h raw _ rfl ?_
  cases hon : s.parityOn st k with
  | true => exact htags hon
  | false => simp

/-- An error in the tag bytes of the first beat loses the packet, and is flagged. -/
theorem State.parCheck_tag (keep stable : Bool) {e : BeatErr} (es : List BeatErr) (hon : s.parityOn st k = true)
    (htag : e.tag = true) : (s.parCheck st k h raw keep stable (e :: es)).1.fate = .lost
      ∧ (s.parCheck st k h raw keep stable (e :: es)).2.flag (portReg st k pERR) 0 = true := by
  obtain ⟨hlost, hflag⟩ := State.parBeat_tag s st k h raw { fate := .fwd, force := false, pois := false } e keep rfl
    htag
  have hbeats := State.parBeats_lost (s.parBeat st k h raw keep { fate := .fwd, force := false, pois := false } e).2
    st k h raw _ keep es hlost
  have hrun : s.parBeats st k h raw { fate := .fwd, force := false, pois := false } keep (e :: es)
      = s.parBeat st k h raw keep { fate := .fwd, force := false, pois := false } e := hbeats
  rw [State.parCheck_eq, if_pos hon, hrun]
  refine ⟨hlost, ?_⟩
  dsimp only
  rw [if_neg (by simp [hlost])]
  exact hflag

end

/-! ### A response at its request -/

section
variable {s : State} {st k : Nat}

theorem PortKept.answerTarget (s : State) (st k : Nat) (x : TTxn) (status sub : Nat) (data : List (BitVec 512))
    (pois : Bool) : PortKept st k s (s.answerTarget st k x status sub data pois) := by
  unfold State.answerTarget
  simp only
  exact .trans (.offer _ _ _ _ _ _) (.endLock _ _)

/-- A response to the last burst of a request ends it (R149). -/
theorem State.takeRspIn_last {x : TTxn} (i : Nat) (r : RspIn) (status : Nat) (pois : Bool) (hlast : x.bursts ≤ 1) :
    (s.takeRspIn st k i x r status pois).ttxns st k = (s.ttxns st k).eraseIdx i := by
  unfold State.takeRspIn
  simp only
  rw [if_pos hlast, (PortKept.answerTarget _ _ _ _ _ _ _ _).ttxns, State.ttxns_setTtxns_same]

theorem State.takeRspIn_more {x : TTxn} (i : Nat) (r : RspIn) (status : Nat) (pois : Bool) (hmore : 1 < x.bursts) :
    ∃ y : TTxn, (s.takeRspIn st k i x r status pois).ttxns st k = (s.ttxns st k).set i y ∧ y.bursts = x.bursts - 1
      ∧ y.head = x.head ∧ y.ttag = x.ttag ∧ (x.status ≠ stOK → y.status = x.status) := by
  unfold State.takeRspIn
  simp only
  rw [if_neg (by omega), State.ttxns_setTtxns_same]
  exact ⟨_, rfl, rfl, rfl, rfl, fun h => if_neg h⟩

theorem State.inbox_takeRspIn (i : Nat) (x : TTxn) (r : RspIn) (status : Nat) (pois : Bool) :
    (s.takeRspIn st k i x r status pois).inbox st k = s.inbox st k := by
  unfold State.takeRspIn
  simp only
  split
  · exact (PortKept.answerTarget _ _ _ _ _ _ _ _).inbox
  · rfl

/-- What a response that may go on does to the requests at the agent: that of a request outstanding counts as an
answer of one of its bursts, another one is a stray (R114, R152, Table 6.13). -/
structure RspTaken (st k tag : Nat) (s t : State) : Prop where
  last : ∀ x i, s.ttxnFor st k tag = some (x, i) → x.bursts ≤ 1 → t.ttxns st k = (s.ttxns st k).eraseIdx i
  more : ∀ x i, s.ttxnFor st k tag = some (x, i) → 1 < x.bursts →
    ∃ y : TTxn, t.ttxns st k = (s.ttxns st k).set i y ∧ y.bursts = x.bursts - 1
      ∧ y.head = x.head ∧ y.ttag = x.ttag ∧ (x.status ≠ stOK → y.status = x.status)
  stray : s.ttxnFor st k tag = none → t.flag (portReg st k pERR) 5 = true ∧ t.ttxns st k = s.ttxns st k
  inbox : t.inbox st k = s.inbox st k

theorem State.ttxnFor_congr {t : State} (h : t.ttxns st k = s.ttxns st k) (tag : Nat) :
    t.ttxnFor st k tag = s.ttxnFor st k tag := by
  unfold State.ttxnFor
  rw [h]

/-- What leaves the requests at the agent and the packets at the port may come before. -/
theorem RspTaken.of_kept {tag : Nat} {t u : State} (htt : t.ttxns st k = s.ttxns st k)
    (hin : t.inbox st k = s.inbox st k) (h : RspTaken st k tag t u) : RspTaken st k tag s u := by
  obtain ⟨hlast, hmore, hstray, hinbox⟩ := h
  rw [State.ttxnFor_congr htt, htt] at *
  exact ⟨hlast, hmore, hstray, hinbox.trans hin⟩

/-- The state in which a response is taken whose count or status is wrong. -/
def State.rspProto (s : State) (st k : Nat) (x : TTxn) (r : RspIn) : State :=
  (s.portErr st k 2 8).portRec st k sevCONTAINED caPORT_PROTO x.head.part x.head.addr x.head.opc r.tag r.status

theorem PortKept.rspProto (x : TTxn) (r : RspIn) : PortKept st k s (s.rspProto st k x r) :=
  (PortKept.portErr s st k st k 2 8).trans (.raise _ _ _)

theorem State.checkRsp_found {r : RspIn} {x : TTxn} {i : Nat} (force pois : Bool)
    (h : s.ttxnFor st k r.tag = some (x, i)) : ∃ u status poison, PortKept st k s u
      ∧ s.checkRsp st k r force pois = u.takeRspIn st k i x r status poison := by
  unfold State.checkRsp
  rw [h]
  exact ⟨_, _, _, .ite (PortKept.rspProto x r) (.refl s), rfl⟩

theorem State.checkRsp_stray {r : RspIn} (force pois : Bool) (h : s.ttxnFor st k r.tag = none) :
    (s.checkRsp st k r force pois).flag (portReg st k pERR) 5 = true
      ∧ PortKept st k s (s.checkRsp st k r force pois) := by
  have hne : portReg st k pERR ≠ portReg st k pCNT2 := by
    unfold portReg stopReg pERR pCNT2
    omega
  unfold State.checkRsp
  rw [h]
  refine ⟨?_, .trans (.of_ni ?_) (.raise _ _ _)⟩
  · rw [State.flag_raise_pERR]
    unfold State.flag State.fld
    rw [State.reg_count_other _ _ _ _ _ _ hne]
    exact State.flag_raiseFlag s _ 5 (by decide)
  · rw [State.count_ni, State.raiseFlag_ni]

theorem RspTaken.checkRsp (r : RspIn) (force pois : Bool) : RspTaken st k r.tag s (s.checkRsp st k r force pois) := by
  cases hfor : s.ttxnFor st k r.tag with
  | none =>
    obtain ⟨hflag, hkept⟩ := State.checkRsp_stray force pois hfor
    have hnot (x : TTxn) (i : Nat) (h : s.ttxnFor st k r.tag = some (x, i)) : False := by
      rw [hfor] at h
      cases h
    exact ⟨fun x i h => (hnot x i h).elim, fun x i h => (hnot x i h).elim, fun _ => ⟨hflag, hkept.ttxns⟩,
      hkept.inbox⟩
  | some e =>
    obtain ⟨x, i⟩ := e
    obtain ⟨u, status, poison, hkept, hrun⟩ := State.checkRsp_found force pois hfor
    rw [hrun]
    refine RspTaken.of_kept hkept.ttxns hkept.inbox ?_
    have hfor' := (State.ttxnFor_congr hkept.ttxns r.tag).trans hfor
    refine ⟨fun y j h hlast => ?_, fun y j h hmore => ?_, fun h => ?_, State.inbox_takeRspIn i x r status poison⟩
    · obtain ⟨rfl, rfl⟩ : x = y ∧ i = j := by simpa [hfor'] using h
      exact State.takeRspIn_last i r status poison hlast
    · obtain ⟨rfl, rfl⟩ : x = y ∧ i = j := by simpa [hfor'] using h
      exact State.takeRspIn_more i r status poison hmore
    · rw [hfor'] at h
      cases h

theorem State.captureRsp_fwd {r : RspIn}
    (htags : s.parityOn st k = true → ∀ b ∈ r.beats, (rspErr (portGen st k) r b).tag = false) :
    RspTaken st k r.tag s (s.captureRsp st k r) := by
  have hfwd := State.parCheck_fwd s st k
    { part := s.curPart st k, addr := 0, opc := 0, tag := r.tag, status := r.status }
    (packFields [(r.tag, tagWidth (portGen st k)), (r.status, 4)]) r.stable
    (es := r.beats.map (rspErr (portGen st k) r)) fun hon e he => by
      obtain ⟨b, hb, rfl⟩ := List.mem_map.mp he
      exact htags hon b hb
  have hkept := PortKept.parCheck s st k
    { part := s.curPart st k, addr := 0, opc := 0, tag := r.tag, status := r.status }
    (packFields [(r.tag, tagWidth (portGen st k)), (r.status, 4)]) st k true r.stable
    (r.beats.map (rspErr (portGen st k) r))
  unfold State.captureRsp
  simp only [hfwd]
  exact .of_kept hkept.ttxns hkept.inbox (.checkRsp r _ _)

theorem State.captureRsp_tag {r : RspIn} {b : Beat} {rest : List Beat} (hon : s.parityOn st k = true)
    (hbeats : r.beats = b :: rest) (htag : (rspErr (portGen st k) r b).tag = true) :
    (s.captureRsp st k r).flag (portReg st k pERR) 0 = true ∧ (s.captureRsp st k r).ttxns st k = s.ttxns st k := by
  have hkept := PortKept.parCheck s st k
    { part := s.curPart st k, addr := 0, opc := 0, tag := r.tag, status := r.status }
    (packFields [(r.tag, tagWidth (portGen st k)), (r.status, 4)]) st k true r.stable
    (r.beats.map (rspErr (portGen st k) r))
  obtain ⟨hlost, hflag⟩ := State.parCheck_tag s st k
    { part := s.curPart st k, addr := 0, opc := 0, tag := r.tag, status := r.status }
    (packFields [(r.tag, tagWidth (portGen st k)), (r.status, 4)]) true r.stable
    (rest.map (rspErr (portGen st k) r)) hon htag
  rw [hbeats] at hkept
  unfold State.captureRsp
  simp only [hbeats, List.map_cons, hlost]
  exact ⟨hflag, hkept.ttxns⟩

end
/-! ### AGENT_RESPONSE -/

section
variable {s : State} {st : StopNo} {k : PortNo} {r : RspIn}

theorem exec_agentResponse_takes (hgen : portGen st.val k.val ≠ 0) (htakes : s.takes st.val k.val (.rsp r) = true) :
    exec (.agentResponse st k r) s = .next (s.keepPort (s.arrive st.val k.val (.rsp r)
      (fun u => u.captureRsp st.val k.val r))) := by
  change execAgentResponse st k r s = _
  unfold execAgentResponse
  simp only [hgen, htakes, if_false, Bool.not_true, Bool.false_eq_true]

theorem exec_agentResponse_refused (hgen : portGen st.val k.val ≠ 0)
    (htakes : s.takes st.val k.val (.rsp r) = false) : exec (.agentResponse st k r) s = .next s := by
  change execAgentResponse st k r s = _
  unfold execAgentResponse
  simp only [hgen, htakes, if_false, Bool.not_false, if_true]

/-- A response that the NI reads is captured once the pointers of its FIFO have moved on. -/
theorem State.arrive_passes (hpasses : s.passes st.val k.val (.rsp r) = true) :
    s.arrive st.val k.val (.rsp r) (fun u => u.captureRsp st.val k.val r)
      = (s.setPort st.val k.val ((s.port st.val k.val).passIn (.rsp r) true true)).captureRsp st.val k.val r := by
  unfold State.arrive
  simp only [hpasses, if_true]

/-- A response that the NI does not read waits in its FIFO (R329). -/
theorem State.arrive_waits (hpasses : s.passes st.val k.val (.rsp r) = false) :
    s.arrive st.val k.val (.rsp r) (fun u => u.captureRsp st.val k.val r)
      = s.setPort st.val k.val { (s.port st.val k.val).passIn (.rsp r) true false with
          inq := (s.port st.val k.val).inq ++ [.rsp r] } := by
  unfold State.arrive
  simp only [hpasses, Bool.false_eq_true, if_false]

theorem State.parityOn_setPort (s : State) (a b st k : Nat) (v : PortSt) :
    (s.setPort a b v).parityOn st k = s.parityOn st k := rfl

theorem completes_agentResponse_captured (hgen : portGen st.val k.val ≠ 0)
    (htakes : s.takes st.val k.val (.rsp r) = true) (hpasses : s.passes st.val k.val (.rsp r) = true)
    (htags : s.parityOn st.val k.val = true → ∀ b ∈ r.beats, (rspErr (portGen st.val k.val) r b).tag = false) :
    completes (.agentResponse st k r) s (fun t => RspTaken st.val k.val r.tag s t
      ∧ onlyParts [.regs, .ni, .recs, .pmu, .free] s t) := by
  refine ⟨_, exec_agentResponse_takes hgen htakes, ?_, onlyParts_keepPort s _⟩
  rw [State.arrive_passes hpasses]
  obtain ⟨hlast, hmore, hstray, hinbox⟩ := RspTaken.of_kept (State.ttxns_setPort s _ _ _ _ _)
    (State.inbox_setPort s _ _ _ _ _) (State.captureRsp_fwd (r := r) (st := st.val) (k := k.val) (s := s.setPort st.val
      k.val ((s.port st.val k.val).passIn (.rsp r) true true)) (by rwa [State.parityOn_setPort]))
  exact ⟨hlast, hmore, hstray, hinbox⟩

theorem completes_agentResponse_tag {b : Beat} {rest : List Beat} (hgen : portGen st.val k.val ≠ 0)
    (htakes : s.takes st.val k.val (.rsp r) = true) (hpasses : s.passes st.val k.val (.rsp r) = true)
    (hon : s.parityOn st.val k.val = true) (hbeats : r.beats = b :: rest)
    (htag : (rspErr (portGen st.val k.val) r b).tag = true) :
    completes (.agentResponse st k r) s (fun t =>
      t.flag (portReg st.val k.val pERR) 0 = true ∧ t.ttxns st.val k.val = s.ttxns st.val k.val) := by
  refine ⟨_, exec_agentResponse_takes hgen htakes, ?_⟩
  simp only [State.arrive_passes hpasses, State.flag_keepPort, State.ttxns_keepPort]
  exact State.captureRsp_tag (s := s.setPort st.val k.val ((s.port st.val k.val).passIn (.rsp r) true true))
    ((State.parityOn_setPort s _ _ _ _ _).trans hon) hbeats htag

theorem completes_agentResponse_waits (hgen : portGen st.val k.val ≠ 0) :
    completes (.agentResponse st k r) s (fun t =>
      (s.takes st.val k.val (.rsp r) = true → s.passes st.val k.val (.rsp r) = false →
        (t.port st.val k.val).inq = (s.port st.val k.val).inq ++ [.rsp r]
        ∧ t.ttxns st.val k.val = s.ttxns st.val k.val)
      ∧ (s.takes st.val k.val (.rsp r) = false → t = s)) := by
  cases htakes : s.takes st.val k.val (.rsp r) with
  | false => exact ⟨s, exec_agentResponse_refused hgen htakes, fun h => absurd h Bool.false_ne_true, fun _ => rfl⟩
  | true =>
    refine ⟨_, exec_agentResponse_takes hgen htakes, fun _ hpasses => ?_, fun h => absurd h.symm Bool.false_ne_true⟩
    rw [State.arrive_waits hpasses, State.port_keepPort, State.ttxns_keepPort, State.port_setPort_same]
    exact ⟨rfl, State.ttxns_setPort s _ _ _ _ _⟩

end

/-! ### Notifications -/

section
variable {s : State} {st : StopNo} {k : PortNo} {m : Ntf} {rest : List Ntf}

/-- The first notification of the stage, handed to its channel. -/
theorem State.popNtf_free {st k : Nat} {c : Chan} {f : Ntf → OutBeat} (hntf : (s.port st k).ntf = m :: rest)
    (hfree : s.outFree st k c = true) : s.popNtf st k c f
      = (s.setPort st k { s.port st k with ntf := rest }).drive st k [OutBeat.seal (portGen st k) false (f m)] := by
  unfold State.popNtf
  simp only [hntf, hfree, if_true]

/-- It leaves the stage and its beat stands last on the channel. -/
theorem State.popNtf_delivers {st k : Nat} {c : Chan} {f : Ntf → OutBeat} (hntf : (s.port st k).ntf = m :: rest)
    (hfree : s.outFree st k c = true) (hc : c ∈ outChans) (hf : (f m).chan = c) :
    ((s.keepPort (s.popNtf st k c f)).port st k).ntf = rest
      ∧ driven st k c [OutBeat.seal (portGen st k) false (f m)] s (s.keepPort (s.popNtf st k c f))
      ∧ onlyParts [.ni] s (s.keepPort (s.popNtf st k c f)) := by
  have hbeat : [OutBeat.seal (portGen st k) false (f m)].filter (fun b => b.chan == c)
      = [OutBeat.seal (portGen st k) false (f m)] := by
    simp [OutBeat.chan_seal, hf]
  unfold driven
  rw [State.popNtf_free hntf hfree, State.port_keepPort, State.ntf_drive, State.queued_drive _ _ _ _ hc, hbeat,
    State.port_setPort_same]
  exact ⟨rfl, rfl, onlyParts_keepPort_of (onlyParts_trans (State.onlyParts_setPort s st k _)
    (State.onlyParts_drive _ st k _))⟩

theorem exec_omsgDeliver (hgen : portGen st.val k.val ≠ 0) (hgen' : portGen st.val k.val ≠ 3)
    (hopen : (s.port st.val k.val).state = 2) (hstop : (s.port st.val k.val).stopLvl = false) :
    exec (.omsgDeliver st k) s = .next (s.keepPort (s.popNtf st.val k.val .omsg Ntf.onMsg)) := by
  change execOmsgDeliver st k s = _
  unfold execOmsgDeliver
  simp only [hgen, hgen', hopen, hstop, if_false, ne_eq, not_true_eq_false, Bool.false_eq_true, or_self]

theorem exec_ntfDeliver (hgen : portGen st.val k.val = 3) (hopen : (s.port st.val k.val).state = 2)
    (hstop : (s.port st.val k.val).stopLvl = false) :
    exec (.ntfDeliver st k) s = .next (s.keepPort (s.popNtf st.val k.val .ntf Ntf.onSide)) := by
  change execNtfDeliver st k s = _
  unfold execNtfDeliver
  simp only [hgen, hopen, hstop, if_false, ne_eq, not_true_eq_false, Bool.false_eq_true, or_self, OfNat.ofNat_ne_zero]

end

/-- The notification of a NOTIFY (R158). -/
def Ntf.ofSlot (h : Slot) : Ntf := { rcd := h.addr, src := peerOf h.sdie h.sstop h.sport, part := h.part }

/-- A NOTIFY leaves a port that is CLOSED or in RESYNC, or that holds its like, without a notification more. -/
theorem State.stageNotify_staged (s : State) (st k : Nat) (h : Slot) :
    (s.stageNotify st k h).inbox st k = s.inbox st k
      ∧ ((s.stageNotify st k h).port st k).ntf = (s.port st k).ntf ++
        (if (s.port st k).state ≤ 1 ∨ (s.port st k).ntf.any (fun m => m.sameAs (Ntf.ofSlot h)) = true then []
         else [Ntf.ofSlot h]) := by
  unfold State.stageNotify Ntf.ofSlot
  simp only
  split
  case isTrue hclosed =>
    have hkept : PortKept st k s (s.count (portReg st k pCNT2) 24 7 1) := .of_ni (State.count_ni _ _ _ _ _)
    rw [if_pos (Or.inl (by omega)), List.append_nil]
    exact ⟨hkept.inbox, hkept.ntf⟩
  case isFalse hclosed =>
    split
    case isTrue hlike =>
      rw [if_pos (Or.inr hlike), List.append_nil]
      exact ⟨rfl, rfl⟩
    case isFalse hlike =>
      rw [if_neg (by rintro (h | h) <;> [omega; exact hlike h]), State.port_setPort_same, State.inbox_setPort]
      exact ⟨rfl, rfl⟩

theorem exec_notify {s : State} {st : StopNo} {k : PortNo} {d : Deliv} {i : Nat} (hgen : portGen st.val k.val ≠ 0)
    (hfind : (s.inbox st.val k.val).zipIdx.find? (fun e => (Pkt.head e.1.slots).opc == opNOTIFY && !e.1.early)
      = some (d, i))
    (hroom : (s.port st.val k.val).ntf.length < 16
      ∨ (s.port st.val k.val).ntf.any (fun m => m.sameAs (Ntf.ofSlot (Pkt.head d.slots))) = true
      ∨ (s.port st.val k.val).state ≤ 1) :
    exec (.notify st k) s = .next (s.keepPort (((s.setInbox st.val k.val ((s.inbox st.val k.val).eraseIdx i)).respond
      st.val (Pkt.head d.slots) opPWACK stOK).stageNotify st.val k.val (Pkt.head d.slots))) := by
  have hwaits : (16 ≤ (s.port st.val k.val).ntf.length
      && !(s.port st.val k.val).ntf.any (fun m => m.sameAs { rcd := (Pkt.head d.slots).addr, src := 0, part := 0 })
      && (s.port st.val k.val).state != 0 && (s.port st.val k.val).state != 1) = false := by
    rcases hroom with hlen | hlike | hclosed
    · simp [hlen]
    · have hlike' : (s.port st.val k.val).ntf.any
        (fun m => m.sameAs { rcd := (Pkt.head d.slots).addr, src := 0, part := 0 }) = true := hlike
      simp [hlike']
    · rcases Nat.le_one_iff_eq_zero_or_eq_one.mp hclosed with h | h <;> simp [h]
  change execNotify st k s = _
  unfold execNotify
  simp only [hgen, if_false, hfind, hwaits, Bool.false_eq_true]

theorem completes_notify {s : State} {st : StopNo} {k : PortNo} {d : Deliv} {i : Nat} (hgen : portGen st.val k.val ≠ 0)
    (hfind : (s.inbox st.val k.val).zipIdx.find? (fun e => (Pkt.head e.1.slots).opc == opNOTIFY && !e.1.early)
      = some (d, i))
    (hroom : (s.port st.val k.val).ntf.length < 16
      ∨ (s.port st.val k.val).ntf.any (fun m => m.sameAs (Ntf.ofSlot (Pkt.head d.slots))) = true
      ∨ (s.port st.val k.val).state ≤ 1) :
    completes (.notify st k) s (fun t => t.inbox st.val k.val = (s.inbox st.val k.val).eraseIdx i
      ∧ (t.port st.val k.val).ntf = (s.port st.val k.val).ntf ++
          (if (s.port st.val k.val).state ≤ 1
            ∨ (s.port st.val k.val).ntf.any (fun m => m.sameAs (Ntf.ofSlot (Pkt.head d.slots))) = true then []
           else [Ntf.ofSlot (Pkt.head d.slots)])
      ∧ onlyParts [.regs, .ni, .recs, .pmu, .free] s t) := by
  have hkept : PortKept st.val k.val (s.setInbox st.val k.val ((s.inbox st.val k.val).eraseIdx i))
      ((s.setInbox st.val k.val ((s.inbox st.val k.val).eraseIdx i)).respond st.val (Pkt.head d.slots) opPWACK stOK) :=
    .offer _ _ _ _ _ _
  obtain ⟨hinbox, hntf⟩ := State.stageNotify_staged ((s.setInbox st.val k.val ((s.inbox st.val k.val).eraseIdx
    i)).respond st.val (Pkt.head d.slots) opPWACK stOK) st.val k.val (Pkt.head d.slots)
  rw [hkept.ntf, hkept.state] at hntf
  exact ⟨_, exec_notify hgen hfind hroom, hinbox.trans (hkept.inbox.trans (State.inbox_setInbox_same s _ _ _)), hntf,
    onlyParts_keepPort s _⟩

/-- Settles O22: the beats of a request by what a channel carries after it is driven, an answer by what the parity checks
let through, a notification by the stage it leaves or joins. -/
theorem portAnswersAndDeliveries : Obligations.PortAnswersAndDeliveries := by
  unfold Obligations.PortAnswersAndDeliveries
  refine ⟨⟨?_, ?_⟩, ?_, ?_, ?_, ?_, ?_, ?_⟩
  · intro st k s d i hgen hopen hstop hnext hbroken hatom hpois
    exact completes_oreqDeliver_presents hgen hopen hstop hnext hbroken hatom hpois
  · intro st k s d i hgen hopen hstop hnext hbar
    exact completes_oreqDeliver_barred hgen hopen hstop hnext hbar
  · intro st k r s hgen htakes hpasses htags
    obtain ⟨t, hexec, ⟨hlast, hmore, hstray, hinbox⟩, hparts⟩ :=
      completes_agentResponse_captured hgen htakes hpasses htags
    exact ⟨t, hexec, hlast, hmore, hstray, hinbox, hparts⟩
  · intro st k r s b rest hgen htakes hpasses hon hbeats htag
    exact completes_agentResponse_tag hgen htakes hpasses hon hbeats htag
  · intro st k r s hgen
    exact completes_agentResponse_waits hgen
  · intro st k s m rest hgen hgen' hopen hstop hntf hfree
    exact ⟨_, exec_omsgDeliver hgen hgen' hopen hstop, State.popNtf_delivers hntf hfree (by decide) rfl⟩
  · intro st k s m rest hgen hopen hstop hntf hfree
    have hpop := State.popNtf_delivers (f := Ntf.onSide) hntf hfree (by decide) rfl
    rw [hgen] at hpop
    exact ⟨_, exec_ntfDeliver hgen hopen hstop, hpop⟩
  · rintro st k s d i n hgen hfind rfl hroom
    exact completes_notify hgen hfind hroom

end Sys2Proof.Machine
end

section
/-! PROOFS. Steps of start-up: what a loop over registers may change, the bound on a broadcast (R106), the end of the
start-up calibration (R417, R452), and the traps of Hearth (R316, R321, R423). -/
namespace Sys2Proof.Machine
open Sys2Proof

/-! ### What a loop reaches, and what it may change -/

/-- What the turn of `x` establishes and no turn undoes holds after a loop that takes `x`. `Q` is what every turn
relies on and keeps. -/
theorem foldl_reaches {σ α : Type} {Q P : σ → Prop} {f : σ → α → σ} {l : List α} {x : α} (hx : x ∈ l)
    (hset : ∀ t, Q t → P (f t x)) (hQ : ∀ y ∈ l, ∀ t, Q t → Q (f t y)) (hkeep : ∀ y ∈ l, ∀ t, P t → P (f t y))
    {s : σ} (hs : Q s) : P (l.foldl f s) := by
  induction l generalizing s with
  | nil => exact absurd hx List.not_mem_nil
  | cons y l ih =>
    rcases List.mem_cons.mp hx with rfl | hmem
    · exact List.foldlRecOn l f (hset s hs) fun t ht z hz => hkeep z (List.mem_cons_of_mem x hz) t ht
    · exact ih hmem (fun z hz => hQ z (List.mem_cons_of_mem y hz)) (fun z hz => hkeep z (List.mem_cons_of_mem y hz))
        (hQ y List.mem_cons_self s hs)

theorem forUpTo_reaches {σ : Type} {Q P : σ → Prop} {f : Nat → σ → σ} {n i : Nat} (hi : i < n)
    (hset : ∀ t, Q t → P (f i t)) (hQ : ∀ j, j < n → ∀ t, Q t → Q (f j t)) (hkeep : ∀ j, j < n → ∀ t, P t → P (f j t))
    {s : σ} (hs : Q s) : P (forUpTo n f s) :=
  foldl_reaches (f := fun t j => f j t) (List.mem_range.mpr hi) hset (fun j hj => hQ j (List.mem_range.mp hj))
    (fun j hj => hkeep j (List.mem_range.mp hj)) hs

/-- No register but those where `A` holds, and no part of the state but `ps`, differs between `s` and `t`. -/
structure Changes (A : Nat → Prop) (ps : List Part) (s t : State) : Prop where
  regs : ∀ a, ¬ A a → t.reg a = s.reg a
  parts : onlyParts ps s t

namespace Changes
variable {A B : Nat → Prop} {ps qs : List Part} {s t u : State}

theorem refl (s : State) : Changes A ps s s := ⟨fun _ _ => rfl, onlyParts_refl ps s⟩

theorem trans (h : Changes A ps s t) (h' : Changes A ps t u) : Changes A ps s u :=
  ⟨fun a ha => (h'.regs a ha).trans (h.regs a ha), onlyParts_trans h.parts h'.parts⟩

theorem mono (h : Changes A ps s t) (hA : ∀ a, A a → B a) (hps : ps ⊆ qs) : Changes B qs s t :=
  ⟨fun a ha => h.regs a fun hAa => ha (hA a hAa), onlyParts_mono h.parts hps⟩

theorem of_regs (hregs : t.regs = s.regs) (hparts : onlyParts ps s t) : Changes A ps s t :=
  ⟨fun a _ => State.reg_congr hregs a, hparts⟩

theorem setReg {a : Nat} (ha : A a) (hps : .regs ∈ ps) (v : Word32) : Changes A ps s (s.setReg a v) :=
  ⟨fun b hb => State.reg_setReg_other s a b v fun h => hb (h ▸ ha), onlyParts_setReg_of (onlyParts_refl ps s) hps a v⟩

theorem setFld {a : Nat} (ha : A a) (hps : .regs ∈ ps) (lo w x : Nat) : Changes A ps s (s.setFld a lo w x) :=
  setReg ha hps _

theorem setReg_self (a : Nat) (v : Word32) : Changes (· = a) [.regs] s (s.setReg a v) :=
  ⟨fun b hb => State.reg_setReg_other s a b v hb, onlyParts_setReg s a v⟩

theorem setFld_self (a lo w x : Nat) : Changes (· = a) [.regs] s (s.setFld a lo w x) := setReg_self a _

theorem ite {c : Prop} [Decidable c] (ht : Changes A ps s t) (hu : Changes A ps s u) :
    Changes A ps s (if c then t else u) := by
  split <;> assumption

theorem forUpTo {n : Nat} {f : Nat → State → State} (h : ∀ i, i < n → ∀ t, Changes A ps t (f i t)) (s : State) :
    Changes A ps s (forUpTo n f s) :=
  forUpTo_keeps (fun t => Changes A ps s t) n f s (fun i t hi ht => ht.trans (h i hi t)) (refl s)

theorem foldl {α : Type} {l : List α} {f : State → α → State} (h : ∀ x ∈ l, ∀ t, Changes A ps t (f t x)) (s : State) :
    Changes A ps s (l.foldl f s) := by
  induction l generalizing s with
  | nil => exact refl s
  | cons x l ih =>
    exact (h x List.mem_cons_self s).trans (ih (fun y hy => h y (List.mem_cons_of_mem x hy)) (f s x))

theorem fld (h : Changes A ps s t) {a : Nat} (ha : ¬ A a) (lo w : Nat) : t.fld a lo w = s.fld a lo w := by
  unfold State.fld
  rw [h.regs a ha]

theorem flag (h : Changes A ps s t) {a : Nat} (ha : ¬ A a) (i : Nat) : t.flag a i = s.flag a i :=
  State.flag_congr (h.regs a ha) i

end Changes

/-- Start-up's bound on a step adds no part to what the step changed. -/
theorem onlyParts_keepBoot {ps : List Part} {s t : State} (h : onlyParts ps s t) : onlyParts ps s (s.keepBoot t) := by
  intro p hp
  have hst := h p hp
  cases p with
  | frame | time | free | pending => rfl
  | _ => exact hst

section
variable (s t : State) (a b : Nat)

@[simp] theorem State.reg_keepBoot : (s.keepBoot t).reg a = t.reg a := rfl
@[simp] theorem State.flag_keepBoot : (s.keepBoot t).flag a b = t.flag a b := rfl
@[simp] theorem State.fabState_keepBoot : (s.keepBoot t).fabState = t.fabState := rfl
@[simp] theorem State.port_keepBoot : (s.keepBoot t).port a b = t.port a b := rfl

end

theorem onlyParts_setHer (s : State) (h : HerSt) : onlyParts [.her] s { s with her := h } := by
  intro p hp
  cases p with
  | her => exact absurd List.mem_cons_self hp
  | _ => rfl

theorem State.onlyParts_setBoot (s : State) (b : BootSt) : onlyParts [.her] s (s.setBoot b) := onlyParts_setHer s _

/-! ### The bound on a broadcast -/

theorem passGap_congr {p q : Nat → Bool} {n : Nat} (h : ∀ x, x < n → p x = q x) : passGap p n = passGap q n := by
  unfold passGap
  rw [List.filter_congr fun x hx => h x (List.mem_range.mp hx)]

/-- The MGMT passes of a row ring in the default schedule (R95). -/
def rowMgmt (p : Nat) : Bool := p % 128 == 8

/-- The MGMT passes of a column ring in the default schedule (R95). -/
def colMgmt (p : Nat) : Bool := (List.range 16).any (fun j => p == 6 + 12 * (21 * j / 2))

theorem passGap_rowMgmt : passGap rowMgmt 2016 = 128 := by decide +kernel

theorem passGap_colMgmt : passGap colMgmt 2016 = 132 := by decide +kernel

theorem defaultStamp_row {r : Nat} (hr : r < 48) (p : Nat) : ((defaultStamp r p).1 == stMGMT) = rowMgmt p := by
  have hrow : isRow r = true := by simp [isRow, hr]
  have hlen : ringLen r = 16 := by simp [ringLen, hr]
  unfold defaultStamp rowMgmt
  simp only [hrow, hlen, if_true]
  by_cases h0 : p % 16 = 0 ∧ (ringTrack r == 0) = true
  · rw [if_pos h0]
    simp [stESC, stMGMT]
    omega
  · rw [if_neg h0]
    by_cases h8 : p % 16 = 8
    · rw [if_pos h8]
      by_cases hm : p % 128 = 8
      · simp [hm]
      · by_cases hc : p % 256 = 72 <;> simp [hm, hc, stCAL, stMGMT, stBE]
    · rw [if_neg h8]
      simp [stBE, stMGMT]
      omega

theorem colMgmt_mod {p : Nat} (h : colMgmt p = true) : p % 12 = 6 := by
  unfold colMgmt at h
  obtain ⟨j, -, hj⟩ := List.any_eq_true.mp h
  have hp : p = 6 + 12 * (21 * j / 2) := by simpa using hj
  omega

theorem defaultStamp_col {r : Nat} (hr : 48 ≤ r) (p : Nat) : ((defaultStamp r p).1 == stMGMT) = colMgmt p := by
  have hrow : isRow r = false := by simp [isRow]; omega
  have hlen : ringLen r = 12 := by simp [ringLen]; omega
  have hoff (h : p % 12 ≠ 6) : colMgmt p = false := Bool.eq_false_iff.mpr fun hm => h (colMgmt_mod hm)
  unfold defaultStamp
  simp only [hrow, hlen, Bool.false_eq_true, if_false]
  split
  · next h => rw [hoff (by omega)]; rfl
  · split
    · unfold colMgmt
      cases hm : (List.range 16).any (fun j => p == 6 + 12 * (21 * j / 2))
      · cases hc : (List.range 8).any (fun j => p == 66 + 252 * j) <;> simp [stCAL, stMGMT, stBE]
      · simp
    · next h6 => rw [hoff h6]; rfl

/-- Rings that all have one gap have it as their largest. -/
theorem State.mgmtGap_const {s : State} {r n g : Nat} (hn : 0 < n)
    (h : ∀ i, i < n → passGap (s.mgmtPass (r + i)) s.frameLen = g) : s.mgmtGap r n = g := by
  have hmap : (List.range n).map (fun i => passGap (s.mgmtPass (r + i)) s.frameLen) = List.replicate n g :=
    List.eq_replicate_iff.mpr ⟨by simp, fun b hb => by
      obtain ⟨i, hi, rfl⟩ := List.mem_map.mp hb
      exact h i (List.mem_range.mp hi)⟩
  have hfold (k : Nat) (acc : Nat) (hacc : acc ≤ g) : (List.replicate (k + 1) g).foldl max acc = g := by
    induction k generalizing acc with
    | zero => simp [hacc]
    | succ k ih =>
      rw [List.replicate_succ, List.foldl_cons]
      exact ih _ (by omega)
  obtain ⟨k, rfl⟩ := Nat.exists_eq_succ_of_ne_zero (by omega : n ≠ 0)
  unfold State.mgmtGap
  rw [hmap]
  exact hfold k 0 (Nat.zero_le g)

/-- Under the default schedule a broadcast reaches every stop within 289 rc (R106). -/
theorem State.bMg_default {s : State} (hlen : s.frame.flen48 = 42)
    (hdefault : ∀ r p, r < nRings → p < 2016 →
      s.stampOf r (s.fld (ringReg r rSTAMP_STAT) 0 1) p = defaultStamp r p) : s.bMg = 289 := by
  have hframe : s.frameLen = 2016 := by
    unfold State.frameLen
    rw [hlen]
  have hpass (r p : Nat) (hr : r < nRings) (hp : p < 2016) : s.mgmtPass r p = ((defaultStamp r p).1 == stMGMT) := by
    unfold State.mgmtPass
    rw [hdefault r p hr hp]
  have hrow : s.mgmtGap 0 48 = 128 := State.mgmtGap_const (by decide) fun i hi => by
    rw [hframe, ← passGap_rowMgmt]
    exact passGap_congr fun p hp =>
      (hpass (0 + i) p (by unfold nRings; omega) hp).trans (defaultStamp_row (by omega) p)
  have hcol : s.mgmtGap 48 64 = 132 := State.mgmtGap_const (by decide) fun i hi => by
    rw [hframe, ← passGap_colMgmt]
    exact passGap_congr fun p hp =>
      (hpass (48 + i) p (by unfold nRings; omega) hp).trans (defaultStamp_col (by omega) p)
  unfold State.bMg
  rw [hrow, hcol]
  rfl

/-! ### Fields and flags under writes of one word -/

/-- A flag that stands stays whatever flag is raised. -/
theorem State.flag_raiseFlag_of_flag {s : State} {a i b j : Nat} (hi : i < 32) (hj : j < 32) (hs : s.flag a i = true) :
    (s.raiseFlag b j).flag a i = true := by
  by_cases hb : a = b
  · subst hb
    by_cases hij : i = j
    · subst hij
      exact State.flag_raiseFlag s a i hi
    · unfold State.raiseFlag
      rcases Nat.lt_or_gt_of_ne hij with hlt | hgt
      · rw [State.flag_setFld_below s a j 1 1 i (by omega) hlt]
        exact hs
      · rw [State.flag_setFld_above s a j 1 1 i (by omega) (by omega)]
        exact hs
  · rw [State.flag_congr (State.reg_raiseFlag_other s b a j hb)]
    exact hs

/-! ### The end of the start-up calibration -/

/-- A trim the sweep found is stored (R452). -/
def State.setTrim (s : State) (x : TrimIn) : State :=
  s.setLane x.ring.val x.pos.val x.lane.val { s.lane x.ring.val x.pos.val x.lane.val with trim := x.trim.toInt }

/-- The block bit of ring `r` is set (R451). -/
def State.raiseBlk (s : State) (r : Nat) : State := s.raiseFlag (gTEMPER_BLK + 4 * (r / 32)) (r % 32)

theorem laneKey_inj {x y : TrimIn}
    (h : laneKey x.ring.val x.pos.val x.lane.val = laneKey y.ring.val y.pos.val y.lane.val) :
    x.ring = y.ring ∧ x.pos = y.pos ∧ x.lane = y.lane := by
  have hxp := x.pos.isLt
  have hyp := y.pos.isLt
  have hxl := x.lane.isLt
  have hyl := y.lane.isLt
  unfold laneKey slotKey at h
  exact ⟨Fin.ext (by omega), Fin.ext (by omega), Fin.ext (by omega)⟩

/-- A lane holds the trim that every report of it gives. -/
theorem State.trim_setTrims {x : TrimIn} {l : List TrimIn} (hx : x ∈ l) (s : State)
    (hsame : ∀ y ∈ l, y.ring = x.ring → y.pos = x.pos → y.lane = x.lane → y.trim = x.trim) :
    ((l.foldl State.setTrim s).lane x.ring.val x.pos.val x.lane.val).trim = x.trim.toInt := by
  refine foldl_reaches (Q := fun _ => True)
    (P := fun t : State => (t.lane x.ring.val x.pos.val x.lane.val).trim = x.trim.toInt) hx
    (fun t _ => ?_) (fun _ _ _ _ => trivial) (fun y hy t ht => ?_) trivial
  · unfold State.setTrim
    rw [State.lane_setLane_same]
  · unfold State.setTrim
    by_cases hkey : laneKey x.ring.val x.pos.val x.lane.val = laneKey y.ring.val y.pos.val y.lane.val
    · obtain ⟨hr, hp, hn⟩ := laneKey_inj hkey
      rw [hr, hp, hn, State.lane_setLane_same, hsame y hy hr.symm hp.symm hn.symm]
    · rw [State.lane_setLane_other _ _ _ _ _ _ _ _ hkey]
      exact ht

theorem onlyParts_setTem (s : State) (v : TemSt) : onlyParts [.tem] s { s with tem := v } := by
  intro p hp
  cases p with
  | tem => exact absurd List.mem_cons_self hp
  | _ => rfl

theorem Changes.setTrims (l : List TrimIn) (s : State) : Changes (fun _ => False) [.tem] s (l.foldl State.setTrim s) :=
  Changes.foldl (f := State.setTrim) (fun _ _ t => Changes.of_regs rfl (onlyParts_setTem t _)) s

theorem State.flag_raiseBlks {r : Nat} {l : List Nat} (hr : r ∈ l) (s : State) :
    (l.foldl State.raiseBlk s).flag (gTEMPER_BLK + 4 * (r / 32)) (r % 32) = true :=
  foldl_reaches (Q := fun _ => True) (P := fun t : State => t.flag (gTEMPER_BLK + 4 * (r / 32)) (r % 32) = true) hr
    (fun t _ => State.flag_raiseFlag t _ _ (by omega)) (fun _ _ _ _ => trivial)
    (fun _ _ _ ht => State.flag_raiseFlag_of_flag (by omega) (by omega) ht) trivial

/-- The words of the block bits (R451). -/
def blkReg (a : Nat) : Prop := gTEMPER_BLK ≤ a

theorem Changes.raiseBlks (l : List Nat) (s : State) : Changes blkReg [.regs] s (l.foldl State.raiseBlk s) :=
  Changes.foldl (f := State.raiseBlk) (fun _ _ _ => Changes.setFld (Nat.le_add_right _ _) List.mem_cons_self _ _ _) s

theorem Changes.fail (s : State) (cause : Nat) : Changes (· = gFAB_STATE) [.regs] s (s.fail cause) :=
  (Changes.setFld_self gFAB_STATE 0 4 fabFAILED).trans (Changes.setFld_self gFAB_STATE 8 4 cause)

theorem State.fabState_fail (s : State) (cause : Nat) : (s.fail cause).fabState = fabFAILED := by
  unfold State.fail State.fabState State.setFab
  rw [State.fld_setFld_below _ _ _ _ _ _ _ (by decide) (by decide), State.fld_setFld_same _ _ _ _ _ (by decide)]
  rfl

theorem State.failCause_fail (s : State) (cause : Nat) : (s.fail cause).fld gFAB_STATE 8 4 = cause % 16 := by
  unfold State.fail
  exact State.fld_setFld_same _ _ _ _ _ (by decide)

section
variable (s : State) (bad : List RingNo) (trims : List TrimIn)

/-- The failed rings' block bits, once the sweep's trims are stored. -/
def State.calBlocked : State := (bad.map (fun r => r.val)).foldl State.raiseBlk (trims.foldl State.setTrim s)

/-- Blocked rings mark the reduced configuration (R452). -/
def State.calFlagged : State :=
  if (bad.map (fun r => r.val)).isEmpty then s.calBlocked bad trims
  else (s.calBlocked bad trims).raiseFlag gBOOT_STAT 19

/-- Both tracks of a direction have failed. -/
def trackless : Bool :=
  (bad.map (fun r => r.val)).any (fun r => r % 2 == 0 && (bad.map (fun r => r.val)).contains (r + 1))

/-- A direction without a track fails the die (R452). -/
def State.calJudged : State :=
  if trackless bad then (s.calFlagged bad trims).fail 3 else s.calFlagged bad trims

theorem exec_initialCalibrationDone (hboot : s.booting = true) (hfab : s.fabState = fabCALIBRATING)
    (hdone : s.her.boot.calDone = false) : exec (.initialCalibrationDone bad trims) s
      = .next (s.keepBoot ((s.calJudged bad trims).setBoot { s.her.boot with calDone := true, trapped := false })) := by
  change execInitialCalibrationDone bad trims s = _
  unfold execInitialCalibrationDone
  rw [if_neg (by simp [hboot, hfab, hdone])]
  rfl

theorem trackless_iff : trackless bad = true ↔ ∃ r ∈ bad, r.val % 2 = 0 ∧ ∃ q ∈ bad, q.val = r.val + 1 := by
  simp [trackless, List.any_eq_true]

theorem Changes.calBlocked : Changes blkReg [.regs, .tem] s (s.calBlocked bad trims) :=
  ((Changes.setTrims trims s).mono (fun _ h => h.elim) (by decide)).trans
    ((Changes.raiseBlks _ _).mono (fun _ h => h) (by decide))

theorem Changes.calFlagged_blocked :
    Changes (· = gBOOT_STAT) [.regs] (s.calBlocked bad trims) (s.calFlagged bad trims) :=
  Changes.ite (Changes.refl _) (Changes.setFld_self gBOOT_STAT 19 1 1)

theorem Changes.calJudged_flagged :
    Changes (· = gFAB_STATE) [.regs] (s.calFlagged bad trims) (s.calJudged bad trims) :=
  Changes.ite (Changes.fail _ _) (Changes.refl _)

theorem State.flag_blk_calJudged {r : RingNo} (hr : r ∈ bad) :
    (s.calJudged bad trims).flag (gTEMPER_BLK + 4 * (r.val / 32)) (r.val % 32) = true := by
  have hblk : (s.calBlocked bad trims).flag (gTEMPER_BLK + 4 * (r.val / 32)) (r.val % 32) = true :=
    State.flag_raiseBlks (List.mem_map_of_mem hr) _
  rw [(Changes.calJudged_flagged s bad trims).flag (by unfold gTEMPER_BLK gFAB_STATE; omega),
    (Changes.calFlagged_blocked s bad trims).flag (by unfold gTEMPER_BLK gBOOT_STAT; omega), hblk]

theorem State.flag_reduced_calJudged (hbad : bad ≠ []) : (s.calJudged bad trims).flag gBOOT_STAT 19 = true := by
  rw [(Changes.calJudged_flagged s bad trims).flag (by decide)]
  unfold State.calFlagged
  rw [if_neg (by simpa using hbad)]
  exact State.flag_raiseFlag _ _ _ (by decide)

theorem State.fabState_calFlagged : (s.calFlagged bad trims).fabState = s.fabState :=
  ((Changes.calFlagged_blocked s bad trims).fld (by decide) 0 4).trans
    ((Changes.calBlocked s bad trims).fld (by unfold blkReg; decide) 0 4)

theorem State.lane_calJudged (r p n : Nat) :
    (s.calJudged bad trims).lane r p n = (trims.foldl State.setTrim s).lane r p n := by
  have hblk := (Changes.raiseBlks (bad.map (fun r => r.val)) (trims.foldl State.setTrim s)).parts .tem (by decide)
  have hflg := (Changes.calFlagged_blocked s bad trims).parts .tem (by decide)
  have hfab := (Changes.calJudged_flagged s bad trims).parts .tem (by decide)
  unfold State.lane
  rw [show (s.calJudged bad trims).tem = (trims.foldl State.setTrim s).tem from hfab.trans (hflg.trans hblk)]

theorem completes_initialCalibrationDone (hboot : s.booting = true) (hfab : s.fabState = fabCALIBRATING)
    (hdone : s.her.boot.calDone = false) : completes (.initialCalibrationDone bad trims) s (fun t =>
      t.her.boot.calDone = true
      ∧ (∀ r ∈ bad, t.flag (gTEMPER_BLK + 4 * (r.val / 32)) (r.val % 32) = true)
      ∧ (bad ≠ [] → t.flag gBOOT_STAT 19 = true)
      ∧ ((∃ r ∈ bad, r.val % 2 = 0 ∧ ∃ q ∈ bad, q.val = r.val + 1) →
          t.fabState = fabFAILED ∧ t.fld gFAB_STATE 8 4 = 3)
      ∧ ((∀ r ∈ bad, r.val % 2 = 0 → ∀ q ∈ bad, q.val ≠ r.val + 1) → t.fabState = fabCALIBRATING)
      ∧ (∀ x ∈ trims, (∀ y ∈ trims, y.ring = x.ring → y.pos = x.pos → y.lane = x.lane → y.trim = x.trim) →
          (t.lane x.ring.val x.pos.val x.lane.val).trim = x.trim.toInt)
      ∧ onlyParts [.regs, .tem, .her] s t) := by
  refine ⟨_, exec_initialCalibrationDone s bad trims hboot hfab hdone, rfl, ?_, ?_, ?_, ?_, ?_, ?_⟩
  · exact fun r hr => State.flag_blk_calJudged s bad trims hr
  · exact State.flag_reduced_calJudged s bad trims
  · intro h
    have hjudged : s.calJudged bad trims = (s.calFlagged bad trims).fail 3 := if_pos ((trackless_iff bad).mpr h)
    have hstate : (s.calJudged bad trims).fabState = fabFAILED := by rw [hjudged, State.fabState_fail]
    have hcause : (s.calJudged bad trims).fld gFAB_STATE 8 4 = 3 := by rw [hjudged, State.failCause_fail]
    exact ⟨hstate, hcause⟩
  · intro h
    have hjudged : s.calJudged bad trims = s.calFlagged bad trims := if_neg fun ht => by
      obtain ⟨r, hr, heven, q, hq, hnext⟩ := (trackless_iff bad).mp ht
      exact h r hr heven q hq hnext
    have hstate : (s.calJudged bad trims).fabState = fabCALIBRATING := by
      rw [hjudged, State.fabState_calFlagged, hfab]
    exact hstate
  · intro x hx hsame
    have htrim := State.trim_setTrims hx s hsame
    rw [← State.lane_calJudged s bad trims] at htrim
    exact htrim
  · refine onlyParts_keepBoot (onlyParts_trans ?_ (onlyParts_mono (State.onlyParts_setBoot _ _) (by decide)))
    exact onlyParts_mono (onlyParts_trans (Changes.calBlocked s bad trims).parts
      (onlyParts_mono (onlyParts_trans (Changes.calFlagged_blocked s bad trims).parts
        (Changes.calJudged_flagged s bad trims).parts) (by decide))) (by decide)

theorem completes_initialCalibrationDone_not (h : s.booting = false ∨ s.fabState ≠ fabCALIBRATING
    ∨ s.her.boot.calDone = true) : completes (.initialCalibrationDone bad trims) s (fun t => t = s) := by
  refine ⟨s, ?_, rfl⟩
  change execInitialCalibrationDone bad trims s = _
  unfold execInitialCalibrationDone
  rw [if_pos (by rcases h with h | h | h <;> simp [h])]

end

end Sys2Proof.Machine
end

section
/-! PROOFS. The traps of Hearth (R316, R320, R321, R423). -/
namespace Sys2Proof.Machine
open Sys2Proof

/-! ### An access of Hearth's to its memory -/

/-- The registers that an access may change. -/
def hmReg (a : Nat) : Prop := a ∈ [gHMEM_STAT, gHMEM_ADDR]

theorem onlyParts_setHmWord (s : State) (n : Nat) (w : BitVec 88) : onlyParts [.store] s (s.setHmWord n w) := by
  intro p hp
  cases p with
  | store => exact absurd List.mem_cons_self hp
  | _ => rfl

section
variable (s : State) (n : Nat)

theorem Changes.setHmWord (w : BitVec 88) : Changes hmReg [.regs, .store] s (s.setHmWord n w) :=
  Changes.of_regs rfl (onlyParts_mono (onlyParts_setHmWord s n w) (by decide))

theorem Changes.hmWrite (w : BitVec 88) : Changes hmReg [.regs, .store] s (s.hmWrite n w) :=
  Changes.ite (Changes.refl s) (Changes.setHmWord s n w)

theorem Changes.hmCount (r : HmRead) : Changes hmReg [.regs, .store] s (s.hmCount n r) := by
  have hstat (t : State) (lo w x : Nat) : Changes hmReg [.regs, .store] t (t.setFld gHMEM_STAT lo w x) :=
    Changes.setFld List.mem_cons_self List.mem_cons_self lo w x
  cases r with
  | clean => exact Changes.refl s
  | corrected w => exact (hstat _ _ _ _).trans (hstat _ _ _ _)
  | uncorrectable =>
    exact ((hstat _ _ _ _).trans (hstat _ _ _ _)).trans
      (Changes.setReg (List.mem_cons_of_mem _ List.mem_cons_self) List.mem_cons_self _)

theorem Changes.hmRead (bits : BitVec 88) : Changes hmReg [.regs, .store] s (s.hmRead n bits).2 :=
  (Changes.setHmWord s n _).trans (Changes.hmCount _ n _)

theorem Changes.hmLeave (x : HAcc) (w : BitVec 88) (fixed : Bool) :
    Changes hmReg [.regs, .store] s (s.hmLeave x n w fixed) := by
  unfold State.hmLeave
  split
  · exact Changes.refl s
  · exact Changes.ite (Changes.hmWrite s n w) (Changes.refl s)
  · exact Changes.hmWrite s n _

theorem State.hmWord_hmWrite_same {w : BitVec 88} (hrom : hmRom n = false) : (s.hmWrite n w).hmWord n = w := by
  unfold State.hmWrite
  rw [hrom]
  exact State.hmWord_setHmWord_same s n w

theorem State.hmWord_hmWrite_other {m : Nat} (w : BitVec 88) (h : m ≠ n) : (s.hmWrite n w).hmWord m = s.hmWord m := by
  unfold State.hmWrite
  split
  · rfl
  · exact State.hmWord_setHmWord_other s n m w h

theorem State.store_hmCount (r : HmRead) : (s.hmCount n r).store = s.store := by
  unfold State.hmCount
  cases r with
  | clean => rfl
  | corrected w => rw [State.count_store, State.raiseFlag_store]
  | uncorrectable => rw [State.setReg_store, State.count_store, State.raiseFlag_store]

theorem State.hmWord_congr {s t : State} (h : t.store = s.store) (m : Nat) : t.hmWord m = s.hmWord m := by
  unfold State.hmWord
  rw [h]

theorem State.hmWord_hmRead_other {m : Nat} (bits : BitVec 88) (h : m ≠ n) :
    (s.hmRead n bits).2.hmWord m = s.hmWord m :=
  (State.hmWord_congr (State.store_hmCount _ n _) m).trans (State.hmWord_setHmWord_other s n m _ h)

theorem State.hmWord_hmLeave_other {m : Nat} (x : HAcc) (w : BitVec 88) (fixed : Bool) (h : m ≠ n) :
    (s.hmLeave x n w fixed).hmWord m = s.hmWord m := by
  unfold State.hmLeave
  split
  · rfl
  · split
    · exact State.hmWord_hmWrite_other s n w h
    · rfl
  · exact State.hmWord_hmWrite_other s n _ h

/-- A correction is flagged. -/
theorem State.flag_hmCount_corrected (w : BitVec 88) : (s.hmCount n (.corrected w)).flag gHMEM_STAT 0 = true := by
  unfold State.hmCount State.count
  rw [State.flag_setFld_below _ _ _ _ _ _ (by decide) (by decide)]
  exact State.flag_raiseFlag s _ _ (by decide)

end

section
variable (s : State) (x : HAcc)

/-- A read's outcome becomes the access's (Table 11.7). -/
def State.hmReadAccess (n : Nat) : Option Nat × State :=
  match (s.hmRead n x.bits).1 with
  | .clean => (none, (s.hmRead n x.bits).2.hmLeave x n ((s.hmRead n x.bits).2.hmWord n) false)
  | .corrected w => (none, (s.hmRead n x.bits).2.hmLeave x n w true)
  | .uncorrectable => (some (hmCause x.op), (s.hmRead n x.bits).2)

theorem State.hmAccess_eq : s.hmAccess x
    = if x.op = .fetch ∧ hmRom (x.addr.toNat / 8) = false then (some 1, s)
      else if x.op = .store ∧ x.mask = 0xFF then (none, s.hmWrite (x.addr.toNat / 8) (hmEncode x.data))
      else s.hmReadAccess x (x.addr.toNat / 8) := rfl

/-- The trap that a read's outcome ends in, if any. -/
def hmTrap (op : HOp) : HmRead → Option Nat
  | .uncorrectable => some (hmCause op)
  | _ => none

theorem State.hmReadAccess_cause (n : Nat) :
    (s.hmReadAccess x n).1 = hmTrap x.op (hmDecode (s.hmWord n ^^^ x.bits)) := by
  have hread : (s.hmRead n x.bits).1 = hmDecode (s.hmWord n ^^^ x.bits) := rfl
  unfold State.hmReadAccess
  rw [hread]
  cases hmDecode (s.hmWord n ^^^ x.bits) <;> rfl

theorem State.trapCause_eq : s.trapCause x
    = if x.op = .fetch ∧ hmRom (x.addr.toNat / 8) = false then some 1
      else if x.op = .store ∧ x.mask = 0xFF then none
      else hmTrap x.op (hmDecode (s.hmWord (x.addr.toNat / 8) ^^^ x.bits)) := by
  unfold State.trapCause hmTrap
  rfl

theorem State.hmAccess_cause : (s.hmAccess x).1 = s.trapCause x := by
  rw [State.hmAccess_eq, State.trapCause_eq]
  split
  · rfl
  · split
    · rfl
    · exact State.hmReadAccess_cause s x _

theorem Changes.hmReadAccess (n : Nat) : Changes hmReg [.regs, .store] s (s.hmReadAccess x n).2 := by
  unfold State.hmReadAccess
  split
  · exact (Changes.hmRead s n _).trans (Changes.hmLeave _ n x _ _)
  · exact (Changes.hmRead s n _).trans (Changes.hmLeave _ n x _ _)
  · exact Changes.hmRead s n _

theorem Changes.hmAccess : Changes hmReg [.regs, .store] s (s.hmAccess x).2 := by
  rw [State.hmAccess_eq]
  split
  · exact Changes.refl s
  · split
    · exact Changes.hmWrite s _ _
    · exact Changes.hmReadAccess s x _

/-- An access changes the word it names alone. -/
theorem State.hmWord_hmAccess_other {m : Nat} (h : m ≠ x.addr.toNat / 8) : (s.hmAccess x).2.hmWord m = s.hmWord m := by
  rw [State.hmAccess_eq]
  split
  · rfl
  · split
    · exact State.hmWord_hmWrite_other s _ _ h
    · unfold State.hmReadAccess
      split
      · rw [State.hmWord_hmLeave_other _ _ _ _ _ h, State.hmWord_hmRead_other _ _ _ h]
      · rw [State.hmWord_hmLeave_other _ _ _ _ _ h, State.hmWord_hmRead_other _ _ _ h]
      · exact State.hmWord_hmRead_other s _ _ h

theorem State.hmWord_hmAccess_store (hop : x.op = .store) (hmask : x.mask = 0xFF)
    (hrom : hmRom (x.addr.toNat / 8) = false) : (s.hmAccess x).2.hmWord (x.addr.toNat / 8) = hmEncode x.data := by
  rw [State.hmAccess_eq, if_neg (by simp [hop]), if_pos ⟨hop, hmask⟩]
  exact State.hmWord_hmWrite_same s _ hrom

theorem State.hmReadAccess_corrected {n : Nat} {w : BitVec 88} (hop : x.op = .load)
    (hw : hmDecode (s.hmWord n ^^^ x.bits) = .corrected w) :
    (s.hmReadAccess x n).2 = (s.hmRead n x.bits).2.hmWrite n w := by
  have hread : (s.hmRead n x.bits).1 = .corrected w := hw
  unfold State.hmReadAccess State.hmLeave
  rw [hread]
  simp only [hop, if_true]

theorem State.hmAccess_load (hop : x.op = .load) : s.hmAccess x = s.hmReadAccess x (x.addr.toNat / 8) := by
  rw [State.hmAccess_eq, if_neg (by simp [hop]), if_neg (by simp [hop])]

/-- A load leaves the word as corrected, and the correction flagged. -/
theorem State.hmAccess_corrected {w : BitVec 88} (hop : x.op = .load)
    (hw : hmDecode (s.hmWord (x.addr.toNat / 8) ^^^ x.bits) = .corrected w)
    (hrom : hmRom (x.addr.toNat / 8) = false) :
    (s.hmAccess x).2.hmWord (x.addr.toNat / 8) = w ∧ (s.hmAccess x).2.flag gHMEM_STAT 0 = true := by
  rw [State.hmAccess_load s x hop, State.hmReadAccess_corrected s x hop hw]
  refine ⟨State.hmWord_hmWrite_same _ _ hrom, ?_⟩
  have hflag : (s.hmRead (x.addr.toNat / 8) x.bits).2.flag gHMEM_STAT 0 = true := by
    unfold State.hmRead
    simp only
    rw [hw]
    exact State.flag_hmCount_corrected _ _ w
  unfold State.hmWrite
  rw [hrom]
  exact hflag

end

/-! ### The trap -/

theorem State.her_logIssue (s : State) : s.logIssue.her = s.her := by
  unfold State.logIssue
  split
  · rfl
  · split
    · rfl
    · split <;> rfl

theorem State.her_latchFatal (s : State) (b : BitVec 512) : (s.latchFatal b).her = s.her := by
  unfold State.latchFatal
  split
  · change (ite (s.recs.fatal = true) s _ : State).her = s.her
    split
    · rfl
    · exact forUpTo_same (fun u : State => u.her) 16 _ s fun _ _ _ => rfl
  · rfl

theorem State.her_logRecord (s : State) (b : BitVec 512) : (s.logRecord b).her = s.her := by
  unfold State.logRecord
  split
  · rw [State.her_logIssue]
  · split <;> rfl

theorem State.her_perrRoute (s : State) (b : BitVec 512) : (s.perrRoute b).her = s.her :=
  foldl_same (fun t : State => t.her) _ _ s (fun _ _ => rfl)

theorem State.her_ringRecord (s : State) (b : BitVec 512) : (s.ringRecord b).her = s.her := rfl

/-- A record of Hearth's is no part of its own state. -/
theorem State.her_raiseHearth (s : State) (sev cause : Nat) (spec : BitVec 256) :
    (s.raiseHearth sev cause spec).her = s.her := by
  unfold State.raiseHearth
  rw [State.collect_eq, State.her_perrRoute, State.her_logRecord, State.her_latchFatal, State.her_ringRecord]

/-- A key that a filter keeps holds what it held. -/
theorem Tab.get_filter_of_key {α : Type} (d : Nat → α) {p : Nat × α → Bool} (t : Tab α) {k : Nat}
    (hk : ∀ v, p (k, v) = true) : Tab.get d (t.filter p) k = Tab.get d t k := by
  induction t with
  | nil => rfl
  | cons e t ih =>
    obtain ⟨j, v⟩ := e
    by_cases hj : j = k
    · subst hj
      simp [hk, Tab.get]
    · by_cases hp : p (j, v) = true <;> simp [hp, Tab.get, hj, ih]

theorem State.fabState_discard (s : State) : s.discard.fabState = s.fabState := by
  unfold State.fabState State.fld State.reg State.discard
  simp only
  rw [Tab.get_filter_of_key _ _ fun _ => rfl]

section
variable (s : State) (c : Nat)

theorem State.trap_fail (h : (s.booting || s.fabState == fabCONFIGURED) = true)
    (hc : c = 1 ∨ s.her.boot.trapped = true) :
    s.trap c = s.fail 1 := by
  unfold State.trap
  rw [if_pos h, if_pos (by simpa using hc)]

theorem State.trap_again (h : (s.booting || s.fabState == fabCONFIGURED) = true) (hc : c ≠ 1)
    (ht : s.her.boot.trapped = false) : s.trap c = s.stepAgain := by
  unfold State.trap
  rw [if_pos h, if_neg (by simp [hc, ht])]

theorem State.trap_halt (h : (s.booting || s.fabState == fabCONFIGURED) = false) :
    s.trap c = (s.raiseHearth sevFATAL caHEARTH_UE 0).raiseFlag gBOOT_STAT 21 := by
  unfold State.trap
  rw [if_neg (by simp [h])]

theorem State.fabState_stepAgain : s.stepAgain.fabState = s.fabState := by
  unfold State.stepAgain
  simp only
  split
  · rfl
  · split
    · exact State.fabState_discard s
    · rfl

theorem State.trapped_stepAgain : s.stepAgain.her.boot.trapped = true := by
  unfold State.stepAgain
  simp only
  split
  · rfl
  · split <;> rfl

theorem State.mcause_stepAgain : s.stepAgain.her.mcause = s.her.mcause ∧ s.stepAgain.her.mtval = s.her.mtval := by
  unfold State.stepAgain
  simp only
  split
  · exact ⟨rfl, rfl⟩
  · split <;> exact ⟨rfl, rfl⟩

/-- What led to a trap stays for Hearth to read. -/
theorem State.mcause_trap : (s.trap c).her.mcause = s.her.mcause ∧ (s.trap c).her.mtval = s.her.mtval := by
  unfold State.trap
  split
  · split
    · exact ⟨rfl, rfl⟩
    · exact State.mcause_stepAgain s
  · have hher : ((s.raiseHearth sevFATAL caHEARTH_UE 0).raiseFlag gBOOT_STAT 21).her = s.her := by
      rw [State.raiseFlag_her, State.her_raiseHearth]
    exact ⟨congrArg HerSt.mcause hher, congrArg HerSt.mtval hher⟩

end

section
variable (s : State) (x : HAcc)

/-- The state that the handler of a trap with cause `c` starts from. -/
def State.trapped (c : Nat) : State :=
  { (s.hmAccess x).2 with her := { (s.hmAccess x).2.her with mcause := c, mtval := x.addr.toNat } }

theorem State.her_trapped (c : Nat) : (s.trapped x c).her = { s.her with mcause := c, mtval := x.addr.toNat } := by
  have hher : (s.hmAccess x).2.her = s.her := (Changes.hmAccess s x).parts .her (by decide)
  unfold State.trapped
  rw [hher]

theorem State.fabState_trapped (c : Nat) : (s.trapped x c).fabState = s.fabState :=
  (Changes.hmAccess s x).fld (by unfold hmReg; decide) 0 4

theorem State.booting_trapped (c : Nat) : (s.trapped x c).booting = s.booting := by
  unfold State.booting
  rw [State.fabState_trapped, State.her_trapped]

theorem execHearthTrap_of_makes (hrst : s.her.rstLow = false) (htest : s.her.test.mode = false)
    (hfab : s.fabState ≠ fabFAILED) (hsafe : s.hsafe = false) : exec (.hearthTrap x) s
      = match s.trapCause x with
        | none => .next (s.keepBoot (s.hmAccess x).2)
        | some c => .next (s.keepBoot ((s.trapped x c).trap c)) := by
  change execHearthTrap x s = _
  unfold execHearthTrap
  rw [if_neg (by simp [hrst, htest, hfab, hsafe]), ← State.hmAccess_cause]
  unfold State.trapped
  obtain ⟨c, t⟩ := s.hmAccess x
  cases c <;> rfl

theorem completes_hearthTrap_not
    (h : s.her.rstLow = true ∨ s.her.test.mode = true ∨ s.fabState = fabFAILED ∨ s.hsafe = true) :
    completes (.hearthTrap x) s (fun t => t = s) := by
  refine ⟨s, ?_, rfl⟩
  change execHearthTrap x s = _
  unfold execHearthTrap
  rw [if_pos (by rcases h with h | h | h | h <;> simp [h])]

theorem completes_hearthTrap_none (hrst : s.her.rstLow = false) (htest : s.her.test.mode = false)
    (hfab : s.fabState ≠ fabFAILED) (hsafe : s.hsafe = false) (hnone : s.trapCause x = none) :
    completes (.hearthTrap x) s (fun t =>
      (x.op = .store → x.mask = 0xFF → hmRom (x.addr.toNat / 8) = false →
          t.hmWord (x.addr.toNat / 8) = hmEncode x.data)
      ∧ (∀ w, x.op = .load → hmDecode (s.hmWord (x.addr.toNat / 8) ^^^ x.bits) = .corrected w →
          hmRom (x.addr.toNat / 8) = false → t.hmWord (x.addr.toNat / 8) = w ∧ t.flag gHMEM_STAT 0 = true)
      ∧ (∀ m, m ≠ x.addr.toNat / 8 → t.hmWord m = s.hmWord m)
      ∧ regsBut [gHMEM_STAT, gHMEM_ADDR] s t ∧ onlyParts [.regs, .store] s t) := by
  refine ⟨s.keepBoot (s.hmAccess x).2, ?_, ?_⟩
  · rw [execHearthTrap_of_makes s x hrst htest hfab hsafe, hnone]
  · exact ⟨State.hmWord_hmAccess_store s x, fun _ => State.hmAccess_corrected s x,
      fun _ => State.hmWord_hmAccess_other s x, (Changes.hmAccess s x).regs,
      onlyParts_keepBoot (Changes.hmAccess s x).parts⟩

/-- That a second trap of a step fails the die with cause 1 is log entry 105; R423 names FAILED alone. -/
theorem completes_hearthTrap_some {c : Nat} (hrst : s.her.rstLow = false) (htest : s.her.test.mode = false)
    (hfab : s.fabState ≠ fabFAILED) (hsafe : s.hsafe = false) (hsome : s.trapCause x = some c) :
    completes (.hearthTrap x) s (fun t =>
      t.her.mcause = c ∧ t.her.mtval = x.addr.toNat
      ∧ ((s.booting = true ∨ s.fabState = fabCONFIGURED) → (c = 1 ∨ s.her.boot.trapped = true) →
          t.fabState = fabFAILED ∧ t.fld gFAB_STATE 8 4 = 1)
      ∧ ((s.booting = true ∨ s.fabState = fabCONFIGURED) → c ≠ 1 → s.her.boot.trapped = false →
          t.her.boot.trapped = true ∧ t.fabState = s.fabState)
      ∧ (s.booting = false → s.fabState ≠ fabCONFIGURED → t.hsafe = true ∧ t.fabState = s.fabState)) := by
  have hher := State.her_trapped s x c
  have hstarts : ((s.trapped x c).booting || (s.trapped x c).fabState == fabCONFIGURED)
      = (s.booting || s.fabState == fabCONFIGURED) := by
    rw [State.booting_trapped, State.fabState_trapped]
  have htrapped : (s.trapped x c).her.boot.trapped = s.her.boot.trapped := by rw [hher]
  obtain ⟨hmcause, hmtval⟩ := State.mcause_trap (s.trapped x c) c
  rw [hher] at hmcause hmtval
  refine ⟨s.keepBoot ((s.trapped x c).trap c), ?_, hmcause, hmtval, ?_, ?_, ?_⟩
  · rw [execHearthTrap_of_makes s x hrst htest hfab hsafe, hsome]
  · intro hstart hc
    have htrap := State.trap_fail (s.trapped x c) c (hstarts.trans (by simpa using hstart)) (htrapped ▸ hc)
    have hstate : ((s.trapped x c).trap c).fabState = fabFAILED := by rw [htrap, State.fabState_fail]
    have hcause : ((s.trapped x c).trap c).fld gFAB_STATE 8 4 = 1 := by rw [htrap, State.failCause_fail]
    exact ⟨hstate, hcause⟩
  · intro hstart hc hfirst
    have htrap := State.trap_again (s.trapped x c) c (hstarts.trans (by simpa using hstart)) hc (htrapped.trans hfirst)
    have hagain : ((s.trapped x c).trap c).her.boot.trapped = true := by rw [htrap, State.trapped_stepAgain]
    have hstate : ((s.trapped x c).trap c).fabState = s.fabState := by
      rw [htrap, State.fabState_stepAgain, State.fabState_trapped]
    exact ⟨hagain, hstate⟩
  · intro hboot hconf
    have htrap := State.trap_halt (s.trapped x c) c (hstarts.trans (by simp [hboot, hconf]))
    have hhalt : ((s.trapped x c).trap c).hsafe = true := by
      rw [htrap]
      exact State.flag_raiseFlag _ _ _ (by decide)
    have hstate : ((s.trapped x c).trap c).fabState = s.fabState := by
      rw [htrap, ← State.fabState_trapped s x c]
      unfold State.fabState
      rw [State.fld_congr (State.reg_raiseFlag_other _ _ _ _ (by decide)),
        State.fld_congr (State.reg_raiseHearth_low (by decide) _ _ _ _)]
    exact ⟨hhalt, hstate⟩

end

end Sys2Proof.Machine
end

section
/-! PROOFS. The ports open (R316, R419, R425). -/
namespace Sys2Proof.Machine
open Sys2Proof

/-! ### A port that joins -/

theorem onlyParts_tryResync (s : State) (st k : Nat) : onlyParts [.ni] s (s.tryResync st k) := by
  unfold State.tryResync
  exact onlyParts_ite (State.onlyParts_setPort s st k _) (onlyParts_refl _ s)

theorem State.regs_tryResync (s : State) (st k : Nat) : (s.tryResync st k).regs = s.regs :=
  onlyParts_tryResync s st k .regs (by decide)

theorem Changes.enablePort (s : State) (e : Nat × Nat) :
    Changes (· = portReg e.1 e.2 pCFG) [.regs, .ni] s (s.enablePort e) :=
  (Changes.setFld (A := (· = portReg e.1 e.2 pCFG)) rfl (by decide) 0 1 1).trans
    (Changes.of_regs (State.regs_tryResync _ _ _) (onlyParts_mono (onlyParts_tryResync _ _ _) (by decide)))

/-- A flag that stands stays while ports are enabled. -/
theorem State.flag_enablePort_of_flag {s : State} {a i : Nat} (hi : i < 32) (h : s.flag a i = true) (e : Nat × Nat) :
    (s.enablePort e).flag a i = true := by
  unfold State.enablePort
  rw [State.flag_congr (State.reg_congr (State.regs_tryResync _ _ _) a)]
  exact State.flag_raiseFlag_of_flag hi (by decide) h

theorem State.flag_enablePort (s : State) (e : Nat × Nat) : (s.enablePort e).flag (portReg e.1 e.2 pCFG) 0 = true := by
  unfold State.enablePort
  rw [State.flag_congr (State.reg_congr (State.regs_tryResync _ _ _) _)]
  exact State.flag_raiseFlag s _ 0 (by decide)

/-- Registers at offsets below 0x4000 of two stops are the same only at one stop. -/
theorem stopReg_inj {st st' o o' : Nat} (ho : o < 0x4000) (ho' : o' < 0x4000) (h : stopReg st o = stopReg st' o') :
    st = st' ∧ o = o' := by
  unfold stopReg at h
  omega

theorem stopReg_ne {st st' o o' : Nat} (ho : o < 0x4000) (ho' : o' < 0x4000) (h : o ≠ o') :
    stopReg st o ≠ stopReg st' o' := fun he => h (stopReg_inj ho ho' he).2

/-- The EN bits of the ports stand in words of their own. -/
theorem stopReg_ne_pCFG {st o : Nat} (ho : o < 0x4000) (h0 : o ≠ 0x400) (h1 : o ≠ 0x480) {e : Nat × Nat}
    (hk : e.2 < 2) : stopReg st o ≠ portReg e.1 e.2 pCFG :=
  stopReg_ne ho (by unfold pCFG; omega) (by unfold pCFG; omega)

theorem State.fillBusy_enablePort (s : State) (st : Nat) {e : Nat × Nat} (hk : e.2 < 2) :
    (s.enablePort e).fillBusy st = s.fillBusy st :=
  (Changes.enablePort s e).flag (stopReg_ne_pCFG (by decide) (by decide) (by decide) hk) 0

/-- The port's handshake has begun (R168). -/
def State.joined (s : State) (st k : Nat) : Prop := (s.port st k).state = 1 ∧ (s.port st k).rsReq = true

/-- A port keeps still while another is enabled. -/
theorem State.port_enablePort_other (s : State) {st k : Nat} {e : Nat × Nat} (h : st * 2 + k ≠ e.1 * 2 + e.2) :
    (s.enablePort e).port st k = s.port st k := by
  unfold State.enablePort State.tryResync
  simp only
  split
  · rw [State.port_setPort_other _ _ _ _ _ _ h]
    rfl
  · rfl

theorem State.joined_enablePort {s : State} {e : Nat × Nat} (hk : e.2 < 2) (h : s.mayJoin e.1 e.2 = true) :
    (s.enablePort e).joined e.1 e.2 := by
  have hbusy : (s.setFld (portReg e.1 e.2 pCFG) 0 1 1).fillBusy e.1 = s.fillBusy e.1 :=
    State.flag_congr (State.reg_setFld_other s _ _ 0 1 1
      (stopReg_ne_pCFG (by decide) (by decide) (by decide) hk)) 0
  have hen : (s.setFld (portReg e.1 e.2 pCFG) 0 1 1).flag (portReg e.1 e.2 pCFG) 0 = true :=
    State.flag_raiseFlag s _ 0 (by decide)
  have hport : (s.setFld (portReg e.1 e.2 pCFG) 0 1 1).port e.1 e.2 = s.port e.1 e.2 := rfl
  unfold State.mayJoin at h
  simp only [Bool.and_eq_true, beq_iff_eq, Bool.not_eq_true'] at h
  obtain ⟨⟨⟨hstate, hrst⟩, hstop⟩, hfill⟩ := h
  unfold State.joined State.enablePort State.tryResync
  rw [hport, hbusy, hen, if_pos (by simp [hstate, hrst, hstop, hfill]), State.port_setPort_same]
  exact ⟨rfl, rfl⟩

/-- A port that has begun its handshake does not begin it again. -/
theorem State.joined_enablePort_of_joined {s : State} {st k : Nat} (h : s.joined st k) (e : Nat × Nat) :
    (s.enablePort e).joined st k := by
  by_cases hkey : st * 2 + k = e.1 * 2 + e.2
  · have hsame (t : State) : t.port st k = t.port e.1 e.2 := by unfold State.port; rw [hkey]
    unfold State.joined at *
    rw [hsame] at h
    rw [hsame]
    obtain ⟨hstate, hreq⟩ := h
    have hport : (s.setFld (portReg e.1 e.2 pCFG) 0 1 1).port e.1 e.2 = s.port e.1 e.2 := rfl
    unfold State.enablePort State.tryResync
    rw [hport, if_neg (by simp [hstate]), hport]
    exact ⟨hstate, hreq⟩
  · unfold State.joined
    rw [State.port_enablePort_other s hkey]
    exact h

theorem State.mayJoin_enablePort_other {s : State} {st k : Nat} {e : Nat × Nat} (hk : e.2 < 2)
    (hkey : st * 2 + k ≠ e.1 * 2 + e.2) : (s.enablePort e).mayJoin st k = s.mayJoin st k := by
  unfold State.mayJoin
  rw [State.port_enablePort_other s hkey, State.fillBusy_enablePort s st hk]

section
variable {l : List (Nat × Nat)} (hl : ∀ e ∈ l, e.2 < 2) (s : State)

theorem Changes.enablePorts (l : List (Nat × Nat)) :
    Changes (fun a => 0x100000 ≤ a) [.regs, .ni] s (l.foldl State.enablePort s) :=
  Changes.foldl (fun e _ t => (Changes.enablePort t e).mono
    (fun a ha => by subst ha; unfold portReg stopReg; omega) (List.Subset.refl _)) s

theorem State.flag_enablePorts {e : Nat × Nat} (he : e ∈ l) :
    (l.foldl State.enablePort s).flag (portReg e.1 e.2 pCFG) 0 = true :=
  foldl_reaches (Q := fun _ => True) (P := fun t : State => t.flag (portReg e.1 e.2 pCFG) 0 = true) he
    (fun t _ => State.flag_enablePort t e) (fun _ _ _ _ => trivial)
    (fun x _ _ ht => State.flag_enablePort_of_flag (by decide) ht x) trivial

include hl

/-- Of the ports that are enabled, those whose agents let them join. -/
theorem State.joined_enablePorts {e : Nat × Nat} (he : e ∈ l) (h : s.mayJoin e.1 e.2 = true) :
    (l.foldl State.enablePort s).joined e.1 e.2 :=
  foldl_reaches (Q := fun t : State => t.mayJoin e.1 e.2 = true ∨ t.joined e.1 e.2)
    (P := fun t : State => t.joined e.1 e.2) he
    (fun t ht => ht.elim (State.joined_enablePort (hl e he)) fun hj => State.joined_enablePort_of_joined hj e)
    (fun x hx t ht => ht.elim
      (fun hm => by
        by_cases hkey : e.1 * 2 + e.2 = x.1 * 2 + x.2
        · have hx2 := hl x hx
          have he2 := hl e he
          have hex : e = x := Prod.ext (by omega) (by omega)
          exact Or.inr (hex ▸ State.joined_enablePort he2 hm)
        · exact Or.inl ((State.mayJoin_enablePort_other (hl x hx) hkey).trans hm))
      fun hj => Or.inr (State.joined_enablePort_of_joined hj x))
    (fun x _ _ ht => State.joined_enablePort_of_joined ht x) (Or.inl h)

end

/-! ### The engines -/

/-- The engine of stop `st` is switched on where the image enables it or it has a queue (R316). -/
def State.startEngine (es : List Nat) (t : State) (st : Nat) : State :=
  if t.liveQueue st || es.contains st then (t.setFld (stopReg st sQE_CTRL) 0 1 1).endRaw st else t

section
variable (es : List Nat)

theorem Changes.startEngine (t : State) (st : Nat) :
    Changes (fun a => ∃ o ∈ [sQE_CTRL, sQS_RAW_CTRL, sQS_STAT], a = stopReg st o) [.regs] t (t.startEngine es st) :=
  Changes.ite
    (((Changes.setFld ⟨sQE_CTRL, by decide, rfl⟩ (by decide) 0 1 1).trans
      (Changes.setFld ⟨sQS_RAW_CTRL, by decide, rfl⟩ (by decide) 0 1 0)).trans
      (Changes.setFld ⟨sQS_STAT, by decide, rfl⟩ (by decide) 1 1 0))
    (Changes.refl t)

theorem Changes.startEngines (l : List Nat) (s : State) :
    Changes (fun a => 0x100000 ≤ a) [.regs] s (l.foldl (State.startEngine es) s) :=
  Changes.foldl (fun st _ t => (Changes.startEngine es t st).mono
    (fun a ⟨o, _, ha⟩ => by subst ha; unfold stopReg; omega) (List.Subset.refl _)) s

/-- The engine of another stop is another matter. -/
theorem engineReg_ne {st y o : Nat} (hy : y ≠ st) (ho : o < 0x4000) :
    ¬ ∃ o' ∈ [sQE_CTRL, sQS_RAW_CTRL, sQS_STAT], stopReg st o = stopReg y o' := fun ⟨o', ho', he⟩ =>
  hy (stopReg_inj ho ((by decide : ∀ o ∈ [sQE_CTRL, sQS_RAW_CTRL, sQS_STAT], o < 0x4000) o' ho') he).1.symm

/-- An engine that is on stays on. -/
theorem State.flag_QE_CTRL_startEngine {t : State} {st : Nat} (h : t.flag (stopReg st sQE_CTRL) 0 = true) (y : Nat) :
    (t.startEngine es y).flag (stopReg st sQE_CTRL) 0 = true := by
  unfold State.startEngine State.endRaw
  have hraw : stopReg st sQE_CTRL ≠ stopReg y sQS_RAW_CTRL := stopReg_ne (by decide) (by decide) (by decide)
  have hstat : stopReg st sQE_CTRL ≠ stopReg y sQS_STAT := stopReg_ne (by decide) (by decide) (by decide)
  split
  · rw [State.flag_congr (State.reg_setFld_other _ _ _ _ _ _ hstat),
      State.flag_congr (State.reg_setFld_other _ _ _ _ _ _ hraw)]
    exact State.flag_raiseFlag_of_flag (by decide) (by decide) h
  · exact h

/-- Raw mode that has ended stays ended. -/
theorem State.flag_raw_startEngine {t : State} {st : Nat} (h : t.flag (stopReg st sQS_STAT) 1 = false) (y : Nat) :
    (t.startEngine es y).flag (stopReg st sQS_STAT) 1 = false := by
  by_cases hy : y = st
  · subst hy
    unfold State.startEngine State.endRaw
    split
    · exact State.flag_setFld_boolNat _ _ 1 false (by decide)
    · exact h
  · rw [(Changes.startEngine es t y).flag (engineReg_ne hy (by decide))]
    exact h

theorem State.fillBusy_startEngine (t : State) (st y : Nat) : (t.startEngine es y).fillBusy st = t.fillBusy st := by
  unfold State.fillBusy
  by_cases hy : y = st
  · subst hy
    have hqe : stopReg y sQS_STAT ≠ stopReg y sQE_CTRL := stopReg_ne (by decide) (by decide) (by decide)
    have hraw : stopReg y sQS_STAT ≠ stopReg y sQS_RAW_CTRL := stopReg_ne (by decide) (by decide) (by decide)
    unfold State.startEngine State.endRaw
    split
    · rw [State.flag_setFld_below _ _ _ _ _ _ (by decide) (by decide),
        State.flag_congr (State.reg_setFld_other _ _ _ _ _ _ hraw),
        State.flag_congr (State.reg_setFld_other _ _ _ _ _ _ hqe)]
    · rfl
  · exact (Changes.startEngine es t y).flag (engineReg_ne hy (by decide)) 0

theorem State.liveQueue_congr {s t : State} (h : t.qe = s.qe) (st : Nat) : t.liveQueue st = s.liveQueue st := by
  unfold State.liveQueue
  rw [h]

/-- An engine that the image enables or that has a queue is on, and raw mode has ended at its stop. -/
theorem State.startEngine_on {s t : State} {st : Nat} (hqe : t.qe = s.qe)
    (h : (s.liveQueue st || es.contains st) = true) :
    (t.startEngine es st).flag (stopReg st sQE_CTRL) 0 = true
      ∧ (t.startEngine es st).flag (stopReg st sQS_STAT) 1 = false := by
  have hqs : stopReg st sQE_CTRL ≠ stopReg st sQS_STAT := stopReg_ne (by decide) (by decide) (by decide)
  have hraw : stopReg st sQE_CTRL ≠ stopReg st sQS_RAW_CTRL := stopReg_ne (by decide) (by decide) (by decide)
  unfold State.startEngine State.endRaw
  rw [State.liveQueue_congr hqe st, if_pos h]
  constructor
  · rw [State.flag_congr (State.reg_setFld_other _ _ _ _ _ _ hqs),
      State.flag_congr (State.reg_setFld_other _ _ _ _ _ _ hraw)]
    exact State.flag_raiseFlag t _ 0 (by decide)
  · exact State.flag_setFld_boolNat _ _ 1 false (by decide)

end

section
variable (s : State)

/-- The engines of the die as the opening switches them on. -/
def State.enginesOn : State := (List.range nStops).foldl (State.startEngine s.imageEngines) s

theorem Changes.enginesOn : Changes (fun a => 0x100000 ≤ a) [.regs] s s.enginesOn :=
  Changes.startEngines s.imageEngines _ s

theorem State.enginesOn_on {st : Nat} (hst : st < nStops) (h : (s.liveQueue st || s.imageEngines.contains st) = true) :
    s.enginesOn.flag (stopReg st sQE_CTRL) 0 = true ∧ s.enginesOn.flag (stopReg st sQS_STAT) 1 = false :=
  foldl_reaches (Q := fun t : State => t.qe = s.qe)
    (P := fun t : State => t.flag (stopReg st sQE_CTRL) 0 = true ∧ t.flag (stopReg st sQS_STAT) 1 = false)
    (List.mem_range.mpr hst) (fun t ht => State.startEngine_on s.imageEngines ht h)
    (fun y _ t ht => ((Changes.startEngine s.imageEngines t y).parts .qe (by decide)).trans ht)
    (fun y _ t ht => ⟨State.flag_QE_CTRL_startEngine s.imageEngines ht.1 y,
      State.flag_raw_startEngine s.imageEngines ht.2 y⟩) rfl

theorem State.mayJoin_enginesOn (st k : Nat) : s.enginesOn.mayJoin st k = s.mayJoin st k := by
  have hni : s.enginesOn.ni = s.ni := (Changes.enginesOn s).parts .ni (by decide)
  have hport : s.enginesOn.port st k = s.port st k := by unfold State.port; rw [hni]
  have hbusy : s.enginesOn.fillBusy st = s.fillBusy st :=
    foldl_same (fun t : State => t.fillBusy st) _ _ s fun t y => State.fillBusy_startEngine s.imageEngines t st y
  unfold State.mayJoin
  rw [hport, hbusy]

end

/-- A stop's words but the EN bits keep while ports are enabled. -/
theorem State.reg_enablePorts_stop {l : List (Nat × Nat)} (hl : ∀ e ∈ l, e.2 < 2) (s : State) {o : Nat}
    (ho : o < 0x4000) (h0 : o ≠ 0x400) (h1 : o ≠ 0x480) (st : Nat) :
    (l.foldl State.enablePort s).reg (stopReg st o) = s.reg (stopReg st o) :=
  List.foldlRecOn l _ (motive := fun t : State => t.reg (stopReg st o) = s.reg (stopReg st o)) rfl
    fun t ht e he => ((Changes.enablePort t e).regs _ (stopReg_ne_pCFG ho h0 h1 (hl e he))).trans ht

/-! ### HOLDING and OPEN -/

/-- Port 0 of each U stop. -/
def bootPorts : List (Nat × Nat) :=
  ((List.range nStops).filter (fun st => stopKind st == 4)).map (fun st => (st, 0))

theorem mem_bootPorts {st : Nat} (hst : st < nStops) (hkind : stopKind st = 4) : (st, 0) ∈ bootPorts :=
  List.mem_map_of_mem (List.mem_filter.mpr ⟨List.mem_range.mpr hst, by simp [hkind]⟩)

theorem bootPorts_port (e : Nat × Nat) (he : e ∈ bootPorts) : e.2 < 2 := by
  obtain ⟨st, -, rfl⟩ := List.mem_map.mp he
  exact Nat.zero_lt_two

theorem State.imagePorts_port (s : State) (e : Nat × Nat) (he : e ∈ s.imagePorts) : e.2 < 2 := by
  obtain ⟨st, -, hst⟩ := List.mem_flatMap.mp (List.mem_of_mem_filter he)
  rcases List.mem_cons.mp hst with rfl | hst
  · exact Nat.zero_lt_two
  · rw [List.mem_singleton.mp hst]
    exact Nat.one_lt_two

theorem Changes.opened (s : State) :
    Changes (fun a => a ∈ [gFAB_STATE, gOPEN_CTRL, gBOOT_TIME]) [.regs] s s.opened :=
  (((Changes.setFld (by decide) (by decide) 0 4 fabOPEN).trans (Changes.setFld (by decide) (by decide) 12 1 0)).trans
    (Changes.setFld (by decide) (by decide) 0 1 0)).trans (Changes.setReg (by decide) (by decide) _)

section
variable (s : State)

theorem State.fabState_opened : s.opened.fabState = fabOPEN := by
  unfold State.opened State.fabState State.setFab
  rw [State.fld_congr (State.reg_setReg_other _ _ _ _ (by decide)), State.fld_setFld_other _ _ _ _ _ _ _ _ (by decide),
    State.fld_setFld_below _ _ _ _ _ _ _ (by decide) (by decide), State.fld_setFld_same _ _ _ _ _ (by decide)]
  rfl

theorem State.flag_holding_opened : s.opened.flag gFAB_STATE 12 = false := by
  unfold State.opened
  rw [State.flag_congr (State.reg_setReg_other _ _ _ _ (by decide)),
    State.flag_congr (State.reg_setFld_other _ _ _ _ _ _ (by decide))]
  exact State.flag_setFld_boolNat _ _ 12 false (by decide)

theorem State.flag_go_opened : s.opened.flag gOPEN_CTRL 0 = false := by
  unfold State.opened
  rw [State.flag_congr (State.reg_setReg_other _ _ _ _ (by decide))]
  exact State.flag_setFld_boolNat _ _ 0 false (by decide)

theorem State.bootTime_opened : s.opened.reg gBOOT_TIME = BitVec.ofNat 32 (s.her.boot.hcs / 400) :=
  State.reg_setReg_same _ _ _

end

/-- The registers of a stop are none of the global block's. -/
theorem stopReg_global (st o : Nat) : 0x100000 ≤ stopReg st o := by unfold stopReg; omega

theorem stopReg_ne_global {a : Nat} (ha : a < 0x100000) (st o : Nat) : stopReg st o ≠ a :=
  fun he => absurd (stopReg_global st o) (he ▸ Nat.not_le.mpr ha)

/-- What the ports of a list, once enabled, show; `j` is the state in which it is asked whether they may join. -/
structure Enabled (l : List (Nat × Nat)) (j t : State) : Prop where
  en : ∀ e ∈ l, t.flag (portReg e.1 e.2 pCFG) 0 = true
  joins : ∀ e ∈ l, j.mayJoin e.1 e.2 = true → t.joined e.1 e.2

theorem Enabled.enablePorts {l : List (Nat × Nat)} (hl : ∀ e ∈ l, e.2 < 2) (s : State) :
    Enabled l s (l.foldl State.enablePort s) where
  en _ he := State.flag_enablePorts s he
  joins _ he hj := State.joined_enablePorts hl s he hj

/-- A change of the global block leaves the ports enabled. -/
theorem Enabled.of_changes {l : List (Nat × Nat)} {j t u : State} (h : Enabled l j t) {A : Nat → Prop}
    (hA : ∀ a, A a → a < 0x100000) (hc : Changes A [.regs] t u) : Enabled l j u where
  en e he := by
    have hne : ¬ A (portReg e.1 e.2 pCFG) := fun ha => absurd (hA _ ha) (Nat.not_lt.mpr (stopReg_global _ _))
    rw [hc.flag hne]
    exact h.en e he
  joins e he hj := by
    have hni : u.ni = t.ni := hc.parts .ni (by decide)
    have hport : u.port e.1 e.2 = t.port e.1 e.2 := by unfold State.port; rw [hni]
    unfold State.joined
    rw [hport]
    exact h.joins e he hj

section
variable (s : State)

/-- The engines run and the boot ports are enabled: HOLDING (R419). -/
def State.held : State := (bootPorts.foldl State.enablePort s.enginesOn).setFld gFAB_STATE 12 1 1

/-- The engines run and the image's ports are enabled: OPEN (R419). -/
def State.openedOn (t : State) : State := (s.imagePorts.foldl State.enablePort t).opened

theorem Enabled.openedOn (t : State) : Enabled s.imagePorts t (s.openedOn t) :=
  (Enabled.enablePorts s.imagePorts_port t).of_changes (by decide) (Changes.opened _)

theorem onlyParts_openedOn (t : State) : onlyParts [.regs, .ni] t (s.openedOn t) :=
  onlyParts_trans (Changes.enablePorts t s.imagePorts).parts
    (onlyParts_mono (Changes.opened _).parts (by decide))

theorem Enabled.held : Enabled bootPorts s.enginesOn s.held :=
  (Enabled.enablePorts bootPorts_port _).of_changes (A := (· = gFAB_STATE)) (fun _ ha => ha ▸ by decide)
    (Changes.setFld_self gFAB_STATE 12 1 1)

theorem onlyParts_held : onlyParts [.regs, .ni] s s.held :=
  onlyParts_trans (onlyParts_mono (Changes.enginesOn s).parts (by decide))
    (onlyParts_trans (Changes.enablePorts _ bootPorts).parts
      (onlyParts_mono (Changes.setFld_self gFAB_STATE 12 1 1).parts (by decide)))

theorem State.fabState_held : s.held.fabState = s.fabState := by
  unfold State.held State.fabState
  rw [State.fld_setFld_below _ _ _ _ _ _ _ (by decide) (by decide),
    (Changes.enablePorts _ bootPorts).fld (by decide), (Changes.enginesOn s).fld (by decide)]

/-- The engines that are on stay on, and out of raw mode, in HOLDING. -/
theorem State.engine_held {st o : Nat} (ho : o < 0x4000) (h0 : o ≠ 0x400) (h1 : o ≠ 0x480) (i : Nat) :
    s.held.flag (stopReg st o) i = s.enginesOn.flag (stopReg st o) i := by
  unfold State.held
  rw [State.flag_congr (State.reg_setFld_other _ _ _ _ _ _ (stopReg_ne_global (by decide) st o)),
    State.flag_congr (State.reg_enablePorts_stop bootPorts_port _ ho h0 h1 st)]

theorem State.engine_openedOn (t : State) {st o : Nat} (ho : o < 0x4000) (h0 : o ≠ 0x400) (h1 : o ≠ 0x480) (i : Nat) :
    (s.openedOn t).flag (stopReg st o) i = t.flag (stopReg st o) i := by
  unfold State.openedOn
  rw [(Changes.opened _).flag fun hm => absurd (stopReg_global st o)
      ((by decide : ∀ a ∈ [gFAB_STATE, gOPEN_CTRL, gBOOT_TIME], ¬ 0x100000 ≤ a) _ hm),
    State.flag_congr (State.reg_enablePorts_stop s.imagePorts_port _ ho h0 h1 st)]

theorem State.bootTime_openedOn {t : State} (h : t.her = s.her) :
    (s.openedOn t).reg gBOOT_TIME = BitVec.ofNat 32 (s.her.boot.hcs / 400) := by
  have hher : (s.imagePorts.foldl State.enablePort t).her = s.her :=
    ((Changes.enablePorts t s.imagePorts).parts .her (by decide)).trans h
  unfold State.openedOn
  rw [State.bootTime_opened, hher]

theorem exec_portsOpen (hfab : s.fabState = fabCONFIGURED) (hphase : s.her.boot.phase = 5)
    (hhold : s.flag gFAB_STATE 12 = false) (hsafe : s.hsafe = false) (htest : s.her.test.mode = false) :
    exec .portsOpen s = if hdHold (s.headerOf s.her.boot.copy) || s.flag gBOOT_STAT 19 then .next (s.keepBoot s.held)
      else .next (s.keepBoot (s.openedOn s.enginesOn)) := by
  change execPortsOpen s = _
  unfold execPortsOpen
  rw [if_neg (by simp [hfab, hphase, hhold, hsafe, htest])]
  rfl

theorem completes_portsOpen (hfab : s.fabState = fabCONFIGURED) (hphase : s.her.boot.phase = 5)
    (hhold : s.flag gFAB_STATE 12 = false) (hsafe : s.hsafe = false) (htest : s.her.test.mode = false) :
    completes .portsOpen s (fun t =>
      (∀ st, st < nStops → (s.liveQueue st || s.imageEngines.contains st) = true →
        t.flag (stopReg st sQE_CTRL) 0 = true ∧ t.flag (stopReg st sQS_STAT) 1 = false)
      ∧ ((hdHold (s.headerOf s.her.boot.copy) || s.flag gBOOT_STAT 19) = true →
        t.fabState = fabCONFIGURED ∧ t.flag gFAB_STATE 12 = true
        ∧ (∀ st, st < nStops → stopKind st = 4 → t.flag (portReg st 0 pCFG) 0 = true
            ∧ (s.mayJoin st 0 = true → (t.port st 0).state = 1)))
      ∧ ((hdHold (s.headerOf s.her.boot.copy) || s.flag gBOOT_STAT 19) = false →
        t.fabState = fabOPEN ∧ t.flag gFAB_STATE 12 = false
        ∧ (∀ e ∈ s.imagePorts, t.flag (portReg e.1 e.2 pCFG) 0 = true
          ∧ (s.mayJoin e.1 e.2 = true → (t.port e.1 e.2).state = 1 ∧ (t.port e.1 e.2).rsReq = true))
        ∧ t.reg gBOOT_TIME = BitVec.ofNat 32 (s.her.boot.hcs / 400))
      ∧ onlyParts [.regs, .ni] s t) := by
  have hexec := exec_portsOpen s hfab hphase hhold hsafe htest
  cases hcase : hdHold (s.headerOf s.her.boot.copy) || s.flag gBOOT_STAT 19 with
  | true =>
    rw [hcase, if_pos rfl] at hexec
    obtain ⟨hen, hjoins⟩ := Enabled.held s
    refine ⟨s.keepBoot s.held, hexec, ?_⟩
    simp only [State.flag_keepBoot, State.fabState_keepBoot, State.port_keepBoot, State.reg_keepBoot]
    refine ⟨?_, ?_, (fun h => absurd h (by decide)), onlyParts_keepBoot (onlyParts_held s)⟩
    · intro st hst hon
      obtain ⟨hctrl, hstat⟩ := State.enginesOn_on s hst hon
      exact ⟨(State.engine_held s (by decide) (by decide) (by decide) 0).trans hctrl,
        (State.engine_held s (by decide) (by decide) (by decide) 1).trans hstat⟩
    · intro _
      have hflag : s.held.flag gFAB_STATE 12 = true := State.flag_raiseFlag _ _ _ (by decide)
      refine ⟨(State.fabState_held s).trans hfab, hflag, fun st hst hkind => ?_⟩
      have hmem := mem_bootPorts hst hkind
      refine ⟨hen (st, 0) hmem, fun hjoin => ?_⟩
      obtain ⟨hstate, -⟩ := hjoins (st, 0) hmem ((State.mayJoin_enginesOn s st 0).trans hjoin)
      exact hstate
  | false =>
    rw [hcase, if_neg (by decide)] at hexec
    obtain ⟨hen, hjoins⟩ := Enabled.openedOn s s.enginesOn
    have hher : s.enginesOn.her = s.her := (Changes.enginesOn s).parts .her (by decide)
    refine ⟨s.keepBoot (s.openedOn s.enginesOn), hexec, ?_⟩
    simp only [State.flag_keepBoot, State.fabState_keepBoot, State.port_keepBoot, State.reg_keepBoot]
    refine ⟨?_, (fun h => absurd h (by decide)), ?_,
      onlyParts_keepBoot (onlyParts_trans (onlyParts_mono (Changes.enginesOn s).parts (by decide))
        (onlyParts_openedOn s _))⟩
    · intro st hst hon
      obtain ⟨hctrl, hstat⟩ := State.enginesOn_on s hst hon
      exact ⟨(State.engine_openedOn s _ (by decide) (by decide) (by decide) 0).trans hctrl,
        (State.engine_openedOn s _ (by decide) (by decide) (by decide) 1).trans hstat⟩
    · intro _
      exact ⟨State.fabState_opened _, State.flag_holding_opened _,
        fun e he => ⟨hen e he, fun hjoin => hjoins e he ((State.mayJoin_enginesOn s _ _).trans hjoin)⟩,
        State.bootTime_openedOn s hher⟩

theorem completes_portsOpen_not (h : s.fabState ≠ fabCONFIGURED ∨ s.her.boot.phase ≠ 5 ∨ s.flag gFAB_STATE 12 = true
    ∨ s.hsafe = true ∨ s.her.test.mode = true) : completes .portsOpen s (fun t => t = s) := by
  refine ⟨s, ?_, rfl⟩
  change execPortsOpen s = _
  unfold execPortsOpen
  rw [if_pos (by rcases h with h | h | h | h | h <;> simp [h])]

theorem completes_openGo (hhold : s.flag gFAB_STATE 12 = true) (hsafe : s.hsafe = false) :
    completes .openGo s (fun t =>
      t.fabState = fabOPEN ∧ t.flag gFAB_STATE 12 = false ∧ t.flag gOPEN_CTRL 0 = false
      ∧ (∀ e ∈ s.imagePorts, t.flag (portReg e.1 e.2 pCFG) 0 = true
        ∧ (s.mayJoin e.1 e.2 = true → (t.port e.1 e.2).state = 1 ∧ (t.port e.1 e.2).rsReq = true))
      ∧ onlyParts [.regs, .ni] s t) := by
  obtain ⟨hen, hjoins⟩ := Enabled.openedOn s s
  refine ⟨s.keepBoot (s.openedOn s), ?_, ?_⟩
  · change execOpenGo s = _
    unfold execOpenGo
    rw [if_neg (by simp [hhold, hsafe])]
    rfl
  · simp only [State.flag_keepBoot, State.fabState_keepBoot, State.port_keepBoot]
    exact ⟨State.fabState_opened _, State.flag_holding_opened _, State.flag_go_opened _,
      fun e he => ⟨hen e he, hjoins e he⟩, onlyParts_keepBoot (onlyParts_openedOn s s)⟩

theorem completes_openGo_not (h : s.flag gFAB_STATE 12 = false ∨ s.hsafe = true) :
    completes .openGo s (fun t => t = s) := by
  refine ⟨s, ?_, rfl⟩
  change execOpenGo s = _
  unfold execOpenGo
  rw [if_pos (by rcases h with h | h <;> simp [h])]

end

end Sys2Proof.Machine
end

section
/-! PROOFS. The tables that a start-up step makes active (R84, R214, R415, R416, R467): bank 1 of the rings and stops,
the address map, the detours, the counts and the strobe. -/
namespace Sys2Proof.Machine
open Sys2Proof

/-! ### The words of a map entry -/

/-- Word `j` of a 128-bit entry. -/
def quadWord (v : BitVec 128) (j : Nat) : Word32 := BitVec.ofNat 32 (v.toNat / 2 ^ (32 * j))

section
variable (s : State) (a : Nat) (v : BitVec 128)

theorem State.setQuad_eq : s.setQuad a v = (((s.setReg a (quadWord v 0)).setReg (a + 4) (quadWord v 1)).setReg (a + 8)
    (quadWord v 2)).setReg (a + 12) (quadWord v 3) := by
  unfold State.setQuad quadWord
  simp

theorem Changes.setQuad : Changes (fun b => ∃ j, j < 4 ∧ b = a + 4 * j) [.regs] s (s.setQuad a v) := by
  rw [State.setQuad_eq]
  exact (((Changes.setReg ⟨0, by decide, rfl⟩ (by decide) _).trans
    (Changes.setReg ⟨1, by decide, rfl⟩ (by decide) _)).trans (Changes.setReg ⟨2, by decide, rfl⟩ (by decide) _)).trans
    (Changes.setReg ⟨3, by decide, rfl⟩ (by decide) _)

theorem State.reg_setQuad {j : Nat} (hj : j < 4) : (s.setQuad a v).reg (a + 4 * j) = quadWord v j := by
  rw [State.setQuad_eq]
  interval_cases j
  · rw [State.reg_setReg_other _ _ _ _ (by omega), State.reg_setReg_other _ _ _ _ (by omega),
      State.reg_setReg_other _ _ _ _ (by omega)]
    exact State.reg_setReg_same s a _
  · rw [State.reg_setReg_other _ _ _ _ (by omega), State.reg_setReg_other _ _ _ _ (by omega)]
    exact State.reg_setReg_same _ (a + 4) _
  · rw [State.reg_setReg_other _ _ _ _ (by omega)]
    exact State.reg_setReg_same _ (a + 8) _
  · exact State.reg_setReg_same _ (a + 12) _

/-- The words of an entry that is read are those of the registers. -/
theorem State.quadWord_quad {j : Nat} (hj : j < 4) : quadWord (s.quad a) j = s.reg (a + 4 * j) := by
  have h0 := (s.reg a).isLt
  have h1 := (s.reg (a + 4)).isLt
  have h2 := (s.reg (a + 8)).isLt
  have h3 := (s.reg (a + 12)).isLt
  apply BitVec.eq_of_toNat_eq
  unfold quadWord State.quad
  rw [BitVec.toNat_ofNat, BitVec.toNat_ofNat]
  interval_cases j
  · simp only [Nat.mul_zero, Nat.add_zero]
    omega
  · simp only [Nat.mul_one]
    omega
  · simp only [Nat.reduceMul]
    omega
  · simp only [Nat.reduceMul]
    omega

/-- Four registers that hold the words of an entry hold the entry. -/
theorem State.quad_of_words (h : ∀ j, j < 4 → s.reg (a + 4 * j) = quadWord v j) : s.quad a = v := by
  have hv := v.isLt
  have h0 := h 0 (by decide)
  have h1 := h 1 (by decide)
  have h2 := h 2 (by decide)
  have h3 := h 3 (by decide)
  simp only [Nat.mul_zero, Nat.add_zero, Nat.mul_one, Nat.reduceMul] at h0 h1 h2 h3
  apply BitVec.eq_of_toNat_eq
  unfold State.quad
  rw [h0, h1, h2, h3]
  unfold quadWord
  simp only [BitVec.toNat_ofNat, Nat.mul_zero, Nat.mul_one, Nat.reduceMul]
  omega

end

/-! ### The address map -/

/-- Entry `i` of the map is written. -/
def State.putEntry (es : List Region) (i : Nat) (s : State) : State := s.setQuad (gACTIVE_MAP + 16 * i) (es.getD i 0)

/-- The network interfaces go over to a new map from this rc on (R219). -/
def State.mapTurn (s : State) : State := { s with ni := { s.ni with mapOld := s.niRegions, mapFrom := s.frame.rcs } }

theorem State.mapCopy_eq (s : State) (es : List Region) : s.mapCopy es = forUpTo 64 (State.putEntry es) s.mapTurn := rfl

/-- The words of the map in force. -/
def mapReg (a : Nat) : Prop := gACTIVE_MAP ≤ a ∧ a < gACTIVE_MAP + 0x400

section
variable (s : State) (es : List Region)

theorem Changes.putEntry {i : Nat} (hi : i < 64) (t : State) : Changes mapReg [.regs] t (t.putEntry es i) :=
  (Changes.setQuad t _ _).mono (fun b ⟨j, hj, hb⟩ => by unfold mapReg; omega) (List.Subset.refl _)

theorem Changes.mapCopy : Changes mapReg [.regs, .ni] s (s.mapCopy es) := by
  rw [State.mapCopy_eq]
  have hturn : Changes mapReg [.regs, .ni] s s.mapTurn :=
    Changes.of_regs rfl (onlyParts_mono (onlyParts_setNi s _) (by decide))
  exact hturn.trans (Changes.forUpTo (fun i hi t => (Changes.putEntry es hi t).mono (fun _ h => h) (by decide)) _)

theorem State.reg_mapCopy {i j : Nat} (hi : i < 64) (hj : j < 4) :
    (s.mapCopy es).reg (gACTIVE_MAP + 16 * i + 4 * j) = quadWord (es.getD i 0) j := by
  rw [State.mapCopy_eq]
  refine forUpTo_reaches (Q := fun _ => True)
    (P := fun t : State => t.reg (gACTIVE_MAP + 16 * i + 4 * j) = quadWord (es.getD i 0) j) hi
    (fun t _ => State.reg_setQuad t _ _ hj) (fun _ _ _ _ => trivial) (fun k _ t ht => ?_) trivial
  by_cases hk : k = i
  · subst hk
    exact State.reg_setQuad t _ _ hj
  · exact ((Changes.setQuad t (gACTIVE_MAP + 16 * k) _).regs _ fun ⟨l, hl, he⟩ => hk (by omega)).trans ht

theorem State.getD_regions (base : Nat) {i : Nat} (hi : i < 64) :
    (s.regions base).getD i 0 = s.quad (base + 16 * i) := by
  unfold State.regions
  simp [List.getD, hi]

/-- A map copied from a region of registers is that region, word by word. -/
theorem State.reg_mapCopy_regions (u : State) (base : Nat) {i : Nat} (hi : i < 256) :
    (s.mapCopy (u.regions base)).reg (gACTIVE_MAP + 4 * i) = u.reg (base + 4 * i) := by
  have haddr : gACTIVE_MAP + 4 * i = gACTIVE_MAP + 16 * (i / 4) + 4 * (i % 4) := by omega
  have hbase : base + 4 * i = base + 16 * (i / 4) + 4 * (i % 4) := by omega
  rw [haddr, hbase, State.reg_mapCopy s _ (by omega) (by omega), State.getD_regions u base (by omega),
    State.quadWord_quad u _ (by omega)]

theorem State.quad_mapCopy {i : Nat} (hi : i < 64) : (s.mapCopy es).quad (gACTIVE_MAP + 16 * i) = es.getD i 0 :=
  State.quad_of_words _ _ _ fun _ hj => State.reg_mapCopy s es hi hj

end

/-! ### The detours -/

theorem Changes.detourCopy (s : State) :
    Changes (fun a => gDETOUR ≤ a ∧ a < gDETOUR + 0x20) [.regs] s s.detourCopy :=
  Changes.forUpTo (f := fun i (t : State) => t.setReg (gDETOUR + 4 * i) (t.reg (gDETOUR_STG + 4 * i)))
    (fun i hi t => Changes.setReg (by omega) (by decide) _) s

theorem State.reg_detourCopy (s : State) {i : Nat} (hi : i < 8) :
    s.detourCopy.reg (gDETOUR + 4 * i) = s.reg (gDETOUR_STG + 4 * i) := by
  have hne (k : Nat) (hk : k < 8) : gDETOUR_STG + 4 * i ≠ gDETOUR + 4 * k := by
    unfold gDETOUR_STG gDETOUR
    omega
  refine forUpTo_reaches (f := fun k (t : State) => t.setReg (gDETOUR + 4 * k) (t.reg (gDETOUR_STG + 4 * k)))
    (Q := fun t : State => t.reg (gDETOUR_STG + 4 * i) = s.reg (gDETOUR_STG + 4 * i))
    (P := fun t : State => t.reg (gDETOUR + 4 * i) = s.reg (gDETOUR_STG + 4 * i)
      ∧ t.reg (gDETOUR_STG + 4 * i) = s.reg (gDETOUR_STG + 4 * i)) hi
    (fun t ht => ⟨?_, ?_⟩) (fun k hk t ht => ?_) (fun k hk t ht => ⟨?_, ?_⟩) rfl |>.1
  · rw [State.reg_setReg_same, ht]
  · rw [State.reg_setReg_other _ _ _ _ (hne i hi), ht]
  · rw [State.reg_setReg_other _ _ _ _ (hne k hk), ht]
  · by_cases hki : k = i
    · subst hki
      rw [State.reg_setReg_same, ht.2]
    · rw [State.reg_setReg_other _ _ _ _ (by omega), ht.1]
  · rw [State.reg_setReg_other _ _ _ _ (hne k hk), ht.2]

theorem Changes.setRoutes (s : State) :
    Changes (fun a => gDIE_ROUTE ≤ a ∧ a < gDIE_ROUTE + 0x40) [.regs] s s.setRoutes where
  regs a ha := State.reg_setRoutes_other s a fun d hd he => ha (by omega)
  parts := State.onlyParts_setRoutes s

/-! ### The debug sources -/

/-- The registers of the debug sources (R232). -/
def dbgReg (a : Nat) : Prop := a = gDBG_STAT ∨ gDBG_SRC ≤ a ∧ a < gDBG_SRC + 0x40

theorem changes_dbgSources (w : Nat → Word32) (s : State) :
    Changes dbgReg [.regs] s (forUpTo 16 (fun i s => s.setReg (gDBG_SRC + 4 * i) (w i)) s) :=
  Changes.forUpTo (f := fun i (t : State) => t.setReg (gDBG_SRC + 4 * i) (w i))
    (fun i hi t => Changes.setReg (Or.inr (by omega)) (by decide) _) s

theorem Changes.dbgList (s : State) (far : List Nat) : Changes dbgReg [.regs] s (s.dbgList far) := by
  unfold State.dbgList
  simp only
  exact Changes.ite ((changes_dbgSources _ s).trans (Changes.setFld (Or.inl rfl) (by decide) _ _ _))
    (changes_dbgSources _ s)

/-! ### The counts and the strobe -/

theorem onlyParts_setTime (s : State) (v : TimeSt) : onlyParts [.time] s { s with time := v } := by
  intro p hp
  cases p with
  | time => exact absurd List.mem_cons_self hp
  | _ => rfl

section
variable (s : State)

theorem State.onlyParts_loadTimes : onlyParts [.time] s s.loadTimes :=
  forUpTo_keeps (fun t => onlyParts [.time] s t) nStops _ s
    (fun _ t _ ht => onlyParts_trans ht (onlyParts_setTime t _)) (onlyParts_refl _ s)

theorem State.master_loadTimes : s.loadTimes.time.master = s.time.master :=
  forUpTo_same (fun t : State => t.time.master) nStops _ s fun _ _ _ => rfl

/-- The counts loaded, the strobe is issued. -/
def State.started : State := s.loadTimes.strobed

theorem State.strobe_loadTimes (hrun : s.frame.running = false)
    (hearly : ∀ v, s.her.strobeAt = some v → ¬ s.time.master.toNat < v) : s.loadTimes.strobe = s.started := by
  have hframe : s.loadTimes.frame = s.frame := s.onlyParts_loadTimes .frame (by decide)
  have hher : s.loadTimes.her = s.her := s.onlyParts_loadTimes .her (by decide)
  have hdue : s.loadTimes.strobeEarly = false := by
    unfold State.strobeEarly
    rw [hher, State.master_loadTimes]
    cases hat : s.her.strobeAt with
    | none => rfl
    | some v => exact decide_eq_false (hearly v hat)
  have hstops : s.loadTimes.frame.running = false := by rw [hframe, hrun]
  unfold State.strobe
  rw [execFrameStartStrobe_starts hstops hdue]
  rfl

theorem State.onlyParts_started : onlyParts [.frame, .time, .tem] s s.started :=
  onlyParts_trans (onlyParts_mono s.onlyParts_loadTimes (by decide)) s.loadTimes.onlyParts_strobed

theorem State.master_strobed : s.strobed.time.master = s.time.master := rfl

theorem State.running_strobed : s.strobed.frame.running = true := rfl

theorem State.running_started : s.started.frame.running = true := s.loadTimes.running_strobed

theorem State.count_strobed {st : Nat} (hst : st < nStops) : (s.strobed.localTs st).count = s.time.master :=
  s.get_strobedLocals hst

theorem State.master_started : s.started.time.master = s.time.master := by
  unfold State.started
  rw [State.master_strobed, State.master_loadTimes]

theorem State.count_started {st : Nat} (hst : st < nStops) : (s.started.localTs st).count = s.time.master := by
  unfold State.started
  rw [State.count_strobed _ hst, State.master_loadTimes]

end

section
variable (s t : State) (a : Nat)

@[simp] theorem State.regs_keepAll : (s.keepAll t).regs = t.regs := rfl
@[simp] theorem State.her_keepAll : (s.keepAll t).her = t.her := rfl
@[simp] theorem State.d2d_keepAll : (s.keepAll t).d2d = t.d2d := rfl
@[simp] theorem State.localTs_keepAll : (s.keepAll t).localTs a = t.localTs a := rfl
@[simp] theorem State.time_keepAll : (s.keepAll t).time = t.time := rfl
@[simp] theorem State.pending_keepAll : (s.keepAll t).pending = s.pending := rfl
theorem State.zero_keepAll : (s.keepAll t).frame.fpos = 0 ∧ (s.keepAll t).frame.frameCnt = 0 := ⟨rfl, rfl⟩
@[simp] theorem State.running_keepAll : (s.keepAll t).frame.running = t.frame.running := rfl

end

theorem onlyParts_keepAll {ps : List Part} {s t : State} (h : onlyParts ps s t) (hframe : .frame ∈ ps) :
    onlyParts ps s (s.keepAll t) := by
  intro p hp
  have hst := h p hp
  cases p with
  | frame => exact absurd hframe hp
  | free | pending => rfl
  | _ => exact hst

/-! ### Bank 1 -/

/-- A register whose bit 0 says which bank is active. -/
def bankReg (a : Nat) : Prop :=
  (∃ st, st < nStops ∧ ∃ o, o ∈ [sFLOW_STAT, sSCHED_STAT, sGL_STAT] ∧ a = stopReg st o)
    ∨ ∃ r, r < nRings ∧ a = ringReg r rSTAMP_STAT

/-- Where bank 1 is active in `s` it is in `t`. -/
def BankStays (s t : State) : Prop := ∀ a, bankReg a → s.flag a 0 = true → t.flag a 0 = true

namespace BankStays
variable {s t u : State}

theorem refl (s : State) : BankStays s s := fun _ _ h => h

theorem trans (h : BankStays s t) (h' : BankStays t u) : BankStays s u := fun a ha hs => h' a ha (h a ha hs)

theorem setFld_above {b lo : Nat} (hlo : 1 ≤ lo) (w x : Nat) (hw : lo + w ≤ 32) : BankStays s (s.setFld b lo w x) := by
  intro a _ hs
  by_cases hab : a = b
  · subst hab
    rw [State.flag_setFld_below s a lo w x 0 hw hlo]
    exact hs
  · rw [State.flag_congr (State.reg_setFld_other s b a lo w x hab)]
    exact hs

theorem setFld_on (b : Nat) : BankStays s (s.setFld b 0 1 1) :=
  fun _ _ hs => State.flag_raiseFlag_of_flag (by decide) (by decide) hs

theorem setFld_other {b : Nat} (hb : ¬ bankReg b) (lo w x : Nat) : BankStays s (s.setFld b lo w x) := by
  intro a ha hs
  rw [State.flag_congr (State.reg_setFld_other s b a lo w x fun he => hb (he ▸ ha))]
  exact hs

theorem of_regs (h : t.regs = s.regs) : BankStays s t := fun a _ hs => by
  rw [State.flag_congr (State.reg_congr h a)]
  exact hs

theorem ite {c : Prop} [Decidable c] (ht : BankStays s t) (hu : BankStays s u) : BankStays s (if c then t else u) := by
  split <;> assumption

theorem forUpTo {n : Nat} {f : Nat → State → State} (h : ∀ i, i < n → ∀ t, BankStays t (f i t)) (s : State) :
    BankStays s (forUpTo n f s) :=
  forUpTo_keeps (fun t => BankStays s t) n f s (fun i t hi ht => ht.trans (h i hi t)) (refl s)

theorem foldl {α : Type} {l : List α} {f : State → α → State} (h : ∀ x ∈ l, ∀ t, BankStays t (f t x)) (s : State) :
    BankStays s (l.foldl f s) :=
  List.foldlRecOn l f (motive := fun t => BankStays s t) (refl s) fun t ht x hx => ht.trans (h x hx t)

end BankStays

theorem ringReg_ne_stopReg {r st o o' : Nat} (hst : st < nStops) (ho' : o' < 0x4000) : ringReg r o ≠ stopReg st o' := by
  unfold nStops at hst
  unfold ringReg stopReg
  omega

theorem not_bankReg_stop {st o : Nat} (hst : st < nStops) (ho : o < 0x4000)
    (hoff : o ∉ [sFLOW_STAT, sSCHED_STAT, sGL_STAT]) : ¬ bankReg (stopReg st o) := by
  rintro (⟨st', -, o', ho', he⟩ | ⟨r, -, he⟩)
  · have hlt := (by decide : ∀ o ∈ [sFLOW_STAT, sSCHED_STAT, sGL_STAT], o < 0x4000) o' ho'
    exact hoff ((stopReg_inj ho hlt he).2 ▸ ho')
  · exact ringReg_ne_stopReg hst ho he.symm

/-- Offsets of the registers of a stop that change when bank 1 becomes active. -/
def activeOffs : List Nat :=
  [sFLOW_STAT, sSCHED_STAT, sGL_STAT, sGL_MAXWIN, sGL_MAXWIN + 4, sGL_MAXWIN + 8, sGL_MAXWIN + 12,
    0x1908, 0x1988, 0x1A08]

/-- Registers that change when bank 1 becomes active. -/
def activeReg (a : Nat) : Prop :=
  (∃ st, st < nStops ∧ ∃ o, o ∈ activeOffs ∧ a = stopReg st o)
    ∨ ∃ r, r < nRings ∧ (a = ringReg r rSTAMP_STAT ∨ a = ringReg r rSTAMP_GUAR)

theorem activeReg_stop {st o : Nat} (hst : st < nStops) (ho : o ∈ activeOffs) : activeReg (stopReg st o) :=
  Or.inl ⟨st, hst, o, ho, rfl⟩

/-- Bank 1 of the stamps becomes active in ring `r` (R416). -/
def State.activateRing (f r : Nat) (s : State) : State :=
  ((s.setFld (ringReg r rSTAMP_STAT) 0 1 1).setFld (ringReg r rSTAMP_GUAR) 0 13 (s.guarShare r f)).setFld
    (ringReg r rSTAMP_GUAR) 16 13 0

theorem Changes.activateRing (f : Nat) {r : Nat} (hr : r < nRings) (s : State) :
    Changes activeReg [.regs, .ni, .qe] s (s.activateRing f r) :=
  ((Changes.setFld (Or.inr ⟨r, hr, Or.inl rfl⟩) (by decide) _ _ _).trans
    (Changes.setFld (Or.inr ⟨r, hr, Or.inr rfl⟩) (by decide) _ _ _)).trans
    (Changes.setFld (Or.inr ⟨r, hr, Or.inr rfl⟩) (by decide) _ _ _)

theorem not_bankReg_guar (r : Nat) : ¬ bankReg (ringReg r rSTAMP_GUAR) := by
  rintro (⟨st, hst, o, ho, he⟩ | ⟨r', -, he⟩)
  · have hlt := (by decide : ∀ o ∈ [sFLOW_STAT, sSCHED_STAT, sGL_STAT], o < 0x4000) o ho
    exact ringReg_ne_stopReg hst hlt he
  · unfold ringReg rSTAMP_GUAR rSTAMP_STAT at he
    omega

/-- The GUAR counts of a ring do not touch the banks. -/
theorem BankStays.guar (r f : Nat) (s t : State) :
    BankStays t ((t.setFld (ringReg r rSTAMP_GUAR) 0 13 (s.guarShare r f)).setFld (ringReg r rSTAMP_GUAR) 16 13 0) :=
  (BankStays.setFld_other (not_bankReg_guar r) _ _ _).trans (BankStays.setFld_above (by decide) _ _ (by decide))

theorem BankStays.activateRing (f r : Nat) (s : State) : BankStays s (s.activateRing f r) :=
  (BankStays.setFld_on _).trans (BankStays.guar r f s _)

theorem State.flag_activateRing (f : Nat) {r : Nat} (hr : r < nRings) (s : State) :
    (s.activateRing f r).flag (ringReg r rSTAMP_STAT) 0 = true :=
  BankStays.guar r f s _ _ (Or.inr ⟨r, hr, rfl⟩) (State.flag_raiseFlag s _ 0 (by decide))

/-- The place of stop `st` in its gate cycle at the strobe (R129, R416). -/
def State.gatePlace (s : State) (st : Nat) : Nat :=
  ((0 - s.reg (stopReg st (sGL_START + 8))).toInt.emod (s.gcycle st : Int)).toNat

def State.gateStart (s : State) (st : Nat) : State :=
  { s with ni := { s.ni with gframe := Tab.set (fun _ => 0) s.ni.gframe st (s.gatePlace st) } }

/-- Bank 1 of a stop's access check units becomes active. -/
def State.acusOn (s : State) (st : Nat) : State :=
  (List.range 3).foldl (fun (s : State) a =>
    if acuThere st a then (s.setFld (acuReg st a 8) 0 1 1).setFld (acuReg st a 8) 1 2 0 else s) s

/-- Bank 1 becomes active in stop `st` (R416). -/
def State.activateStop (f st : Nat) (s : State) : State :=
  ((((((((s.setFld (stopReg st sFLOW_STAT) 0 1 1).ejAlloc st).setFld (stopReg st sSCHED_STAT) 0 1 1).setFld
    (stopReg st sGL_STAT) 0 1 1).gateRefresh st f).gateStart st).acusOn st).applyDefs st)

theorem State.activate_eq (f : Nat) (s : State) :
    s.activate f = forUpTo nStops (State.activateStop f) (forUpTo nRings (State.activateRing f) s) := rfl

/-! ### One stop -/

section
variable (s : State) {st : Nat} (hst : st < nStops)

theorem activeReg_maxwin (hst : st < nStops) {c : Nat} (hc : c < 4) : activeReg (stopReg st (sGL_MAXWIN + 4 * c)) :=
  activeReg_stop hst ((by decide : ∀ c < 4, sGL_MAXWIN + 4 * c ∈ activeOffs) c hc)

theorem not_bankReg_maxwin (hst : st < nStops) {c : Nat} (hc : c < 4) : ¬ bankReg (stopReg st (sGL_MAXWIN + 4 * c)) :=
  not_bankReg_stop hst ((by decide : ∀ c < 4, sGL_MAXWIN + 4 * c < 0x4000) c hc)
    ((by decide : ∀ c < 4, sGL_MAXWIN + 4 * c ∉ [sFLOW_STAT, sSCHED_STAT, sGL_STAT]) c hc)

theorem activeReg_acu (hst : st < nStops) {a : Nat} (ha : a < 3) : activeReg (acuReg st a 8) :=
  activeReg_stop hst ((by decide : ∀ a < 3, 0x1900 + 0x80 * a + 8 ∈ activeOffs) a ha)

theorem Changes.ejAlloc (hst : st < nStops) : Changes activeReg [.regs] s (s.ejAlloc st) :=
  Changes.setFld (activeReg_stop hst (by decide)) (by decide) _ _ _

theorem BankStays.ejAlloc (st : Nat) : BankStays s (s.ejAlloc st) := BankStays.setFld_above (by decide) _ _ (by decide)

/-- The longest window of each class in the new gate list is stored. -/
def State.maxWins (s : State) (st len : Nat) (l : List (Nat × Nat)) : State :=
  (List.range 4).foldl (fun (s : State) c =>
    s.setFld (stopReg st (sGL_MAXWIN + 4 * c)) 0 20 (gateMaxWin (clsREQ + c) len (gateFit len l))) s

theorem State.gateRefresh_eq (st f : Nat) : s.gateRefresh st f
    = if ((s.gateList st).map (·.2)).sum = s.gcycle st * f then s.maxWins st (s.gcycle st * f) (s.gateList st)
      else (s.maxWins st (s.gcycle st * f) (s.gateList st)).raiseFlag (stopReg st sGL_STAT) 2 := rfl

theorem Changes.maxWins (hst : st < nStops) (len : Nat) (l : List (Nat × Nat)) :
    Changes activeReg [.regs] s (s.maxWins st len l) :=
  Changes.foldl (f := fun (s : State) c =>
      s.setFld (stopReg st (sGL_MAXWIN + 4 * c)) 0 20 (gateMaxWin (clsREQ + c) len (gateFit len l)))
    (fun _ hc _ => Changes.setFld (activeReg_maxwin hst (List.mem_range.mp hc)) (by decide) _ _ _) s

theorem BankStays.maxWins (hst : st < nStops) (len : Nat) (l : List (Nat × Nat)) :
    BankStays s (s.maxWins st len l) :=
  BankStays.foldl (f := fun (s : State) c =>
      s.setFld (stopReg st (sGL_MAXWIN + 4 * c)) 0 20 (gateMaxWin (clsREQ + c) len (gateFit len l)))
    (fun _ hc _ => BankStays.setFld_other (not_bankReg_maxwin hst (List.mem_range.mp hc)) _ _ _) s

theorem Changes.gateRefresh (hst : st < nStops) (f : Nat) : Changes activeReg [.regs] s (s.gateRefresh st f) := by
  rw [State.gateRefresh_eq]
  exact Changes.ite (Changes.maxWins s hst _ _) ((Changes.maxWins s hst _ _).trans
    (Changes.setFld (activeReg_stop hst (by decide)) (by decide) _ _ _))

theorem BankStays.gateRefresh (hst : st < nStops) (f : Nat) : BankStays s (s.gateRefresh st f) := by
  rw [State.gateRefresh_eq]
  exact BankStays.ite (BankStays.maxWins s hst _ _) ((BankStays.maxWins s hst _ _).trans
    (BankStays.setFld_above (by decide) _ _ (by decide)))

theorem Changes.acusOn (hst : st < nStops) : Changes activeReg [.regs] s (s.acusOn st) :=
  Changes.foldl (f := fun (s : State) a =>
      if acuThere st a then (s.setFld (acuReg st a 8) 0 1 1).setFld (acuReg st a 8) 1 2 0 else s)
    (fun _ ha t => Changes.ite
      ((Changes.setFld (activeReg_acu hst (List.mem_range.mp ha)) (by decide) _ _ _).trans
        (Changes.setFld (activeReg_acu hst (List.mem_range.mp ha)) (by decide) _ _ _)) (Changes.refl t)) s

theorem BankStays.acusOn (st : Nat) : BankStays s (s.acusOn st) :=
  BankStays.foldl (f := fun (s : State) a =>
      if acuThere st a then (s.setFld (acuReg st a 8) 0 1 1).setFld (acuReg st a 8) 1 2 0 else s)
    (fun _ _ t => BankStays.ite
      ((BankStays.setFld_on _).trans (BankStays.setFld_above (by decide) _ _ (by decide))) (BankStays.refl t)) s

theorem State.onlyParts_applyDefs (st : Nat) : onlyParts [.qe] s (s.applyDefs st) := by
  unfold State.applyDefs
  refine foldl_keeps (onlyParts [.qe] s) _ _ s (fun t q ht => onlyParts_trans ht ?_) (onlyParts_refl _ s)
  intro p hp
  cases p with
  | qe => exact absurd List.mem_cons_self hp
  | _ => rfl

theorem State.regs_applyDefs (st : Nat) : (s.applyDefs st).regs = s.regs := s.onlyParts_applyDefs st .regs (by decide)

theorem State.onlyParts_gateStart (st : Nat) : onlyParts [.ni] s (s.gateStart st) := onlyParts_setNi s _

theorem State.regs_gateStart (st : Nat) : (s.gateStart st).regs = s.regs := rfl

theorem Changes.gateStart (st : Nat) : Changes activeReg [.regs, .ni, .qe] s (s.gateStart st) :=
  Changes.of_regs (s.regs_gateStart st) (onlyParts_mono (s.onlyParts_gateStart st) (by decide))

theorem Changes.applyDefs (st : Nat) : Changes activeReg [.regs, .ni, .qe] s (s.applyDefs st) :=
  Changes.of_regs (s.regs_applyDefs st) (onlyParts_mono (s.onlyParts_applyDefs st) (by decide))

/-- What follows the gate list's refresh at a stop. -/
theorem Changes.stopRest (hst : st < nStops) :
    Changes activeReg [.regs, .ni, .qe] s (((s.gateStart st).acusOn st).applyDefs st) := by
  have hacus : Changes activeReg [.regs, .ni, .qe] (s.gateStart st) ((s.gateStart st).acusOn st) :=
    (Changes.acusOn _ hst).mono (fun _ h => h) (by decide)
  exact ((Changes.gateStart s st).trans hacus).trans (Changes.applyDefs _ st)

theorem BankStays.stopRest (st : Nat) : BankStays s (((s.gateStart st).acusOn st).applyDefs st) :=
  ((BankStays.of_regs (s.regs_gateStart st)).trans (BankStays.acusOn (s.gateStart st) st)).trans
    (BankStays.of_regs (State.regs_applyDefs _ st))

/-- The flow table and the schedule of a stop change over. -/
def State.activateFlows (s : State) (st : Nat) : State :=
  ((s.setFld (stopReg st sFLOW_STAT) 0 1 1).ejAlloc st).setFld (stopReg st sSCHED_STAT) 0 1 1

theorem State.activateStop_eq (f st : Nat) : s.activateStop f st
    = ((((((s.activateFlows st).setFld (stopReg st sGL_STAT) 0 1 1).gateRefresh st f).gateStart st).acusOn
      st).applyDefs st) := rfl

theorem Changes.activateFlows (hst : st < nStops) : Changes activeReg [.regs] s (s.activateFlows st) :=
  ((Changes.setFld (activeReg_stop hst (by decide)) (by decide) _ _ _).trans (Changes.ejAlloc _ hst)).trans
    (Changes.setFld (activeReg_stop hst (by decide)) (by decide) _ _ _)

theorem BankStays.activateFlows (st : Nat) : BankStays s (s.activateFlows st) :=
  ((BankStays.setFld_on _).trans (BankStays.ejAlloc _ st)).trans (BankStays.setFld_on _)

theorem Changes.activateStop (hst : st < nStops) (f : Nat) :
    Changes activeReg [.regs, .ni, .qe] s (s.activateStop f st) := by
  rw [State.activateStop_eq]
  exact ((((Changes.activateFlows s hst).trans
    (Changes.setFld (activeReg_stop hst (by decide)) (by decide) 0 1 1)).trans (Changes.gateRefresh _ hst f)).mono
    (fun _ h => h) (by decide)).trans (Changes.stopRest _ hst)

theorem BankStays.activateStop (hst : st < nStops) (f : Nat) : BankStays s (s.activateStop f st) := by
  rw [State.activateStop_eq]
  exact (((BankStays.activateFlows s st).trans (BankStays.setFld_on _)).trans (BankStays.gateRefresh _ hst f)).trans
    (BankStays.stopRest _ st)

theorem bankReg_stop {o : Nat} (hst : st < nStops) (ho : o ∈ [sFLOW_STAT, sSCHED_STAT, sGL_STAT]) :
    bankReg (stopReg st o) := Or.inl ⟨st, hst, o, ho, rfl⟩

/-- Bank 1 is active in each table of a stop. -/
def State.stopActive (s : State) (st : Nat) : Prop :=
  ∀ o ∈ [sFLOW_STAT, sSCHED_STAT, sGL_STAT], s.flag (stopReg st o) 0 = true

theorem State.stopActive_activateStop (hst : st < nStops) (f : Nat) : (s.activateStop f st).stopActive st := by
  rw [State.activateStop_eq]
  have hrest (t : State) : BankStays t (((t.gateRefresh st f).gateStart st).acusOn st |>.applyDefs st) :=
    (BankStays.gateRefresh t hst f).trans (BankStays.stopRest _ st)
  have hgate : BankStays (s.activateFlows st) ((s.activateFlows st).setFld (stopReg st sGL_STAT) 0 1 1) :=
    BankStays.setFld_on _
  have hflow : (s.activateFlows st).flag (stopReg st sFLOW_STAT) 0 = true :=
    BankStays.trans (BankStays.ejAlloc _ st) (BankStays.setFld_on _) _ (bankReg_stop hst (by decide))
      (State.flag_raiseFlag s _ 0 (by decide))
  have hsched : (s.activateFlows st).flag (stopReg st sSCHED_STAT) 0 = true := State.flag_raiseFlag _ _ 0 (by decide)
  intro o ho
  have hbank := bankReg_stop hst ho
  rcases List.mem_cons.mp ho with rfl | ho
  · exact hrest _ _ hbank (hgate _ hbank hflow)
  · rcases List.mem_cons.mp ho with rfl | ho
    · exact hrest _ _ hbank (hgate _ hbank hsched)
    · obtain rfl := List.mem_singleton.mp ho
      exact hrest _ _ hbank (State.flag_raiseFlag _ _ 0 (by decide))

end

/-! ### The whole die -/

section
variable (f : Nat) (s : State)

theorem Changes.activate : Changes activeReg [.regs, .ni, .qe] s (s.activate f) := by
  rw [State.activate_eq]
  exact (Changes.forUpTo (fun r hr t => Changes.activateRing f hr t) s).trans
    (Changes.forUpTo (fun st hst t => Changes.activateStop t hst f) _)

theorem State.flag_activate_ring {r : Nat} (hr : r < nRings) :
    (s.activate f).flag (ringReg r rSTAMP_STAT) 0 = true := by
  rw [State.activate_eq]
  have hrings : (forUpTo nRings (State.activateRing f) s).flag (ringReg r rSTAMP_STAT) 0 = true :=
    forUpTo_reaches (Q := fun _ => True) (P := fun t : State => t.flag (ringReg r rSTAMP_STAT) 0 = true) hr
      (fun t _ => State.flag_activateRing f hr t) (fun _ _ _ _ => trivial)
      (fun q _ t ht => BankStays.activateRing f q t _ (Or.inr ⟨r, hr, rfl⟩) ht) trivial
  exact BankStays.forUpTo (fun st hst t => BankStays.activateStop t hst f) _ _ (Or.inr ⟨r, hr, rfl⟩) hrings

theorem State.stopActive_activate {st : Nat} (hst : st < nStops) : (s.activate f).stopActive st := by
  rw [State.activate_eq]
  exact forUpTo_reaches (Q := fun _ => True) (P := fun t : State => t.stopActive st) hst
    (fun t _ => State.stopActive_activateStop t hst f) (fun _ _ _ _ => trivial)
    (fun y hy t ht o ho => BankStays.activateStop t hy f _ (bankReg_stop hst ho) (ht o ho)) trivial

end

end Sys2Proof.Machine
end

section
/-! PROOFS. The activation of an image (R84, R385, R415, R416, R418, R467). -/
namespace Sys2Proof.Machine
open Sys2Proof

/-! ### The default schedule -/

/-- Registers of the stamps. -/
def stampAddr (a : Nat) : Prop := ∃ r b p, b < 2 ∧ p < 2016 ∧ a = stampReg r b p

theorem stampReg_inj {r r' b b' p p' : Nat} (hb : b < 2) (hb' : b' < 2) (hp : p < 2016) (hp' : p' < 2016)
    (h : stampReg r b p = stampReg r' b' p') : r = r' ∧ b = b' ∧ p = p' := by
  unfold stampReg ringReg at h
  omega

theorem not_stampAddr_ring {r o : Nat} (ho : 0x7E00 ≤ o) (ho' : o < 0x8000) : ¬ stampAddr (ringReg r o) := by
  rintro ⟨r', b, p, hb, hp, he⟩
  unfold stampReg ringReg at he
  omega

theorem not_stampAddr_low {a : Nat} (ha : a < 0x800000) : ¬ stampAddr a := by
  rintro ⟨r', b, p, -, -, he⟩
  unfold stampReg ringReg at he
  omega

theorem State.stampShadow_lt (s : State) (r : Nat) : s.stampShadow r < 2 := by
  unfold State.stampShadow
  omega

/-- Entry `p` of the default schedule is written to ring `r`'s shadow bank. -/
def State.putDefault (r p : Nat) (s : State) : State :=
  s.setReg (stampReg r (s.stampShadow r) p) (BitVec.ofNat 32 ((defaultStamp r p).1 + (defaultStamp r p).2 * 16))

theorem State.writeDefault_eq (s : State) (r : Nat) : s.writeDefault r = forUpTo 2016 (State.putDefault r) s := rfl

/-- A ring takes the default schedule unless the image has a section for it. -/
def State.defaultUnless (rs : List Nat) (r : Nat) (s : State) : State := if rs.contains r then s else s.writeDefault r

theorem State.writeDefaults_eq (s : State) (es : List ImgSect) (d : Nat) :
    s.writeDefaults es d = forUpTo nRings (State.defaultUnless (stampRings es d)) s := rfl

section
variable (s : State)

theorem Changes.putDefault {p : Nat} (hp : p < 2016) (r : Nat) : Changes stampAddr [.regs] s (s.putDefault r p) :=
  Changes.setReg ⟨r, _, p, s.stampShadow_lt r, hp, rfl⟩ (by decide) _

theorem Changes.writeDefault (r : Nat) : Changes stampAddr [.regs] s (s.writeDefault r) := by
  rw [State.writeDefault_eq]
  exact Changes.forUpTo (fun _ hp t => Changes.putDefault t hp r) s

theorem Changes.writeDefaults (es : List ImgSect) (d : Nat) : Changes stampAddr [.regs] s (s.writeDefaults es d) := by
  rw [State.writeDefaults_eq]
  exact Changes.forUpTo (fun r _ t => Changes.ite (Changes.refl t) (Changes.writeDefault t r)) s

/-- The active bank's number is none of the stamps. -/
theorem Changes.stampShadow {s t : State} (h : Changes stampAddr [.regs] s t) (r : Nat) :
    t.stampShadow r = s.stampShadow r := by
  unfold State.stampShadow
  rw [h.fld (not_stampAddr_ring (by decide) (by decide))]

/-- Entry `p` of bank 1 of ring `r` is the default schedule's, bank 1 being the shadow. -/
def State.isDefault (s : State) (r p : Nat) : Prop :=
  s.stampShadow r = 1
    ∧ s.reg (stampReg r 1 p) = BitVec.ofNat 32 ((defaultStamp r p).1 + (defaultStamp r p).2 * 16)

theorem State.isDefault_putDefault {r p : Nat} (hp : p < 2016) (h : s.stampShadow r = 1) :
    (s.putDefault r p).isDefault r p := by
  refine ⟨(Changes.putDefault s hp r).stampShadow r |>.trans h, ?_⟩
  unfold State.putDefault
  rw [h, State.reg_setReg_same]

/-- What one entry's writing leaves of another. -/
theorem State.isDefault_putDefault_of {s : State} {r p r' p' : Nat} (hp : p < 2016) (hp' : p' < 2016)
    (h : s.isDefault r p) : (s.putDefault r' p').isDefault r p := by
  by_cases hkey : r' = r ∧ p' = p
  · obtain ⟨rfl, rfl⟩ := hkey
    exact State.isDefault_putDefault s hp h.1
  · obtain ⟨hshadow, hreg⟩ := h
    refine ⟨(Changes.putDefault s hp' r').stampShadow r |>.trans hshadow, ?_⟩
    unfold State.putDefault
    rw [State.reg_setReg_other _ _ _ _ fun he => ?_, hreg]
    obtain ⟨hr, -, hpp⟩ := stampReg_inj (by decide) (s.stampShadow_lt r') hp hp' he
    exact hkey ⟨hr.symm, hpp.symm⟩

theorem State.isDefault_writeDefault {r p : Nat} (hp : p < 2016) (h : s.stampShadow r = 1) :
    (s.writeDefault r).isDefault r p := by
  rw [State.writeDefault_eq]
  exact forUpTo_reaches (Q := fun t : State => t.stampShadow r = 1) (P := fun t : State => t.isDefault r p) hp
    (fun t ht => State.isDefault_putDefault t hp ht)
    (fun q hq t ht => ((Changes.putDefault t hq r).stampShadow r).trans ht)
    (fun q hq t ht => State.isDefault_putDefault_of hp hq ht) h

theorem State.isDefault_writeDefault_of {s : State} {r p : Nat} (hp : p < 2016) (h : s.isDefault r p) (r' : Nat) :
    (s.writeDefault r').isDefault r p := by
  rw [State.writeDefault_eq]
  exact forUpTo_keeps (fun t : State => t.isDefault r p) 2016 _ s
    (fun q t hq ht => State.isDefault_putDefault_of hp hq ht) h

/-- A ring without a section takes the default schedule (R95, R415). -/
theorem State.isDefault_writeDefaults {es : List ImgSect} {d r p : Nat} (hr : r < nRings) (hp : p < 2016)
    (hnone : r ∉ stampRings es d) (h : s.stampShadow r = 1) : (s.writeDefaults es d).isDefault r p := by
  rw [State.writeDefaults_eq]
  refine forUpTo_reaches (Q := fun t : State => t.stampShadow r = 1) (P := fun t : State => t.isDefault r p) hr
    (fun t ht => ?_) (fun q _ t ht => ?_) (fun q _ t ht => ?_) h
  · unfold State.defaultUnless
    rw [if_neg (by simpa using hnone)]
    exact State.isDefault_writeDefault t hp ht
  · exact ((Changes.ite (Changes.refl t) (Changes.writeDefault t q)).stampShadow r).trans ht
  · unfold State.defaultUnless
    split
    · exact ht
    · exact State.isDefault_writeDefault_of hp ht q

end

/-! ### What an image holds until activation -/

/-- Registers that a section holds until activation. -/
def heldReg (a : Nat) : Prop := a = gREMAP_CTRL ∨ (0x100000 ≤ a ∧ a < 0x400000)

theorem heldReg_stop {st o : Nat} (hst : st < nStops) (ho : o < 0x4000) : heldReg (stopReg st o) :=
  Or.inr ⟨stopReg_global st o, stopReg_lt hst ho⟩

theorem onlyParts_setAcu (s : State) (v : AcuSt) : onlyParts [.acu] s { s with acu := v } := by
  intro p hp
  cases p with
  | acu => exact absurd List.mem_cons_self hp
  | _ => rfl

theorem acuThere_lt {st a : Nat} (h : acuThere st a = true) : a < 3 := by
  unfold acuThere at h
  simp only [Bool.or_eq_true, beq_iff_eq, Bool.and_eq_true, decide_eq_true_eq] at h
  omega

/-- A section's access check unit at stop `st`. -/
def State.holdAcu (e : ImgSect) (s : State) (st : Nat) : State :=
  if !acuThere st e.index then s
  else
    forUpTo 4 (fun i s => s.setAcuDef st e.index i (BitVec.ofNat 128 (e.words (129 + 4 * i) 4)))
      (s.setReg (acuReg st e.index 0) (BitVec.ofNat 32 (e.word 0)))

theorem State.onlyParts_setAcuDefs (s : State) (st a n : Nat) (v : Nat → BitVec 128) :
    onlyParts [.acu] s (forUpTo n (fun i s => s.setAcuDef st a i (v i)) s) :=
  forUpTo_keeps (fun t => onlyParts [.acu] s t) n _ s
    (fun _ t _ ht => onlyParts_trans ht (onlyParts_setAcu t _)) (onlyParts_refl _ s)

theorem Changes.holdAcu (s : State) (e : ImgSect) {st : Nat} (hst : st < nStops) :
    Changes heldReg [.regs, .acu] s (s.holdAcu e st) := by
  unfold State.holdAcu
  split
  · exact Changes.refl s
  · next hthere =>
    have hlt := acuThere_lt (by simpa using hthere)
    have hdefs (t : State) := State.onlyParts_setAcuDefs t st e.index 4
      (fun i => BitVec.ofNat 128 (e.words (129 + 4 * i) 4))
    refine (Changes.setReg (heldReg_stop hst ?_) (by decide) _).trans
      (Changes.of_regs (hdefs _ .regs (by decide)) (onlyParts_mono (hdefs _) (by decide)))
    omega

theorem ImgSect.stops_lt {e : ImgSect} {st : Nat} (h : st ∈ e.stops) : st < nStops :=
  List.mem_range.mp (List.mem_filter.mp h).1

theorem State.writeHeld_eq (s : State) (e : ImgSect) : s.writeHeld e
    = if e.type = scACU then e.stops.foldl (State.holdAcu e) s
      else if e.type = scAMAP then s.setReg gREMAP_CTRL (BitVec.ofNat 32 (e.word 0 / 16 * 16 + e.word 0 % 2))
      else if e.type = scUCODE then forUpTo nStops (fun st s => s.setFld (stopReg st sQE_STAT) 16 8 (e.word 0 % 256)) s
      else s := rfl

/-- The microcode's version stands at every stop. -/
theorem changes_version (s : State) (v : Nat) :
    Changes heldReg [.regs, .acu] s (forUpTo nStops (fun st s => s.setFld (stopReg st sQE_STAT) 16 8 v) s) :=
  Changes.forUpTo (f := fun st (t : State) => t.setFld (stopReg st sQE_STAT) 16 8 v)
    (fun _ hst _ => Changes.setFld (heldReg_stop hst (by decide)) (by decide) _ _ _) s

theorem Changes.writeHeld (s : State) (e : ImgSect) : Changes heldReg [.regs, .acu] s (s.writeHeld e) := by
  rw [State.writeHeld_eq]
  split
  · exact Changes.foldl (fun st hst t => Changes.holdAcu t e (ImgSect.stops_lt hst)) s
  · exact Changes.ite (Changes.setReg (Or.inl rfl) (by decide) _) (Changes.ite (changes_version s _) (Changes.refl s))

/-! ### The steps of the activation -/

theorem State.onlyParts_shareOut (s : State) (xs : List ShareIn) : onlyParts [.d2d] s (s.shareOut xs) := by
  unfold State.shareOut
  refine foldl_keeps (onlyParts [.d2d] s) _ _ s (fun t x ht => ?_) (onlyParts_refl _ s)
  simp only
  exact onlyParts_ite ht (onlyParts_trans ht (onlyParts_setD2d t _))

section
variable (s : State) (shares : List ShareIn) (far : List (BitVec 14))

/-- The sections of the image for this die. -/
def State.mySects : List ImgSect := s.her.boot.sects.filter (fun e => e.onDie s.die)

/-- Rings without a section carry the default schedule in their shadow banks (R415). -/
def State.scheduled : State :=
  if imageF s.mySects = 2016 then s.writeDefaults s.her.boot.sects s.die else s

/-- What the sections held takes effect, and no commit is under way. -/
def State.released : State :=
  let t := s.mySects.foldl (fun (t : State) e => t.writeHeld e) s.scheduled
  { t with her := { t.her with prep := [], scope := 0 } }

/-- Every shadow bank is active, the staging map and the detours are in force (R416). -/
def State.inForce : State :=
  ((s.released.activate (imageF s.mySects)).mapCopy (s.released.regions gSTAGE_MAP)).detourCopy

/-- The fabric is CONFIGURED. -/
def State.configured : State :=
  (((s.inForce.setRoutes.shareOut shares).dbgList (far.map (fun x => x.toNat))).setFab fabCONFIGURED).setBoot
    { s.her.boot with phase := 5, trapped := false }

theorem exec_activation (hboot : s.booting = true) (hphase : s.her.boot.phase = 4) (hcal : s.her.boot.calDone = true)
    (hdom : s.her.boot.dom = 56) (hearly : s.strobeEarly = false) (hdegr : s.her.boot.degr = 0)
    (hrun : s.frame.running = false) :
    exec (.activation shares far) s = .next (s.keepAll (s.configured shares far).loadTimes.strobe) := by
  change execActivation shares far s = _
  unfold execActivation
  rw [if_neg (by simp [hboot, hphase, hcal, hdom, hearly, hdegr, hrun])]
  rfl

/-- Registers that change before bank 1 becomes active. -/
def readyReg (a : Nat) : Prop := stampAddr a ∨ heldReg a

theorem Changes.scheduled : Changes readyReg [.regs, .acu] s s.scheduled :=
  Changes.ite ((Changes.writeDefaults s _ _).mono (fun _ h => Or.inl h) (by decide)) (Changes.refl s)

theorem Changes.sects (l : List ImgSect) :
    Changes heldReg [.regs, .acu] s (l.foldl (fun (t : State) e => t.writeHeld e) s) :=
  Changes.foldl (fun e _ t => Changes.writeHeld t e) s

theorem Changes.released : Changes readyReg [.regs, .acu, .her] s s.released :=
  ((Changes.scheduled s).mono (fun _ h => h) (by decide)).trans
    (((Changes.sects s.scheduled s.mySects).mono (fun _ h => Or.inr h) (by decide)).trans
      (Changes.of_regs rfl (onlyParts_mono (onlyParts_setHer _ _) (by decide))))

theorem State.her_released : s.released.her = { s.her with prep := [], scope := 0 } := by
  have hher : (s.mySects.foldl (fun (t : State) e => t.writeHeld e) s.scheduled).her = s.her :=
    ((Changes.sects s.scheduled s.mySects).parts .her (by decide)).trans ((Changes.scheduled s).parts .her (by decide))
  unfold State.released
  simp only
  rw [hher]

/-- The global registers that an activation changes after bank 1 is active. -/
def globalReg (a : Nat) : Prop := a < 0x100000

theorem Changes.inForce_released :
    Changes (fun a => activeReg a ∨ globalReg a) [.regs, .ni, .qe] s.released s.inForce := by
  have hmap (t : State) (es : List Region) :
      Changes (fun a => activeReg a ∨ globalReg a) [.regs, .ni, .qe] t (t.mapCopy es) :=
    (Changes.mapCopy t es).mono
      (fun a ⟨_, ha⟩ => Or.inr (by unfold globalReg; unfold gACTIVE_MAP at ha; omega)) (by decide)
  have hdetour (t : State) : Changes (fun a => activeReg a ∨ globalReg a) [.regs, .ni, .qe] t t.detourCopy :=
    (Changes.detourCopy t).mono (fun a ⟨_, ha⟩ => Or.inr (by unfold globalReg; unfold gDETOUR at ha; omega)) (by decide)
  have hactive := (Changes.activate (imageF s.mySects) s.released).mono (B := fun a => activeReg a ∨ globalReg a)
    (fun _ h => Or.inl h) (List.Subset.refl _)
  exact (hactive.trans (hmap _ _)).trans (hdetour _)

/-- The registers that change once the map and the detours are in force. -/
def namingReg (a : Nat) : Prop := (gDIE_ROUTE ≤ a ∧ a < gDIE_ROUTE + 0x40) ∨ dbgReg a ∨ a = gFAB_STATE

theorem Changes.configured_inForce :
    Changes namingReg [.regs, .d2d, .her] s.inForce (s.configured shares far) := by
  have hroutes : Changes namingReg [.regs, .d2d, .her] s.inForce s.inForce.setRoutes :=
    (Changes.setRoutes s.inForce).mono (fun _ h => Or.inl h) (by decide)
  have hshares (t : State) : Changes namingReg [.regs, .d2d, .her] t (t.shareOut shares) :=
    Changes.of_regs (t.onlyParts_shareOut shares .regs (by decide))
      (onlyParts_mono (t.onlyParts_shareOut shares) (by decide))
  have hdbg (t : State) (l : List Nat) : Changes namingReg [.regs, .d2d, .her] t (t.dbgList l) :=
    (Changes.dbgList t l).mono (fun _ h => Or.inr (Or.inl h)) (by decide)
  have hfab (t : State) : Changes namingReg [.regs, .d2d, .her] t (t.setFab fabCONFIGURED) :=
    Changes.setFld (Or.inr (Or.inr rfl)) (by decide) _ _ _
  have hboot (t : State) (b : BootSt) : Changes namingReg [.regs, .d2d, .her] t (t.setBoot b) :=
    Changes.of_regs rfl (onlyParts_mono (t.onlyParts_setBoot b) (by decide))
  exact (((hroutes.trans (hshares _)).trans (hdbg _ _)).trans (hfab _)).trans (hboot _ _)

theorem State.onlyParts_configured :
    onlyParts [.regs, .ni, .acu, .qe, .d2d, .her] s (s.configured shares far) :=
  onlyParts_trans (onlyParts_mono (Changes.released s).parts (by decide))
    (onlyParts_trans (onlyParts_mono (Changes.inForce_released s).parts (by decide))
      (onlyParts_mono (Changes.configured_inForce s shares far).parts (by decide)))

theorem State.fabState_setBoot (b : BootSt) : (s.setBoot b).fabState = s.fabState := rfl

theorem State.fabState_setFab {v : Nat} (hv : v < 16) : (s.setFab v).fabState = v := by
  unfold State.setFab State.fabState
  rw [State.fld_setFld_same _ _ _ _ _ (by decide)]
  exact Nat.mod_eq_of_lt hv

theorem State.fabState_configured : (s.configured shares far).fabState = fabCONFIGURED := by
  unfold State.configured
  rw [State.fabState_setBoot, State.fabState_setFab _ (by decide)]

theorem State.her_configured : (s.configured shares far).her
    = { s.her with prep := [], scope := 0, boot := { s.her.boot with phase := 5, trapped := false } } := by
  have hher : ((s.inForce.setRoutes.shareOut shares).dbgList (far.map (fun x => x.toNat))).her = s.released.her := by
    have hroutes := (Changes.setRoutes s.inForce).parts .her (by decide)
    have hshares := s.inForce.setRoutes.onlyParts_shareOut shares .her (by decide)
    have hdbg := (Changes.dbgList (s.inForce.setRoutes.shareOut shares) (far.map (fun x => x.toNat))).parts .her
      (by decide)
    have hforce := (Changes.inForce_released s).parts .her (by decide)
    exact hdbg.trans (hshares.trans (hroutes.trans hforce))
  unfold State.configured State.setBoot State.setFab
  simp only [State.setFld_her, hher, State.her_released]

theorem dbgReg_global {a : Nat} (h : dbgReg a) : a < 0x2C0 ∧ 0x20C ≤ a := by
  unfold dbgReg gDBG_STAT gDBG_SRC at h
  omega

theorem not_namingReg_of_le {a : Nat} (h : 0x700 ≤ a) : ¬ namingReg a := by
  unfold namingReg dbgReg gDIE_ROUTE gDBG_STAT gDBG_SRC gFAB_STATE
  omega

/-- What is in force stays as the fabric is configured. -/
theorem State.flag_configured {a : Nat} (h : ¬ namingReg a) (i : Nat) :
    (s.configured shares far).flag a i = s.inForce.flag a i :=
  (Changes.configured_inForce s shares far).flag h i

theorem State.flag_inForce_activate {a : Nat} (h : 0x100000 ≤ a) (i : Nat) :
    s.inForce.flag a i = (s.released.activate (imageF s.mySects)).flag a i := by
  unfold State.inForce
  rw [(Changes.detourCopy _).flag (by unfold gDETOUR; omega),
    (Changes.mapCopy _ _).flag (by unfold mapReg gACTIVE_MAP; omega)]

theorem State.reg_map_inForce {i : Nat} (hi : i < 256) :
    s.inForce.reg (gACTIVE_MAP + 4 * i) = s.reg (gSTAGE_MAP + 4 * i) := by
  have hready : ¬ readyReg (gSTAGE_MAP + 4 * i) := by
    rintro (h | h)
    · exact not_stampAddr_low (by unfold gSTAGE_MAP; omega) h
    · unfold heldReg gSTAGE_MAP gREMAP_CTRL at h
      omega
  unfold State.inForce
  rw [(Changes.detourCopy _).regs _ (by unfold gDETOUR gACTIVE_MAP; omega), State.reg_mapCopy_regions _ _ _ hi,
    (Changes.released s).regs _ hready]

theorem State.reg_detour_inForce {i : Nat} (hi : i < 8) :
    s.inForce.reg (gDETOUR + 4 * i) = s.reg (gDETOUR_STG + 4 * i) := by
  have hready : ¬ readyReg (gDETOUR_STG + 4 * i) := by
    rintro (h | h)
    · exact not_stampAddr_low (by unfold gDETOUR_STG; omega) h
    · unfold heldReg gDETOUR_STG gREMAP_CTRL at h
      omega
  have hactive : ¬ activeReg (gDETOUR_STG + 4 * i) := by
    rintro (⟨st, -, o, -, he⟩ | ⟨r, -, he | he⟩)
    · exact stopReg_ne_global (by unfold gDETOUR_STG; omega) st o he.symm
    · unfold ringReg gDETOUR_STG at he; omega
    · unfold ringReg gDETOUR_STG at he; omega
  unfold State.inForce
  rw [State.reg_detourCopy _ hi, (Changes.mapCopy _ _).regs _ (by unfold mapReg gACTIVE_MAP gDETOUR_STG; omega),
    (Changes.activate _ _).regs _ hactive, (Changes.released s).regs _ hready]

theorem not_activeReg_stamp {r p : Nat} (hp : p < 2016) : ¬ activeReg (stampReg r 1 p) := by
  rintro (⟨st, hst, o, ho, he⟩ | ⟨r', -, he | he⟩)
  · exact ringReg_ne_stopReg hst ((by decide : ∀ o ∈ activeOffs, o < 0x4000) o ho) he
  · unfold stampReg ringReg rSTAMP_STAT at he
    omega
  · unfold stampReg ringReg rSTAMP_GUAR at he
    omega

/-- Bank 1 of a ring without a section is the default schedule (R95, R415). -/
theorem State.reg_stamp_inForce {r p : Nat} (hr : r < nRings) (hp : p < 2016) (hF : imageF s.mySects = 2016)
    (hnone : r ∉ stampRings s.her.boot.sects s.die) (hbank : s.fld (ringReg r rSTAMP_STAT) 0 1 = 0) :
    s.inForce.reg (stampReg r 1 p) = BitVec.ofNat 32 ((defaultStamp r p).1 + (defaultStamp r p).2 * 16) := by
  have hshadow : s.stampShadow r = 1 := by unfold State.stampShadow; rw [hbank]
  have hge : 0x800000 ≤ stampReg r 1 p := by unfold stampReg ringReg; omega
  have hsched : s.scheduled = s.writeDefaults s.her.boot.sects s.die := if_pos hF
  obtain ⟨-, hdefault⟩ := State.isDefault_writeDefaults s hr hp hnone hshadow
  have hglobal : ¬ (activeReg (stampReg r 1 p) ∨ globalReg (stampReg r 1 p)) := by
    rintro (h | h)
    · exact not_activeReg_stamp hp h
    · unfold globalReg at h
      omega
  have hheld : ¬ heldReg (stampReg r 1 p) := by
    unfold heldReg gREMAP_CTRL
    omega
  have hreleased : s.released.reg (stampReg r 1 p) = s.scheduled.reg (stampReg r 1 p) :=
    (Changes.sects s.scheduled s.mySects).regs _ hheld
  rw [(Changes.inForce_released s).regs _ hglobal, hreleased, hsched, hdefault]

theorem State.fld_of_flag {s : State} {a : Nat} (h : s.flag a 0 = true) : s.fld a 0 1 = 1 := beq_iff_eq.mp h

/-- Bank 1 is active wherever the activation makes it so. -/
theorem State.bank_configured {a : Nat} (ha : 0x100000 ≤ a)
    (h : (s.released.activate (imageF s.mySects)).flag a 0 = true) : (s.configured shares far).fld a 0 1 = 1 := by
  apply State.fld_of_flag
  rw [State.flag_configured s shares far (not_namingReg_of_le (by omega)), State.flag_inForce_activate s ha, h]

theorem State.bootStarts_configured (hearly : s.strobeEarly = false) (hrun : s.frame.running = false) :
    (s.configured shares far).loadTimes.strobe = (s.configured shares far).started := by
  have hframe : (s.configured shares far).frame = s.frame := s.onlyParts_configured shares far .frame (by decide)
  have htime : (s.configured shares far).time = s.time := s.onlyParts_configured shares far .time (by decide)
  refine State.strobe_loadTimes _ (by rw [hframe, hrun]) fun v hv => ?_
  rw [State.her_configured] at hv
  rw [htime]
  unfold State.strobeEarly at hearly
  rw [show s.her.strobeAt = some v from hv] at hearly
  simpa using hearly

theorem completes_activation (hboot : s.booting = true) (hphase : s.her.boot.phase = 4)
    (hcal : s.her.boot.calDone = true) (hdom : s.her.boot.dom = 56) (hearly : s.strobeEarly = false)
    (hdegr : s.her.boot.degr = 0) (hrun : s.frame.running = false) :
    completes (.activation shares far) s (fun t =>
      t.fabState = fabCONFIGURED ∧ t.her.boot.phase = 5 ∧ t.frame.running = true ∧ t.frame.fpos = 0
      ∧ t.frame.frameCnt = 0
      ∧ (∀ r, r < nRings → t.fld (ringReg r rSTAMP_STAT) 0 1 = 1)
      ∧ (∀ r p, r < nRings → p < 2016 → imageF (s.her.boot.sects.filter (fun e => e.onDie s.die)) = 2016 →
          r ∉ stampRings s.her.boot.sects s.die → s.fld (ringReg r rSTAMP_STAT) 0 1 = 0 →
          t.reg (stampReg r 1 p) = BitVec.ofNat 32 ((defaultStamp r p).1 + (defaultStamp r p).2 * 16))
      ∧ (∀ st, st < nStops → t.fld (stopReg st sFLOW_STAT) 0 1 = 1 ∧ t.fld (stopReg st sSCHED_STAT) 0 1 = 1
          ∧ t.fld (stopReg st sGL_STAT) 0 1 = 1)
      ∧ (∀ i, i < 256 → t.reg (gACTIVE_MAP + 4 * i) = s.reg (gSTAGE_MAP + 4 * i))
      ∧ (∀ i, i < 8 → t.reg (gDETOUR + 4 * i) = s.reg (gDETOUR_STG + 4 * i))
      ∧ (∀ st, st < nStops → (t.localTs st).count = s.time.master)
      ∧ t.time.master = s.time.master
      ∧ onlyParts [.frame, .time, .regs, .ni, .acu, .tem, .qe, .d2d, .her] s t) := by
  have hexec := exec_activation s shares far hboot hphase hcal hdom hearly hdegr hrun
  rw [State.bootStarts_configured s shares far hearly hrun] at hexec
  have hstart := (s.configured shares far).onlyParts_started
  have htime : (s.configured shares far).time = s.time := s.onlyParts_configured shares far .time (by decide)
  have hparts : onlyParts [.frame, .time, .regs, .ni, .acu, .tem, .qe, .d2d, .her] s
      (s.keepAll (s.configured shares far).started) :=
    onlyParts_keepAll (onlyParts_trans (onlyParts_mono (s.onlyParts_configured shares far) (by decide))
      (onlyParts_mono hstart (by decide))) (by decide)
  have hregs : (s.keepAll (s.configured shares far).started).regs = (s.configured shares far).regs :=
    (State.regs_keepAll s (s.configured shares far).started).trans (hstart .regs (by decide))
  have hher : (s.keepAll (s.configured shares far).started).her = (s.configured shares far).her :=
    (State.her_keepAll s (s.configured shares far).started).trans (hstart .her (by decide))
  have hrunning : (s.keepAll (s.configured shares far).started).frame.running = true :=
    (State.running_keepAll s (s.configured shares far).started).trans (s.configured shares far).running_started
  have hzero := State.zero_keepAll s (s.configured shares far).started
  have hmaster : (s.keepAll (s.configured shares far).started).time.master = s.time.master := by
    rw [State.time_keepAll, State.master_started, htime]
  have hcount (st : Nat) (hst : st < nStops) :
      ((s.keepAll (s.configured shares far).started).localTs st).count = s.time.master := by
    rw [State.localTs_keepAll, State.count_started _ hst, htime]
  generalize s.keepAll (s.configured shares far).started = t at hexec hparts hregs hher hrunning hzero hmaster hcount
  have hreg (a : Nat) : t.reg a = (s.configured shares far).reg a := State.reg_congr hregs a
  have hfld (a lo w : Nat) : t.fld a lo w = (s.configured shares far).fld a lo w := State.fld_congr (hreg a) lo w
  have hfab : t.fabState = fabCONFIGURED := (hfld gFAB_STATE 0 4).trans (State.fabState_configured s shares far)
  have hphase5 : t.her.boot.phase = 5 := by rw [hher, State.her_configured]
  obtain ⟨hfpos, hcnt⟩ := hzero
  refine ⟨t, hexec, ?_⟩
  simp only [hreg, hfld]
  refine ⟨hfab, hphase5, hrunning, hfpos, hcnt, ?_, ?_, ?_, ?_, ?_, hcount, hmaster, hparts⟩
  · intro r hr
    exact State.bank_configured s shares far (by unfold ringReg; omega) (State.flag_activate_ring _ _ hr)
  · intro r p hr hp hF hnone hbank
    rw [(Changes.configured_inForce s shares far).regs _ (not_namingReg_of_le (by unfold stampReg ringReg; omega)),
      State.reg_stamp_inForce s hr hp hF hnone hbank]
  · intro st hst
    have hbank := State.stopActive_activate (imageF s.mySects) s.released hst
    exact ⟨State.bank_configured s shares far (stopReg_global _ _) (hbank _ (by decide)),
      State.bank_configured s shares far (stopReg_global _ _) (hbank _ (by decide)),
      State.bank_configured s shares far (stopReg_global _ _) (hbank _ (by decide))⟩
  · intro i hi
    rw [(Changes.configured_inForce s shares far).regs _ (not_namingReg_of_le (by unfold gACTIVE_MAP; omega)),
      State.reg_map_inForce s hi]
  · intro i hi
    rw [(Changes.configured_inForce s shares far).regs _
        (by unfold namingReg dbgReg gDETOUR gDIE_ROUTE gDBG_STAT gDBG_SRC gFAB_STATE; omega),
      State.reg_detour_inForce s hi]

theorem completes_activation_not (h : s.booting = false ∨ s.her.boot.phase ≠ 4 ∨ s.her.boot.calDone = false
    ∨ s.her.boot.dom ≠ 56 ∨ s.strobeEarly = true ∨ s.her.boot.degr ≠ 0 ∨ s.frame.running = true) :
    completes (.activation shares far) s (fun t => t = s) := by
  refine ⟨s, ?_, rfl⟩
  change execActivation shares far s = _
  unfold execActivation
  rw [if_pos (by rcases h with h | h | h | h | h | h | h <;> simp [h])]

end

end Sys2Proof.Machine
end

section
/-! PROOFS. The minimal configuration (R84, R214, R393, R421). -/
namespace Sys2Proof.Machine
open Sys2Proof

/-! ### A die that runs alone: what closing its ports changes -/

/-- Registers of the stops that count what a closed port loses. -/
def lossReg (a : Nat) : Prop :=
  ∃ st, st < nStops ∧ ∃ o, o ∈ [sSCHED_STAT, sINJ_STORE, sTXN_CNT + 32] ∧ a = stopReg st o

theorem lossReg_stop {st o : Nat} (hst : st < nStops) (ho : o ∈ [sSCHED_STAT, sINJ_STORE, sTXN_CNT + 32]) :
    lossReg (stopReg st o) := ⟨st, hst, o, ho, rfl⟩

/-- Registers that change when the die goes alone: its identity, what its stops lose, the ports. -/
def aloneReg (a : Nat) : Prop := (0x600 ≤ a ∧ a < 0x700) ∨ lossReg a ∨ (0x400000 ≤ a ∧ a < 0x480000)

theorem aloneReg_dp {p : Nat} (hp : p < 8) : aloneReg (dpReg p dSTAT) := by
  refine Or.inr (Or.inr ?_)
  unfold dpReg dSTAT
  omega

section
variable (s : State) {st : Nat} (hst : st < nStops)

theorem changes_mapCtx (hst : st < nStops) (part : Nat) : Changes lossReg [.regs] s (s.mapCtx st part).2 := by
  refine ⟨fun a ha => ?_, s.onlyParts_mapCtx st part⟩
  have hne : a ≠ stopReg st sSCHED_STAT := fun he => ha (he ▸ lossReg_stop hst (by decide))
  unfold State.mapCtx
  simp only
  split
  · rfl
  · exact (State.reg_count_other _ _ _ _ _ _ hne).trans (State.reg_raiseFlag_other s _ _ _ hne)

theorem changes_enterQueue (hst : st < nStops) (q port : Nat) (p : Pkt) (resend : Bool) (m : QMark) :
    Changes lossReg [.regs, .ni] s (s.enterQueue st q port p resend m) := by
  refine ⟨fun a ha => ?_, s.onlyParts_enterQueue st q port p resend m⟩
  have hne : a ≠ stopReg st sINJ_STORE := fun he => ha (he ▸ lossReg_stop hst (by decide))
  unfold State.enterQueue State.hwmUpdate
  simp only
  split
  · exact State.reg_setFld_other _ _ _ _ _ _ hne
  · rfl

theorem changes_setHeld (st p : Nat) (v : List Held) : Changes lossReg [.regs, .ni] s (s.setHeld st p v) :=
  Changes.of_regs rfl (onlyParts_mono (s.onlyParts_setHeld st p v) (by decide))

theorem changes_respond (hst : st < nStops) (req : Slot) (opc status : Nat) :
    Changes lossReg [.regs, .ni] s (s.respond st req opc status) := by
  unfold State.respond State.offer State.offerOn
  simp only
  split
  · exact ((changes_mapCtx s hst _).mono (fun _ h => h) (by decide)).trans (changes_enterQueue _ hst _ _ _ _ _)
  · exact changes_setHeld s _ _ _

theorem changes_refuseWith (hst : st < nStops) (req : Slot) (status : Nat) :
    Changes lossReg [.regs, .ni] s (s.refuseWith st req status) := by
  unfold State.refuseWith
  split
  · exact changes_respond s hst _ _ _
  · split
    · exact Changes.refl s
    · exact changes_respond s hst _ _ _

theorem changes_transitBack (e : Nat) (x : Slot) : Changes lossReg [.regs, .ni, .d2d] s (s.transitBack e x) := by
  refine ⟨fun a _ => s.reg_transitBack e x a, ?_⟩
  unfold State.transitBack
  split
  · exact onlyParts_refl _ s
  · exact onlyParts_mono (onlyParts_setD2d s _) (by decide)

end

theorem changes_egLost (p : Nat) (l : List EgEnt) (seen : List Src) (s : State) :
    Changes lossReg [.regs, .ni, .d2d] s (egLost p l seen s) := by
  induction l generalizing seen s with
  | nil => exact Changes.refl s
  | cons e rest ih =>
    have hback : Changes lossReg [.regs, .ni, .d2d] s
        (if e.transit ∧ e.ccls < 6 then s.transitBack p e.slot else s) :=
      Changes.ite (changes_transitBack s p e.slot) (Changes.refl s)
    unfold egLost
    simp only
    split
    · split
      · exact hback.trans (ih _ _)
      · exact hback.trans (((changes_refuseWith _ (dpStop_lt p) _ _).mono (fun _ h => h) (by decide)).trans (ih _ _))
    · exact hback.trans ((Changes.setFld (lossReg_stop (dpStop_lt p) (by decide)) (by decide) _ _ _).trans (ih _ _))

section
variable (s : State)

theorem changes_setDp (p : Nat) (v : DpSt) : Changes aloneReg [.regs, .ni, .d2d] s (s.setDp p v) :=
  Changes.of_regs rfl (onlyParts_mono (onlyParts_setD2d s _) (by decide))

theorem changes_dpEmpty {p : Nat} (hp : p < 8) : Changes aloneReg [.regs, .ni, .d2d] s (s.dpEmpty p) := by
  have hlost : Changes aloneReg [.regs, .ni, .d2d] s (egLost p (s.dp p).egress [] s) :=
    (changes_egLost p _ _ s).mono (fun _ h => Or.inr (Or.inl h)) (by decide)
  have hstat (t : State) (lo w x : Nat) : Changes aloneReg [.regs, .ni, .d2d] t (t.setFld (dpReg p dSTAT) lo w x) :=
    Changes.setFld (aloneReg_dp hp) (by decide) lo w x
  unfold State.dpEmpty
  have hcount (t : State) (x : Nat) :
      Changes aloneReg [.regs, .ni, .d2d] t (t.count (stopReg (dpStop p) (sTXN_CNT + 32)) 0 32 x) :=
    Changes.setFld (Or.inr (Or.inl (lossReg_stop (dpStop_lt p) (by decide)))) (by decide) _ _ _
  exact ((((hlost.trans (hcount _ _)).trans (changes_setDp _ p _)).trans (hstat _ _ _ _)).trans (hstat _ _ _ _)).trans
    (hstat _ _ _ _)

theorem changes_shutPorts : Changes aloneReg [.regs, .ni, .d2d] s ((List.range 8).foldl State.shutPort s) :=
  Changes.foldl (fun _ hp t => Changes.ite (Changes.refl t) (changes_dpEmpty t (List.mem_range.mp hp))) s

theorem changes_setCoord (c : Int × Int) (alone : Bool) : Changes aloneReg [.regs, .d2d] s (s.setCoord c alone) := by
  have hcoord (t : State) (lo w x : Nat) : Changes aloneReg [.regs, .d2d] t (t.setFld gDIE_COORD lo w x) :=
    Changes.setFld (Or.inl (by decide)) (by decide) lo w x
  have hid (v : D2dSt) : Changes aloneReg [.regs, .d2d] s { s with d2d := v } :=
    Changes.of_regs rfl (onlyParts_mono (onlyParts_setD2d s v) (by decide))
  exact (((((hid _).trans (hcoord _ _ _ _)).trans (hcoord _ _ _ _)).trans (hcoord _ _ _ _)).trans
    (hcoord _ _ _ _)).trans (hcoord _ _ _ _)

theorem changes_nameNeighbours (c : Int × Int) : Changes aloneReg [.regs, .d2d] s (s.nameNeighbours c) :=
  Changes.foldl (f := fun (s : State) p => s.setFld (dpReg p dSTAT) 8 4 (dieIdOf (neighbourAt c p)))
    (fun _ hp _ => Changes.setFld (aloneReg_dp (List.mem_range.mp (List.mem_filter.mp hp).1)) (by decide) _ _ _) s

theorem changes_setDie (c : Int × Int) (map : Nat) (alone : Bool) :
    Changes aloneReg [.regs, .d2d] s (s.setDie c map alone) := by
  rw [State.setDie_eq]
  have hmap (t : State) (v : Word32) : Changes aloneReg [.regs, .d2d] t (t.setReg gDIE_MAP v) :=
    Changes.setReg (Or.inl (by decide)) (by decide) v
  have hroutes (t : State) : Changes aloneReg [.regs, .d2d] t t.setRoutes :=
    (Changes.setRoutes t).mono (fun a ⟨hlo, hhi⟩ => Or.inl (by unfold gDIE_ROUTE at hlo hhi; omega)) (by decide)
  exact (((changes_setCoord s c alone).trans (hmap _ _)).trans (changes_nameNeighbours _ c)).trans (hroutes _)

theorem changes_goAlone : Changes aloneReg [.regs, .ni, .d2d] s s.goAlone := by
  rw [State.goAlone_eq]
  exact (changes_shutPorts s).trans ((changes_setDie _ _ _ _).mono (fun _ h => h) (by decide))

end

/-! ### Registers go back to their reset values -/

/-- A key that a filter drops holds its default. -/
theorem Tab.get_filter_of_drop {α : Type} (d : Nat → α) {p : Nat × α → Bool} (t : Tab α) {k : Nat}
    (hk : ∀ v, p (k, v) = false) : Tab.get d (t.filter p) k = d k := by
  induction t with
  | nil => rfl
  | cons e t ih =>
    obtain ⟨j, v⟩ := e
    by_cases hj : j = k
    · subst hj
      simp [hk, ih]
    · by_cases hp : p (j, v) = true <;> simp [hp, Tab.get, hj, ih]

/-- A register that the minimal configuration does not take back to its reset value (R421). -/
def minimalKeeps (a : Nat) : Bool := match regRow a with
  | some r => !(r.img || a == gREMAP_CTRL || [0x1900, 0x1980, 0x1A00].contains (regBlock a).2 && (regBlock a).1 == 1)
      || regBlock a == (0, gERR_IRQ_EN)
  | none => true

theorem State.regs_minimalRegs (s : State) :
    s.minimalRegs.regs = s.discard.regs.filter (fun e => minimalKeeps e.1) := rfl

theorem State.onlyParts_minimalRegs (s : State) : onlyParts [.regs, .ni, .acu, .qe] s s.minimalRegs := by
  intro p hp
  cases p with
  | regs | ni | acu | qe => exact absurd hp (by decide)
  | _ => rfl

theorem flag_portCfgReset (st k : Nat) : fieldOf (portCfgReset st k) 0 1 = 0 := by
  unfold portCfgReset
  split <;> decide

section
variable {st : StopNo} {k : Nat} (hk : k < 2)
include hk

theorem pCFG_off : 0x400 + 0x80 * k + pCFG = 0x400 ∨ 0x400 + 0x80 * k + pCFG = 0x480 := by
  unfold pCFG
  omega

theorem rowAt_pCFG : rowAt rowsStop (0x400 + 0x80 * k + pCFG)
    = some ⟨0x400, 2, 0x80, 0, 0x3FFFFF3, 0, 1, false, true⟩ := by
  rcases pCFG_off hk with h | h <;> rw [h] <;> decide

theorem pCFG_lt : 0x400 + 0x80 * k + pCFG < 0x4000 := by
  unfold pCFG
  omega

/-- PORT_CFG goes back to its reset value, without EN (R169, R421). -/
theorem minimalKeeps_pCFG : minimalKeeps (portReg st.val k pCFG) = false := by
  have hrow : regRow (portReg st.val k pCFG) = some ⟨0x400, 2, 0x80, 0, 0x3FFFFF3, 0, 1, false, true⟩ :=
    regRow_stopReg (pCFG_lt hk) (rowAt_pCFG hk)
  have hblock : regBlock (portReg st.val k pCFG) = (1, 0x400 + 0x80 * k + pCFG) := regBlock_stopReg (pCFG_lt hk)
  unfold minimalKeeps
  rw [hrow, hblock]
  rfl

theorem State.flag_pCFG_minimalRegs (s : State) : s.minimalRegs.flag (portReg st.val k pCFG) 0 = false := by
  have hreset : regReset (portReg st.val k pCFG) = portCfgReset st.val k := by
    have hstop : regReset (portReg st.val k pCFG) = stopReset st.val (0x400 + 0x80 * k + pCFG) :=
      regReset_stopReg (pCFG_lt hk)
    rw [hstop]
    interval_cases k <;> rfl
  have hreg : s.minimalRegs.reg (portReg st.val k pCFG) = portCfgReset st.val k := by
    unfold State.reg
    rw [State.regs_minimalRegs, Tab.get_filter_of_drop _ _ fun _ => minimalKeeps_pCFG hk, hreset]
  unfold State.flag State.fld
  rw [hreg, flag_portCfgReset]
  rfl

end

/-! ### The boot map and the access check units -/

/-- The two entries of the map of the minimal configuration (R16, R214). -/
def State.bootMap (s : State) : List Region :=
  [mapEntry 0 0xFFF 0 7 0xFFFF true, mapEntry (s.d2d.fcsBase / 4096) (s.d2d.fcsBase / 4096 + 0x3FFFF) 2 0 0 false]

/-- Entry `i` of the staging map is written. -/
def State.stageEntry (es : List Region) (i : Nat) (s : State) : State := s.setQuad (gSTAGE_MAP + 16 * i) (es.getD i 0)

theorem State.minimalMap_eq (s : State) :
    s.minimalMap = (forUpTo 64 (State.stageEntry s.bootMap) s).mapCopy s.bootMap := rfl

/-- The words of the two maps. -/
def mapsReg (a : Nat) : Prop := 0x1000 ≤ a ∧ a < 0x1800

theorem changes_minimalMap (s : State) : Changes mapsReg [.regs, .ni] s s.minimalMap := by
  rw [State.minimalMap_eq]
  have hstage : Changes mapsReg [.regs, .ni] s (forUpTo 64 (State.stageEntry s.bootMap) s) :=
    Changes.forUpTo (fun i hi t => (Changes.setQuad t _ _).mono
      (fun a ⟨j, hj, ha⟩ => by unfold mapsReg; unfold gSTAGE_MAP at ha; omega) (by decide)) s
  exact hstage.trans ((Changes.mapCopy _ _).mono
    (fun a ⟨hlo, hhi⟩ => by unfold mapsReg; unfold gACTIVE_MAP at hlo hhi; omega) (List.Subset.refl _))

theorem State.quad_minimalMap (s : State) {i : Nat} (hi : i < 64) :
    s.minimalMap.quad (gACTIVE_MAP + 16 * i) = s.bootMap.getD i 0 := by
  rw [State.minimalMap_eq, State.quad_mapCopy _ _ hi]

/-- ACU_CTRL of the units. -/
def acuCtrl (a : Nat) : Prop := ∃ st, st < nStops ∧ ∃ o, o ∈ [0x1900, 0x1980, 0x1A00] ∧ a = stopReg st o

theorem acuCtrl_reg {st a : Nat} (hst : st < nStops) (ha : a < 3) : acuCtrl (acuReg st a 0) :=
  ⟨st, hst, _, (by decide : ∀ a < 3, 0x1900 + 0x80 * a + 0 ∈ [0x1900, 0x1980, 0x1A00]) a ha, rfl⟩

/-- A unit that is not there, or is that of a corner's or a boot stop's port 0, is not made STRICT (R214). -/
def acuSpared (st a : Nat) : Bool := !acuThere st a || (a == 0 && [0, 15, 176, 191, 7, 8, 183, 184].contains st)

theorem acuSpared_of_there {st a : Nat} (hthere : acuThere st a = true)
    (h : a = 0 → st ∉ [0, 15, 176, 191, 7, 8, 183, 184]) : acuSpared st a = false := by
  unfold acuSpared
  rw [hthere]
  by_cases ha : a = 0
  · have hst := h ha
    simp only [List.mem_cons, not_or] at hst
    simp [hst]
  · simp [ha]

/-- Unit `a` of a stop is made STRICT unless it is spared. -/
def State.strictAcu (st : Nat) (t : State) (a : Nat) : State :=
  if acuSpared st a then t else t.setFld (acuReg st a 0) 0 1 1

theorem State.minimalAcus_eq (s : State) :
    s.minimalAcus = forUpTo nStops (fun st t => (List.range 3).foldl (State.strictAcu st) t) s := rfl

theorem changes_strictAcus {st : Nat} (hst : st < nStops) (s : State) :
    Changes acuCtrl [.regs] s ((List.range 3).foldl (State.strictAcu st) s) :=
  Changes.foldl (fun _ ha t => Changes.ite (Changes.refl t)
    (Changes.setFld (acuCtrl_reg hst (List.mem_range.mp ha)) (by decide) _ _ _)) s

theorem changes_minimalAcus (s : State) : Changes acuCtrl [.regs] s s.minimalAcus := by
  rw [State.minimalAcus_eq]
  exact Changes.forUpTo (f := fun st t => (List.range 3).foldl (State.strictAcu st) t)
    (fun _ hst t => changes_strictAcus hst t) s

theorem State.flag_strictAcu_of_flag {s : State} {b : Nat} (h : s.flag b 0 = true) (st a : Nat) :
    (s.strictAcu st a).flag b 0 = true := by
  unfold State.strictAcu
  split
  · exact h
  · exact State.flag_raiseFlag_of_flag (by decide) (by decide) h

/-- Every unit that is not spared is STRICT (R214). -/
theorem State.flag_minimalAcus (s : State) {st a : Nat} (hst : st < nStops) (ha : a < 3) (h : acuSpared st a = false) :
    s.minimalAcus.flag (acuReg st a 0) 0 = true := by
  rw [State.minimalAcus_eq]
  refine forUpTo_reaches (f := fun st t => (List.range 3).foldl (State.strictAcu st) t) (Q := fun _ => True)
    (P := fun t : State => t.flag (acuReg st a 0) 0 = true) hst (fun t _ => ?_) (fun _ _ _ _ => trivial)
    (fun y _ t ht => ?_) trivial
  · refine foldl_reaches (Q := fun _ => True) (P := fun t : State => t.flag (acuReg st a 0) 0 = true)
      (List.mem_range.mpr ha) (fun u _ => ?_) (fun _ _ _ _ => trivial)
      (fun c _ u hu => State.flag_strictAcu_of_flag hu st c) trivial
    unfold State.strictAcu
    rw [h, if_neg (by decide)]
    exact State.flag_raiseFlag u _ 0 (by decide)
  · exact foldl_keeps (fun t : State => t.flag (acuReg st a 0) 0 = true) _ _ t
      (fun u c hu => State.flag_strictAcu_of_flag hu y c) ht

/-! ### The ports -/

/-- PORT_CFG of the agents' ports. -/
def cfgReg (a : Nat) : Prop := ∃ st k, k < 2 ∧ a = portReg st k pCFG

theorem portGen_port {st k : Nat} (h : portGen st k ≠ 0) : k < 2 := by
  unfold portGen at h
  split at h <;> omega

/-- DBG of a port that is there is set (R169). -/
def State.dbgPort (s : State) (e : Nat × Nat) : State :=
  if portGen e.1 e.2 = 0 then s else s.setFld (portReg e.1 e.2 pCFG) 2 1 1

theorem State.dbgPorts_eq (s : State) (l : List (Nat × Nat)) : s.dbgPorts l = l.foldl State.dbgPort s := rfl

theorem changes_dbgPorts (s : State) (l : List (Nat × Nat)) : Changes cfgReg [.regs] s (s.dbgPorts l) := by
  rw [State.dbgPorts_eq]
  refine Changes.foldl (fun e _ t => ?_) s
  unfold State.dbgPort
  split
  · exact Changes.refl t
  · next h => exact Changes.setFld ⟨e.1, e.2, portGen_port h, rfl⟩ (by decide) _ _ _

/-- The debug mark stands above EN. -/
theorem State.flag_dbgPorts (s : State) (l : List (Nat × Nat)) (a : Nat) : (s.dbgPorts l).flag a 0 = s.flag a 0 := by
  rw [State.dbgPorts_eq]
  refine foldl_same (fun t : State => t.flag a 0) l _ s fun t e => ?_
  unfold State.dbgPort
  split
  · rfl
  · by_cases h : a = portReg e.1 e.2 pCFG
    · rw [h]
      exact State.flag_setFld_below _ _ _ _ _ _ (by decide) (by decide)
    · exact State.flag_congr (State.reg_setFld_other _ _ _ _ _ _ h) 0

/-- PORT_CFG of a port 0 at one of the die's stops. -/
def cfgLow (a : Nat) : Prop := ∃ st, st < nStops ∧ a = portReg st 0 pCFG

/-- Port 0 of a U stop is enabled (R421). -/
def State.enableBoot (t : State) (st : Nat) : State := if stopKind st = 4 then t.enablePort (st, 0) else t

theorem changes_enableBoot {st : Nat} (hst : st < nStops) (t : State) :
    Changes cfgLow [.regs, .ni] t (t.enableBoot st) :=
  Changes.ite ((Changes.enablePort t (st, 0)).mono (fun _ ha => ⟨st, hst, ha⟩) (List.Subset.refl _)) (Changes.refl t)

theorem changes_enableBoots (s : State) :
    Changes cfgLow [.regs, .ni] s ((List.range nStops).foldl State.enableBoot s) :=
  Changes.foldl (fun _ hst t => changes_enableBoot (List.mem_range.mp hst) t) s

theorem State.flag_enableBoots (s : State) {st : Nat} (hst : st < nStops) (hkind : stopKind st = 4) :
    ((List.range nStops).foldl State.enableBoot s).flag (portReg st 0 pCFG) 0 = true := by
  refine foldl_reaches (Q := fun _ => True) (P := fun t : State => t.flag (portReg st 0 pCFG) 0 = true)
    (List.mem_range.mpr hst) (fun t _ => ?_) (fun _ _ _ _ => trivial) (fun y _ t ht => ?_) trivial
  · unfold State.enableBoot
    rw [if_pos hkind]
    exact State.flag_enablePort t (st, 0)
  · unfold State.enableBoot
    split
    · exact State.flag_enablePort_of_flag (by decide) ht (y, 0)
    · exact ht

/-- The other ports keep their EN bits. -/
theorem State.flag_enableBoots_other (s : State) {st k : Nat} (hk : k < 2) (h : stopKind st ≠ 4 ∨ k = 1) :
    ((List.range nStops).foldl State.enableBoot s).flag (portReg st k pCFG) 0 = s.flag (portReg st k pCFG) 0 := by
  refine foldl_same (fun t : State => t.flag (portReg st k pCFG) 0) _ _ s fun t y => ?_
  unfold State.enableBoot
  split
  · next hy =>
    refine (Changes.enablePort t (y, 0)).flag (fun he => ?_) 0
    obtain ⟨hst, hoff⟩ := stopReg_inj (pCFG_lt hk) (pCFG_lt Nat.zero_lt_two) he
    subst hst
    omega
  · rfl

/-! ### The stamps -/

/-- Every entry of bank 1 of ring `r` is BE with RESID 0. -/
def State.clearStamps (s : State) (r : Nat) : State := forUpTo 2016 (fun p t => t.setReg (stampReg r 1 p) 0) s

def State.clearAllStamps (s : State) : State := forUpTo nRings (fun r t => t.clearStamps r) s

theorem changes_clearStamps (r : Nat) (s : State) : Changes stampAddr [.regs] s (s.clearStamps r) :=
  Changes.forUpTo (f := fun p (t : State) => t.setReg (stampReg r 1 p) 0)
    (fun p hp _ => Changes.setReg ⟨r, 1, p, by decide, hp, rfl⟩ (by decide) _) s

theorem changes_clearAllStamps (s : State) : Changes stampAddr [.regs] s s.clearAllStamps :=
  Changes.forUpTo (fun r _ t => changes_clearStamps r t) s

theorem State.reg_setReg_zero {s : State} {a : Nat} (h : s.reg a = 0) (b : Nat) : (s.setReg b 0).reg a = 0 := by
  by_cases hab : a = b
  · rw [hab, State.reg_setReg_same]
  · rw [State.reg_setReg_other _ _ _ _ hab, h]

theorem State.stamp_clearStamps (s : State) (r : Nat) {p : Nat} (hp : p < 2016) :
    (s.clearStamps r).reg (stampReg r 1 p) = 0 := by
  unfold State.clearStamps
  exact forUpTo_reaches (Q := fun _ => True) (P := fun t : State => t.reg (stampReg r 1 p) = 0) hp
    (fun t _ => State.reg_setReg_same t _ _) (fun _ _ _ _ => trivial)
    (fun _ _ _ ht => State.reg_setReg_zero ht _) trivial

theorem State.reg_clearStamps_zero {s : State} {a : Nat} (h : s.reg a = 0) (r : Nat) : (s.clearStamps r).reg a = 0 := by
  unfold State.clearStamps
  exact forUpTo_keeps (fun t : State => t.reg a = 0) 2016 _ s (fun _ _ _ ht => State.reg_setReg_zero ht _) h

theorem State.stamp_clearAllStamps (s : State) {r p : Nat} (hr : r < nRings) (hp : p < 2016) :
    s.clearAllStamps.reg (stampReg r 1 p) = 0 := by
  unfold State.clearAllStamps
  exact forUpTo_reaches (f := fun r (t : State) => t.clearStamps r) (Q := fun _ => True)
    (P := fun t : State => t.reg (stampReg r 1 p) = 0) hr
    (fun t _ => State.stamp_clearStamps t r hp) (fun _ _ _ _ => trivial)
    (fun q _ _ ht => State.reg_clearStamps_zero ht q) trivial

/-! ### The whole -/

section
variable (s : State)

/-- Registers, map and access check units of the minimal configuration. -/
def State.minimalTables : State := s.minimalRegs.minimalMap.minimalAcus

/-- The stamps as well, and the debug ports marked. -/
def State.minimalStamped : State := (s.minimalTables.dbgPorts s.d2d.dbgTie).clearAllStamps

/-- The die runs alone and its tables are active. -/
def State.minimalActive : State := s.minimalStamped.goAlone.activate 2016

/-- The boot ports are enabled. -/
def State.minimalOpen : State := (List.range nStops).foldl State.enableBoot s.minimalActive

/-- DEGRADED with its cause, and BOOT_TIME (R421, R426). -/
def State.degraded (t : State) : State :=
  ((t.setFab fabDEGRADED).setFld gFAB_STATE 4 4 s.her.boot.degr).setReg gBOOT_TIME
    (BitVec.ofNat 32 (s.her.boot.hcs / 400))

/-- No copy is in use, and no strobe is set. -/
def State.imageless (t : State) : State :=
  let u := t.setBoot { s.her.boot with sects := [], phase := 0, copy := 0 }
  { u with her := { u.her with strobeAt := none } }

/-- The minimal configuration before the strobe. -/
def State.minimal : State :=
  s.imageless (((s.degraded s.minimalOpen).setFld gBOOT_STAT 0 2 0).dbgList [])

theorem exec_minimalConfiguration (hboot : s.booting = true) (hdegr : s.her.boot.degr ≠ 0)
    (hdom : s.her.boot.dom = 56) (hrun : s.frame.running = false) :
    exec .minimalConfiguration s = .next (s.keepAll s.minimal.loadTimes.strobe) := by
  change execMinimalConfiguration s = _
  unfold execMinimalConfiguration
  rw [if_neg (by simp [hboot, hdegr, hdom, hrun])]
  unfold State.minimal State.imageless State.degraded State.minimalOpen State.minimalActive State.minimalStamped
    State.minimalTables State.clearAllStamps State.clearStamps State.enableBoot State.enablePort
  simp only

theorem completes_minimalConfiguration_not (h : s.booting = false ∨ s.her.boot.degr = 0 ∨ s.her.boot.dom ≠ 56
    ∨ s.frame.running = true) : completes .minimalConfiguration s (fun t => t = s) := by
  refine ⟨s, ?_, rfl⟩
  change execMinimalConfiguration s = _
  unfold execMinimalConfiguration
  rw [if_pos (by rcases h with h | h | h | h <;> simp [h])]

/-- Registers that change once the boot ports are enabled. -/
def doneReg (a : Nat) : Prop := a ∈ [gFAB_STATE, gBOOT_TIME, gBOOT_STAT] ∨ dbgReg a

theorem doneReg_lt {a : Nat} (h : doneReg a) : a < 0x800 := by
  rcases h with h | h
  · exact (by decide : ∀ a ∈ [gFAB_STATE, gBOOT_TIME, gBOOT_STAT], a < 0x800) a h
  · have := dbgReg_global h
    omega

theorem changes_degraded (t : State) : Changes doneReg [.regs, .her] t (s.degraded t) :=
  ((Changes.setFld (Or.inl (by decide)) (by decide) 0 4 fabDEGRADED).trans
    (Changes.setFld (Or.inl (by decide)) (by decide) _ _ _)).trans (Changes.setReg (Or.inl (by decide)) (by decide) _)

theorem changes_imageless (t : State) : Changes doneReg [.regs, .her] t (s.imageless t) :=
  Changes.of_regs rfl (onlyParts_mono (onlyParts_trans (t.onlyParts_setBoot _) (onlyParts_setHer _ _)) (by decide))

theorem changes_reported (t : State) :
    Changes doneReg [.regs, .her] t (s.imageless ((t.setFld gBOOT_STAT 0 2 0).dbgList [])) := by
  have hstat : Changes doneReg [.regs, .her] t (t.setFld gBOOT_STAT 0 2 0) :=
    Changes.setFld (Or.inl (by decide)) (by decide) _ _ _
  have hdbg (u : State) : Changes doneReg [.regs, .her] u (u.dbgList []) :=
    (Changes.dbgList u []).mono (fun _ h => Or.inr h) (by decide)
  exact (hstat.trans (hdbg _)).trans (changes_imageless s _)

theorem changes_minimal_open : Changes doneReg [.regs, .her] s.minimalOpen s.minimal :=
  (changes_degraded s _).trans (changes_reported s _)

theorem changes_minimal_active :
    Changes (fun a => cfgLow a ∨ doneReg a) [.regs, .ni, .her] s.minimalActive s.minimal :=
  ((changes_enableBoots _).mono (fun _ h => Or.inl h) (by decide)).trans
    ((changes_minimal_open s).mono (fun _ h => Or.inr h) (by decide))

theorem changes_minimal_alone : Changes (fun a => activeReg a ∨ cfgLow a ∨ doneReg a) [.regs, .ni, .qe, .her]
    s.minimalStamped.goAlone s.minimal :=
  ((Changes.activate 2016 _).mono (fun _ h => Or.inl h) (by decide)).trans
    ((changes_minimal_active s).mono (fun _ h => Or.inr h) (by decide))

/-- Registers that change after the tables of the minimal configuration are written. -/
def runReg (a : Nat) : Prop := aloneReg a ∨ activeReg a ∨ cfgLow a ∨ doneReg a

theorem changes_minimal_stamped : Changes runReg [.regs, .ni, .qe, .d2d, .her] s.minimalStamped s.minimal :=
  ((changes_goAlone _).mono (fun _ h => Or.inl h) (by decide)).trans
    ((changes_minimal_alone s).mono (fun _ h => Or.inr h) (by decide))

theorem changes_minimal_tables :
    Changes (fun a => cfgReg a ∨ stampAddr a ∨ runReg a) [.regs, .ni, .qe, .d2d, .her] s.minimalTables s.minimal :=
  (((changes_dbgPorts _ s.d2d.dbgTie).mono (fun _ h => Or.inl h) (by decide)).trans
    ((changes_clearAllStamps _).mono (fun _ h => Or.inr (Or.inl h)) (by decide))).trans
    ((changes_minimal_stamped s).mono (fun _ h => Or.inr (Or.inr h)) (by decide))

theorem State.onlyParts_minimal : onlyParts [.regs, .ni, .acu, .qe, .d2d, .her] s s.minimal :=
  onlyParts_trans (onlyParts_mono s.onlyParts_minimalRegs (by decide))
    (onlyParts_trans (onlyParts_mono (changes_minimalMap s.minimalRegs).parts (by decide))
      (onlyParts_trans (onlyParts_mono (changes_minimalAcus s.minimalRegs.minimalMap).parts (by decide))
        (onlyParts_mono (changes_minimal_tables s).parts (by decide))))

/-! ### What the changes leave -/

theorem not_aloneReg_stop {st o : Nat} (hst : st < nStops) (ho : o < 0x4000)
    (hoff : o ∉ [sSCHED_STAT, sINJ_STORE, sTXN_CNT + 32]) : ¬ aloneReg (stopReg st o) := by
  have hge := stopReg_global st o
  have hlt : stopReg st o < 0x400000 := stopReg_lt hst ho
  rintro (h | ⟨st', -, o', ho', he⟩ | h)
  · omega
  · have hlt' := (by decide : ∀ o ∈ [sSCHED_STAT, sINJ_STORE, sTXN_CNT + 32], o < 0x4000) o' ho'
    exact hoff ((stopReg_inj ho hlt' he).2 ▸ ho')
  · omega

theorem not_activeReg_stop {st o : Nat} (hst : st < nStops) (ho : o < 0x4000) (hoff : o ∉ activeOffs) :
    ¬ activeReg (stopReg st o) := by
  rintro (⟨st', -, o', ho', he⟩ | ⟨r, -, he | he⟩)
  · have hlt' := (by decide : ∀ o ∈ activeOffs, o < 0x4000) o' ho'
    exact hoff ((stopReg_inj ho hlt' he).2 ▸ ho')
  · exact ringReg_ne_stopReg hst ho he.symm
  · exact ringReg_ne_stopReg hst ho he.symm

theorem not_activeReg_low {a : Nat} (ha : a < 0x100000) : ¬ activeReg a := by
  rintro (⟨st, -, o, -, he⟩ | ⟨r, -, he | he⟩)
  · exact stopReg_ne_global ha st o he.symm
  · unfold ringReg at he; omega
  · unfold ringReg at he; omega

theorem not_doneReg_of_le {a : Nat} (ha : 0x800 ≤ a) : ¬ doneReg a := fun h => absurd (doneReg_lt h) (by omega)

theorem not_cfgReg_stop {st o : Nat} (ho : o < 0x4000) (h0 : o ≠ 0x400) (h1 : o ≠ 0x480) : ¬ cfgReg (stopReg st o) :=
  fun ⟨st', k, hk, he⟩ => stopReg_ne_pCFG (e := (st', k)) ho h0 h1 hk he

theorem not_cfgReg_low {a : Nat} (ha : a < 0x100000) : ¬ cfgReg a :=
  fun ⟨_, _, _, he⟩ => stopReg_ne_global ha _ _ he.symm

theorem cfgReg_of_cfgLow {a : Nat} (h : cfgLow a) : cfgReg a := by
  obtain ⟨st, -, rfl⟩ := h
  exact ⟨st, 0, Nat.zero_lt_two, rfl⟩

theorem cfgLow_lt {a : Nat} (h : cfgLow a) : a < 0x400000 := by
  obtain ⟨st, hst, rfl⟩ := h
  exact stopReg_lt hst (pCFG_lt Nat.zero_lt_two)

/-- What is above the stops and ports and below the rings' tables is left. -/
theorem not_runReg_stamp {r p : Nat} (hp : p < 2016) : ¬ runReg (stampReg r 1 p) := by
  have hge : 0x800000 ≤ stampReg r 1 p := by unfold stampReg ringReg; omega
  rintro (h | h | h | h)
  · rcases h with h | ⟨st, hst, o, ho, he⟩ | h
    · omega
    · have hlt := (by decide : ∀ o ∈ [sSCHED_STAT, sINJ_STORE, sTXN_CNT + 32], o < 0x4000) o ho
      exact ringReg_ne_stopReg hst hlt he
    · omega
  · exact not_activeReg_stamp hp h
  · have := cfgLow_lt h
    omega
  · exact not_doneReg_of_le (by omega) h

/-- The global registers from 0x800 on are left. -/
theorem not_runReg_maps {a : Nat} (hlo : 0x800 ≤ a) (hhi : a < 0x100000) : ¬ runReg a := by
  rintro (h | h | h | h)
  · rcases h with h | ⟨st, -, o, -, he⟩ | h
    · omega
    · exact stopReg_ne_global hhi st o he.symm
    · omega
  · exact not_activeReg_low hhi h
  · exact not_cfgReg_low hhi (cfgReg_of_cfgLow h)
  · exact not_doneReg_of_le hlo h

/-- The words of a stop that neither its port registers nor its tables hold are left. -/
theorem not_runReg_stop {st o : Nat} (hst : st < nStops) (ho : o < 0x4000)
    (hoff : o ∉ [sSCHED_STAT, sINJ_STORE, sTXN_CNT + 32, 0x400, 0x480] ++ activeOffs) : ¬ runReg (stopReg st o) := by
  simp only [List.mem_append, not_or] at hoff
  obtain ⟨hoff, hact⟩ := hoff
  simp only [List.mem_cons, not_or] at hoff
  obtain ⟨hsched, hstore, hcnt, h0, h1, -⟩ := hoff
  rintro (h | h | h | h)
  · exact not_aloneReg_stop hst ho (by simp [hsched, hstore, hcnt]) h
  · exact not_activeReg_stop hst ho hact h
  · exact not_cfgReg_stop ho h0 h1 (cfgReg_of_cfgLow h)
  · exact not_doneReg_of_le (by have := stopReg_global st o; omega) h

/-! ### What the minimal configuration shows -/

theorem State.quad_congr {s t : State} {a : Nat} (h : ∀ j, j < 4 → t.reg (a + 4 * j) = s.reg (a + 4 * j)) :
    t.quad a = s.quad a := State.quad_of_words t a _ fun j hj => (h j hj).trans (State.quadWord_quad s a hj).symm

theorem State.quad_minimal {i : Nat} (hi : i < 64) :
    s.minimal.quad (gACTIVE_MAP + 16 * i) = s.bootMap.getD i 0 := by
  have hboot : s.minimalRegs.bootMap = s.bootMap := rfl
  rw [← hboot, ← State.quad_minimalMap s.minimalRegs hi]
  refine State.quad_congr fun j hj => ?_
  have hlo : 0x800 ≤ gACTIVE_MAP + 16 * i + 4 * j := by unfold gACTIVE_MAP; omega
  have hhi : gACTIVE_MAP + 16 * i + 4 * j < 0x100000 := by unfold gACTIVE_MAP; omega
  have hrun : ¬ (cfgReg (gACTIVE_MAP + 16 * i + 4 * j) ∨ stampAddr (gACTIVE_MAP + 16 * i + 4 * j)
      ∨ runReg (gACTIVE_MAP + 16 * i + 4 * j)) := by
    rintro (h | h | h)
    · exact not_cfgReg_low hhi h
    · exact not_stampAddr_low (by omega) h
    · exact not_runReg_maps hlo hhi h
  have hacu : ¬ acuCtrl (gACTIVE_MAP + 16 * i + 4 * j) := fun ⟨st, _, o, _, he⟩ => stopReg_ne_global hhi st o he.symm
  exact ((changes_minimal_tables s).regs _ hrun).trans ((changes_minimalAcus _).regs _ hacu)

theorem State.bootWindow_minimal : s.minimal.quad gACTIVE_MAP = mapEntry 0 0xFFF 0 7 0xFFFF true := by
  have hentry : s.bootMap.getD 0 0 = mapEntry 0 0xFFF 0 7 0xFFFF true := rfl
  rw [← hentry, ← s.quad_minimal (by decide), Nat.mul_zero, Nat.add_zero]

theorem State.configSpace_minimal : s.minimal.quad (gACTIVE_MAP + 16)
    = mapEntry (s.d2d.fcsBase / 4096) (s.d2d.fcsBase / 4096 + 0x3FFFF) 2 0 0 false := by
  have hentry : s.bootMap.getD 1 0 = mapEntry (s.d2d.fcsBase / 4096) (s.d2d.fcsBase / 4096 + 0x3FFFF) 2 0 0 false := rfl
  rw [← hentry, ← s.quad_minimal (by decide), Nat.mul_one]

theorem State.acu_minimal {st a : Nat} (hst : st < nStops) (ha : a < 3) (h : acuSpared st a = false) :
    s.minimal.flag (acuReg st a 0) 0 = true := by
  have hoff := (by decide : ∀ a < 3, 0x1900 + 0x80 * a + 0 < 0x4000 ∧ 0x1900 + 0x80 * a + 0 ≠ 0x400
    ∧ 0x1900 + 0x80 * a + 0 ≠ 0x480 ∧ 0x1900 + 0x80 * a + 0
      ∉ [sSCHED_STAT, sINJ_STORE, sTXN_CNT + 32, 0x400, 0x480] ++ activeOffs) a ha
  obtain ⟨hlt, h0, h1, hrest⟩ := hoff
  have hrun : ¬ (cfgReg (acuReg st a 0) ∨ stampAddr (acuReg st a 0) ∨ runReg (acuReg st a 0)) := by
    rintro (hm | hm | hm)
    · exact not_cfgReg_stop hlt h0 h1 hm
    · exact not_stampAddr_low (lt_trans (stopReg_lt hst hlt) (by decide)) hm
    · exact not_runReg_stop hst hlt hrest hm
  rw [(changes_minimal_tables s).flag hrun]
  exact State.flag_minimalAcus _ hst ha h

theorem State.stamp_minimal {r p : Nat} (hr : r < nRings) (hp : p < 2016) : s.minimal.reg (stampReg r 1 p) = 0 := by
  rw [(changes_minimal_stamped s).regs _ (not_runReg_stamp hp)]
  exact State.stamp_clearAllStamps _ hr hp

theorem State.stampStat_minimal {r : Nat} (hr : r < nRings) : s.minimal.fld (ringReg r rSTAMP_STAT) 0 1 = 1 := by
  have hge : 0x800000 ≤ ringReg r rSTAMP_STAT := by unfold ringReg; omega
  have hdone : ¬ (cfgLow (ringReg r rSTAMP_STAT) ∨ doneReg (ringReg r rSTAMP_STAT)) := by
    rintro (h | h)
    · have := cfgLow_lt h
      omega
    · exact not_doneReg_of_le (by omega) h
  apply State.fld_of_flag
  rw [(changes_minimal_active s).flag hdone]
  exact State.flag_activate_ring _ _ hr

/-- The EN bits stand as the boot ports' enabling left them. -/
theorem State.pCFG_minimal (st k : Nat) :
    s.minimal.flag (portReg st k pCFG) 0 = s.minimalOpen.flag (portReg st k pCFG) 0 :=
  (changes_minimal_open s).flag
    (not_doneReg_of_le (by have := stopReg_global st (0x400 + 0x80 * k + pCFG); unfold portReg; omega)) 0

theorem State.bootPort_minimal {st : Nat} (hst : st < nStops) (hkind : stopKind st = 4) :
    s.minimal.flag (portReg st 0 pCFG) 0 = true := by
  rw [State.pCFG_minimal]
  exact State.flag_enableBoots _ hst hkind

/-- EN of a port that is no boot port is 0. -/
theorem State.otherPort_minimal {st k : Nat} (hst : st < nStops) (hk : k < 2) (h : stopKind st ≠ 4 ∨ k = 1) :
    s.minimal.flag (portReg st k pCFG) 0 = false := by
  have hlt : 0x400 + 0x80 * k + pCFG < 0x4000 := pCFG_lt hk
  have hstamp : ¬ stampAddr (portReg st k pCFG) := not_stampAddr_low (lt_trans (stopReg_lt hst hlt) (by decide))
  have halone : ¬ aloneReg (portReg st k pCFG) :=
    not_aloneReg_stop hst hlt (by rcases pCFG_off hk with h | h <;> rw [h] <;> decide)
  have hactive : ¬ activeReg (portReg st k pCFG) :=
    not_activeReg_stop hst hlt (by rcases pCFG_off hk with h | h <;> rw [h] <;> decide)
  have hacu : ¬ acuCtrl (portReg st k pCFG) := fun ⟨st', _, o, ho, he⟩ => by
    obtain ⟨hlo, h0, h1⟩ := (by decide : ∀ o ∈ [0x1900, 0x1980, 0x1A00], o < 0x4000 ∧ o ≠ 0x400 ∧ o ≠ 0x480) o ho
    have heq := (stopReg_inj hlt hlo he).2
    rcases pCFG_off hk with hoff | hoff
    · exact h0 (heq.symm.trans hoff)
    · exact h1 (heq.symm.trans hoff)
  have hmaps : ¬ mapsReg (portReg st k pCFG) := by
    have := stopReg_global st (0x400 + 0x80 * k + pCFG)
    unfold mapsReg portReg
    omega
  rw [State.pCFG_minimal]
  unfold State.minimalOpen State.minimalActive State.minimalStamped State.minimalTables
  rw [State.flag_enableBoots_other _ hk h, (Changes.activate 2016 _).flag hactive, (changes_goAlone _).flag halone,
    (changes_clearAllStamps _).flag hstamp, State.flag_dbgPorts, (changes_minimalAcus _).flag hacu,
    (changes_minimalMap _).flag hmaps]
  exact State.flag_pCFG_minimalRegs (st := ⟨st, hst⟩) hk s

theorem State.alone_minimal : s.minimal.d2d.dieId = 0 ∧ s.minimal.reg gDIE_MAP = 1 := by
  have halone := State.alone_goAlone s.minimalStamped
  have hd2d : s.minimal.d2d = s.minimalStamped.goAlone.d2d := (changes_minimal_alone s).parts .d2d (by decide)
  have hmap : ¬ (activeReg gDIE_MAP ∨ cfgLow gDIE_MAP ∨ doneReg gDIE_MAP) := by
    rintro (h | h | h)
    · exact not_activeReg_low (by decide) h
    · exact not_cfgReg_low (by decide) (cfgReg_of_cfgLow h)
    · unfold doneReg dbgReg at h
      revert h
      decide
  refine ⟨?_, ?_⟩
  · rw [hd2d]
    exact halone.dieId
  · rw [(changes_minimal_alone s).regs _ hmap]
    exact halone.map

theorem State.fld_reported {a : Nat} (ha : a ≠ gBOOT_STAT) (hdbg : ¬ dbgReg a) (t : State) :
    (s.imageless ((t.setFld gBOOT_STAT 0 2 0).dbgList [])).reg a = t.reg a := by
  have himage (u : State) : (s.imageless u).reg a = u.reg a := rfl
  rw [himage, (Changes.dbgList _ []).regs _ hdbg, State.reg_setFld_other _ _ _ _ _ _ ha]

theorem State.reg_minimal_fab : s.minimal.reg gFAB_STATE = (s.degraded s.minimalOpen).reg gFAB_STATE :=
  s.fld_reported (by decide) (by unfold dbgReg; decide) _

theorem State.bootTime_minimal : s.minimal.reg gBOOT_TIME = BitVec.ofNat 32 (s.her.boot.hcs / 400) := by
  unfold State.minimal
  rw [s.fld_reported (by decide) (by unfold dbgReg; decide)]
  unfold State.degraded
  exact State.reg_setReg_same _ _ _

theorem State.fabState_minimal : s.minimal.fabState = fabDEGRADED := by
  unfold State.fabState
  rw [State.fld_congr s.reg_minimal_fab]
  unfold State.degraded State.setFab
  rw [State.fld_congr (State.reg_setReg_other _ _ _ _ (by decide)),
    State.fld_setFld_below _ _ _ _ _ _ _ (by decide) (by decide), State.fld_setFld_same _ _ _ _ _ (by decide)]
  rfl

theorem State.cause_minimal : s.minimal.fld gFAB_STATE 4 4 = s.her.boot.degr % 16 := by
  rw [State.fld_congr s.reg_minimal_fab]
  unfold State.degraded
  rw [State.fld_congr (State.reg_setReg_other _ _ _ _ (by decide)), State.fld_setFld_same _ _ _ _ _ (by decide)]
  rfl

theorem State.minimal_starts (hrun : s.frame.running = false) :
    s.minimal.loadTimes.strobe = s.minimal.started := by
  have hframe : s.minimal.frame = s.frame := s.onlyParts_minimal .frame (by decide)
  have hnone : s.minimal.her.strobeAt = none := rfl
  refine State.strobe_loadTimes _ (by rw [hframe, hrun]) fun v hv => ?_
  rw [hnone] at hv
  exact absurd hv (by simp)

/-- The fields of the two regions that R214 does not name are those of log entry 135. -/
theorem completes_minimalConfiguration (hboot : s.booting = true) (hdegr : s.her.boot.degr ≠ 0)
    (hdom : s.her.boot.dom = 56) (hrun : s.frame.running = false) : completes .minimalConfiguration s (fun t =>
      t.fabState = fabDEGRADED ∧ t.fld gFAB_STATE 4 4 = s.her.boot.degr % 16 ∧ t.frame.running = true
      ∧ (∀ r p, r < nRings → p < 2016 → t.fld (ringReg r rSTAMP_STAT) 0 1 = 1 ∧ t.reg (stampReg r 1 p) = 0)
      ∧ t.quad gACTIVE_MAP = mapEntry 0 0xFFF 0 7 0xFFFF true
      ∧ t.quad (gACTIVE_MAP + 16) = mapEntry (s.d2d.fcsBase / 4096) (s.d2d.fcsBase / 4096 + 0x3FFFF) 2 0 0 false
      ∧ (∀ i, 2 ≤ i → i < 64 → t.quad (gACTIVE_MAP + 16 * i) = 0)
      ∧ (∀ st a, st < nStops → a < 3 → acuThere st a = true →
          (a = 0 → st ∉ [0, 15, 176, 191, 7, 8, 183, 184]) → t.flag (acuReg st a 0) 0 = true)
      ∧ (∀ st, st < nStops → stopKind st = 4 → t.flag (portReg st 0 pCFG) 0 = true)
      ∧ (∀ st k, st < nStops → k < 2 → portGen st k ≠ 0 → stopKind st ≠ 4 ∨ k = 1 →
          t.flag (portReg st k pCFG) 0 = false)
      ∧ t.reg gBOOT_TIME = BitVec.ofNat 32 (s.her.boot.hcs / 400)
      ∧ t.d2d.dieId = 0 ∧ t.reg gDIE_MAP = 1 ∧ t.pending = s.pending) := by
  have hexec := exec_minimalConfiguration s hboot hdegr hdom hrun
  rw [State.minimal_starts s hrun] at hexec
  have hregs : (s.keepAll s.minimal.started).regs = s.minimal.regs :=
    (State.regs_keepAll s s.minimal.started).trans (s.minimal.onlyParts_started .regs (by decide))
  have hd2d : (s.keepAll s.minimal.started).d2d = s.minimal.d2d :=
    (State.d2d_keepAll s s.minimal.started).trans (s.minimal.onlyParts_started .d2d (by decide))
  have hrunning : (s.keepAll s.minimal.started).frame.running = true :=
    (State.running_keepAll s s.minimal.started).trans s.minimal.running_started
  have hpending := State.pending_keepAll s s.minimal.started
  generalize s.keepAll s.minimal.started = t at hexec hregs hd2d hrunning hpending
  have hreg (a : Nat) : t.reg a = s.minimal.reg a := State.reg_congr hregs a
  have hfld (a lo w : Nat) : t.fld a lo w = s.minimal.fld a lo w := State.fld_congr (hreg a) lo w
  have hflag (a i : Nat) : t.flag a i = s.minimal.flag a i := State.flag_congr (hreg a) i
  have hquad (a : Nat) : t.quad a = s.minimal.quad a := State.quad_congr fun _ _ => hreg _
  have hfab : t.fabState = fabDEGRADED := (hfld gFAB_STATE 0 4).trans s.fabState_minimal
  obtain ⟨hdie, hmap⟩ := s.alone_minimal
  refine ⟨t, hexec, ?_⟩
  simp only [hreg, hfld, hflag, hquad, hd2d]
  refine ⟨hfab, s.cause_minimal, hrunning, fun r p hr hp => ⟨s.stampStat_minimal hr, s.stamp_minimal hr hp⟩,
    s.bootWindow_minimal, s.configSpace_minimal, fun i hlo hi => ?_,
    fun st a hst ha hthere h => s.acu_minimal hst ha (acuSpared_of_there hthere h), fun st => s.bootPort_minimal,
    fun st k hst hk _ h => s.otherPort_minimal hst hk h, s.bootTime_minimal, hdie, hmap, hpending⟩
  rw [s.quad_minimal hi]
  exact List.getD_eq_default _ _ hlo

end

/-- Settles O55, clause by clause: what a step of start-up makes of the state, and that it changes nothing when it is
not due. -/
theorem startUpEndsInAConfiguration : Obligations.StartUpEndsInAConfiguration := by
  unfold Obligations.StartUpEndsInAConfiguration
  refine ⟨fun bad trims s =>
      ⟨completes_initialCalibrationDone s bad trims, completes_initialCalibrationDone_not s bad trims⟩,
    fun shares far s => ⟨completes_activation s shares far, completes_activation_not s shares far⟩,
    fun s => ⟨completes_minimalConfiguration s, completes_minimalConfiguration_not s⟩,
    fun s => ⟨completes_portsOpen s, completes_portsOpen_not s⟩,
    fun s => ⟨completes_openGo s, completes_openGo_not s⟩, fun x s n hn => ?_, fun s => State.bMg_default⟩
  subst hn
  exact ⟨completes_hearthTrap_not s x, fun hrst htest hfab hsafe =>
    ⟨completes_hearthTrap_none s x hrst htest hfab hsafe,
      fun _ => completes_hearthTrap_some s x hrst htest hfab hsafe⟩⟩

end Sys2Proof.Machine
end

section
/-! PROOFS. The admission of a packet that waits in a receive stage (R112 to R115, R179). -/
namespace Sys2Proof.Machine
open Sys2Proof

/-! ### A packet that enters its queue -/

/-- A queue gains the packet that enters it, at whichever place (R49, R114), and loses none. -/
theorem queueIn_perm (q : List QPkt) (e : QPkt) : (queueIn q e).Perm (e :: q) := by
  unfold queueIn
  split
  · split
    · exact .refl _
    · split
      · exact .swap _ _ _
      · exact .refl _
  · exact List.perm_append_singleton e q

/-- The entry that stands in a queue for a packet that enters it now. -/
def State.queueEntry (s : State) (port : Nat) (p : Pkt) (resend : Bool) (mark : QMark) : QPkt :=
  { slots := p, port := port, next := 0, resend := resend, demoted := false, entered := s.frame.rcs, mark := mark }

/-- The high-water marks are all of the network interfaces that their update changes. -/
theorem State.ni_hwmUpdate (s : State) (st q : Nat) :
    (s.hwmUpdate st q).ni = { s.ni with hwm := (s.hwmUpdate st q).ni.hwm } := by
  unfold State.hwmUpdate
  simp only
  split
  · rw [State.setFld_ni]
  · rfl

theorem State.injq_hwmUpdate (s : State) (st q a b : Nat) : (s.hwmUpdate st q).injq a b = s.injq a b := by
  unfold State.injq
  rw [State.ni_hwmUpdate]

theorem State.heldAt_hwmUpdate (s : State) (st q a b : Nat) : (s.hwmUpdate st q).heldAt a b = s.heldAt a b := by
  unfold State.heldAt
  rw [State.ni_hwmUpdate]

section
variable (s : State) (st q port : Nat) (p : Pkt) (resend : Bool) (m : QMark)

theorem State.injq_enterQueue_same : (s.enterQueue st q port p resend m).injq st q
    = queueIn (s.injq st q) (s.queueEntry port p resend m) :=
  (State.injq_hwmUpdate _ st q st q).trans (State.injq_setInjq_same s st q _)

theorem State.injq_enterQueue_other {a b : Nat} (h : a * 512 + b ≠ st * 512 + q) :
    (s.enterQueue st q port p resend m).injq a b = s.injq a b :=
  (State.injq_hwmUpdate _ st q a b).trans (State.injq_setInjq_other s st q a b _ h)

theorem State.heldAt_enterQueue (a b : Nat) : (s.enterQueue st q port p resend m).heldAt a b = s.heldAt a b :=
  State.heldAt_hwmUpdate _ st q a b

end

/-! ### The receive stage -/

/-- A packet's context does not depend on what else waits. -/
theorem State.mapCtx_setHeld (s : State) (st part a b : Nat) (v : List Held) :
    ((s.setHeld a b v).mapCtx st part).1 = (s.mapCtx st part).1 := by
  unfold State.mapCtx
  simp only [apply_ite Prod.fst]
  rfl

/-- The context of a held packet, and the state once the partition map has given it where it came with none (R115). -/
def State.heldCtx (s : State) (st : Nat) (h : Held) : Nat × State :=
  match h.ctx with
  | some c => (c, s)
  | none => s.mapCtx st (Pkt.head h.slots).part

theorem State.heldCtx_fst (s : State) (st : Nat) (h : Held) :
    (s.heldCtx st h).1 = h.ctx.getD (s.mapCtx st (Pkt.head h.slots).part).1 := by
  unfold State.heldCtx
  cases h.ctx <;> rfl

/-- The look-up touches registers alone (the unmapped flag and its count). -/
theorem State.ni_heldCtx (s : State) (st : Nat) (h : Held) : (s.heldCtx st h).2.ni = s.ni := by
  unfold State.heldCtx
  cases h.ctx with
  | some c => rfl
  | none => exact State.ni_mapCtx s st _

theorem State.injq_heldCtx (s : State) (st : Nat) (h : Held) (a q : Nat) :
    (s.heldCtx st h).2.injq a q = s.injq a q := by
  unfold State.injq
  rw [State.ni_heldCtx]

theorem State.heldAt_heldCtx (s : State) (st : Nat) (h : Held) (a p : Nat) :
    (s.heldCtx st h).2.heldAt a p = s.heldAt a p := by
  unfold State.heldAt
  rw [State.ni_heldCtx]

theorem State.injq_setHeld (s : State) (st p : Nat) (v : List Held) (a q : Nat) :
    (s.setHeld st p v).injq a q = s.injq a q := rfl

/-- The state after held packet `h` has left the receive stage for the queue of context `c`, `rest` staying. -/
def State.admitted (s : State) (st port : Nat) (h : Held) (rest : List Held) (c : Nat) : State :=
  ((s.setHeld st port rest).heldCtx st h).2.enterQueue st (8 * c + (Pkt.head h.slots).cls) port h.slots h.resend h.mark

theorem State.admitOne_of_canAdmit {s : State} {st port : Nat} {h : Held} {rest : List Held} {c : Nat}
    (hc : h.ctx.getD (s.mapCtx st (Pkt.head h.slots).part).1 = c)
    (hroom : (s.setHeld st port rest).canAdmit st c (Pkt.head h.slots).cls h.slots.length h.resend = true) :
    s.admitOne st port h rest = some (s.admitted st port h rest c) := by
  have hctx : ((s.setHeld st port rest).heldCtx st h).1 = c := by
    rw [State.heldCtx_fst, State.mapCtx_setHeld, hc]
  subst hctx
  exact if_pos hroom

section
variable (s : State) (st port : Nat) (h : Held) (rest : List Held) (c : Nat)

theorem State.heldAt_admitted : (s.admitted st port h rest c).heldAt st port = rest := by
  unfold State.admitted
  rw [State.heldAt_enterQueue, State.heldAt_heldCtx, State.heldAt_setHeld_same]

/-- Its queue holds what it held and the packet. -/
theorem State.injq_admitted_same : ∃ e : QPkt,
    ((s.admitted st port h rest c).injq st (8 * c + (Pkt.head h.slots).cls)).Perm
      (e :: s.injq st (8 * c + (Pkt.head h.slots).cls))
    ∧ e.slots = h.slots ∧ e.port = port ∧ e.next = 0 ∧ e.resend = h.resend ∧ e.mark = h.mark := by
  refine ⟨((s.setHeld st port rest).heldCtx st h).2.queueEntry port h.slots h.resend h.mark,
    ?_, rfl, rfl, rfl, rfl, rfl⟩
  unfold State.admitted
  rw [State.injq_enterQueue_same, State.injq_heldCtx, State.injq_setHeld]
  exact queueIn_perm _ _

theorem State.injq_admitted_other {a q : Nat} (hq : a * 512 + q ≠ st * 512 + (8 * c + (Pkt.head h.slots).cls)) :
    (s.admitted st port h rest c).injq a q = s.injq a q := by
  unfold State.admitted
  rw [State.injq_enterQueue_other _ _ _ _ _ _ _ hq, State.injq_heldCtx, State.injq_setHeld]

end

theorem State.admitHeld_nil {s : State} {st port : Nat} (hheld : s.heldAt st port = []) : s.admitHeld st port = s := by
  unfold State.admitHeld
  rw [hheld]
  rfl

/-- Nothing is ahead of the first packet, so its admission is the stage's. -/
theorem State.admitHeld_cons {s t : State} {st port : Nat} {h : Held} {rest : List Held}
    (hheld : s.heldAt st port = h :: rest) (hone : s.admitOne st port h rest = some t) : s.admitHeld st port = t := by
  unfold State.admitHeld
  rw [hheld]
  simp [List.zipIdx_cons, hone]

/-! ### INJ_QUEUE_ADMIT -/

theorem exec_injQueueAdmit {st : StopNo} {p : Fin 4} {s : State} (hp : portThere st.val p.val = true) :
    exec (.injQueueAdmit st p) s = .next (s.keepTxn (s.admitHeld st.val p.val)) :=
  if_pos hp

/-- Settles O17: the stage admits its first packet, and `State.admitted` says where that packet and the
others then are. -/
theorem waitingPacketEntersItsQueue : Obligations.WaitingPacketEntersItsQueue := by
  unfold Obligations.WaitingPacketEntersItsQueue
  refine ⟨fun st p s h rest c hp hheld hc hroom => ?_, fun st p s hp hheld => ?_⟩
  · refine ⟨_, exec_injQueueAdmit hp, ?_⟩
    rw [State.admitHeld_cons hheld (State.admitOne_of_canAdmit hc hroom)]
    obtain ⟨e, hqueue, hentry⟩ := State.injq_admitted_same s st.val p.val h rest c
    exact ⟨State.heldAt_admitted s st.val p.val h rest c, hqueue.length_eq,
      ⟨e, hqueue.mem_iff.mpr List.mem_cons_self, hentry⟩,
      fun a q => State.injq_admitted_other s st.val p.val h rest c, onlyParts_keepTxn s _⟩
  · refine ⟨_, exec_injQueueAdmit hp, ?_⟩
    rw [State.admitHeld_nil hheld]
    rfl

end Sys2Proof.Machine
end

section
/-! PROOFS. What an agent port notes of a packet that comes in (R145, R151, R160, R163, R166, R334): the flags, counters
and tags that its checks and events touch, and what they leave for the checks that follow. -/
namespace Sys2Proof.Machine
open Sys2Proof

/-! ### Registers that count -/

/-- The words of a stop, apart from its ports', in which the packets of a port are counted and lost ones are flagged. -/
def tallyOffs : List Nat :=
  [sSCHED_STAT, sINJ_STORE, sSMP_STAT, sSTOP_ERR_STAT] ++ (List.range 11).map (fun n => sTXN_CNT + 4 * n)

/-- Such a word of some stop. -/
def tallyReg (a : Nat) : Prop := ∃ st, st < nStops ∧ ∃ o, o ∈ tallyOffs ∧ a = stopReg st o

theorem tallyOffs_le {o : Nat} (ho : o ∈ tallyOffs) : 0x500 ≤ o ∧ o < 0x4000 := by
  revert o
  decide

theorem tallyReg_stop {st o : Nat} (hst : st < nStops) (ho : o ∈ tallyOffs) : tallyReg (stopReg st o) :=
  ⟨st, hst, o, ho, rfl⟩

theorem tallyReg_of_lossReg {a : Nat} (h : lossReg a) : tallyReg a := by
  obtain ⟨st, hst, o, ho, rfl⟩ := h
  exact tallyReg_stop hst (by revert o; decide)

theorem not_tallyReg_stop {st o : Nat} (ho : o < 0x4000) (h : o ∉ tallyOffs) : ¬ tallyReg (stopReg st o) := by
  rintro ⟨st', _, o', ho', heq⟩
  obtain ⟨_, rfl⟩ := stopReg_inj ho (tallyOffs_le ho').2 heq
  exact h ho'

theorem not_tallyReg_port {st k o : Nat} (hk : k < 2) (ho : o < 0x80) : ¬ tallyReg (portReg st k o) :=
  not_tallyReg_stop (by omega) fun hmem => by
    have := tallyOffs_le hmem
    omega

theorem portReg_ne (st k : Nat) {o o' : Nat} (h : o ≠ o') : portReg st k o ≠ portReg st k o' := by
  unfold portReg stopReg
  omega

/-- A packet given to a network interface touches counting registers alone. -/
theorem changes_offerOn (s : State) {st : Nat} (hst : st < nStops) (port : Nat) (p : Pkt) (ctx : Option Nat)
    (resend : Bool) (m : QMark) : Changes tallyReg [.regs, .ni] s (s.offerOn st port p ctx resend m) := by
  have hloss {u v : State} (h : Changes lossReg [.regs, .ni] u v) : Changes tallyReg [.regs, .ni] u v :=
    h.mono (fun _ => tallyReg_of_lossReg) (fun _ h => h)
  have hmap (part : Nat) : Changes tallyReg [.regs, .ni] s (s.mapCtx st part).2 :=
    hloss ((changes_mapCtx s hst part).mono (fun _ h => h) (by decide))
  unfold State.offerOn
  cases ctx with
  | some c => exact Changes.ite (hloss (changes_enterQueue s hst _ _ _ _ _)) (hloss (changes_setHeld s _ _ _))
  | none =>
    exact Changes.ite ((hmap _).trans (hloss (changes_enterQueue _ hst _ _ _ _ _))) (hloss (changes_setHeld s _ _ _))

theorem changes_raise (s : State) {st : Nat} (hst : st < nStops) (r : RecIn) :
    Changes tallyReg [.regs, .recs] s (s.raise st r) :=
  ⟨fun _ ha => State.reg_raise_other s st r fun he => ha (he ▸ tallyReg_stop hst (by decide)),
    State.onlyParts_raise s st r⟩

/-! ### What a port's checks note -/

/-- The registers that the checks of a packet touch. -/
def noteReg (st k a : Nat) : Prop := a = portReg st k pERR ∨ a = portReg st k pERRCNT ∨ tallyReg a

/-- Flags, counters, records and tags have been noted at a port between `s` and `t`: no transaction has been captured,
the port's tags are numbered as before, and no flag or tag is lost. -/
structure PortNoted (st k : Nat) (s t : State) : Prop where
  txns : t.ni.txns = s.ni.txns
  nextTag : (t.port st k).nextTag = (s.port st k).nextTag
  tgen : (t.port st k).tgen = (s.port st k).tgen
  tagMap : (s.port st k).tagMap ⊆ (t.port st k).tagMap
  regs : ∀ a, ¬ noteReg st k a → t.reg a = s.reg a
  flag : ∀ i, i < 32 → s.flag (portReg st k pERR) i = true → t.flag (portReg st k pERR) i = true

namespace PortNoted
variable {st k : Nat} {s t u : State}

theorem refl (s : State) : PortNoted st k s s :=
  ⟨rfl, rfl, rfl, fun _ h => h, fun _ _ => rfl, fun _ _ h => h⟩

theorem trans (h : PortNoted st k s t) (h' : PortNoted st k t u) : PortNoted st k s u where
  txns := h'.txns.trans h.txns
  nextTag := h'.nextTag.trans h.nextTag
  tgen := h'.tgen.trans h.tgen
  tagMap := fun _ hx => h'.tagMap (h.tagMap hx)
  regs a ha := (h'.regs a ha).trans (h.regs a ha)
  flag i hi hs := h'.flag i hi (h.flag i hi hs)

theorem ite {c : Prop} [Decidable c] (ht : PortNoted st k s t) (hu : PortNoted st k s u) :
    PortNoted st k s (if c then t else u) := by
  split <;> assumption

/-- What touches the network interfaces nowhere. -/
theorem of_ni (hni : t.ni = s.ni) (hregs : ∀ a, ¬ noteReg st k a → t.reg a = s.reg a)
    (hflag : ∀ i, i < 32 → s.flag (portReg st k pERR) i = true → t.flag (portReg st k pERR) i = true) :
    PortNoted st k s t := by
  have hport : t.port st k = s.port st k := by unfold State.port; rw [hni]
  exact ⟨by rw [hni], by rw [hport], by rw [hport], by rw [hport]; exact fun _ h => h, hregs, hflag⟩

/-- What changes counting registers alone. -/
theorem of_changes {ps : List Part} (hk : k < 2) (h : Changes tallyReg ps s t) (hni : t.ni = s.ni) :
    PortNoted st k s t :=
  of_ni hni (fun a ha => h.regs a fun hat => ha (.inr (.inr hat)))
    fun i _ hs => (h.flag (not_tallyReg_port hk (by decide)) i).trans hs

theorem setPmu (s : State) (v : PmuSt) : PortNoted st k s { s with pmu := v } :=
  of_ni rfl (fun _ _ => rfl) fun _ _ h => h

theorem setPort {v : PortSt} (hnext : v.nextTag = (s.port st k).nextTag) (hgen : v.tgen = (s.port st k).tgen)
    (hmap : (s.port st k).tagMap ⊆ v.tagMap) : PortNoted st k s (s.setPort st k v) := by
  refine ⟨rfl, ?_, ?_, ?_, fun _ _ => rfl, fun _ _ h => h⟩ <;> rw [State.port_setPort_same]
  exacts [hnext, hgen, hmap]

theorem raise (s : State) (hst : st < nStops) (hk : k < 2) (r : RecIn) : PortNoted st k s (s.raise st r) :=
  of_changes hk (changes_raise s hst r) (State.ni_raise s st r)

theorem raiseFlag (s : State) {i : Nat} (hi : i < 32) : PortNoted st k s (s.raiseFlag (portReg st k pERR) i) :=
  of_ni rfl (fun a ha => State.reg_raiseFlag_other s _ a i fun he => ha (.inl he))
    fun _ hj hs => State.flag_raiseFlag_of_flag hj hi hs

theorem count (s : State) (lo w n : Nat) : PortNoted st k s (s.count (portReg st k pERRCNT) lo w n) :=
  of_ni rfl (fun a ha => State.reg_count_other s _ a lo w n fun he => ha (.inr (.inl he)))
    fun i _ hs => (State.flag_congr (State.reg_count_other s _ _ lo w n (portReg_ne st k (by decide))) i).trans hs

theorem countTally (s : State) (hst : st < nStops) (hk : k < 2) {o : Nat} (ho : o ∈ tallyOffs) (lo w n : Nat) :
    PortNoted st k s (s.count (stopReg st o) lo w n) :=
  of_changes hk (Changes.setFld (ps := [.regs]) (tallyReg_stop hst ho) (by decide) lo w _) rfl

theorem portErr (s : State) {f : Nat} (hf : f < 32) (lo : Nat) : PortNoted st k s (s.portErr st k f lo) :=
  (raiseFlag s hf).trans (count _ lo 8 1)

end PortNoted

section
variable {st k : Nat} {s t : State}

theorem State.flag_portErr (s : State) (st k : Nat) {f : Nat} (hf : f < 32) (lo : Nat) :
    (s.portErr st k f lo).flag (portReg st k pERR) f = true := by
  unfold State.portErr
  rw [State.flag_congr (State.reg_count_other _ _ _ lo 8 1 (portReg_ne st k (by decide)))]
  exact State.flag_raiseFlag s _ f hf

/-! ### What the later checks read -/

theorem not_noteReg_cfg (hk : k < 2) : ¬ noteReg st k (portReg st k pCFG) := by
  rintro (h | h | h)
  · exact portReg_ne st k (by decide) h
  · exact portReg_ne st k (by decide) h
  · exact not_tallyReg_port hk (by decide) h

theorem not_noteReg_flow (hk : k < 2) {o : Nat} (ho : o = sFLOW_STAT ∨ 0xC00 ≤ o ∧ o < 0x1000) :
    ¬ noteReg st k (stopReg st o) := by
  rintro (h | h | h)
  · unfold portReg stopReg pERR at h; unfold sFLOW_STAT at ho; omega
  · unfold portReg stopReg pERRCNT at h; unfold sFLOW_STAT at ho; omega
  · refine not_tallyReg_stop ?_ ?_ h
    · unfold sFLOW_STAT at ho; omega
    · rcases ho with rfl | ho
      · decide
      · intro hmem
        have hbound : ∀ x ∈ tallyOffs, x < 0xC00 ∨ 0x1000 ≤ x := by decide
        have := hbound o hmem
        omega

namespace PortNoted
variable (h : PortNoted st k s t)
include h

theorem txnsAt (a b : Nat) : t.txns a b = s.txns a b := by
  unfold State.txns
  rw [h.txns]

theorem captureTag (tag : Nat) : t.captureTag st k tag = s.captureTag st k tag := by
  unfold State.captureTag
  rw [h.nextTag]

theorem fullTag (tag : Nat) : t.fullTag st k tag = s.fullTag st k tag := by
  unfold State.fullTag
  rw [h.captureTag, h.tgen]

theorem parityOn (hk : k < 2) : t.parityOn st k = s.parityOn st k := by
  unfold State.parityOn
  rw [State.flag_congr (h.regs _ (not_noteReg_cfg hk))]

theorem parityFine (hk : k < 2) (es : List BeatErr) : t.parityFine st k es = s.parityFine st k es := by
  unfold State.parityFine
  rw [h.parityOn hk]

theorem portPart (hk : k < 2) (part : Nat) : t.portPart st k part = s.portPart st k part := by
  unfold State.portPart
  rw [State.fld_congr (h.regs _ (not_noteReg_cfg hk))]

theorem feedsFlow (hk : k < 2) : t.feedsFlow st k = s.feedsFlow st k := by
  have hstat : t.fld (stopReg st sFLOW_STAT) 0 1 = s.fld (stopReg st sFLOW_STAT) 0 1 :=
    State.fld_congr (h.regs _ (not_noteReg_flow hk (.inl rfl))) 0 1
  have hbank : s.fld (stopReg st sFLOW_STAT) 0 1 < 2 := fieldOf_lt _ _ _
  unfold State.feedsFlow
  simp only [hstat]
  rw [Bool.eq_iff_iff, List.any_eq_true, List.any_eq_true]
  refine exists_congr fun n => and_congr_right fun hn => ?_
  have hn64 := List.mem_range.mp hn
  have hreg := h.regs (stopReg st (sFLOW_TABLE + 0x200 * s.fld (stopReg st sFLOW_STAT) 0 1 + 8 * n))
    (not_noteReg_flow hk (.inr (by unfold sFLOW_TABLE; omega)))
  simp only [State.flag, State.fld_congr hreg]

theorem reqCheck (hk : k < 2) (r : ReqIn) : t.reqCheck st k r = s.reqCheck st k r := by
  unfold State.reqCheck
  simp only [h.feedsFlow hk, h.txnsAt, h.captureTag, h.tgen]

theorem msgCheck (m : MsgIn) : t.msgCheck st k m = s.msgCheck st k m := by
  unfold State.msgCheck
  simp only [h.txnsAt, h.captureTag, h.tgen]

end PortNoted

/-! ### The events of a packet that transfers -/

/-- The packets that wait at the inward side of a port, and what holds them there, are the same in `s` and `t`. -/
structure InwardKept (st k : Nat) (s t : State) : Prop where
  cdc : t.cdc = s.cdc
  held : t.ni.held = s.ni.held
  txns : t.ni.txns = s.ni.txns
  inq : (t.port st k).inq = (s.port st k).inq
  early : (t.port st k).early = (s.port st k).early

namespace InwardKept
variable {u : State}

theorem refl (s : State) : InwardKept st k s s := ⟨rfl, rfl, rfl, rfl, rfl⟩

theorem trans (h : InwardKept st k s t) (h' : InwardKept st k t u) : InwardKept st k s u :=
  ⟨h'.cdc.trans h.cdc, h'.held.trans h.held, h'.txns.trans h.txns, h'.inq.trans h.inq, h'.early.trans h.early⟩

theorem of_ni (hcdc : t.cdc = s.cdc) (hni : t.ni = s.ni) : InwardKept st k s t := by
  have hport : t.port st k = s.port st k := by unfold State.port; rw [hni]
  exact ⟨hcdc, by rw [hni], by rw [hni], by rw [hport], by rw [hport]⟩

theorem setPort {v : PortSt} (hinq : v.inq = (s.port st k).inq) (hearly : v.early = (s.port st k).early) :
    InwardKept st k s (s.setPort st k v) := by
  refine ⟨rfl, rfl, rfl, ?_, ?_⟩ <;> rw [State.port_setPort_same]
  exacts [hinq, hearly]

theorem noteTag (s : State) (tag : Nat) : InwardKept st k s (s.noteTag st k tag) := by
  unfold State.noteTag
  simp only
  split
  · exact refl s
  · exact setPort rfl rfl

theorem portEv (s : State) (code : Nat) : InwardKept st k s (s.portEv st k code) := by
  unfold State.portEv
  simp only
  split
  · exact of_ni rfl rfl
  · split
    · exact setPort rfl rfl
    · exact of_ni (by rw [State.count_cdc, State.raiseFlag_cdc]) (by rw [State.count_ni, State.raiseFlag_ni])

theorem portEvs (s : State) (code n : Nat) : InwardKept st k s (s.portEvs st k code n) :=
  foldl_keeps (InwardKept st k s) _ _ s (fun t _ ht => ht.trans (portEv t code)) (refl s)

theorem reqEvents (s : State) (r : ReqIn) : InwardKept st k s (s.reqEvents st k r) :=
  ((noteTag s _).trans (portEv _ _)).trans (portEvs _ _ _)

theorem passes (h : InwardKept st k s t) (p : InPkt) : t.passes st k p = s.passes st k p := by
  unfold State.passes State.reads State.laneHeld State.heldAt
  rw [h.cdc, h.held, h.inq]

theorem takeEarly (h : InwardKept st k s t) (r : ReqIn) : (t.takeEarly st k r).1 = (s.takeEarly st k r).1 := by
  unfold State.takeEarly
  simp only [h.early, apply_ite Prod.fst]

end InwardKept

/-- A packet that the NI reads comes while the ring clock runs. -/
theorem State.hold_of_passes {p : InPkt} (h : s.passes st k p = true) : s.cdc.hold = false := by
  unfold State.passes State.reads at h
  cases hhold : s.cdc.hold with
  | false => rfl
  | true => simp [hhold] at h

namespace PortNoted

theorem noteTag (s : State) (tag : Nat) : PortNoted st k s (s.noteTag st k tag) := by
  unfold State.noteTag
  simp only
  split
  · exact refl s
  · exact setPort rfl rfl (List.subset_append_left _ _)

/-- While the ring clock runs an event crosses at once. -/
theorem portEv (s : State) (code : Nat) (hrun : s.cdc.hold = false) : PortNoted st k s (s.portEv st k code) := by
  unfold State.portEv
  rw [if_pos (by simp [hrun])]
  exact setPmu s _

theorem portEvs (s : State) (code n : Nat) (hrun : s.cdc.hold = false) :
    PortNoted st k s (s.portEvs st k code n) :=
  (foldl_keeps (fun t => t.cdc.hold = false ∧ PortNoted st k s t) _ _ s
    (fun t _ ht => ⟨(congrArg CdcSt.hold (InwardKept.portEv (st := st) (k := k) t code).cdc).trans ht.1,
      ht.2.trans (portEv t code ht.1)⟩) ⟨hrun, refl s⟩).2

theorem reqEvents (s : State) (r : ReqIn) (hrun : s.cdc.hold = false) : PortNoted st k s (s.reqEvents st k r) := by
  have htag := InwardKept.noteTag (st := st) (k := k) s (s.captureTag st k r.req.tag)
  have hrun1 : (s.noteTag st k (s.captureTag st k r.req.tag)).cdc.hold = false := by rw [htag.cdc, hrun]
  have hrun2 := hrun1
  rw [← (InwardKept.portEv (st := st) (k := k) _ 0x30).cdc] at hrun2
  exact ((noteTag s _).trans (portEv _ 0x30 hrun1)).trans (portEvs _ 0x31 _ hrun2)

end PortNoted

theorem State.mem_tagMap_noteTag (s : State) (tag : Nat) : tag ∈ ((s.noteTag st k tag).port st k).tagMap := by
  unfold State.noteTag
  simp only
  split
  next h => exact List.contains_iff_mem.mp (Bool.and_eq_true_iff.mp h).2
  · rw [State.port_setPort_same]
    exact List.mem_append_right _ List.mem_cons_self

/-- The pointers of the inward FIFOs move on, and nothing else of the port changes. -/
theorem PortSt.passIn_eq (v : PortSt) (p : InPkt) (wr rd : Bool) : ∃ fs, v.passIn p wr rd = { v with fifos := fs } := by
  refine foldl_keeps (fun w : PortSt => ∃ fs, w = { v with fifos := fs }) _ _ v (fun w c hw => ?_) ⟨v.fifos, rfl⟩
  obtain ⟨fs, rfl⟩ := hw
  simp only
  split
  · exact ⟨fs, rfl⟩
  · exact ⟨_, rfl⟩

theorem PortNoted.passIn (s : State) (p : InPkt) (wr rd : Bool) :
    PortNoted st k s (s.setPort st k ((s.port st k).passIn p wr rd)) := by
  obtain ⟨fs, hfs⟩ := (s.port st k).passIn_eq p wr rd
  rw [hfs]
  exact setPort rfl rfl fun _ h => h

theorem InwardKept.passIn (s : State) (p : InPkt) (wr rd : Bool) :
    InwardKept st k s (s.setPort st k ((s.port st k).passIn p wr rd)) := by
  obtain ⟨fs, hfs⟩ := (s.port st k).passIn_eq p wr rd
  rw [hfs]
  exact setPort rfl rfl

theorem PortNoted.takeEarly (s : State) (r : ReqIn) : PortNoted st k s (s.takeEarly st k r).2 := by
  unfold State.takeEarly
  simp only [apply_ite Prod.snd]
  exact .ite (.setPort rfl rfl fun _ h => h) (.refl s)

theorem State.arrive_of_passes {p : InPkt} (h : s.passes st k p = true) (capture : State → State) :
    s.arrive st k p capture = capture (s.setPort st k ((s.port st k).passIn p true true)) := if_pos h

/-- What the NI does not read yet stands last in the FIFO, and no transaction changes. -/
theorem State.arrive_of_not_passes {p : InPkt} (h : s.passes st k p = false) (capture : State → State) :
    ((s.arrive st k p capture).port st k).inq = (s.port st k).inq ++ [p]
      ∧ (s.arrive st k p capture).txns st k = s.txns st k := by
  unfold State.arrive
  rw [if_neg (by simp [h]), State.port_setPort_same]
  exact ⟨rfl, rfl⟩

/-! ### The parity checks -/

theorem PortNoted.parFlags (s : State) (e : BeatErr) : PortNoted st k s (s.parFlags st k e) := by
  unfold State.parFlags
  simp only
  have hcnt := PortNoted.count (st := st) (k := k) s 0 8 1
  split <;> split
  · exact (hcnt.trans (.raiseFlag _ (by decide))).trans (.raiseFlag _ (by decide))
  · exact hcnt.trans (.raiseFlag _ (by decide))
  · exact hcnt.trans (.raiseFlag _ (by decide))
  · exact hcnt

section
variable (hst : st < nStops) (hk : k < 2) (h : HdrRec) (raw : Nat)
include hst hk

theorem PortNoted.parBeat (s : State) (keep : Bool) (o : ParOut) (e : BeatErr) :
    PortNoted st k s (s.parBeat st k h raw keep o e).2 := by
  have hflags := PortNoted.parFlags (st := st) (k := k) s e
  have hlog (u : State) (sev : Nat) : PortNoted st k u (u.parLog st k h sev) := .raise u hst hk _
  rw [State.parBeat_eq]
  split
  · exact .refl s
  · split
    · exact hflags.trans (.raise _ hst hk _)
    · split
      · exact hflags.trans (hlog _ _)
      · exact hflags.trans (.trans (.ite (hlog _ _) (.refl _)) (.ite (hlog _ _) (.refl _)))

theorem PortNoted.parBeats (s : State) (keep : Bool) (o : ParOut) (es : List BeatErr) :
    PortNoted st k s (s.parBeats st k h raw o keep es).2 :=
  foldl_keeps (fun acc : ParOut × State => PortNoted st k s acc.2) es _ (o, s)
    (fun acc e hacc => hacc.trans (.parBeat hst hk h raw acc.2 keep acc.1 e)) (.refl s)

theorem PortNoted.unstable (s : State) (part : Nat) : PortNoted st k s (s.unstable st k part) :=
  (PortNoted.portErr s (by decide) 8).trans (.raise _ hst hk _)

theorem PortNoted.parCheck (s : State) (keep stable : Bool) (es : List BeatErr) :
    PortNoted st k s (s.parCheck st k h raw keep stable es).2 := by
  rw [State.parCheck_eq]
  exact (PortNoted.parBeats hst hk h raw s keep _ _).trans (.ite (.unstable hst hk _ _) (.refl _))

theorem State.flag_unstable (s : State) (part : Nat) : (s.unstable st k part).flag (portReg st k pERR) 2 = true :=
  (PortNoted.raise _ hst hk _).flag 2 (by decide) (State.flag_portErr s st k (by decide) 8)

end

section
variable (s : State) (h : HdrRec) (raw : Nat) (keep stable : Bool)

/-- A packet whose beats are all clean passes the parity checks as it came. -/
theorem State.parBeats_clean {es : List BeatErr} (hclean : es.all BeatErr.clean = true) (o : ParOut) :
    s.parBeats st k h raw o keep es = (o, s) := by
  induction es with
  | nil => rfl
  | cons e es ih =>
    obtain ⟨he, hes⟩ := Bool.and_eq_true_iff.mp hclean
    have hbeat : s.parBeat st k h raw keep o e = (o, s) := by rw [State.parBeat_eq, he, Bool.or_true, if_pos rfl]
    unfold State.parBeats
    rw [List.foldl_cons, hbeat]
    exact ih hes

theorem State.parCheck_fine {es : List BeatErr} (hfine : s.parityFine st k es = true) :
    s.parCheck st k h raw keep stable es
      = ({ fate := .fwd, force := false, pois := false }, if stable then s else s.unstable st k h.part) := by
  have hclean : (if s.parityOn st k then es else []).all BeatErr.clean = true := by
    unfold State.parityFine at hfine
    cases hon : s.parityOn st k <;> simp_all
  rw [State.parCheck_eq, State.parBeats_clean s h raw keep hclean]
  cases stable <;> rfl

/-- Once a packet is dropped its beats are consumed unchecked, and it is not held against unsteadiness. -/
theorem State.parCheck_of_ended {e : BeatErr} (es : List BeatErr) (hon : s.parityOn st k = true)
    (hend : (s.parBeat st k h raw keep { fate := .fwd, force := false, pois := false } e).1.fate ≠ .fwd) :
    s.parCheck st k h raw keep stable (e :: es)
      = s.parBeat st k h raw keep { fate := .fwd, force := false, pois := false } e := by
  have hrest (o : ParOut) (u : State) (ho : o.fate ≠ .fwd) : u.parBeats st k h raw o keep es = (o, u) := by
    induction es with
    | nil => rfl
    | cons e' es ih =>
      unfold State.parBeats
      rw [List.foldl_cons, State.parBeat_eq, if_pos (by simp [ho])]
      exact ih
  have hrun := hrest _ (s.parBeat st k h raw keep { fate := .fwd, force := false, pois := false } e).2 hend
  have hbeats : s.parBeats st k h raw { fate := .fwd, force := false, pois := false } keep (e :: es)
      = s.parBeat st k h raw keep { fate := .fwd, force := false, pois := false } e := hrun
  rw [State.parCheck_eq, if_pos hon, hbeats]
  simp [hend]

theorem State.flag_parFlags_hdr (e : BeatErr) (hhdr : e.hdr = true) :
    (s.parFlags st k e).flag (portReg st k pERR) 0 = true := by
  unfold State.parFlags
  simp only [hhdr, Bool.or_true, if_true]
  split
  · exact State.flag_raiseFlag_of_flag (by decide) (by decide) (State.flag_raiseFlag _ _ 0 (by decide))
  · exact State.flag_raiseFlag _ _ 0 (by decide)

/-- A header byte in error that is not the tag's drops a packet (Table 6.11). -/
theorem State.parBeat_hdr {o : ParOut} {e : BeatErr} (hfwd : o.fate = .fwd) (htag : e.tag = false)
    (hhdr : e.hdr = true) : (s.parBeat st k h raw false o e).1.fate = .drop
      ∧ (s.parBeat st k h raw false o e).2.flag (portReg st k pERR) 0 = true := by
  rw [State.parBeat_eq, if_neg (by simp [hfwd, BeatErr.clean, hhdr]), if_neg (by simp [htag]),
    if_pos (by simp [hhdr])]
  exact ⟨rfl, (State.flag_raise_pERR _ st k 0 _).trans (State.flag_parFlags_hdr s e hhdr)⟩

end

end

end Sys2Proof.Machine
end

section
/-! PROOFS. A request or message enters a port's tag state, captured or refused (R145, R151, R155, R160, R163, R173,
R249, R329, R334). -/
namespace Sys2Proof.Machine
open Sys2Proof

/-! ### A transaction joins the tag state -/

/-- What a port is asked by a transaction, and how far it has come, is the same in `x` and `y`. -/
structure Txn.Like (x y : Txn) : Prop where
  phase : y.phase = x.phase
  opc : y.opc = x.opc
  addr : y.addr = x.addr
  part : y.part = x.part
  tag : y.tag = x.tag
  status : y.status = x.status

/-- The tag states of other ports, the flags that stand and the tags in the map are still there in `t`. -/
structure PortGrown (st k : Nat) (s t : State) : Prop where
  others : txnsBut st k s t
  tagMap : (s.port st k).tagMap ⊆ (t.port st k).tagMap
  flag : ∀ i, i < 32 → s.flag (portReg st k pERR) i = true → t.flag (portReg st k pERR) i = true

theorem txnAdded_mono {st p : Nat} {s t : State} {P Q : Txn → Prop} (h : txnAdded st p s t P) (hPQ : ∀ x, P x → Q x) :
    txnAdded st p s t Q := by
  obtain ⟨x, hx, hP⟩ := h
  exact ⟨x, hx, hPQ x hP⟩

section
variable {st k : Nat} {s t u : State}

theorem PortGrown.trans (h : PortGrown st k s t) (h' : PortGrown st k t u) : PortGrown st k s u where
  others a b hab := (h'.others a b hab).trans (h.others a b hab)
  tagMap := fun _ hx => h'.tagMap (h.tagMap hx)
  flag i hi hs := h'.flag i hi (h.flag i hi hs)

theorem PortNoted.grown (h : PortNoted st k s t) : PortGrown st k s t :=
  ⟨fun a b _ => h.txnsAt a b, h.tagMap, h.flag⟩

/-- What is noted before leaves the tag state to which a transaction is added. -/
theorem PortNoted.txnAdded {P : Txn → Prop} (h : PortNoted st k s t) (hadd : txnAdded st k t u P) :
    txnAdded st k s u P := by
  obtain ⟨x, hx, hP⟩ := hadd
  exact ⟨x, by rw [hx, h.txnsAt], hP⟩

variable (s) (x : Txn)

theorem Txn.Like.armed : Txn.Like x (s.armed st x) := by
  unfold State.armed
  split <;> exact ⟨rfl, rfl, rfl, rfl, rfl, rfl⟩

theorem State.txns_bumpOrder (a b : Nat) : (s.bumpOrder st k).txns a b = s.txns a b := rfl

/-- The transaction is held behind one that blocks its tag (R174, R194). -/
def State.tagHeld (s : State) (st k : Nat) (x : Txn) : Bool :=
  x.phase == .captured && (s.txns st k).any (fun u => u.blocksTag && u.tag == x.tag)

/-- The transaction as it stands in the tag state. -/
def State.numbered (s : State) (st k : Nat) (x : Txn) : Txn :=
  let y : Txn := { x with order := (s.port st k).nextOrd }
  if s.tagHeld st k x then s.armed st y else y

theorem State.addTxn_eq : s.addTxn st k x = ((if s.tagHeld st k x then s.txnCnt st 9 else s).setTxns st k
    (s.txns st k ++ [s.numbered st k x])).bumpOrder st k := rfl

theorem Txn.Like.numbered : Txn.Like x (s.numbered st k x) := by
  unfold State.numbered
  simp only
  split
  · obtain ⟨h1, h2, h3, h4, h5, h6⟩ := Txn.Like.armed (st := st) s { x with order := (s.port st k).nextOrd }
    exact ⟨h1, h2, h3, h4, h5, h6⟩
  · exact ⟨rfl, rfl, rfl, rfl, rfl, rfl⟩

theorem State.addTxn_like : txnAdded st k s (s.addTxn st k x) (Txn.Like x) :=
  ⟨s.numbered st k x, by rw [State.addTxn_eq, State.txns_bumpOrder, State.txns_setTxns_same], .numbered s x⟩

/-- A transaction that is no captured request changes no register as it enters. -/
theorem State.regs_addTxn (h : x.phase ≠ .captured) : (s.addTxn st k x).regs = s.regs := by
  have hheld : s.tagHeld st k x = false := by
    unfold State.tagHeld
    rw [beq_false_of_ne h, Bool.false_and]
  rw [State.addTxn_eq, hheld]
  rfl

variable {x}

theorem State.tagMap_bumpOrder : ((s.bumpOrder st k).port st k).tagMap = (s.port st k).tagMap := by
  unfold State.bumpOrder
  rw [State.port_setPort_same]

theorem PortGrown.addTxn (hst : st < nStops) (hk : k < 2) : PortGrown st k s (s.addTxn st k x) := by
  have hcount : PortNoted st k s (if s.tagHeld st k x then s.txnCnt st 9 else s) :=
    .ite (.countTally s hst hk (by decide) 0 32 1) (.refl s)
  rw [State.addTxn_eq]
  refine ⟨fun a b hab => ?_, ?_, fun i hi hs => hcount.flag i hi hs⟩
  · rw [State.txns_bumpOrder, State.txns_setTxns_other _ _ _ _ _ _ hab, hcount.txnsAt]
  · rw [State.tagMap_bumpOrder]
    exact hcount.tagMap

theorem PortNoted.sample (hst : st < nStops) (hk : k < 2) (x : Txn) : PortNoted st k s (s.sample st k x).2 := by
  have hcount (u : State) : PortNoted st k u (u.count (stopReg st sSMP_STAT) 16 8 1) :=
    .countTally u hst hk (by decide) 16 8 1
  unfold State.sample
  simp only [apply_ite Prod.snd]
  exact .ite (.refl s) (.ite (.setPmu s _)
    (.ite (((PortNoted.setPmu s _).trans (hcount _)).trans (.setPmu _ _)) ((PortNoted.setPmu s _).trans (.setPmu _ _))))

/-- The transaction with the sampler's tag, or without a call-site tag (R495, R496). -/
def State.smplTxn (s : State) (st k : Nat) (x : Txn) : Txn :=
  if (s.sample st k x).1 then { x with attr := x.attr ||| 128 } else { x with pctag := 0 }

theorem State.captured_eq (x : Txn) :
    s.captured st k x = (s.sample st k x).2.addTxn st k (s.smplTxn st k x) := rfl

theorem Txn.Like.smplTxn (x : Txn) : Txn.Like x (s.smplTxn st k x) := by
  unfold State.smplTxn
  split <;> exact ⟨rfl, rfl, rfl, rfl, rfl, rfl⟩

theorem Txn.Like.trans {x y z : Txn} (h : x.Like y) (h' : y.Like z) : x.Like z :=
  ⟨h'.phase.trans h.phase, h'.opc.trans h.opc, h'.addr.trans h.addr, h'.part.trans h.part, h'.tag.trans h.tag,
    h'.status.trans h.status⟩

section
variable (hst : st < nStops) (hk : k < 2)
include hst hk

theorem State.captured_like (x : Txn) : txnAdded st k s (s.captured st k x) (Txn.Like x) := by
  rw [State.captured_eq]
  exact (PortNoted.sample s hst hk x).txnAdded
    (txnAdded_mono (State.addTxn_like _ _) fun _ h => (Txn.Like.smplTxn s x).trans h)

theorem PortGrown.captured (x : Txn) : PortGrown st k s (s.captured st k x) := by
  rw [State.captured_eq]
  exact (PortNoted.sample s hst hk x).grown.trans (.addTxn _ hst hk)

end

/-! ### Requests that are refused -/

/-- What a refusal makes of a request: ready with its status if it expects a response, nothing otherwise (R163). -/
structure RefusedAs (st k : Nat) (x : Txn) (status : Nat) (s t : State) : Prop where
  added : expectsRsp x.opc = true →
    Machine.txnAdded st k s t (fun y => y.phase = .ready ∧ y.status = status ∧ y.tag = x.tag)
  silent : expectsRsp x.opc = false → t.txns st k = s.txns st k
  grown : PortGrown st k s t

theorem State.refuseTxn_of_rsp {x : Txn} (h : expectsRsp x.opc = true) (status : Nat) :
    s.refuseTxn st k x status = s.addTxn st k (x.fail status) := if_pos h

theorem State.refuseTxn_of_silent {x : Txn} (h : expectsRsp x.opc = false) (status : Nat) :
    s.refuseTxn st k x status = s := if_neg (by simp [h])

theorem State.regs_refuseTxn (x : Txn) (status : Nat) : (s.refuseTxn st k x status).regs = s.regs := by
  unfold State.refuseTxn
  split
  · exact State.regs_addTxn s _ (by simp [Txn.fail])
  · rfl

theorem RefusedAs.refuseTxn (hst : st < nStops) (hk : k < 2) (x : Txn) (status : Nat) :
    RefusedAs st k x status s (s.refuseTxn st k x status) where
  added h := by
    rw [State.refuseTxn_of_rsp s h]
    exact txnAdded_mono (State.addTxn_like s _) fun _ hy => ⟨hy.phase, hy.status, hy.tag⟩
  silent h := by rw [State.refuseTxn_of_silent s h]
  grown := by
    cases h : expectsRsp x.opc with
    | true =>
      rw [State.refuseTxn_of_rsp s h]
      exact .addTxn s hst hk
    | false =>
      rw [State.refuseTxn_of_silent s h]
      exact (PortNoted.refl s).grown

variable {s}

theorem PortNoted.refusedAs {x : Txn} {status : Nat} (h : PortNoted st k s t) (hr : RefusedAs st k x status t u) :
    RefusedAs st k x status s u :=
  ⟨fun hx => h.txnAdded (hr.added hx), fun hx => (hr.silent hx).trans (h.txnsAt _ _), h.grown.trans hr.grown⟩

variable (s)

/-- A packet under the checks of Table 6.13: `chk` is the flag, counter, status and cause of the first it fails. -/
def State.judge (s : State) (st k : Nat) (chk : Option (Nat × Nat × Nat × Nat)) (part addr : Nat) (x : Txn) : State :=
  match chk with
  | some (flag, cnt, status, cause) =>
    let s := (s.portErr st k flag cnt).portRec st k sevCONTAINED cause part addr x.opc x.tag 0
    if status = 16 then s else s.refuseTxn st k x status
  | none => s.captured st k x

/-- The transaction of a request, as the port captures it. -/
def State.reqTxn (s : State) (st k : Nat) (r : ReqIn) (pois : Bool) : Txn :=
  newTxn s st k (s.captureTag st k r.req.tag) r.req.opc r.req.addr (reqLen (portGen st k) r.req)
    (reqPlen (portGen st k) r.req) (reqAttr (portGen st k) r.req pois) (s.portPart st k r.req.part) r.req.sub
    (if portGen st k = 3 then r.req.pctag else 0) (beatSlots (portGen st k) r.req.addr r.beats)

/-- The transaction of a message. -/
def State.msgTxn (s : State) (st k : Nat) (m : MsgIn) (pois : Bool) : Txn :=
  newTxn s st k (s.captureTag st k m.tag) m.opc m.qaddr m.len
    (if m.opc = 0x30 then m.len / 64 else 0) (if pois then 16 else 0) (s.portPart st k m.part) (msgFlags m) 0
    (msgSlots (portGen st k) m)

/-- What Table 6.13 makes of a packet: captured if it passes; flagged if it fails, and refused with a status or dropped. -/
structure Judged (st k : Nat) (chk : Option (Nat × Nat × Nat × Nat)) (x : Txn) (s t : State) : Prop where
  passed : chk = none → Machine.txnAdded st k s t x.Like
  failed : ∀ f c u z, chk = some (f, c, u, z) → t.flag (portReg st k pERR) f = true
    ∧ (u ≠ 16 → expectsRsp x.opc = true →
        Machine.txnAdded st k s t (fun y => y.phase = .ready ∧ y.status = u ∧ y.tag = x.tag))
    ∧ (u = 16 ∨ expectsRsp x.opc = false → t.txns st k = s.txns st k)
  grown : PortGrown st k s t

theorem Judged.judge (hst : st < nStops) (hk : k < 2) {chk : Option (Nat × Nat × Nat × Nat)}
    (hflag : ∀ e, chk = some e → e.1 < 32) (part addr : Nat) (x : Txn) :
    Judged st k chk x s (s.judge st k chk part addr x) := by
  cases chk with
  | none =>
    exact ⟨fun _ => State.captured_like s hst hk x, nofun, .captured s hst hk x⟩
  | some e =>
    obtain ⟨f, c, u, z⟩ := e
    have hf : f < 32 := hflag _ rfl
    have hnoted : PortNoted st k (s.portErr st k f c)
        ((s.portErr st k f c).portRec st k sevCONTAINED z part addr x.opc x.tag 0) := .raise _ hst hk _
    have hall := (PortNoted.portErr s hf c).trans hnoted
    have hraised := hnoted.flag f hf (State.flag_portErr s st k hf c)
    unfold State.judge
    simp only
    split
    case isTrue hu =>
      refine ⟨nofun, ?_, hall.grown⟩
      rintro _ _ _ _ ⟨⟩
      exact ⟨hraised, fun h => absurd hu h, fun _ => hall.txnsAt _ _⟩
    case isFalse hu =>
      have href := RefusedAs.refuseTxn ((s.portErr st k f c).portRec st k sevCONTAINED z part addr x.opc x.tag 0)
        hst hk x u
      refine ⟨nofun, ?_, hall.grown.trans href.grown⟩
      rintro _ _ _ _ ⟨⟩
      obtain ⟨hadded, hsilent, _⟩ := hall.refusedAs href
      exact ⟨href.grown.flag f hf hraised, fun _ => hadded, fun h => hsilent (h.resolve_left hu)⟩

variable {s}

theorem PortNoted.judged {chk : Option (Nat × Nat × Nat × Nat)} {x : Txn} (h : PortNoted st k s t)
    (hj : Judged st k chk x t u) : Judged st k chk x s u := by
  refine ⟨fun hc => h.txnAdded (hj.passed hc), fun f c v z hc => ?_, h.grown.trans hj.grown⟩
  obtain ⟨hflag, hadded, hsame⟩ := hj.failed f c v z hc
  exact ⟨hflag, fun hv hx => h.txnAdded (hadded hv hx), fun hv => (hsame hv).trans (h.txnsAt _ _)⟩

theorem State.reqCheck_flag {r : ReqIn} {e : Nat × Nat × Nat × Nat} (h : s.reqCheck st k r = some e) : e.1 < 32 := by
  unfold State.reqCheck at h
  simp only at h
  split_ifs at h <;> cases h <;> decide

theorem State.msgCheck_flag {m : MsgIn} {e : Nat × Nat × Nat × Nat} (h : s.msgCheck st k m = some e) : e.1 < 32 := by
  unfold State.msgCheck at h
  simp only at h
  split_ifs at h <;> cases h <;> decide

section
variable (s) (hst : st < nStops) (hk : k < 2)
include hst hk

theorem Judged.takeReq (r : ReqIn) (pois : Bool) :
    Judged st k (s.reqCheck st k r) (s.reqTxn st k r pois) s (s.takeReq st k r pois) :=
  .judge s hst hk (fun _ => State.reqCheck_flag) _ _ _

theorem Judged.takeMsg (m : MsgIn) (pois : Bool) :
    Judged st k (s.msgCheck st k m) (s.msgTxn st k m pois) s (s.takeMsg st k m pois) :=
  .judge s hst hk (fun _ => State.msgCheck_flag) _ _ _

end

/-! ### A packet after its parity checks -/

/-- The checks of a request's beats; `r` has its early beats already. -/
def State.reqParity (s : State) (st k : Nat) (r : ReqIn) : ParOut × State :=
  s.parCheck st k { part := s.portPart st k r.req.part, addr := r.req.addr, opc := r.req.opc,
                    tag := s.fullTag st k r.req.tag, status := 0 }
    (packReq (portGen st k) r.req).1 false r.stable (reqErrs (portGen st k) r)

/-- The header that the record of a lost message shows. -/
def msgRaw (gen : Nat) (m : MsgIn) : Nat :=
  match m.beats with
  | b :: _ => (packMsg gen m { b with data := 0 }).1 % 2 ^ 61
  | [] => 0

/-- The checks of a message's beats. -/
def State.msgParity (s : State) (st k : Nat) (m : MsgIn) : ParOut × State :=
  s.parCheck st k { part := s.portPart st k m.part, addr := 0, opc := m.opc, tag := s.fullTag st k m.tag, status := 0 }
    (msgRaw (portGen st k) m) false m.stable (m.beats.map (msgErr (portGen st k) m))

/-- The transaction of a packet that is refused for its header: its data is not taken. -/
def State.badTxn (s : State) (st k tag opc addr part : Nat) : Txn :=
  newTxn s st k (s.captureTag st k tag) opc addr 0 0 0 part 0 0 []

/-- What becomes of a packet after its parity checks: `taken` if it is forwarded, a refusal of `bad` if it is dropped. -/
def ParOut.finish (o : ParOut × State) (st k : Nat) (taken : State) (bad : Txn) : State :=
  match o.1.fate with
  | .fwd => taken
  | .drop => o.2.refuseTxn st k bad stPROTERR
  | .lost => o.2

theorem ParOut.finish_fwd {o : ParOut × State} (h : o.1.fate = .fwd) (taken : State) (bad : Txn) :
    ParOut.finish o st k taken bad = taken := by
  unfold ParOut.finish
  rw [h]

theorem ParOut.finish_drop {o : ParOut × State} (h : o.1.fate = .drop) (taken : State) (bad : Txn) :
    ParOut.finish o st k taken bad = o.2.refuseTxn st k bad stPROTERR := by
  unfold ParOut.finish
  rw [h]

theorem ParOut.finish_lost {o : ParOut × State} (h : o.1.fate = .lost) (taken : State) (bad : Txn) :
    ParOut.finish o st k taken bad = o.2 := by
  unfold ParOut.finish
  rw [h]

/-- A request with its early beats is checked and taken, refused or lost. -/
theorem State.captureReq_eq (s : State) (r : ReqIn) : ∃ pois, s.captureReq st k r
    = ParOut.finish ((s.takeEarly st k r).2.reqParity st k (s.takeEarly st k r).1) st k
        (((s.takeEarly st k r).2.reqParity st k (s.takeEarly st k r).1).2.takeReq st k (s.takeEarly st k r).1 pois)
        (((s.takeEarly st k r).2.reqParity st k (s.takeEarly st k r).1).2.badTxn st k (s.takeEarly st k r).1.req.tag
          (s.takeEarly st k r).1.req.opc (s.takeEarly st k r).1.req.addr
          ((s.takeEarly st k r).2.portPart st k (s.takeEarly st k r).1.req.part)) := ⟨_, rfl⟩

theorem State.captureMsg_eq (s : State) (m : MsgIn) : s.captureMsg st k m
    = ParOut.finish (s.msgParity st k m) st k
        ((s.msgParity st k m).2.takeMsg st k m (s.msgParity st k m).1.pois)
        ((s.msgParity st k m).2.badTxn st k m.tag m.opc m.qaddr (s.portPart st k m.part)) := rfl

theorem State.takeEarly_req (s : State) (r : ReqIn) :
    (s.takeEarly st k r).1.req = r.req ∧ (s.takeEarly st k r).1.stable = r.stable := by
  unfold State.takeEarly
  simp only
  split <;> exact ⟨rfl, rfl⟩

/-! ### The outcome of the parity checks -/

/-- A packet whose first beat has a bad header byte is flagged; it is dropped where its tag is known, and lost where it
is not (R160, Table 6.11). -/
theorem State.parCheck_bad (s : State) (h : HdrRec) (raw : Nat) (stable : Bool) {e : BeatErr} (es : List BeatErr)
    (hon : s.parityOn st k = true) (hbad : e.tag = true ∨ e.hdr = true) :
    (s.parCheck st k h raw false stable (e :: es)).1.fate = (if e.tag then .lost else .drop)
      ∧ (s.parCheck st k h raw false stable (e :: es)).2.flag (portReg st k pERR) 0 = true := by
  cases htag : e.tag with
  | true => exact State.parCheck_tag s st k h raw false stable es hon htag
  | false =>
    obtain ⟨hdrop, hflag⟩ := State.parBeat_hdr s h raw (o := { fate := .fwd, force := false, pois := false }) rfl htag
      (hbad.resolve_left (by simp [htag]))
    rw [State.parCheck_of_ended s h raw false stable es hon (by rw [hdrop]; decide)]
    exact ⟨hdrop, hflag⟩

/-- Beats that were unsteady are flagged once the packet has passed its parity checks (R166). -/
theorem State.flag_parCheck_unsteady (s : State) (hst : st < nStops) (hk : k < 2) (h : HdrRec) (raw : Nat) (keep : Bool)
    {stable : Bool} {es : List BeatErr} (hfine : s.parityFine st k es = true) (hsteady : stable = false) :
    (s.parCheck st k h raw keep stable es).2.flag (portReg st k pERR) 2 = true := by
  rw [State.parCheck_fine s h raw keep stable hfine, if_neg (by simp [hsteady])]
  exact State.flag_unstable hst hk s _

/-- A transaction is the one that the port makes of a packet with this opcode, address, partition and tag. -/
structure CapturedAs (s : State) (st k opc addr part tag : Nat) (x : Txn) : Prop where
  phase : x.phase = .captured
  opc : x.opc = opc
  addr : x.addr = addr
  part : x.part = s.portPart st k part
  tag : x.tag = s.fullTag st k tag

theorem PortNoted.capturedAs {opc addr part tag : Nat} {x : Txn} (hk : k < 2) (h : PortNoted st k s t)
    (hx : CapturedAs t st k opc addr part tag x) : CapturedAs s st k opc addr part tag x :=
  ⟨hx.phase, hx.opc, hx.addr, hx.part.trans (h.portPart hk part), hx.tag.trans (h.fullTag tag)⟩

section
variable (hst : st < nStops) (hk : k < 2)
include hst hk

/-- A request without a parity error is judged by Table 6.13, once what unsteadiness it showed has been flagged. -/
theorem State.captureReq_judged {r q : ReqIn} (hq : (s.takeEarly st k r).1 = q)
    (hfine : s.parityFine st k (reqErrs (portGen st k) q) = true) :
    ∃ x, CapturedAs s st k q.req.opc q.req.addr q.req.part q.req.tag x
      ∧ Judged st k (s.reqCheck st k q) x s (s.captureReq st k r)
      ∧ (q.stable = false → (s.captureReq st k r).flag (portReg st k pERR) 2 = true) := by
  obtain ⟨pois, heq⟩ := State.captureReq_eq (st := st) (k := k) s r
  rw [hq] at heq
  have hearly := PortNoted.takeEarly (st := st) (k := k) s r
  have hfine' := (hearly.parityFine hk _).trans hfine
  have hnoted : PortNoted st k s ((s.takeEarly st k r).2.reqParity st k q).2 :=
    hearly.trans (.parCheck hst hk _ _ _ _ _ _)
  have hfate : ((s.takeEarly st k r).2.reqParity st k q).1.fate = .fwd :=
    congrArg (fun o => o.1.fate) (State.parCheck_fine _ _ _ _ _ hfine')
  have hj := Judged.takeReq ((s.takeEarly st k r).2.reqParity st k q).2 hst hk q pois
  rw [ParOut.finish_fwd hfate] at heq
  rw [← heq, hnoted.reqCheck hk] at hj
  exact ⟨_, hnoted.capturedAs hk ⟨rfl, rfl, rfl, rfl, rfl⟩, hnoted.judged hj, fun hsteady =>
    hj.grown.flag 2 (by decide) (State.flag_parCheck_unsteady _ hst hk _ _ _ hfine' hsteady)⟩

theorem State.captureMsg_judged {m : MsgIn}
    (hfine : s.parityFine st k (m.beats.map (msgErr (portGen st k) m)) = true) :
    ∃ x, CapturedAs s st k m.opc m.qaddr m.part m.tag x
      ∧ Judged st k (s.msgCheck st k m) x s (s.captureMsg st k m)
      ∧ (m.stable = false → (s.captureMsg st k m).flag (portReg st k pERR) 2 = true) := by
  have heq := State.captureMsg_eq (st := st) (k := k) s m
  have hnoted : PortNoted st k s (s.msgParity st k m).2 := .parCheck hst hk _ _ _ _ _ _
  have hfate : (s.msgParity st k m).1.fate = .fwd :=
    congrArg (fun o => o.1.fate) (State.parCheck_fine _ _ _ _ _ hfine)
  have hj := Judged.takeMsg (s.msgParity st k m).2 hst hk m (s.msgParity st k m).1.pois
  rw [ParOut.finish_fwd hfate] at heq
  rw [← heq, hnoted.msgCheck] at hj
  exact ⟨_, hnoted.capturedAs hk ⟨rfl, rfl, rfl, rfl, rfl⟩, hnoted.judged hj, fun hsteady =>
    hj.grown.flag 2 (by decide) (State.flag_parCheck_unsteady _ hst hk _ _ _ hfine hsteady)⟩

/-- What becomes of a packet whose first beat has a bad header byte. -/
structure HeaderBad (st k opc tag : Nat) (tagBad : Bool) (s t : State) : Prop where
  flag : t.flag (portReg st k pERR) 0 = true
  lost : tagBad = true → t.txns st k = s.txns st k
  refused : tagBad = false → ∃ x : Txn, x.opc = opc ∧ x.tag = s.fullTag st k tag ∧ RefusedAs st k x stPROTERR s t
  grown : PortGrown st k s t

/-- A dropped packet is refused and a lost one leaves the tag state, whatever it would have been taken as. -/
theorem HeaderBad.finish {o : ParOut × State} {tagBad : Bool} (hnoted : PortNoted st k s o.2)
    (hfate : o.1.fate = if tagBad then .lost else .drop) (hflag : o.2.flag (portReg st k pERR) 0 = true) (taken : State)
    (tag opc addr part : Nat) :
    HeaderBad st k opc tag tagBad s (ParOut.finish o st k taken (o.2.badTxn st k tag opc addr part)) := by
  cases tagBad with
  | true =>
    rw [ParOut.finish_lost (by rw [hfate, if_pos rfl])]
    exact ⟨hflag, fun _ => hnoted.txnsAt _ _, nofun, hnoted.grown⟩
  | false =>
    rw [ParOut.finish_drop (by rw [hfate, if_neg (by decide)])]
    have href := RefusedAs.refuseTxn o.2 hst hk (o.2.badTxn st k tag opc addr part) stPROTERR
    exact ⟨href.grown.flag 0 (by decide) hflag, nofun, fun _ => ⟨_, rfl, hnoted.fullTag tag, hnoted.refusedAs href⟩,
      hnoted.grown.trans href.grown⟩

theorem State.captureReq_bad {r : ReqIn} {e : BeatErr} {es : List BeatErr} (hon : s.parityOn st k = true)
    (hes : reqErrs (portGen st k) (s.takeEarly st k r).1 = e :: es) (hbad : e.tag = true ∨ e.hdr = true) :
    HeaderBad st k r.req.opc r.req.tag e.tag s (s.captureReq st k r) := by
  obtain ⟨pois, heq⟩ := State.captureReq_eq (st := st) (k := k) s r
  obtain ⟨hreq, _⟩ := State.takeEarly_req (st := st) (k := k) s r
  have hearly := PortNoted.takeEarly (st := st) (k := k) s r
  have hnoted := hearly.trans (PortNoted.parCheck hst hk _ _ (s.takeEarly st k r).2 _ _ _ :
    PortNoted st k _ ((s.takeEarly st k r).2.reqParity st k (s.takeEarly st k r).1).2)
  have hout := State.parCheck_bad (s.takeEarly st k r).2
    { part := (s.takeEarly st k r).2.portPart st k (s.takeEarly st k r).1.req.part
      addr := (s.takeEarly st k r).1.req.addr, opc := (s.takeEarly st k r).1.req.opc
      tag := (s.takeEarly st k r).2.fullTag st k (s.takeEarly st k r).1.req.tag, status := 0 }
    (packReq (portGen st k) (s.takeEarly st k r).1.req).1 (s.takeEarly st k r).1.stable es
    ((hearly.parityOn hk).trans hon) hbad
  rw [← hes] at hout
  rw [heq, ← hreq]
  exact .finish hst hk hnoted hout.1 hout.2 _ _ _ _ _

theorem State.captureMsg_bad {m : MsgIn} {b : Beat} {rest : List Beat} (hon : s.parityOn st k = true)
    (hbeats : m.beats = b :: rest)
    (hbad : (msgErr (portGen st k) m b).tag = true ∨ (msgErr (portGen st k) m b).hdr = true) :
    HeaderBad st k m.opc m.tag (msgErr (portGen st k) m b).tag s (s.captureMsg st k m) := by
  have hnoted : PortNoted st k s (s.msgParity st k m).2 := PortNoted.parCheck hst hk _ _ s _ _ _
  have hout := State.parCheck_bad s
    { part := s.portPart st k m.part, addr := 0, opc := m.opc, tag := s.fullTag st k m.tag, status := 0 }
    (msgRaw (portGen st k) m) m.stable (rest.map (msgErr (portGen st k) m)) hon hbad
  rw [← List.map_cons, ← hbeats] at hout
  rw [State.captureMsg_eq]
  exact .finish hst hk hnoted hout.1 hout.2 _ _ _ _ _

end

end

end Sys2Proof.Machine
end

section
/-! PROOFS. REQUEST_CAPTURE and MSG_CAPTURE (R145, R151, R155, R160, R163, R173, R249, R329, R334). -/
namespace Sys2Proof.Machine
open Sys2Proof

section
variable {st : StopNo} {k : PortNo} {s : State} {r : ReqIn} {m : MsgIn}

theorem exec_requestCapture_takes (hgen : portGen st.val k.val ≠ 0) (htakes : s.takes st.val k.val (.req r) = true) :
    exec (.requestCapture st k r) s = .next (s.keepPort ((s.reqEvents st.val k.val r).arrive st.val k.val (.req r)
      (fun u => u.captureReq st.val k.val r))) := by
  change execRequestCapture st k r s = _
  unfold execRequestCapture
  simp only [hgen, htakes, if_false, Bool.not_true, Bool.false_eq_true]

/-- With the ready low the stall is counted, and nothing transfers. -/
theorem exec_requestCapture_stalls (hgen : portGen st.val k.val ≠ 0)
    (htakes : s.takes st.val k.val (.req r) = false) :
    exec (.requestCapture st k r) s = .next (s.keepPort (s.portEv st.val k.val 0x33)) := by
  change execRequestCapture st k r s = _
  unfold execRequestCapture
  simp only [hgen, htakes, if_false, Bool.not_false, if_true]

/-- The events of a message that transfers. -/
def State.msgEvents (s : State) (st k : Nat) (m : MsgIn) : State :=
  (s.noteTag st k (s.captureTag st k m.tag)).portEv st k 0x30

theorem exec_msgCapture_takes (hgen : portGen st.val k.val ≠ 0) (htakes : s.takes st.val k.val (.msg m) = true) :
    exec (.msgCapture st k m) s = .next (s.keepPort ((s.msgEvents st.val k.val m).arrive st.val k.val (.msg m)
      (fun u => u.captureMsg st.val k.val m))) := by
  change execMsgCapture st k m s = _
  unfold execMsgCapture State.msgEvents
  simp only [hgen, htakes, if_false, Bool.not_true, Bool.false_eq_true]

theorem exec_msgCapture_stalls (hgen : portGen st.val k.val ≠ 0) (htakes : s.takes st.val k.val (.msg m) = false) :
    exec (.msgCapture st k m) s = .next s := by
  change execMsgCapture st k m s = _
  unfold execMsgCapture
  simp only [hgen, htakes, if_false, Bool.not_false, if_true]

end

section
variable {st k : Nat} {s t u : State}

theorem InwardKept.msgEvents (s : State) (m : MsgIn) : InwardKept st k s (s.msgEvents st k m) :=
  (noteTag s _).trans (portEv _ _)

theorem PortNoted.msgEvents (s : State) (m : MsgIn) (hrun : s.cdc.hold = false) :
    PortNoted st k s (s.msgEvents st k m) :=
  (noteTag s _).trans (portEv _ _ ((congrArg CdcSt.hold (InwardKept.noteTag (st := st) (k := k) s _).cdc).trans hrun))

/-- A packet's tag stands in the initiator-tag map once its events have crossed (R334). -/
theorem State.mem_tagMap_reqEvents (s : State) (r : ReqIn) (hrun : s.cdc.hold = false) :
    s.captureTag st k r.req.tag ∈ ((s.reqEvents st k r).port st k).tagMap := by
  have hrun1 := (congrArg CdcSt.hold
    (InwardKept.noteTag (st := st) (k := k) s (s.captureTag st k r.req.tag)).cdc).trans hrun
  have hrun2 := (congrArg CdcSt.hold (InwardKept.portEv (st := st) (k := k)
    (s.noteTag st k (s.captureTag st k r.req.tag)) 0x30).cdc).trans hrun1
  exact (PortNoted.portEvs _ 0x31 r.beats.length hrun2).tagMap ((PortNoted.portEv _ 0x30 hrun1).tagMap
    (State.mem_tagMap_noteTag s _))

theorem State.mem_tagMap_msgEvents (s : State) (m : MsgIn) (hrun : s.cdc.hold = false) :
    s.captureTag st k m.tag ∈ ((s.msgEvents st k m).port st k).tagMap :=
  (PortNoted.portEv _ 0x30 ((congrArg CdcSt.hold (InwardKept.noteTag (st := st) (k := k) s _).cdc).trans hrun)).tagMap
    (State.mem_tagMap_noteTag s _)

/-- The state of a port in which a request that transferred is captured. -/
def State.reqArrived (s : State) (st k : Nat) (r : ReqIn) : State :=
  (s.reqEvents st k r).setPort st k (((s.reqEvents st k r).port st k).passIn (.req r) true true)

/-- The state of a port in which a message that transferred is captured. -/
def State.msgArrived (s : State) (st k : Nat) (m : MsgIn) : State :=
  (s.msgEvents st k m).setPort st k (((s.msgEvents st k m).port st k).passIn (.msg m) true true)

theorem PortNoted.reqArrived {r : ReqIn} (hpasses : s.passes st k (.req r) = true) :
    PortNoted st k s (s.reqArrived st k r) :=
  (reqEvents s r (State.hold_of_passes hpasses)).trans (passIn _ _ _ _)

theorem PortNoted.msgArrived {m : MsgIn} (hpasses : s.passes st k (.msg m) = true) :
    PortNoted st k s (s.msgArrived st k m) :=
  (msgEvents s m (State.hold_of_passes hpasses)).trans (passIn _ _ _ _)

theorem State.takeEarly_reqArrived (s : State) (r : ReqIn) :
    ((s.reqArrived st k r).takeEarly st k r).1 = (s.takeEarly st k r).1 :=
  ((InwardKept.reqEvents s r).trans (.passIn _ _ _ _)).takeEarly r

theorem State.reqEvents_arrive {r : ReqIn} (hpasses : s.passes st k (.req r) = true) (capture : State → State) :
    (s.reqEvents st k r).arrive st k (.req r) capture = capture (s.reqArrived st k r) :=
  State.arrive_of_passes (((InwardKept.reqEvents s r).passes _).trans hpasses) capture

theorem State.msgEvents_arrive {m : MsgIn} (hpasses : s.passes st k (.msg m) = true) (capture : State → State) :
    (s.msgEvents st k m).arrive st k (.msg m) capture = capture (s.msgArrived st k m) :=
  State.arrive_of_passes (((InwardKept.msgEvents s m).passes _).trans hpasses) capture

theorem State.mem_tagMap_reqArrived {r : ReqIn} (hpasses : s.passes st k (.req r) = true) :
    s.captureTag st k r.req.tag ∈ ((s.reqArrived st k r).port st k).tagMap :=
  (PortNoted.passIn _ _ _ _).tagMap (State.mem_tagMap_reqEvents s r (State.hold_of_passes hpasses))

theorem State.mem_tagMap_msgArrived {m : MsgIn} (hpasses : s.passes st k (.msg m) = true) :
    s.captureTag st k m.tag ∈ ((s.msgArrived st k m).port st k).tagMap :=
  (PortNoted.passIn _ _ _ _).tagMap (State.mem_tagMap_msgEvents s m (State.hold_of_passes hpasses))

@[simp] theorem State.txns_keepPort (s t : State) (a b : Nat) : (s.keepPort t).txns a b = t.txns a b := rfl

theorem PortGrown.keepPort (h : PortGrown st k s t) : PortGrown st k s (u.keepPort t) :=
  ⟨h.others, h.tagMap, h.flag⟩

end

section
variable {st : StopNo} {k : PortNo} {s : State}

/-- A request that passes its parity checks. -/
theorem completes_requestCapture_fine {r q : ReqIn} (hgen : portGen st.val k.val ≠ 0)
    (htakes : s.takes st.val k.val (.req r) = true) (hpasses : s.passes st.val k.val (.req r) = true)
    (hq : (s.takeEarly st.val k.val r).1 = q)
    (hfine : s.parityFine st.val k.val (reqErrs (portGen st.val k.val) q) = true) :
    completes (.requestCapture st k r) s (fun t =>
      (∃ x, CapturedAs s st.val k.val q.req.opc q.req.addr q.req.part q.req.tag x
        ∧ Judged st.val k.val (s.reqCheck st.val k.val q) x s t)
      ∧ (q.stable = false → t.flag (portReg st.val k.val pERR) 2 = true)
      ∧ s.captureTag st.val k.val q.req.tag ∈ (t.port st.val k.val).tagMap
      ∧ onlyParts [.regs, .ni, .recs, .pmu, .free] s t) := by
  have harr := PortNoted.reqArrived hpasses
  have hq' := (State.takeEarly_reqArrived s r).trans hq
  have hreq : q.req = r.req := by rw [← hq, (State.takeEarly_req s r).1]
  obtain ⟨x, hx, hj, hsteady⟩ := State.captureReq_judged st.isLt k.isLt hq' ((harr.parityFine k.isLt _).trans hfine)
  have hj' := harr.judged hj
  rw [harr.reqCheck k.isLt] at hj'
  refine ⟨_, exec_requestCapture_takes hgen htakes, ?_⟩
  rw [State.reqEvents_arrive hpasses]
  refine ⟨⟨x, harr.capturedAs k.isLt hx, hj'.passed, hj'.failed, hj'.grown.keepPort⟩, hsteady, ?_, onlyParts_keepPort s _⟩
  rw [State.port_keepPort, hreq]
  exact hj.grown.tagMap (State.mem_tagMap_reqArrived hpasses)

/-- A message that passes its parity checks. -/
theorem completes_msgCapture_fine {m : MsgIn} (hgen : portGen st.val k.val ≠ 0)
    (htakes : s.takes st.val k.val (.msg m) = true) (hpasses : s.passes st.val k.val (.msg m) = true)
    (hfine : s.parityFine st.val k.val (m.beats.map (msgErr (portGen st.val k.val) m)) = true) :
    completes (.msgCapture st k m) s (fun t =>
      (∃ x, CapturedAs s st.val k.val m.opc m.qaddr m.part m.tag x
        ∧ Judged st.val k.val (s.msgCheck st.val k.val m) x s t)
      ∧ (m.stable = false → t.flag (portReg st.val k.val pERR) 2 = true)
      ∧ s.captureTag st.val k.val m.tag ∈ (t.port st.val k.val).tagMap
      ∧ onlyParts [.regs, .ni, .recs, .pmu, .free] s t) := by
  have harr := PortNoted.msgArrived hpasses
  obtain ⟨x, hx, hj, hsteady⟩ := State.captureMsg_judged st.isLt k.isLt ((harr.parityFine k.isLt _).trans hfine)
  have hj' := harr.judged hj
  rw [harr.msgCheck] at hj'
  refine ⟨_, exec_msgCapture_takes hgen htakes, ?_⟩
  rw [State.msgEvents_arrive hpasses]
  refine ⟨⟨x, harr.capturedAs k.isLt hx, hj'.passed, hj'.failed, hj'.grown.keepPort⟩, hsteady, ?_, onlyParts_keepPort s _⟩
  exact hj.grown.tagMap (State.mem_tagMap_msgArrived hpasses)

/-- A request that the NI does not read waits in its FIFO; one that finds the ready low does not transfer. -/
theorem completes_requestCapture_waits {r : ReqIn} (hgen : portGen st.val k.val ≠ 0) :
    completes (.requestCapture st k r) s (fun t =>
      (s.takes st.val k.val (.req r) = true → s.passes st.val k.val (.req r) = false →
        (t.port st.val k.val).inq = (s.port st.val k.val).inq ++ [.req r]
        ∧ t.txns st.val k.val = s.txns st.val k.val)
      ∧ (s.takes st.val k.val (.req r) = false →
        (t.port st.val k.val).inq = (s.port st.val k.val).inq ∧ t.txns st.val k.val = s.txns st.val k.val)) := by
  cases htakes : s.takes st.val k.val (.req r) with
  | false =>
    have hkept := InwardKept.portEv (st := st.val) (k := k.val) s 0x33
    exact ⟨_, exec_requestCapture_stalls hgen htakes, nofun, fun _ =>
      ⟨hkept.inq, congrArg (fun v => Tab.get (fun _ => []) v (st.val * 4 + k.val)) hkept.txns⟩⟩
  | true =>
    have hkept := InwardKept.reqEvents (st := st.val) (k := k.val) s r
    refine ⟨_, exec_requestCapture_takes hgen htakes, fun _ hpasses => ?_, nofun⟩
    obtain ⟨hinq, htxns⟩ := State.arrive_of_not_passes ((hkept.passes _).trans hpasses)
      (fun u => u.captureReq st.val k.val r)
    rw [State.port_keepPort, State.txns_keepPort, hinq, htxns, hkept.inq]
    exact ⟨rfl, congrArg (fun v => Tab.get (fun _ => []) v (st.val * 4 + k.val)) hkept.txns⟩

theorem completes_msgCapture_waits {m : MsgIn} (hgen : portGen st.val k.val ≠ 0) :
    completes (.msgCapture st k m) s (fun t =>
      (s.takes st.val k.val (.msg m) = true → s.passes st.val k.val (.msg m) = false →
        (t.port st.val k.val).inq = (s.port st.val k.val).inq ++ [.msg m]
        ∧ t.txns st.val k.val = s.txns st.val k.val)
      ∧ (s.takes st.val k.val (.msg m) = false → t = s)) := by
  cases htakes : s.takes st.val k.val (.msg m) with
  | false => exact ⟨s, exec_msgCapture_stalls hgen htakes, nofun, fun _ => rfl⟩
  | true =>
    have hkept := InwardKept.msgEvents (st := st.val) (k := k.val) s m
    refine ⟨_, exec_msgCapture_takes hgen htakes, fun _ hpasses => ?_, nofun⟩
    obtain ⟨hinq, htxns⟩ := State.arrive_of_not_passes ((hkept.passes _).trans hpasses)
      (fun u => u.captureMsg st.val k.val m)
    rw [State.port_keepPort, State.txns_keepPort, hinq, htxns, hkept.inq]
    exact ⟨rfl, congrArg (fun v => Tab.get (fun _ => []) v (st.val * 4 + k.val)) hkept.txns⟩

/-- A packet that was captured as `x` is as the statement on capture says of it. -/
theorem CapturedAs.of_like {opc addr part tag : Nat} {x y : Txn} (hx : CapturedAs s st.val k.val opc addr part tag x)
    (h : x.Like y) : y.phase = .captured ∧ y.opc = opc ∧ y.addr = addr ∧ y.part = s.portPart st.val k.val part
      ∧ y.tag = s.fullTag st.val k.val tag :=
  ⟨h.phase.trans hx.phase, h.opc.trans hx.opc, h.addr.trans hx.addr, h.part.trans hx.part, h.tag.trans hx.tag⟩

end

/-- Settles O14: what a packet's events and parity checks note leaves every check of Table 6.13 as it was, and
`Judged` says what those checks make of it. -/
theorem captureEntersTheTagState : Obligations.CaptureEntersTheTagState := by
  unfold Obligations.CaptureEntersTheTagState
  refine ⟨fun st k r q s hgen htakes hpasses hq hfine => ?_, fun st k m s hgen htakes hpasses hfine => ?_,
    fun st k r s hgen => completes_requestCapture_waits hgen, fun st k m s hgen => completes_msgCapture_waits hgen⟩
  · refine completes_mono (completes_requestCapture_fine hgen htakes hpasses hq hfine) ?_
    rintro t ⟨⟨x, hx, hj⟩, hsteady, htag, hparts⟩
    refine ⟨fun hc => txnAdded_mono (hj.passed hc) fun _ => hx.of_like, fun f c u z hc => ?_, hsteady, htag,
      hj.grown.others, hparts⟩
    obtain ⟨hflag, hadded, hsame⟩ := hj.failed f c u z hc
    rw [hx.opc, hx.tag] at hadded
    rw [hx.opc] at hsame
    exact ⟨hflag, hadded, hsame⟩
  · refine completes_mono (completes_msgCapture_fine hgen htakes hpasses hfine) ?_
    rintro t ⟨⟨x, hx, hj⟩, hsteady, htag, hparts⟩
    refine ⟨fun hc => txnAdded_mono (hj.passed hc) fun _ => hx.of_like, fun f c u z hc => ?_, hsteady, htag,
      hj.grown.others, hparts⟩
    obtain ⟨hflag, hadded, hsame⟩ := hj.failed f c u z hc
    rw [hx.opc] at hadded hsame
    exact ⟨hflag, fun hu ho => txnAdded_mono (hadded hu ho) fun _ hy => ⟨hy.1, hy.2.1⟩, hsame⟩

/-! ### Bad header bytes -/

/-- The check of a request's header: its bytes are all header bytes, 0 and 1 the tag's. -/
theorem reqErrs_cons (gen : Nat) (r : ReqIn) : reqErrs gen r
    = beatErr true (packReq gen r.req).2 (packReq gen r.req).2
        (parityBad (packReq gen r.req).1 (packReq gen r.req).2 r.req.par.toNat) :: r.beats.map (datErr gen) := rfl

section
variable {n : Nat} {bad : List Nat}

theorem beatErr_tag (h : ∃ i ∈ bad, i < 2) : (beatErr true n n bad).tag = true := by
  simpa [beatErr] using h

theorem beatErr_not_tag (h : ∀ i ∈ bad, 2 ≤ i) : (beatErr true n n bad).tag = false := by
  simpa [beatErr] using fun i hi => Nat.lt_of_succ_le (h i hi)

/-- Some header byte is in error where any byte is. -/
theorem beatErr_tag_or_hdr (h : bad ≠ []) : (beatErr true n n bad).tag = true ∨ (beatErr true n n bad).hdr = true := by
  obtain ⟨i, hi⟩ := List.exists_mem_of_ne_nil bad h
  rcases Nat.lt_or_ge i 2 with hlt | hge
  · exact .inl (beatErr_tag ⟨i, hi, hlt⟩)
  · exact .inr (by simpa [beatErr] using ⟨i, hi, hge, Nat.lt_or_ge i n⟩)

end

section
variable {st : StopNo} {k : PortNo} {s : State}

/-- What is noted before leaves a packet with a bad header byte to be refused or lost. -/
theorem PortNoted.headerBad {st k opc tag : Nat} {tagBad : Bool} {s t u : State} (h : PortNoted st k s t)
    (hb : HeaderBad st k opc tag tagBad t u) : HeaderBad st k opc tag tagBad s u := by
  refine ⟨hb.flag, fun htag => (hb.lost htag).trans (h.txnsAt _ _), fun htag => ?_, h.grown.trans hb.grown⟩
  obtain ⟨x, hopc, hxtag, href⟩ := hb.refused htag
  exact ⟨x, hopc, hxtag.trans (h.fullTag tag), h.refusedAs href⟩

/-- A refusal is seen at the port as the statement says it. -/
theorem HeaderBad.refusal {st k opc tag : Nat} {tagBad : Bool} {s t : State} (h : HeaderBad st k opc tag tagBad s t)
    (htag : tagBad = false) : (expectsRsp opc = true → txnAdded st k s t (fun y => y.phase = .ready
        ∧ y.status = stPROTERR ∧ y.tag = s.fullTag st k tag))
      ∧ (expectsRsp opc = false → t.txns st k = s.txns st k) := by
  obtain ⟨x, hopc, hxtag, href⟩ := h.refused htag
  obtain ⟨hadded, hsilent, _⟩ := href
  rw [hopc, hxtag] at hadded
  rw [hopc] at hsilent
  exact ⟨hadded, hsilent⟩

theorem completes_requestCapture_bad {r : ReqIn} {bad : List Nat} (hgen : portGen st.val k.val ≠ 0)
    (htakes : s.takes st.val k.val (.req r) = true) (hpasses : s.passes st.val k.val (.req r) = true)
    (hon : s.parityOn st.val k.val = true)
    (hbad : parityBad (packReq (portGen st.val k.val) r.req).1 (packReq (portGen st.val k.val) r.req).2
      r.req.par.toNat = bad) (hne : bad ≠ []) :
    completes (.requestCapture st k r) s (fun t =>
      HeaderBad st.val k.val r.req.opc r.req.tag (beatErr true (packReq (portGen st.val k.val) r.req).2
        (packReq (portGen st.val k.val) r.req).2 bad).tag s t
      ∧ onlyParts [.regs, .ni, .recs, .pmu, .free] s t) := by
  have harr := PortNoted.reqArrived hpasses
  have herrs := reqErrs_cons (portGen st.val k.val) ((s.reqArrived st.val k.val r).takeEarly st.val k.val r).1
  rw [(State.takeEarly_req _ r).1, hbad] at herrs
  have hb := harr.headerBad (State.captureReq_bad st.isLt k.isLt ((harr.parityOn k.isLt).trans hon) herrs
    (beatErr_tag_or_hdr hne))
  refine ⟨_, exec_requestCapture_takes hgen htakes, ?_, onlyParts_keepPort s _⟩
  rw [State.reqEvents_arrive hpasses]
  exact ⟨hb.flag, hb.lost, fun htag => (hb.refused htag).imp fun _ ⟨hopc, htag, href⟩ =>
    ⟨hopc, htag, href.added, href.silent, href.grown.keepPort⟩, hb.grown.keepPort⟩

theorem completes_msgCapture_bad {m : MsgIn} {b : Beat} {rest : List Beat} (hgen : portGen st.val k.val ≠ 0)
    (hbeats : m.beats = b :: rest)
    (htakes : s.takes st.val k.val (.msg m) = true) (hpasses : s.passes st.val k.val (.msg m) = true)
    (hon : s.parityOn st.val k.val = true)
    (hbad : (msgErr (portGen st.val k.val) m b).tag = true ∨ (msgErr (portGen st.val k.val) m b).hdr = true) :
    completes (.msgCapture st k m) s (fun t =>
      HeaderBad st.val k.val m.opc m.tag (msgErr (portGen st.val k.val) m b).tag s t
      ∧ onlyParts [.regs, .ni, .recs, .pmu, .free] s t) := by
  have harr := PortNoted.msgArrived hpasses
  have hb := harr.headerBad (State.captureMsg_bad st.isLt k.isLt ((harr.parityOn k.isLt).trans hon) hbeats hbad)
  refine ⟨_, exec_msgCapture_takes hgen htakes, ?_, onlyParts_keepPort s _⟩
  rw [State.msgEvents_arrive hpasses]
  exact ⟨hb.flag, hb.lost, fun htag => (hb.refused htag).imp fun _ ⟨hopc, htag, href⟩ =>
    ⟨hopc, htag, href.added, href.silent, href.grown.keepPort⟩, hb.grown.keepPort⟩

end

/-- Settles O15: the first beat already decides the fate of a packet with a bad header byte, and `HeaderBad` says what
that fate leaves. -/
theorem headerParityErrorRefusesTheRequest : Obligations.HeaderParityErrorRefusesTheRequest := by
  unfold Obligations.HeaderParityErrorRefusesTheRequest
  refine ⟨fun st k r s bad hgen htakes hpasses hon hbad hne => ?_,
    fun st k m s b rest hgen hbeats htakes hpasses hon hbad => ?_⟩
  · refine completes_mono (completes_requestCapture_bad hgen htakes hpasses hon hbad hne) ?_
    rintro t ⟨hb, hparts⟩
    exact ⟨hb.flag, fun h => hb.lost (beatErr_tag h), fun h => (hb.refusal (beatErr_not_tag h)).1,
      fun h => (hb.refusal (beatErr_not_tag h)).2, hb.grown.others, hparts⟩
  · refine completes_mono (completes_msgCapture_bad hgen hbeats htakes hpasses hon hbad) ?_
    rintro t ⟨hb, hparts⟩
    exact ⟨hb.flag, hb.lost, fun h hopc => txnAdded_mono ((hb.refusal h).1 hopc) fun _ hy => ⟨hy.1, hy.2.1⟩,
      hb.grown.others, hparts⟩

end Sys2Proof.Machine
end

section
/-! PROOFS. The access check units of a stop and the partition change at its ports (R156, R160, R163, R225 to R230,
R235, R239). -/
namespace Sys2Proof.Machine
open Sys2Proof

/-! ### The swap of a unit -/

section
variable (s : State) (st a : Nat)

theorem acuReg_ne {o o' : Nat} (h : o ≠ o') : acuReg st a o ≠ acuReg st a o' := by
  unfold acuReg stopReg
  omega

theorem State.sideband_port {k : Nat} (hk : k < 2) : s.sideband st k = (s.port st k).pchg := if_pos hk

/-- A port whose partition change has been answered (R156). -/
def PortSt.answered (v : PortSt) (refused : Bool) (part : Nat) : PortSt :=
  { v with pchg := none, pchgBad := false, pchgAck := true, pchgErr := refused
           curPart := if refused then v.curPart else part }

variable {s st a}

theorem State.sideAnswer_none (h : s.sideband st a = none) (refused : Bool) : s.sideAnswer st a refused = s := by
  unfold State.sideAnswer
  rw [h]

theorem State.sideAnswer_some {part : Nat} (h : s.sideband st a = some part) (refused : Bool) :
    s.sideAnswer st a refused
      = (if refused then (s.setPort st a ((s.port st a).answered refused part)).raiseFlag (portReg st a pERR) 10
          else s.setPort st a ((s.port st a).answered refused part)) := by
  unfold State.sideAnswer
  rw [h]
  rfl

theorem State.port_raiseFlag (s : State) (b i x y : Nat) : (s.raiseFlag b i).port x y = s.port x y := by
  unfold State.port
  rw [State.raiseFlag_ni]

theorem State.port_sideAnswer {part : Nat} (h : s.sideband st a = some part) (refused : Bool) :
    (s.sideAnswer st a refused).port st a = (s.port st a).answered refused part := by
  rw [State.sideAnswer_some h]
  split
  · rw [State.port_raiseFlag, State.port_setPort_same]
  · exact State.port_setPort_same s st a _

/-- A refusal is flagged (R156). -/
theorem State.flag_sideAnswer {part : Nat} (h : s.sideband st a = some part) :
    (s.sideAnswer st a true).flag (portReg st a pERR) 10 = true := by
  rw [State.sideAnswer_some h, if_pos rfl]
  exact State.flag_raiseFlag _ _ 10 (by decide)

/-- The swap waits for nothing but its shadow check: it was asked for through the register, or by a sideband request
in good order whose port's requests have all been checked. -/
def State.swapAsked (s : State) (st a : Nat) : Prop :=
  (s.sideband st a = none ∧ s.flag (acuReg st a 4) 0 = true)
    ∨ ((s.sideband st a).isSome = true ∧ s.checksDone st a = true ∧ (s.port st a).pchgBad = false)

/-- The state in which a swap has been refused for a failed check, or carried out. -/
def State.swapEnded (s : State) (st a : Nat) (refused : Bool) : State :=
  (if refused then s.raiseFlag (acuReg st a 8) 11 else s.acuSwap st a).setFld (acuReg st a 4) 0 1 0

theorem State.swapDecide_asked (h : s.swapAsked st a) (hfree : s.acuFrozen st a = false) : s.swapDecide st a
    = (if s.fld (acuReg st a 8) 1 2 = 0 then s
        else (s.swapEnded st a (s.fld (acuReg st a 8) 1 2 == 2)).sideAnswer st a
          (s.fld (acuReg st a 8) 1 2 == 2)) := by
  unfold State.swapDecide State.swapEnded
  simp only [hfree, Bool.false_eq_true, or_false]
  rcases h with ⟨hside, hcmd⟩ | ⟨hside, hdone, hbad⟩
  · by_cases h2 : s.fld (acuReg st a 8) 1 2 = 2
    · simp [hside, hcmd, h2]
    · simp [hside, hcmd, h2, beq_false_of_ne h2]
  · by_cases h2 : s.fld (acuReg st a 8) 1 2 = 2
    · simp [hside, hdone, hbad, h2]
    · simp [hside, hdone, hbad, h2, beq_false_of_ne h2]

/-- A sideband request with a parity error is refused by itself (R160). -/
theorem State.swapDecide_bad (hside : (s.sideband st a).isSome = true) (hdone : s.checksDone st a = true)
    (hbad : (s.port st a).pchgBad = true) : s.swapDecide st a = s.sideAnswer st a true := by
  unfold State.swapDecide
  simp [hside, hdone, hbad]

theorem State.fld_setPort (s : State) (x y b lo w : Nat) (v : PortSt) :
    (s.setPort x y v).fld b lo w = s.fld b lo w := rfl

theorem State.ni_swapEnded (refused : Bool) : (s.swapEnded st a refused).ni = s.ni := by
  unfold State.swapEnded State.acuSwap
  split <;> simp only [State.setFld_ni, State.raiseFlag_ni]

theorem State.port_swapEnded (refused : Bool) : (s.swapEnded st a refused).port st a = s.port st a := by
  unfold State.port
  rw [State.ni_swapEnded]

theorem State.sideband_swapEnded (refused : Bool) : (s.swapEnded st a refused).sideband st a = s.sideband st a := by
  unfold State.sideband
  rw [State.port_swapEnded]

theorem changes_swapEnded (refused : Bool) :
    Changes (fun b => b = acuReg st a 4 ∨ b = acuReg st a 8) [.regs] s (s.swapEnded st a refused) := by
  have hset (t : State) {b : Nat} (hb : b = acuReg st a 4 ∨ b = acuReg st a 8) (lo w x : Nat) :
      Changes (fun b => b = acuReg st a 4 ∨ b = acuReg st a 8) [.regs] t (t.setFld b lo w x) :=
    .setFld hb (by decide) lo w x
  unfold State.swapEnded
  cases refused with
  | true => exact (hset s (.inr rfl) 11 1 1).trans (hset _ (.inl rfl) 0 1 0)
  | false => exact ((hset s (.inr rfl) 0 1 _).trans (hset _ (.inr rfl) 1 2 0)).trans (hset _ (.inl rfl) 0 1 0)

/-- SWAP has fallen. -/
theorem State.fld_cmd_swapEnded (refused : Bool) : (s.swapEnded st a refused).fld (acuReg st a 4) 0 1 = 0 :=
  State.fld_setFld_same _ _ 0 1 0 (by decide)

theorem State.fld_stat_swapEnded (refused : Bool) (lo w : Nat) : (s.swapEnded st a refused).fld (acuReg st a 8) lo w
    = (if refused then s.raiseFlag (acuReg st a 8) 11 else s.acuSwap st a).fld (acuReg st a 8) lo w :=
  State.fld_setFld_other _ _ _ 0 1 0 lo w (acuReg_ne st a (by decide))

theorem State.acuActive_lt : s.acuActive st a < 2 := fieldOf_lt _ _ _

/-- The shadow set is active and its check is pending (R227). -/
theorem State.fld_stat_acuSwap : (s.acuSwap st a).fld (acuReg st a 8) 0 1 = 1 - s.acuActive st a
    ∧ (s.acuSwap st a).fld (acuReg st a 8) 1 2 = 0 := by
  have := State.acuActive_lt (s := s) (st := st) (a := a)
  unfold State.acuSwap
  refine ⟨?_, State.fld_setFld_same _ _ 1 2 0 (by decide)⟩
  rw [State.fld_setFld_below _ _ 1 2 0 0 1 (by decide) (by decide), State.fld_setFld_same _ _ 0 1 _ (by decide)]
  omega

end

/-! ### PARTITION_CHANGE and PCHG_SWAP -/

section
variable {st : StopNo} {k : PortNo} {s : State}

theorem exec_partitionChange_other (part : Fin 4096) (par : Fin 4) (hgen : portGen st.val k.val ≠ 0)
    (h : portGen st.val k.val ≠ 3 ∨ (s.port st.val k.val).state ≠ 2) :
    exec (.partitionChange st k part par) s = .next s := by
  change execPartitionChange st k part par s = _
  unfold execPartitionChange
  simp only [hgen, if_false, if_pos h]

/-- A second change while one waits is against the protocol (R163). -/
theorem exec_partitionChange_again (part : Fin 4096) (par : Fin 4) (hgen : portGen st.val k.val = 3)
    (hopen : (s.port st.val k.val).state = 2) {p : Nat} (hp : (s.port st.val k.val).pchg = some p) :
    exec (.partitionChange st k part par) s = .next (s.keepPort
      ((s.portErr st.val k.val 2 8).portRec st.val k.val sevCONTAINED caPORT_PROTO part.val 0 0 0 0)) := by
  change execPartitionChange st k part par s = _
  unfold execPartitionChange
  simp [hgen, hopen, hp]

/-- A port whose partition change waits (R156). -/
def PortSt.changing (v : PortSt) (part : Nat) (bad : Bool) : PortSt :=
  { v with pchg := some part, pchgBad := bad, pchgAck := false, pchgErr := false }

/-- A change that is taken, and flagged where its parity is wrong (R156, R160). -/
def State.changeTaken (s : State) (st k part : Nat) (bad : Bool) : State :=
  if bad then ((s.setPort st k ((s.port st k).changing part bad)).portErr st k 0 0).portRec st k sevCORRECTED
    caPORT_PARITY part 0 0 0 0
  else s.setPort st k ((s.port st k).changing part bad)

theorem exec_partitionChange_new (part : Fin 4096) (par : Fin 4) (hgen : portGen st.val k.val = 3)
    (hopen : (s.port st.val k.val).state = 2) (hp : (s.port st.val k.val).pchg = none) :
    exec (.partitionChange st k part par) s = .next (s.keepPort
      (s.changeTaken st.val k.val part.val (!(parityBad part.val 2 par.val).isEmpty))) := by
  change execPartitionChange st k part par s = _
  unfold execPartitionChange
  dsimp only
  rw [if_neg (by simp [hgen]), if_neg (by simp [hgen, hopen]), hp]
  rfl

theorem State.onlyParts_portErr (s : State) (st k f lo : Nat) : onlyParts [.regs] s (s.portErr st k f lo) :=
  onlyParts_trans (State.onlyParts_raiseFlag s _ _) (State.onlyParts_count _ _ _ _ _)

/-- A port error with its record. -/
theorem State.portErr_portRec (s : State) (st k : Nat) {f : Nat} (hf : f < 32) (lo sev cause part : Nat) :
    ((s.portErr st k f lo).portRec st k sev cause part 0 0 0 0).flag (portReg st k pERR) f = true
      ∧ ((s.portErr st k f lo).portRec st k sev cause part 0 0 0 0).ni = s.ni
      ∧ onlyParts [.regs, .recs] s ((s.portErr st k f lo).portRec st k sev cause part 0 0 0 0) :=
  ⟨(State.flag_raise_pERR _ st k f _).trans (State.flag_portErr s st k hf lo),
    (State.ni_raise _ st _).trans (State.ni_portErr s st k f lo),
    onlyParts_trans (onlyParts_mono (State.onlyParts_portErr s st k f lo) (by decide)) (State.onlyParts_raise _ _ _)⟩

theorem State.changeTaken_taken (s : State) (st k part : Nat) (bad : Bool) :
    (s.changeTaken st k part bad).port st k = (s.port st k).changing part bad
      ∧ (bad = true → (s.changeTaken st k part bad).flag (portReg st k pERR) 0 = true)
      ∧ onlyParts [.regs, .ni, .recs] s (s.changeTaken st k part bad) := by
  have hset := State.onlyParts_setPort s st k ((s.port st k).changing part bad)
  cases bad with
  | false => exact ⟨State.port_setPort_same s st k _, nofun, onlyParts_mono hset (by decide)⟩
  | true =>
    obtain ⟨hflag, hni, hparts⟩ := State.portErr_portRec (s.setPort st k ((s.port st k).changing part true)) st k
      (f := 0) (by decide) 0 sevCORRECTED caPORT_PARITY part
    refine ⟨?_, fun _ => hflag, onlyParts_step (onlyParts_mono hset (by decide)) hparts⟩
    exact (congrArg (fun n => Tab.get defPort (NiSt.ports n) (st * 2 + k)) hni).trans (State.port_setPort_same s st k _)

theorem completes_partitionChange (part : Fin 4096) (par : Fin 4) (hgen : portGen st.val k.val ≠ 0) :
    completes (.partitionChange st k part par) s (fun t =>
      (portGen st.val k.val = 3 → (s.port st.val k.val).state = 2 → (s.port st.val k.val).pchg = none →
        t.port st.val k.val = (s.port st.val k.val).changing part.val (!(parityBad part.val 2 par.val).isEmpty)
        ∧ (parityBad part.val 2 par.val ≠ [] → t.flag (portReg st.val k.val pERR) 0 = true))
      ∧ (portGen st.val k.val = 3 → (s.port st.val k.val).state = 2 → (s.port st.val k.val).pchg ≠ none →
        t.flag (portReg st.val k.val pERR) 2 = true ∧ t.ni = s.ni)
      ∧ (portGen st.val k.val ≠ 3 ∨ (s.port st.val k.val).state ≠ 2 → t = s)
      ∧ onlyParts [.regs, .ni, .recs] s t) := by
  by_cases hopen : portGen st.val k.val = 3 ∧ (s.port st.val k.val).state = 2
  · obtain ⟨hgen3, hstate⟩ := hopen
    cases hp : (s.port st.val k.val).pchg with
    | none =>
      obtain ⟨hport, hflag, hparts⟩ := s.changeTaken_taken st.val k.val part.val (!(parityBad part.val 2 par.val).isEmpty)
      exact ⟨_, exec_partitionChange_new part par hgen3 hstate hp,
        fun _ _ _ => ⟨hport, fun hbad => hflag (by simpa using hbad)⟩, fun _ _ h => absurd rfl h,
        fun h => absurd h (by simp [hgen3, hstate]), onlyParts_keepPort_of hparts⟩
    | some p =>
      obtain ⟨hflag, hni, hparts⟩ := s.portErr_portRec st.val k.val (f := 2) (by decide) 8 sevCONTAINED caPORT_PROTO
        part.val
      exact ⟨_, exec_partitionChange_again part par hgen3 hstate hp, nofun, fun _ _ _ => ⟨hflag, hni⟩,
        fun h => absurd h (by simp [hgen3, hstate]), onlyParts_keepPort_of (onlyParts_mono hparts (by decide))⟩
  · exact ⟨s, exec_partitionChange_other part par hgen (by tauto), fun h3 h2 => absurd ⟨h3, h2⟩ hopen,
      fun h3 h2 => absurd ⟨h3, h2⟩ hopen, fun _ => rfl, onlyParts_refl _ s⟩

theorem exec_pchgSwap (hgen : portGen st.val k.val ≠ 0) {part : Nat} (hp : (s.port st.val k.val).pchg = some part) :
    exec (.pchgSwap st k) s = .next (s.keepPort (s.swapDecide st.val k.val)) := by
  change execPchgSwap st k s = _
  unfold execPchgSwap
  rw [if_neg hgen, State.sideband_port s st.val k.isLt, hp]
  rfl

theorem exec_pchgSwap_none (hgen : portGen st.val k.val ≠ 0) (hp : (s.port st.val k.val).pchg = none) :
    exec (.pchgSwap st k) s = .next s := by
  change execPchgSwap st k s = _
  unfold execPchgSwap
  rw [if_neg hgen, State.sideband_port s st.val k.isLt, hp]
  rfl

section
variable {part : Nat} (hp : (s.port st.val k.val).pchg = some part) (hdone : s.checksDone st.val k.val = true)
  (hfree : s.acuFrozen st.val k.val = false)
include hp hdone hfree

/-- Wrong parity or a failed check: the change is refused. -/
theorem State.swapDecide_refused
    (h : (s.port st.val k.val).pchgBad = true ∨ s.fld (acuReg st.val k.val 8) 1 2 = 2) :
    (s.swapDecide st.val k.val).port st.val k.val = (s.port st.val k.val).answered true part
      ∧ (s.swapDecide st.val k.val).flag (portReg st.val k.val pERR) 10 = true := by
  have hside : s.sideband st.val k.val = some part := (State.sideband_port s st.val k.isLt).trans hp
  cases hbad : (s.port st.val k.val).pchgBad with
  | true =>
    rw [State.swapDecide_bad (by rw [hside]; rfl) hdone hbad]
    exact ⟨State.port_sideAnswer hside true, State.flag_sideAnswer hside⟩
  | false =>
    have hfail := h.resolve_left (by simp [hbad])
    have hside' := (State.sideband_swapEnded (s := s) true).trans hside
    rw [State.swapDecide_asked (.inr ⟨by rw [hside]; rfl, hdone, hbad⟩) hfree, hfail, if_neg (by decide)]
    exact ⟨(State.port_sideAnswer hside' true).trans (by rw [State.port_swapEnded]), State.flag_sideAnswer hside'⟩

/-- A passed check: the change is carried out with the swap. -/
theorem State.swapDecide_carried (hbad : (s.port st.val k.val).pchgBad = false)
    (h2 : s.fld (acuReg st.val k.val 8) 1 2 ≠ 2) (h0 : s.fld (acuReg st.val k.val 8) 1 2 ≠ 0) :
    (s.swapDecide st.val k.val).port st.val k.val = (s.port st.val k.val).answered false part
      ∧ ∀ lo w, (s.swapDecide st.val k.val).fld (acuReg st.val k.val 8) lo w
        = (s.acuSwap st.val k.val).fld (acuReg st.val k.val 8) lo w := by
  have hside : s.sideband st.val k.val = some part := (State.sideband_port s st.val k.isLt).trans hp
  have hside' := (State.sideband_swapEnded (s := s) false).trans hside
  rw [State.swapDecide_asked (.inr ⟨by rw [hside]; rfl, hdone, hbad⟩) hfree, if_neg h0, beq_false_of_ne h2]
  refine ⟨(State.port_sideAnswer hside' false).trans (by rw [State.port_swapEnded]), fun lo w => ?_⟩
  rw [State.sideAnswer_some hside', if_neg (by decide)]
  rw [State.fld_setPort]
  exact State.fld_stat_swapEnded false lo w

theorem State.swapDecide_pending (hbad : (s.port st.val k.val).pchgBad = false)
    (h0 : s.fld (acuReg st.val k.val 8) 1 2 = 0) : s.swapDecide st.val k.val = s := by
  have hside : s.sideband st.val k.val = some part := (State.sideband_port s st.val k.isLt).trans hp
  rw [State.swapDecide_asked (.inr ⟨by rw [hside]; rfl, hdone, hbad⟩) hfree, if_pos h0]

end

end

/-- Settles O23: what waits at the sideband is answered by `State.swapDecide`, by its parity first and then by the
result of the shadow check. -/
theorem partitionChangesAtAPort : Obligations.PartitionChangesAtAPort := by
  unfold Obligations.PartitionChangesAtAPort
  refine ⟨fun st k part par s hgen => completes_partitionChange part par hgen,
    fun st k part s hgen hp hdone hfree => ?_,
    fun st k s hgen hp => ⟨s, exec_pchgSwap_none hgen hp, rfl⟩⟩
  refine ⟨_, exec_pchgSwap hgen hp, fun h => State.swapDecide_refused hp hdone hfree h, fun hbad h2 h0 => ?_,
    fun hbad h0 => ?_, onlyParts_mono (onlyParts_keepPort s _) (by decide)⟩
  · rw [State.port_keepPort, (State.swapDecide_carried hp hdone hfree hbad h2 h0).1]
    exact ⟨rfl, rfl, rfl, rfl⟩
  · rw [State.swapDecide_pending hp hdone hfree hbad h0, State.keepPort_self]

end Sys2Proof.Machine
end

section
/-! PROOFS. The writes of an access check unit's entries through the window, its shadow check and its swap (R220,
R225 to R230, R234, R239). -/
namespace Sys2Proof.Machine
open Sys2Proof

/-- What the unit's commands keep of the state that they reach. -/
theorem onlyParts_keepAcu {ps : List Part} {s t : State} (h : onlyParts ps s t) : onlyParts ps s (s.keepAcu t) := by
  intro p hp
  have hst := h p hp
  cases p with
  | regs | acu | ni | recs => exact hst
  | _ => rfl

section
variable (s t : State) (a b : Nat)

theorem State.reg_keepAcu : (s.keepAcu t).reg a = t.reg a := rfl
theorem State.fld_keepAcu (lo w : Nat) : (s.keepAcu t).fld a lo w = t.fld a lo w := rfl
theorem State.flag_keepAcu : (s.keepAcu t).flag a b = t.flag a b := rfl
theorem State.port_keepAcu : (s.keepAcu t).port a b = t.port a b := rfl

theorem State.acu_keepAcu : (s.keepAcu t).acu = t.acu := rfl
theorem State.acuActive_keepAcu : (s.keepAcu t).acuActive a b = t.acuActive a b := rfl

theorem Changes.keepAcu {A : Nat → Prop} {ps : List Part} (h : Changes A ps s t) : Changes A ps s (s.keepAcu t) :=
  ⟨h.regs, onlyParts_keepAcu h.parts⟩

end

/-! ### The window: ACU_SEL and ACU_RDATA -/

section
variable (s : State) (st : Nat)

/-- ACU_RDATA's four words. -/
def latchReg (st b : Nat) : Prop := ∃ j, j < 4 ∧ b = stopReg st sACU_RDATA + 4 * j

/-- ACU_SEL has been written (R239). -/
def State.selWritten (sel : Word32) : State := s.setReg (stopReg st sACU_SEL) (sel &&& 0x1FF)

theorem State.changes_selWritten (sel : Word32) : Changes (· = stopReg st sACU_SEL) [.regs] s (s.selWritten st sel) :=
  .setReg_self _ _

theorem State.changes_acuLatch : Changes (latchReg st) [.regs] s (s.acuLatch st) := Changes.setQuad s _ _

theorem State.acu_acuLatch : (s.acuLatch st).acu = s.acu := by
  unfold State.acuLatch
  rw [State.setQuad_eq]
  simp only [State.setReg_acu]

variable {st}

theorem not_latchReg_sel : ¬ latchReg st (stopReg st sACU_SEL) := by
  unfold latchReg stopReg sACU_SEL sACU_RDATA
  omega

theorem not_latchReg_acuReg {a o : Nat} : ¬ latchReg st (acuReg st a o) := by
  unfold latchReg acuReg stopReg sACU_RDATA
  omega

theorem acuReg_ne_sel {a o : Nat} : acuReg st a o ≠ stopReg st sACU_SEL := by
  unfold acuReg stopReg sACU_SEL
  omega

theorem State.acuSet_congr {s t : State} (h : t.acu = s.acu) (st a b i : Nat) :
    t.acuSet st a b i = s.acuSet st a b i := by
  unfold State.acuSet
  rw [h]

theorem State.acuDef_congr {s t : State} (h : t.acu = s.acu) (st a i : Nat) : t.acuDef st a i = s.acuDef st a i := by
  unfold State.acuDef
  rw [h]

theorem State.acuSelected_congr {s t : State} (hsel : t.reg (stopReg st sACU_SEL) = s.reg (stopReg st sACU_SEL))
    (hacu : t.acu = s.acu) : t.acuSelected st = s.acuSelected st := by
  unfold State.acuSelected State.acuSet State.acuDef
  rw [hsel, hacu]

/-- ACU_RDATA holds the entry that ACU_SEL selects (R239). -/
theorem State.quad_acuLatch : (s.acuLatch st).quad (stopReg st sACU_RDATA) = (s.acuLatch st).acuSelected st :=
  (State.quad_of_words _ _ _ fun _ hj => State.reg_setQuad s _ _ hj).trans
    (State.acuSelected_congr ((s.changes_acuLatch st).regs _ not_latchReg_sel) (s.acu_acuLatch st)).symm

end

/-! ### The write of one entry -/

section
variable {u : State} {st a b i : Nat} {v : BitVec 128}

theorem State.acuIgnored_acu (c : Nat) (act lock : Bool) : (u.acuIgnored c act lock).acu = u.acu := by
  unfold State.acuIgnored
  cases act <;> cases lock <;> simp only [Bool.false_eq_true, if_true, if_false, State.raiseFlag_acu]

theorem changes_acuIgnored (c : Nat) (act lock : Bool) : Changes (· = c) [.regs] u (u.acuIgnored c act lock) :=
  (Changes.ite (.setFld_self c 10 1 1) (.refl u)).trans (.ite (.setFld_self c 12 1 1) (.refl _))

theorem State.flag_act_acuIgnored (c : Nat) (lock : Bool) : (u.acuIgnored c true lock).flag c 10 = true := by
  unfold State.acuIgnored
  rw [if_pos rfl]
  cases lock with
  | false => exact State.flag_raiseFlag u c 10 (by decide)
  | true => exact State.flag_raiseFlag_of_flag (by decide) (by decide) (State.flag_raiseFlag u c 10 (by decide))

theorem State.flag_lock_acuIgnored (c : Nat) (act : Bool) : (u.acuIgnored c act true).flag c 12 = true := by
  unfold State.acuIgnored
  exact State.flag_raiseFlag _ c 12 (by decide)

theorem State.acuSet_setFld (c lo w x st a b i : Nat) : (u.setFld c lo w x).acuSet st a b i = u.acuSet st a b i :=
  State.acuSet_congr (State.setFld_acu u c lo w x) st a b i

/-- A write that is ignored leaves every entry, and flags what stood against it (R225, R230). -/
structure EntryIgnored (c : Nat) (act lock : Bool) (s t : State) : Prop where
  acu : t.acu = s.acu
  act : act = true → t.flag c 10 = true
  lock : lock = true → t.flag c 12 = true
  changes : Changes (· = c) [.regs] s t

theorem entryIgnored (c : Nat) (act lock : Bool) : EntryIgnored c act lock u (u.acuIgnored c act lock) where
  acu := State.acuIgnored_acu c act lock
  act h := by subst h; exact State.flag_act_acuIgnored c lock
  lock h := by subst h; exact State.flag_lock_acuIgnored c act
  changes := changes_acuIgnored c act lock

/-- An entry of a set is ignored where it is active or locked. -/
theorem State.acuEntry_set_ignored (hi : i < 32) (h : (b == u.acuActive st a || acuLock (u.acuSet st a b i)) = true) :
    EntryIgnored (acuReg st a 8) (b == u.acuActive st a) (acuLock (u.acuSet st a b i)) u (u.acuEntry st a b i v) := by
  unfold State.acuEntry
  rw [if_pos hi, if_pos h]
  exact entryIgnored _ _ _

/-- Otherwise it is taken, unless a commit holds the set. -/
theorem State.acuEntry_set_taken (hi : i < 32) (h : (b == u.acuActive st a || acuLock (u.acuSet st a b i)) = false) :
    u.acuEntry st a b i v
      = (if u.acuFrozen st a then u.cmtWr st else (u.setAcuSet st a b i v).setFld (acuReg st a 8) 1 2 0) := by
  unfold State.acuEntry
  rw [if_pos hi]
  exact if_neg (by rw [h]; decide)

theorem changes_setAcuSet : Changes (· = acuReg st a 8) [.regs, .acu] u
    ((u.setAcuSet st a b i v).setFld (acuReg st a 8) 1 2 0) := by
  have hset : Changes (· = acuReg st a 8) [.regs, .acu] u (u.setAcuSet st a b i v) :=
    .of_regs rfl (onlyParts_mono (onlyParts_setAcu u _) (by decide))
  exact hset.trans (Changes.setFld (A := (· = acuReg st a 8)) rfl (by decide) 1 2 0)

theorem changes_acuEntry_set (hi : i < 32) (hfree : u.acuFrozen st a = false) :
    Changes (· = acuReg st a 8) [.regs, .acu] u (u.acuEntry st a b i v) := by
  cases h : b == u.acuActive st a || acuLock (u.acuSet st a b i) with
  | true => exact (State.acuEntry_set_ignored hi h).changes.mono (fun _ h => h) (by decide)
  | false =>
    rw [State.acuEntry_set_taken hi h, if_neg (by simp [hfree])]
    exact changes_setAcuSet

theorem onlyParts_acuEntry_set (hi : i < 32) : onlyParts [.regs, .acu] u (u.acuEntry st a b i v) := by
  cases h : b == u.acuActive st a || acuLock (u.acuSet st a b i) with
  | true => exact onlyParts_mono (State.acuEntry_set_ignored hi h).changes.parts (by decide)
  | false =>
    rw [State.acuEntry_set_taken hi h]
    exact onlyParts_ite (onlyParts_mono (State.onlyParts_raiseFlag u _ 8) (by decide)) changes_setAcuSet.parts

/-- An entry of the default map is written in CONFIGURED alone (R225). -/
theorem State.acuEntry_def (hi : i < 4) : u.acuEntry st a b (32 + i) v
    = (if (u.fld gFAB_STATE 0 4 != 3) || acuLock (u.acuDef st a i) then
        u.acuIgnored (acuReg st a 8) (u.fld gFAB_STATE 0 4 != 3) (acuLock (u.acuDef st a i))
      else u.setAcuDef st a i v) := by
  unfold State.acuEntry
  rw [if_neg (by omega), if_pos (by omega), Nat.add_sub_cancel_left]

theorem State.acuEntry_def_ignored (hi : i < 4)
    (h : ((u.fld gFAB_STATE 0 4 != 3) || acuLock (u.acuDef st a i)) = true) :
    EntryIgnored (acuReg st a 8) (u.fld gFAB_STATE 0 4 != 3) (acuLock (u.acuDef st a i)) u
      (u.acuEntry st a b (32 + i) v) := by
  rw [State.acuEntry_def hi, if_pos h]
  exact entryIgnored _ _ _

theorem State.acuEntry_def_taken (hi : i < 4)
    (h : ((u.fld gFAB_STATE 0 4 != 3) || acuLock (u.acuDef st a i)) = false) :
    u.acuEntry st a b (32 + i) v = u.setAcuDef st a i v := by
  rw [State.acuEntry_def hi, if_neg (by rw [h]; decide)]

theorem changes_acuEntry_def (hi : i < 4) :
    Changes (· = acuReg st a 8) [.regs, .acu] u (u.acuEntry st a b (32 + i) v) := by
  cases h : (u.fld gFAB_STATE 0 4 != 3) || acuLock (u.acuDef st a i) with
  | true => exact (State.acuEntry_def_ignored hi h).changes.mono (fun _ h => h) (by decide)
  | false =>
    rw [State.acuEntry_def_taken hi h]
    exact .of_regs rfl (onlyParts_mono (onlyParts_setAcu u _) (by decide))

end

/-! ### ACU_ENTRY_WRITE -/

section
variable {st : StopNo} {sel : Word32} {s : State}

/-- The word of ACU_WDATA, without the bits that an entry does not have (R222). -/
def State.acuWord (s : State) (st : Nat) : BitVec 128 :=
  s.quad (stopReg st sACU_WDATA) &&& BitVec.ofNat 128 (2 ^ 119 - 1 - (0xFFFF * 2 ^ 48))

/-- The state that a write of entry `i` reaches, before ACU_RDATA takes the entry. -/
def State.entryWritten (s : State) (st a i : Nat) (sel : Word32) : State :=
  (s.selWritten st sel).acuEntry st a (fieldOf sel 6 1) i (s.acuWord st)

theorem exec_acuEntryWrite (hon : s.niOn st.val = true) (hwr : bitOf sel 31 = true) (ha : fieldOf sel 7 2 ≤ 2)
    (hthere : acuThere st.val (fieldOf sel 7 2) = true) : exec (.acuEntryWrite st sel) s
      = .next (s.keepAcu ((s.entryWritten st.val (fieldOf sel 7 2) (fieldOf sel 0 6) sel).acuLatch st.val)) := by
  change execAcuEntryWrite st sel s = _
  unfold execAcuEntryWrite
  dsimp only
  rw [if_neg (by simp [hon]), if_neg (by simp [hwr, hthere, Nat.not_lt.mpr ha])]
  rfl

theorem exec_acuEntryWrite_read (hon : s.niOn st.val = true) (hwr : bitOf sel 31 = false) :
    exec (.acuEntryWrite st sel) s = .next (s.keepAcu ((s.selWritten st.val sel).acuLatch st.val)) := by
  change execAcuEntryWrite st sel s = _
  unfold execAcuEntryWrite
  dsimp only
  rw [if_neg (by simp [hon]), if_pos (by simp [hwr])]
  rfl

theorem exec_acuEntryWrite_off (hon : s.niOn st.val = false) : exec (.acuEntryWrite st sel) s = .next s := by
  change execAcuEntryWrite st sel s = _
  unfold execAcuEntryWrite
  exact if_pos (by simp [hon])

variable (s) (st : Nat) (sel) (a : Nat)

theorem State.acuActive_selWritten : (s.selWritten st sel).acuActive st a = s.acuActive st a :=
  (s.changes_selWritten st sel).fld acuReg_ne_sel 0 1

theorem State.acu_selWritten : (s.selWritten st sel).acu = s.acu := State.setReg_acu _ _ _

theorem State.acuSet_selWritten (b i : Nat) : (s.selWritten st sel).acuSet st a b i = s.acuSet st a b i :=
  State.acuSet_congr (s.acu_selWritten sel st) st a b i

theorem State.acuDef_selWritten (i : Nat) : (s.selWritten st sel).acuDef st a i = s.acuDef st a i :=
  State.acuDef_congr (s.acu_selWritten sel st) st a i

theorem State.acuFrozen_selWritten : (s.selWritten st sel).acuFrozen st a = s.acuFrozen st a := by
  unfold State.acuFrozen State.cmtFrozen State.selWritten
  rw [State.setReg_her]

theorem State.fabState_selWritten : (s.selWritten st sel).fld gFAB_STATE 0 4 = s.fld gFAB_STATE 0 4 :=
  (s.changes_selWritten st sel).fld (by unfold gFAB_STATE stopReg; omega) 0 4

variable {s st a}

/-- The registers of the window and the unit's status register. -/
theorem regsBut_window {t : State} (h : Changes (· = acuReg st a 8) [.regs, .acu] (s.selWritten st sel) t) :
    regsBut [stopReg st sACU_SEL, stopReg st sACU_RDATA, stopReg st sACU_RDATA + 4, stopReg st sACU_RDATA + 8,
      stopReg st sACU_RDATA + 12, acuReg st a 8] s (s.keepAcu (t.acuLatch st)) := by
  intro b hb
  rw [State.reg_keepAcu]
  simp only [List.mem_cons, List.not_mem_nil, or_false, not_or] at hb
  obtain ⟨hsel, h0, h4, h8, h12, hstat⟩ := hb
  refine ((t.changes_acuLatch st).regs b ?_).trans ((h.regs b hstat).trans ((s.changes_selWritten st sel).regs b hsel))
  rintro ⟨j, hj, rfl⟩
  omega

theorem onlyParts_window {t : State} (h : onlyParts [.regs, .acu] (s.selWritten st sel) t) :
    onlyParts [.regs, .acu] s (s.keepAcu (t.acuLatch st)) :=
  onlyParts_keepAcu (onlyParts_trans (onlyParts_mono (s.changes_selWritten st sel).parts (by decide))
    (onlyParts_trans h (onlyParts_mono (t.changes_acuLatch st).parts (by decide))))

theorem State.flag_acuReg_acuLatch (t : State) (o i : Nat) :
    (t.acuLatch st).flag (acuReg st a o) i = t.flag (acuReg st a o) i :=
  (t.changes_acuLatch st).flag not_latchReg_acuReg i

variable (s) (t : State)

theorem State.acu_latched : (s.keepAcu (t.acuLatch st)).acu = t.acu := (State.acu_keepAcu s _).trans (t.acu_acuLatch st)

theorem State.acuSet_latched (b i : Nat) : (s.keepAcu (t.acuLatch st)).acuSet st a b i = t.acuSet st a b i :=
  State.acuSet_congr (State.acu_latched s t) st a b i

theorem State.acuDef_latched (i : Nat) : (s.keepAcu (t.acuLatch st)).acuDef st a i = t.acuDef st a i :=
  State.acuDef_congr (State.acu_latched s t) st a i

theorem State.quad_keepAcu (x : Nat) : (s.keepAcu t).quad x = t.quad x := rfl

theorem State.quad_latched :
    (s.keepAcu (t.acuLatch st)).quad (stopReg st sACU_RDATA) = (s.keepAcu (t.acuLatch st)).acuSelected st := by
  rw [State.quad_keepAcu, State.quad_acuLatch]
  exact (State.acuSelected_congr (State.reg_keepAcu s _ _) (State.acu_keepAcu s _)).symm

variable {s t}

/-- What an ignored write leaves, once ACU_RDATA is read. -/
theorem EntryIgnored.latched {act lock : Bool} (h : EntryIgnored (acuReg st a 8) act lock (s.selWritten st sel) t) :
    (act = true → (s.keepAcu (t.acuLatch st)).flag (acuReg st a 8) 10 = true ∧ (s.keepAcu (t.acuLatch st)).acu = s.acu)
      ∧ (lock = true → (s.keepAcu (t.acuLatch st)).flag (acuReg st a 8) 12 = true
          ∧ (s.keepAcu (t.acuLatch st)).acu = s.acu) := by
  have hacu := ((t.acu_acuLatch st).trans h.acu).trans (s.acu_selWritten sel st)
  rw [State.flag_keepAcu, State.flag_keepAcu, State.acu_keepAcu, State.flag_acuReg_acuLatch, State.flag_acuReg_acuLatch]
  exact ⟨fun hact => ⟨h.act hact, hacu⟩, fun hlock => ⟨h.lock hlock, hacu⟩⟩

end

section
variable {st : StopNo} {sel : Word32} {s : State} {a b i : Nat}

/-- The sets that a taken write leaves, and its check, pending. -/
theorem State.acuSet_entryWritten (hb : b = fieldOf sel 6 1) (hi : i < 32) (hact : b ≠ s.acuActive st.val a)
    (hlock : acuLock (s.acuSet st.val a b i) = false) (hfree : s.acuFrozen st.val a = false) :
    s.entryWritten st.val a i sel = (((s.selWritten st.val sel).setAcuSet st.val a b i (s.acuWord st.val)).setFld
      (acuReg st.val a 8) 1 2 0) := by
  subst hb
  unfold State.entryWritten
  rw [State.acuEntry_set_taken hi]
  · exact if_neg (by rw [State.acuFrozen_selWritten, hfree]; decide)
  · rw [State.acuActive_selWritten, State.acuSet_selWritten, beq_false_of_ne hact]
    exact hlock

theorem completes_acuEntryWrite_set (hon : s.niOn st.val = true) (hwr : bitOf sel 31 = true) (ha : a = fieldOf sel 7 2)
    (hb : b = fieldOf sel 6 1) (hi : i = fieldOf sel 0 6) (ha2 : a ≤ 2) (hthere : acuThere st.val a = true) (hi32 : i < 32) :
    completes (.acuEntryWrite st sel) s (fun t =>
      (b ≠ s.acuActive st.val a → acuLock (s.acuSet st.val a b i) = false → s.acuFrozen st.val a = false →
        t.acuSet st.val a b i = s.acuWord st.val
        ∧ (∀ j, j < 32 → j ≠ i → t.acuSet st.val a b j = s.acuSet st.val a b j)
        ∧ (∀ j, j < 32 → t.acuSet st.val a (1 - b) j = s.acuSet st.val a (1 - b) j)
        ∧ t.fld (acuReg st.val a 8) 1 2 = 0)
      ∧ (b = s.acuActive st.val a → t.flag (acuReg st.val a 8) 10 = true ∧ t.acu = s.acu)
      ∧ (acuLock (s.acuSet st.val a b i) = true → t.flag (acuReg st.val a 8) 12 = true ∧ t.acu = s.acu)
      ∧ t.quad (stopReg st.val sACU_RDATA) = t.acuSelected st.val
      ∧ (s.acuFrozen st.val a = false → regsBut [stopReg st.val sACU_SEL, stopReg st.val sACU_RDATA,
          stopReg st.val sACU_RDATA + 4, stopReg st.val sACU_RDATA + 8, stopReg st.val sACU_RDATA + 12,
          acuReg st.val a 8] s t)
      ∧ onlyParts [.regs, .acu] s t) := by
  have hb2 : b < 2 := hb ▸ fieldOf_lt _ _ _
  have hignored (h : b = s.acuActive st.val a ∨ acuLock (s.acuSet st.val a b i) = true) :=
    (State.acuEntry_set_ignored (u := s.selWritten st.val sel) (b := b) (v := s.acuWord st.val) hi32
      (by rw [State.acuActive_selWritten, State.acuSet_selWritten]; simpa using h)).latched
  rw [State.acuActive_selWritten, State.acuSet_selWritten] at hignored
  subst ha hb hi
  refine ⟨_, exec_acuEntryWrite hon hwr ha2 hthere, fun hact hlock hfree => ?_,
    fun hact => (hignored (.inl hact)).1 (beq_iff_eq.mpr hact), fun hlock => (hignored (.inr hlock)).2 hlock,
    State.quad_latched s _, fun hfree => regsBut_window sel (changes_acuEntry_set hi32
      ((s.acuFrozen_selWritten sel st.val _).trans hfree)),
    onlyParts_window sel (onlyParts_acuEntry_set hi32)⟩
  rw [State.acuSet_entryWritten rfl hi32 hact hlock hfree]
  rw [State.acuSet_latched, State.acuSet_setFld, State.fld_keepAcu, (State.changes_acuLatch _ _).fld not_latchReg_acuReg]
  refine ⟨State.acuSet_setAcuSet_same _ _ _ _ _ _, fun j _ hj => ?_, fun j hj => ?_,
    State.fld_setFld_same _ _ 1 2 0 (by decide)⟩
  · rw [State.acuSet_latched, State.acuSet_setFld, ← s.acuSet_selWritten sel]
    exact State.acuSet_setAcuSet_other _ _ _ _ _ _ _ _ _ _ (by omega)
  · rw [State.acuSet_latched, State.acuSet_setFld, ← s.acuSet_selWritten sel]
    exact State.acuSet_setAcuSet_other _ _ _ _ _ _ _ _ _ _ (by omega)

theorem completes_acuEntryWrite_def (hon : s.niOn st.val = true) (hwr : bitOf sel 31 = true) (ha : a = fieldOf sel 7 2)
    (hi : fieldOf sel 0 6 = 32 + i) (ha2 : a ≤ 2) (hthere : acuThere st.val a = true) (hi4 : i < 4) :
    completes (.acuEntryWrite st sel) s (fun t =>
      (s.fld gFAB_STATE 0 4 = 3 → acuLock (s.acuDef st.val a i) = false →
        t.acuDef st.val a i = s.acuWord st.val
        ∧ (∀ j, j < 4 → j ≠ i → t.acuDef st.val a j = s.acuDef st.val a j))
      ∧ (s.fld gFAB_STATE 0 4 ≠ 3 → t.flag (acuReg st.val a 8) 10 = true ∧ t.acu = s.acu)
      ∧ (acuLock (s.acuDef st.val a i) = true → t.flag (acuReg st.val a 8) 12 = true ∧ t.acu = s.acu)
      ∧ t.quad (stopReg st.val sACU_RDATA) = t.acuSelected st.val
      ∧ regsBut [stopReg st.val sACU_SEL, stopReg st.val sACU_RDATA, stopReg st.val sACU_RDATA + 4,
          stopReg st.val sACU_RDATA + 8, stopReg st.val sACU_RDATA + 12, acuReg st.val a 8] s t
      ∧ onlyParts [.regs, .acu] s t) := by
  have hignored (h : s.fld gFAB_STATE 0 4 ≠ 3 ∨ acuLock (s.acuDef st.val a i) = true) :=
    (State.acuEntry_def_ignored (u := s.selWritten st.val sel) (b := fieldOf sel 6 1) (v := s.acuWord st.val) hi4
      (by rw [State.fabState_selWritten, State.acuDef_selWritten]; simpa using h)).latched
  have hwindow := changes_acuEntry_def (u := s.selWritten st.val sel) (st := st.val) (a := a) (b := fieldOf sel 6 1)
    (v := s.acuWord st.val) hi4
  rw [State.fabState_selWritten, State.acuDef_selWritten] at hignored
  subst ha
  refine ⟨_, exec_acuEntryWrite hon hwr ha2 hthere, ?_⟩
  rw [hi]
  refine ⟨fun hconf hlock => ?_, fun hact => (hignored (.inl hact)).1 (bne_iff_ne.mpr hact),
    fun hlock => (hignored (.inr hlock)).2 hlock, State.quad_latched s _, regsBut_window sel hwindow,
    onlyParts_window sel hwindow.parts⟩
  have htaken : s.entryWritten st.val (fieldOf sel 7 2) (32 + i) sel
      = (s.selWritten st.val sel).setAcuDef st.val (fieldOf sel 7 2) i (s.acuWord st.val) :=
    State.acuEntry_def_taken hi4 (by rw [State.fabState_selWritten, State.acuDef_selWritten, hconf]; exact hlock)
  rw [htaken]
  rw [State.acuDef_latched]
  refine ⟨State.acuDef_setAcuDef_same _ _ _ _ _, fun j _ hj => ?_⟩
  rw [State.acuDef_latched, ← s.acuDef_selWritten sel]
  exact State.acuDef_setAcuDef_other _ _ _ _ _ _ _ _ (by omega)

/-- Without WR no entry changes; a stop that is off takes nothing. -/
theorem completes_acuEntryWrite_read (st : StopNo) (sel : Word32) (s : State) :
    completes (.acuEntryWrite st sel) s (fun t =>
      (s.niOn st.val = true → bitOf sel 31 = false → t.acu = s.acu
        ∧ t.reg (stopReg st.val sACU_SEL) = (sel &&& 0x1FF)
        ∧ t.quad (stopReg st.val sACU_RDATA) = t.acuSelected st.val)
      ∧ (s.niOn st.val = false → t = s)) := by
  cases hon : s.niOn st.val with
  | false => exact ⟨s, exec_acuEntryWrite_off hon, nofun, fun _ => rfl⟩
  | true =>
    cases hwr : bitOf sel 31 with
    | false =>
      refine ⟨_, exec_acuEntryWrite_read hon hwr, fun _ _ => ?_, nofun⟩
      rw [State.acu_keepAcu, State.acu_acuLatch, State.acu_selWritten, State.reg_keepAcu,
        (State.changes_acuLatch _ _).regs _ not_latchReg_sel]
      exact ⟨rfl, State.reg_setReg_same s _ _, State.quad_latched s _⟩
    | true =>
      obtain ⟨t, ht⟩ : ∃ t, exec (.acuEntryWrite st sel) s = .next t := by
        change ∃ t, execAcuEntryWrite st sel s = .next t
        unfold execAcuEntryWrite
        rw [if_neg (by simp [hon])]
        exact ⟨_, rfl⟩
      exact ⟨t, ht, nofun, nofun⟩

end

/-! ### ACU_SHADOW_CHECK -/

section
variable {st : StopNo} {a : Fin 3} {s : State}

/-- The result of a shadow check, with the cause and the first region that fails (R226). -/
theorem State.shadowCheck_passed {st a : Nat} (h : s.shadowFault st a = none) :
    (s.shadowCheck st a).fld (acuReg st a 8) 1 2 = 1 := by
  unfold State.shadowCheck
  rw [h]
  dsimp only
  rw [State.fld_setFld_below _ _ 5 5 0 1 2 (by decide) (by decide), State.fld_setFld_below _ _ 3 2 0 1 2 (by decide) (by decide),
    State.fld_setFld_same _ _ 1 2 1 (by decide)]
  rfl

theorem State.shadowFault_lt {st a c i : Nat} (h : s.shadowFault st a = some (c, i)) : c < 4 ∧ i < 32 := by
  unfold State.shadowFault at h
  dsimp only at h
  obtain ⟨j, hj, hc⟩ := Option.map_eq_some_iff.mp h
  have hj32 := List.mem_range.mp (List.mem_of_find?_eq_some hj)
  have hi := congrArg Prod.snd hc
  refine ⟨(congrArg Prod.fst hc).symm.trans_lt ?_, hi.symm.trans_lt hj32⟩
  dsimp only
  split
  · decide
  · split
    · decide
    · split <;> decide

theorem State.shadowCheck_failed {st a c i : Nat} (h : s.shadowFault st a = some (c, i)) :
    (s.shadowCheck st a).fld (acuReg st a 8) 1 2 = 2 ∧ (s.shadowCheck st a).fld (acuReg st a 8) 3 2 = c
      ∧ (s.shadowCheck st a).fld (acuReg st a 8) 5 5 = i := by
  obtain ⟨hc, hi⟩ := State.shadowFault_lt h
  unfold State.shadowCheck
  rw [h]
  dsimp only
  rw [State.fld_setFld_same _ _ 5 5 i (by decide), State.fld_setFld_below _ _ 5 5 i 3 2 (by decide) (by decide),
    State.fld_setFld_same _ _ 3 2 c (by decide), State.fld_setFld_below _ _ 5 5 i 1 2 (by decide) (by decide),
    State.fld_setFld_below _ _ 3 2 c 1 2 (by decide) (by decide), State.fld_setFld_same _ _ 1 2 2 (by decide)]
  exact ⟨rfl, Nat.mod_eq_of_lt hc, Nat.mod_eq_of_lt hi⟩

theorem changes_shadowCheck (s : State) (st a : Nat) : Changes (· = acuReg st a 8) [.regs] s (s.shadowCheck st a) := by
  unfold State.shadowCheck
  split
  · exact ((Changes.setFld_self _ _ _ _).trans (.setFld_self _ _ _ _)).trans (.setFld_self _ _ _ _)
  · exact ((Changes.setFld_self _ _ _ _).trans (.setFld_self _ _ _ _)).trans (.setFld_self _ _ _ _)

theorem Changes.regsBut_single {c : Nat} {ps : List Part} {s t : State} (h : Changes (· = c) ps s t) : regsBut [c] s t :=
  fun b hb => h.regs b fun he => hb (he ▸ List.mem_cons_self)

theorem completes_acuShadowCheck (st : StopNo) (a : Fin 3) (s : State) :
    completes (.acuShadowCheck st a) s (fun t =>
      (s.fld (acuReg st.val a.val 8) 1 2 = 0 → s.shadowFault st.val a.val = none →
        t.fld (acuReg st.val a.val 8) 1 2 = 1)
      ∧ (∀ c i, s.fld (acuReg st.val a.val 8) 1 2 = 0 → s.shadowFault st.val a.val = some (c, i) →
          t.fld (acuReg st.val a.val 8) 1 2 = 2
          ∧ t.fld (acuReg st.val a.val 8) 3 2 = c ∧ t.fld (acuReg st.val a.val 8) 5 5 = i)
      ∧ (s.fld (acuReg st.val a.val 8) 1 2 ≠ 0 → t = s)
      ∧ regsBut [acuReg st.val a.val 8] s t ∧ onlyParts [.regs] s t) := by
  have hexec : exec (.acuShadowCheck st a) s = execAcuShadowCheck st a s := rfl
  unfold execAcuShadowCheck at hexec
  by_cases h0 : s.fld (acuReg st.val a.val 8) 1 2 = 0
  · rw [if_pos h0] at hexec
    have hkeep := (changes_shadowCheck s st.val a.val).keepAcu
    exact ⟨_, hexec, fun _ hpass => State.shadowCheck_passed hpass, fun c i _ hfail => State.shadowCheck_failed hfail,
      fun h => absurd h0 h, hkeep.regsBut_single, hkeep.parts⟩
  · rw [if_neg h0] at hexec
    exact ⟨s, hexec, fun h => absurd h h0, fun _ _ h => absurd h h0, fun _ => rfl, fun _ _ => rfl, onlyParts_refl _ s⟩

end

/-! ### ACU_SWAP -/

section
variable {st : StopNo} {a : Fin 3} {s : State}

/-- ACU_CMD.SWAP has been written (R227). -/
def State.swapWritten (s : State) (st a : Nat) : State := s.setFld (acuReg st a 4) 0 1 1

theorem exec_acuSwap (hon : s.niOn st.val = true) (hthere : acuThere st.val a.val = true) :
    exec (.acuSwap st a) s = .next (s.keepAcu ((s.swapWritten st.val a.val).swapDecide st.val a.val)) := by
  change execAcuSwap st a s = _
  unfold execAcuSwap
  exact if_neg (by simp [hon, hthere])

theorem State.fld_stat_swapWritten (s : State) (st a lo w : Nat) :
    (s.swapWritten st a).fld (acuReg st a 8) lo w = s.fld (acuReg st a 8) lo w :=
  State.fld_setFld_other _ _ _ 0 1 1 lo w (acuReg_ne st a (by decide))

theorem State.acuActive_swapWritten (s : State) (st a : Nat) : (s.swapWritten st a).acuActive st a = s.acuActive st a :=
  State.fld_stat_swapWritten s st a 0 1

theorem State.flag_swapWritten (s : State) (st a : Nat) : (s.swapWritten st a).flag (acuReg st a 4) 0 = true :=
  State.flag_raiseFlag s _ 0 (by decide)

theorem changes_swapWritten (s : State) (st a : Nat) :
    Changes (fun b => b = acuReg st a 4 ∨ b = acuReg st a 8) [.regs] s (s.swapWritten st a) :=
  .setFld (.inl rfl) (by decide) 0 1 1

/-- A swap that no sideband request shares is decided by the result of the shadow check. -/
theorem State.swapDecide_register {st a : Nat} (hside : s.sideband st a = none) (hfree : s.acuFrozen st a = false) :
    (s.swapWritten st a).swapDecide st a
      = (if s.fld (acuReg st a 8) 1 2 = 0 then s.swapWritten st a
          else (s.swapWritten st a).swapEnded st a (s.fld (acuReg st a 8) 1 2 == 2)) := by
  have hnone (refused : Bool) : ((s.swapWritten st a).swapEnded st a refused).sideband st a = none :=
    (State.sideband_swapEnded refused).trans hside
  rw [State.swapDecide_asked (s := s.swapWritten st a) (.inl ⟨hside, s.flag_swapWritten st a⟩) hfree,
    State.fld_stat_swapWritten, State.sideAnswer_none (hnone _)]

theorem changes_swapDecide_register {st a : Nat} (hside : s.sideband st a = none) (hfree : s.acuFrozen st a = false) :
    Changes (fun b => b = acuReg st a 4 ∨ b = acuReg st a 8) [.regs] s ((s.swapWritten st a).swapDecide st a) := by
  rw [State.swapDecide_register hside hfree]
  exact .ite (changes_swapWritten s st a) ((changes_swapWritten s st a).trans (changes_swapEnded _))

/-- A refused swap leaves the active set and sets SWAP_REF (R227). -/
theorem State.swapEnded_refused (s : State) (st a : Nat) : (s.swapEnded st a true).acuActive st a = s.acuActive st a
    ∧ (s.swapEnded st a true).flag (acuReg st a 8) 11 = true := by
  refine ⟨(State.fld_stat_swapEnded true 0 1).trans ?_,
    (State.flag_congr (State.reg_setFld_other _ _ _ _ _ _ (acuReg_ne st a (by decide))) 11).trans ?_⟩
  · exact State.fld_setFld_below _ _ 11 1 1 0 1 (by decide) (by decide)
  · exact State.flag_raiseFlag s _ 11 (by decide)

theorem completes_acuSwap (hon : s.niOn st.val = true) (hthere : acuThere st.val a.val = true)
    (hfree : s.acuFrozen st.val a.val = false) (hside : s.sideband st.val a.val = none) :
    completes (.acuSwap st a) s (fun t =>
      (s.fld (acuReg st.val a.val 8) 1 2 ≠ 2 → s.fld (acuReg st.val a.val 8) 1 2 ≠ 0 →
        t.fld (acuReg st.val a.val 8) 0 1 = 1 - s.acuActive st.val a.val
        ∧ t.fld (acuReg st.val a.val 8) 1 2 = 0 ∧ t.fld (acuReg st.val a.val 4) 0 1 = 0)
      ∧ (s.fld (acuReg st.val a.val 8) 1 2 = 2 →
        t.acuActive st.val a.val = s.acuActive st.val a.val ∧ t.flag (acuReg st.val a.val 8) 11 = true
        ∧ t.fld (acuReg st.val a.val 4) 0 1 = 0)
      ∧ (s.fld (acuReg st.val a.val 8) 1 2 = 0 →
        t.acuActive st.val a.val = s.acuActive st.val a.val ∧ t.flag (acuReg st.val a.val 4) 0 = true)
      ∧ regsBut [acuReg st.val a.val 4, acuReg st.val a.val 8] s t ∧ onlyParts [.regs] s t) := by
  have hkeep := (changes_swapDecide_register hside hfree).keepAcu
  refine ⟨_, exec_acuSwap hon hthere, fun h2 h0 => ?_, fun h2 => ?_, fun h0 => ?_,
    fun b hb => hkeep.regs b (by simpa using hb), hkeep.parts⟩
  · rw [State.swapDecide_register hside hfree, if_neg h0, beq_false_of_ne h2]
    obtain ⟨hact, hpend⟩ := State.fld_stat_acuSwap (s := s.swapWritten st.val a.val) (st := st.val) (a := a.val)
    simp only [State.fld_keepAcu]
    exact ⟨(State.fld_stat_swapEnded false 0 1).trans (hact.trans (by rw [State.acuActive_swapWritten])),
      (State.fld_stat_swapEnded false 1 2).trans hpend, State.fld_cmd_swapEnded false⟩
  · rw [State.swapDecide_register hside hfree, if_neg (by omega), h2]
    obtain ⟨hact, href⟩ := (s.swapWritten st.val a.val).swapEnded_refused st.val a.val
    simp only [State.fld_keepAcu, State.acuActive_keepAcu, State.flag_keepAcu]
    exact ⟨hact.trans (State.acuActive_swapWritten s _ _), href, State.fld_cmd_swapEnded true⟩
  · rw [State.swapDecide_register hside hfree, if_pos h0]
    exact ⟨State.acuActive_swapWritten s _ _, State.flag_swapWritten s _ _⟩

/-- A partition change that waits is carried out with the swap (R156, R227). -/
theorem completes_acuSwap_change {part : Nat} (hon : s.niOn st.val = true) (hthere : acuThere st.val a.val = true)
    (hfree : s.acuFrozen st.val a.val = false) (hside : s.sideband st.val a.val = some part)
    (hdone : s.checksDone st.val a.val = true) (hbad : (s.port st.val a.val).pchgBad = false)
    (hpass : s.fld (acuReg st.val a.val 8) 1 2 = 1) :
    completes (.acuSwap st a) s (fun t =>
      t.fld (acuReg st.val a.val 8) 0 1 = 1 - s.acuActive st.val a.val
      ∧ (t.port st.val a.val).curPart = part ∧ (t.port st.val a.val).pchg = none
      ∧ (t.port st.val a.val).pchgAck = true ∧ (t.port st.val a.val).pchgErr = false) := by
  have ha : a.val < 2 := by
    by_contra ha
    exact absurd hside (by unfold State.sideband; simp [ha])
  have hp : (s.port st.val a.val).pchg = some part := (State.sideband_port s st.val ha).symm.trans hside
  have hpass' := (s.fld_stat_swapWritten st.val a.val 1 2).trans hpass
  obtain ⟨hport, hstat⟩ := State.swapDecide_carried (s := s.swapWritten st.val a.val) (k := ⟨a.val, ha⟩) hp hdone hfree
    hbad (by rw [hpass']; decide) (by rw [hpass']; decide)
  refine ⟨_, exec_acuSwap hon hthere, ((hstat 0 1).trans State.fld_stat_acuSwap.1).trans ?_, ?_⟩
  · rw [State.acuActive_swapWritten]
  · rw [State.port_keepAcu, hport]
    exact ⟨rfl, rfl, rfl, rfl⟩

end

/-- Settles O30: an entry is written whole or not at all, by what `State.acuEntry` finds against it, and a swap is
decided by `State.swapDecide` with SWAP standing. -/
theorem accessCheckUnitsChangeByEntryAndSwap : Obligations.AccessCheckUnitsChangeByEntryAndSwap := by
  unfold Obligations.AccessCheckUnitsChangeByEntryAndSwap
  exact ⟨fun st sel s a b i hon hwr ha hb hi ha2 hthere hi32 =>
      completes_acuEntryWrite_set hon hwr ha hb hi ha2 hthere hi32,
    fun st sel s a i hon hwr ha hi ha2 hthere hi4 => completes_acuEntryWrite_def hon hwr ha hi ha2 hthere hi4,
    completes_acuEntryWrite_read, completes_acuShadowCheck,
    fun st a s hon hthere hfree hside => completes_acuSwap hon hthere hfree hside,
    fun st a part s hon hthere hfree hside hdone hbad hpass =>
      completes_acuSwap_change hon hthere hfree hside hdone hbad hpass⟩

end Sys2Proof.Machine
end

section
/-! PROOFS. The filters and handshake timers of an agent port, and the ticks that are lost while the ring clock is held
(R145, R164, R165, R192, R333, R334). -/
namespace Sys2Proof.Machine
open Sys2Proof

/-! ### Glitches -/

section
variable (s : State) (st k : Nat)

@[simp] theorem State.reg_keepPort (t : State) (a : Nat) : (s.keepPort t).reg a = t.reg a := rfl

@[simp] theorem State.fld_keepPort (t : State) (a lo w : Nat) : (s.keepPort t).fld a lo w = t.fld a lo w := rfl

/-- A word of a port is not one that a record touches. -/
theorem portReg_ne_stopErrStat {k o : Nat} (hk : k < 2) (ho : o < 0x80) : portReg st k o ≠ stopReg st sSTOP_ERR_STAT := by
  unfold portReg stopReg sSTOP_ERR_STAT
  omega

theorem State.fld_portReg_raise {k : Nat} (hk : k < 2) (r : RecIn) {o : Nat} (ho : o < 0x80) (lo w : Nat) :
    (s.raise st r).fld (portReg st k o) lo w = s.fld (portReg st k o) lo w :=
  State.fld_congr (State.reg_raise_other s st r (portReg_ne_stopErrStat st hk ho)) lo w

/-- A glitch has been flagged and counted (R164). -/
def State.glitchNoted (s : State) (st k : Nat) : State :=
  (s.raiseFlag (portReg st k pERR) 8).count (portReg st k pCNT2) 0 8 1

theorem State.flag_glitchNoted : (s.glitchNoted st k).flag (portReg st k pERR) 8 = true :=
  (State.flag_congr (State.reg_count_other _ _ _ 0 8 1 (portReg_ne st k (by decide))) 8).trans
    (State.flag_raiseFlag s _ 8 (by decide))

theorem State.fld_glitchNoted : (s.glitchNoted st k).fld (portReg st k pCNT2) 0 8
    = satAdd 8 (s.fld (portReg st k pCNT2) 0 8) 1 :=
  (State.fld_count _ _ 0 8 1 (by decide)).trans
    (by rw [State.fld_congr (State.reg_raiseFlag_other s _ _ 8 (portReg_ne st k (by decide)))])

theorem State.ni_glitchNoted : (s.glitchNoted st k).ni = s.ni := by
  unfold State.glitchNoted
  rw [State.count_ni, State.raiseFlag_ni]

theorem State.changes_glitchNoted : Changes (fun a => a = portReg st k pERR ∨ a = portReg st k pCNT2) [.regs] s
    (s.glitchNoted st k) :=
  (Changes.setFld (A := fun a => a = portReg st k pERR ∨ a = portReg st k pCNT2) (.inl rfl) (by decide) 8 1 1).trans
    (.setFld (.inr rfl) (by decide) 0 8 _)

/-- The number of an input in the record of its glitch. -/
def glitchCode (which : AsyncIn) : Nat :=
  match which with
  | .rstN => 0
  | .stopReq => 1
  | .bellowsAck => 2

theorem exec_glitch {st : StopNo} {k : PortNo} (hgen : portGen st.val k.val ≠ 0) (which : AsyncIn) :
    exec (.glitch st k which) s = .next (s.keepPort ((s.glitchNoted st.val k.val).raise st.val (recGen k.val sevCORRECTED
      caGLITCH (some (s.curPart st.val k.val)) (specGen 0 0 0 0 0 0 (glitchCode which))))) := if_neg hgen

end

theorem completes_glitch (st : StopNo) (k : PortNo) (which : AsyncIn) (s : State) (hgen : portGen st.val k.val ≠ 0) :
    completes (.glitch st k which) s (fun t =>
      t.flag (portReg st.val k.val pERR) 8 = true
      ∧ t.fld (portReg st.val k.val pCNT2) 0 8 = satAdd 8 (s.fld (portReg st.val k.val pCNT2) 0 8) 1
      ∧ t.port st.val k.val = s.port st.val k.val
      ∧ regsBut [portReg st.val k.val pERR, portReg st.val k.val pCNT2, stopReg st.val sSTOP_ERR_STAT] s t
      ∧ onlyParts [.regs, .recs] s t) := by
  have hchanges := s.changes_glitchNoted st.val k.val
  refine ⟨_, exec_glitch s hgen which, ?_, ?_, ?_, fun a ha => ?_, ?_⟩
  · rw [State.flag_keepPort, State.flag_raise_pERR]
    exact s.flag_glitchNoted st.val k.val
  · rw [State.fld_keepPort, State.fld_portReg_raise _ _ k.isLt _ (by decide)]
    exact s.fld_glitchNoted st.val k.val
  · rw [State.port_keepPort]
    exact congrArg (fun n => Tab.get defPort (NiSt.ports n) (st.val * 2 + k.val))
      ((State.ni_raise _ _ _).trans (s.ni_glitchNoted st.val k.val))
  · simp only [List.mem_cons, List.not_mem_nil, or_false, not_or] at ha
    obtain ⟨herr, hcnt, hstat⟩ := ha
    rw [State.reg_keepPort, State.reg_raise_other _ _ _ hstat]
    exact hchanges.regs a fun h => h.elim herr hcnt
  · exact onlyParts_keepPort_of
      (onlyParts_trans (onlyParts_mono hchanges.parts (by decide)) (State.onlyParts_raise _ _ _))

/-! ### Handshakes that time out -/

section
variable (s : State) (st k : Nat)

theorem State.ni_hsTimeout (f : Nat) (c : Chan) : (s.hsTimeout st k f c).ni = s.ni :=
  (State.ni_raise _ _ _).trans (State.ni_portErr s st k f 24)

theorem State.onlyParts_hsTimeout (f : Nat) (c : Chan) : onlyParts [.regs, .recs] s (s.hsTimeout st k f c) :=
  onlyParts_trans (onlyParts_mono (State.onlyParts_portErr s st k f 24) (by decide)) (State.onlyParts_raise _ _ _)

/-- A handshake timeout has been flagged and counted (R165). -/
structure HsNoted (st k f : Nat) (s t : State) : Prop where
  flag : t.flag (portReg st k pERR) f = true
  count : t.fld (portReg st k pERRCNT) 24 8 = satAdd 8 (s.fld (portReg st k pERRCNT) 24 8) 1

theorem HsNoted.hsTimeout {k f : Nat} (hk : k < 2) (hf : f < 32) (c : Chan) : HsNoted st k f s (s.hsTimeout st k f c) where
  flag := (State.flag_raise_pERR _ st k f _).trans (State.flag_portErr s st k hf 24)
  count := by
    unfold State.hsTimeout State.portErr
    rw [State.fld_portReg_raise _ _ hk _ (by decide), State.fld_count _ _ 24 8 1 (by decide),
      State.fld_congr (State.reg_raiseFlag_other s _ _ f (portReg_ne st k (by decide)))]

variable {s st k}

/-- What leaves the port's error registers leaves the timeout noted. -/
theorem HsNoted.of_regs {f : Nat} {t u : State} (h : HsNoted st k f s t)
    (hregs : ∀ o, o < 0x80 → u.reg (portReg st k o) = t.reg (portReg st k o)) : HsNoted st k f s u :=
  ⟨(State.flag_congr (hregs pERR (by decide)) f).trans h.flag,
    (State.fld_congr (hregs pERRCNT (by decide)) 24 8).trans h.count⟩

theorem HsNoted.of_setPort {f : Nat} {v : PortSt} {t : State} (h : HsNoted st k f (s.setPort st k v) t) :
    HsNoted st k f s t := ⟨h.flag, h.count⟩

theorem HsNoted.keepPort {f : Nat} {t : State} (h : HsNoted st k f s t) : HsNoted st k f s (s.keepPort t) :=
  ⟨h.flag, h.count⟩

theorem PortNoted.hsTimeout (s : State) (hst : st < nStops) (hk : k < 2) {f : Nat} (hf : f < 32) (c : Chan) :
    PortNoted st k s (s.hsTimeout st k f c) := (PortNoted.portErr s hf 24).trans (.raise _ hst hk _)

/-! ### A request or message cut short -/

theorem State.regs_noteTag (s : State) (st k tag : Nat) : (s.noteTag st k tag).regs = s.regs := by
  unfold State.noteTag
  simp only
  split <;> rfl

/-- The state in which a packet that was cut short is refused. -/
def State.cutNoted (s : State) (st k : Nat) (c : Chan) (tag : Nat) : State :=
  (s.hsTimeout st k 6 c).noteTag st k (s.captureTag st k tag)

theorem State.cutShort_eq (s : State) (c : Chan) (tag opc addr part : Nat) : s.cutShort st k c tag opc addr part
    = (s.cutNoted st k c tag).refuseTxn st k ((s.cutNoted st k c tag).badTxn st k tag opc addr
        ((s.cutNoted st k c tag).portPart st k part)) stPROTERR := rfl

theorem HsNoted.cutShort (s : State) (hk : k < 2) (c : Chan) (tag opc addr part : Nat) :
    HsNoted st k 6 s (s.cutShort st k c tag opc addr part) := by
  refine (HsNoted.hsTimeout s st hk (f := 6) (by decide) c).of_regs fun o _ => State.reg_congr ?_ _
  rw [State.cutShort_eq, State.regs_refuseTxn]
  exact State.regs_noteTag _ _ _ _

/-- A request or message cut short is refused with PROTERR under the tag that the port gives it (R165, R334). -/
theorem RefusedAs.cutShort (s : State) (hst : st < nStops) (hk : k < 2) (c : Chan) (tag opc addr part : Nat) :
    ∃ x : Txn, x.opc = opc ∧ x.tag = s.fullTag st k tag
      ∧ RefusedAs st k x stPROTERR s (s.cutShort st k c tag opc addr part) := by
  have hnoted : PortNoted st k s (s.cutNoted st k c tag) := (PortNoted.hsTimeout s hst hk (by decide) c).trans (.noteTag _ _)
  rw [State.cutShort_eq]
  exact ⟨_, rfl, hnoted.fullTag tag, hnoted.refusedAs (.refuseTxn _ hst hk _ _)⟩

/-- Such a packet is answered if it expects a response, and given up otherwise. -/
theorem State.txns_cutShort (s : State) (hst : st < nStops) (hk : k < 2) (c : Chan) (tag opc addr part : Nat) :
    (expectsRsp opc = true → txnAdded st k s (s.cutShort st k c tag opc addr part) (fun x => x.phase = .ready
        ∧ x.status = stPROTERR ∧ x.tag = s.fullTag st k tag))
      ∧ (expectsRsp opc = false → (s.cutShort st k c tag opc addr part).txns st k = s.txns st k) := by
  obtain ⟨x, hopc, htag, href⟩ := RefusedAs.cutShort s hst hk c tag opc addr part
  obtain ⟨hadded, hsilent, _⟩ := href
  rw [hopc, htag] at hadded
  rw [hopc] at hsilent
  exact ⟨hadded, hsilent⟩

/-! ### A response cut short -/

theorem changes_answerTarget (s : State) (hst : st < nStops) (k : Nat) (x : TTxn) (status sub : Nat)
    (data : List (BitVec 512)) (pois : Bool) :
    Changes tallyReg [.regs, .ni] s (s.answerTarget st k x status sub data pois) := by
  have hlock (u : State) (h : Slot) : Changes tallyReg [.regs, .ni] u (u.endLock st k h) :=
    .ite (.of_regs rfl (onlyParts_mono (State.onlyParts_setPort u st k _) (by decide))) (.refl u)
  unfold State.answerTarget
  exact (changes_offerOn s hst k _ none false .plain).trans (hlock _ _)

theorem changes_takeRspIn (s : State) (hst : st < nStops) (k i : Nat) (x : TTxn) (r : RspIn) (status : Nat) (pois : Bool) :
    Changes tallyReg [.regs, .ni] s (s.takeRspIn st k i x r status pois) := by
  have hset (ts : List TTxn) : Changes tallyReg [.regs, .ni] s (s.setTtxns st k ts) :=
    .of_regs rfl (onlyParts_mono (onlyParts_setNi s _) (by decide))
  unfold State.takeRspIn
  exact .ite ((hset _).trans (changes_answerTarget _ hst k _ _ _ _ _)) (hset _)

/-- What a response whose beats did not all come leaves: it counts as the answer of the request that it names. -/
def State.rspCut (s : State) (st k : Nat) (r : RspIn) : State :=
  match (s.hsTimeout st k 6 .rsp).ttxnFor st k r.tag with
  | none => s.hsTimeout st k 6 .rsp
  | some (x, i) => (s.hsTimeout st k 6 .rsp).takeRspIn st k i x { r with beats := [] } stSLVERR false

theorem State.ttxns_hsTimeout (s : State) (f : Nat) (c : Chan) : (s.hsTimeout st k f c).ttxns st k = s.ttxns st k := by
  unfold State.ttxns
  rw [State.ni_hsTimeout]

theorem State.rspCut_none {r : RspIn} (h : s.ttxnFor st k r.tag = none) : s.rspCut st k r = s.hsTimeout st k 6 .rsp := by
  unfold State.rspCut
  rw [State.ttxnFor_congr (State.ttxns_hsTimeout s 6 .rsp), h]

theorem State.rspCut_some {r : RspIn} {x : TTxn} {i : Nat} (h : s.ttxnFor st k r.tag = some (x, i)) :
    s.rspCut st k r = (s.hsTimeout st k 6 .rsp).takeRspIn st k i x { r with beats := [] } stSLVERR false := by
  unfold State.rspCut
  rw [State.ttxnFor_congr (State.ttxns_hsTimeout s 6 .rsp), h]

theorem HsNoted.rspCut (s : State) (hst : st < nStops) (hk : k < 2) (r : RspIn) : HsNoted st k 6 s (s.rspCut st k r) := by
  have hnoted := HsNoted.hsTimeout s st hk (f := 6) (by decide) .rsp
  cases h : s.ttxnFor st k r.tag with
  | none =>
    rw [State.rspCut_none h]
    exact hnoted
  | some e =>
    obtain ⟨x, i⟩ := e
    rw [State.rspCut_some h]
    exact hnoted.of_regs fun o ho => (changes_takeRspIn _ hst k i x _ _ _).regs _ (not_tallyReg_port hk ho)

theorem State.ttxns_rspCut_none {r : RspIn} (h : s.ttxnFor st k r.tag = none) :
    (s.rspCut st k r).ttxns st k = s.ttxns st k := by
  rw [State.rspCut_none h, State.ttxns_hsTimeout]

theorem State.ttxns_rspCut_last {r : RspIn} {x : TTxn} {i : Nat} (h : s.ttxnFor st k r.tag = some (x, i))
    (hlast : x.bursts ≤ 1) : (s.rspCut st k r).ttxns st k = (s.ttxns st k).eraseIdx i := by
  rw [State.rspCut_some h, State.takeRspIn_last _ _ _ _ hlast, State.ttxns_hsTimeout]

end

/-! ### HS_TIMEOUT_IN -/

section
variable {st : StopNo} {k : PortNo} {s : State}

section
variable (hgen : portGen st.val k.val ≠ 0) (hopen : (s.port st.val k.val).state = 2)
include hgen hopen

theorem exec_hsTimeoutIn_dat (hearly : (s.port st.val k.val).early ≠ []) : exec (.hsTimeoutIn st k .dat) s
    = .next (s.keepPort ((s.setPort st.val k.val { s.port st.val k.val with early := [] }).hsTimeout
        st.val k.val 6 .dat)) := by
  change execHsTimeoutIn st k .dat s = _
  unfold execHsTimeoutIn
  dsimp only
  rw [if_neg hgen, if_neg (by simp [hopen]), if_neg (by simpa using hearly)]

/-- The dat beats that a request cut short leaves to the next one (R145). -/
theorem exec_hsTimeoutIn_req (q : AgentReq) : ∃ e, exec (.hsTimeoutIn st k (.req q)) s
    = .next (s.keepPort ((s.setPort st.val k.val { s.port st.val k.val with early := e }).cutShort
        st.val k.val .req q.tag q.opc q.addr q.part)) := by
  refine ⟨if opCarriesData q.opc then (cutLast (s.port st.val k.val).early).2 else (s.port st.val k.val).early, ?_⟩
  change execHsTimeoutIn st k (.req q) s = _
  unfold execHsTimeoutIn
  dsimp only
  rw [if_neg hgen, if_neg (by simp [hopen])]

theorem exec_hsTimeoutIn_msg (m : MsgIn) : exec (.hsTimeoutIn st k (.msg m)) s
    = .next (s.keepPort (s.cutShort st.val k.val .msg m.tag m.opc m.qaddr m.part)) := by
  change execHsTimeoutIn st k (.msg m) s = _
  unfold execHsTimeoutIn
  dsimp only
  rw [if_neg hgen, if_neg (by simp [hopen])]

theorem exec_hsTimeoutIn_rsp (r : RspIn) :
    exec (.hsTimeoutIn st k (.rsp r)) s = .next (s.keepPort (s.rspCut st.val k.val r)) := by
  change execHsTimeoutIn st k (.rsp r) s = _
  unfold execHsTimeoutIn State.rspCut
  dsimp only
  rw [if_neg hgen, if_neg (by simp [hopen])]
  cases (s.hsTimeout st.val k.val 6 .rsp).ttxnFor st.val k.val r.tag <;> rfl

end

/-- What becomes of the part of a packet that did not come whole (R165, R334). -/
def hsCut (st k : Nat) (s t : State) : HsPart → Prop
  | .req q => (expectsRsp q.opc = true → txnAdded st k s t (fun x => x.phase = .ready ∧ x.status = stPROTERR
      ∧ x.tag = s.fullTag st k q.tag)) ∧ (expectsRsp q.opc = false → t.txns st k = s.txns st k)
  | .dat => (t.port st k).early = [] ∧ t.txns st k = s.txns st k
  | .msg m => expectsRsp m.opc = true → txnAdded st k s t (fun x => x.phase = .ready ∧ x.status = stPROTERR
      ∧ x.tag = s.fullTag st k m.tag)
  | .rsp r => (∀ x i, s.ttxnFor st k r.tag = some (x, i) → x.bursts ≤ 1 →
      t.ttxns st k = (s.ttxns st k).eraseIdx i) ∧ (s.ttxnFor st k r.tag = none → t.ttxns st k = s.ttxns st k)

theorem State.datCut (s : State) : hsCut st.val k.val s (s.keepPort ((s.setPort st.val k.val
    { s.port st.val k.val with early := [] }).hsTimeout st.val k.val 6 .dat)) .dat := by
  have hnoted : PortNoted st.val k.val s (s.setPort st.val k.val { s.port st.val k.val with early := [] }) :=
    .setPort rfl rfl fun _ h => h
  refine ⟨?_, (hnoted.trans (.hsTimeout _ st.isLt k.isLt (by decide) .dat)).txnsAt st.val k.val⟩
  have hport := congrArg (fun n => Tab.get defPort (NiSt.ports n) (st.val * 2 + k.val))
    (State.ni_hsTimeout (s.setPort st.val k.val { s.port st.val k.val with early := [] }) st.val k.val 6 .dat)
  exact (congrArg PortSt.early hport).trans (congrArg PortSt.early (State.port_setPort_same s st.val k.val _))

theorem State.reqCut (s : State) (q : AgentReq) (e : List Beat) :
    hsCut st.val k.val s (s.keepPort ((s.setPort st.val k.val { s.port st.val k.val with early := e }).cutShort
      st.val k.val .req q.tag q.opc q.addr q.part)) (.req q) := by
  have hnoted : PortNoted st.val k.val s (s.setPort st.val k.val { s.port st.val k.val with early := e }) :=
    .setPort rfl rfl fun _ h => h
  obtain ⟨hadded, hsilent⟩ := State.txns_cutShort (s.setPort st.val k.val { s.port st.val k.val with early := e })
    st.isLt k.isLt .req q.tag q.opc q.addr q.part
  rw [hnoted.fullTag] at hadded
  exact ⟨fun hrsp => hnoted.txnAdded (hadded hrsp), fun hrsp => (hsilent hrsp).trans (hnoted.txnsAt _ _)⟩

theorem completes_hsTimeoutIn (part : HsPart) (hgen : portGen st.val k.val ≠ 0)
    (hopen : (s.port st.val k.val).state = 2) (hearly : part = .dat → (s.port st.val k.val).early ≠ []) :
    completes (.hsTimeoutIn st k part) s (fun t => HsNoted st.val k.val 6 s t ∧ hsCut st.val k.val s t part
      ∧ onlyParts [.regs, .ni, .recs, .pmu, .free] s t) := by
  cases part with
  | dat => exact ⟨_, exec_hsTimeoutIn_dat hgen hopen (hearly rfl),
      (HsNoted.hsTimeout _ st.val k.isLt (by decide) .dat).of_setPort.keepPort, s.datCut, onlyParts_keepPort s _⟩
  | req q =>
    obtain ⟨e, hexec⟩ := exec_hsTimeoutIn_req hgen hopen q
    exact ⟨_, hexec, (HsNoted.cutShort _ k.isLt .req q.tag q.opc q.addr q.part).of_setPort.keepPort, s.reqCut q e,
      onlyParts_keepPort s _⟩
  | msg m => exact ⟨_, exec_hsTimeoutIn_msg hgen hopen m,
      (HsNoted.cutShort s k.isLt .msg m.tag m.opc m.qaddr m.part).keepPort,
      (State.txns_cutShort s st.isLt k.isLt .msg m.tag m.opc m.qaddr m.part).1, onlyParts_keepPort s _⟩
  | rsp r => exact ⟨_, exec_hsTimeoutIn_rsp hgen hopen r, (HsNoted.rspCut s st.isLt k.isLt r).keepPort,
      ⟨fun _ _ => State.ttxns_rspCut_last, State.ttxns_rspCut_none⟩, onlyParts_keepPort s _⟩

/-! ### HS_TIMEOUT_OUT -/

/-- The port, with the beat that channel `c` offers marked as reported. -/
def PortSt.reported (v : PortSt) (c : Chan) : PortSt := v.setFifo c { v.fifo c with late := true }

theorem exec_hsTimeoutOut {c : Chan} (hgen : portGen st.val k.val ≠ 0) (hopen : (s.port st.val k.val).state = 2)
    (hoff : ((s.port st.val k.val).offered (portGen st.val k.val) c).isSome = true)
    (hlate : ((s.port st.val k.val).fifo c).late = false) : exec (.hsTimeoutOut st k c) s
      = .next (s.keepPort ((s.setPort st.val k.val ((s.port st.val k.val).reported c)).hsTimeout st.val k.val 7 c)) := by
  change execHsTimeoutOut st k c s = _
  unfold execHsTimeoutOut
  dsimp only
  rw [if_neg hgen, if_neg]
  · rfl
  · rw [hlate, Option.isNone_eq_false_iff.mpr hoff]
    simp [hopen]

theorem completes_hsTimeoutOut {c : Chan} (hgen : portGen st.val k.val ≠ 0) (hopen : (s.port st.val k.val).state = 2)
    (hoff : ((s.port st.val k.val).offered (portGen st.val k.val) c).isSome = true)
    (hlate : ((s.port st.val k.val).fifo c).late = false) :
    completes (.hsTimeoutOut st k c) s (fun t =>
      t.flag (portReg st.val k.val pERR) 7 = true
      ∧ t.fld (portReg st.val k.val pERRCNT) 24 8 = satAdd 8 (s.fld (portReg st.val k.val pERRCNT) 24 8) 1
      ∧ t.port st.val k.val = (s.port st.val k.val).reported c
      ∧ onlyParts [.regs, .ni, .recs] s t) := by
  have hset := State.onlyParts_setPort s st.val k.val ((s.port st.val k.val).reported c)
  obtain ⟨hflag, hcount⟩ := (HsNoted.hsTimeout (s.setPort st.val k.val ((s.port st.val k.val).reported c))
    st.val k.isLt (f := 7) (by decide) c).of_setPort.keepPort
  refine ⟨_, exec_hsTimeoutOut hgen hopen hoff hlate, hflag, hcount, ?_, onlyParts_keepPort_of
    (onlyParts_trans (onlyParts_mono hset (by decide)) (onlyParts_mono (State.onlyParts_hsTimeout _ _ _ _ _) (by decide)))⟩
  rw [State.port_keepPort]
  exact (congrArg (fun n => Tab.get defPort (NiSt.ports n) (st.val * 2 + k.val)) (State.ni_hsTimeout _ _ _ _ _)).trans
    (State.port_setPort_same s st.val k.val _)

/-! ### TICK_LOST -/

/-- What TICK_LOST keeps of the state that it reaches: 15 ticks wait, and the stops of `lost` have recorded a loss. -/
def State.keepTicks (s t : State) (lost : List Nat) : State :=
  { s with regs := t.regs, recs := t.recs, cdc := { s.cdc with ticks := 15, lost := lost } }

/-- Lost ticks have been flagged and counted (R333). -/
def State.ticksNoted (s : State) (n : Nat) : State := (s.raiseFlag gCDC_GSTAT 0).count gCDC_GSTAT 16 16 n

theorem State.flag_ticksNoted (s : State) (n : Nat) : (s.ticksNoted n).flag gCDC_GSTAT 0 = true :=
  (State.flag_setFld_below _ _ 16 16 _ 0 (by decide) (by decide)).trans (State.flag_raiseFlag s _ 0 (by decide))

theorem State.fld_ticksNoted (s : State) (n : Nat) :
    (s.ticksNoted n).fld gCDC_GSTAT 16 16 = satAdd 16 (s.fld gCDC_GSTAT 16 16) n :=
  (State.fld_count _ _ 16 16 n (by decide)).trans
    (by unfold State.raiseFlag; rw [State.fld_setFld_above _ _ 0 1 1 16 16 (by decide) (by decide)])

theorem onlyParts_keepTicks (s t : State) (lost : List Nat) : onlyParts [.regs, .recs, .cdc] s (s.keepTicks t lost) := by
  intro p hp
  cases p with
  | regs | recs | cdc => exact absurd hp (by decide)
  | _ => rfl

/-- The first loss of a hold at a stop is recorded; a later one is counted alone. -/
theorem exec_tickLost (n : Nat) (hhold : s.cdc.hold = true) : ∃ t lost,
    exec (.tickLost st n) s = .next (s.keepTicks t lost) ∧ st.val ∈ lost
      ∧ t.reg gCDC_GSTAT = (s.ticksNoted n).reg gCDC_GSTAT := by
  have hexec : exec (.tickLost st n) s = execTickLost st n s := rfl
  unfold execTickLost at hexec
  rw [if_neg (by simp [hhold])] at hexec
  dsimp only at hexec
  by_cases hlost : s.cdc.lost.contains st.val = true
  · rw [if_pos hlost] at hexec
    have hrecs : (s.ticksNoted n).recs = s.recs := by
      unfold State.ticksNoted
      rw [State.count_recs, State.raiseFlag_recs]
    refine ⟨s.ticksNoted n, s.cdc.lost, hexec.trans ?_, List.contains_iff_mem.mp hlost, rfl⟩
    unfold State.keepTicks
    rw [hrecs]
    rfl
  · rw [if_neg hlost] at hexec
    exact ⟨_, s.cdc.lost ++ [st.val], hexec, List.mem_append_right _ List.mem_cons_self,
      State.reg_raise_other _ _ _ (by unfold gCDC_GSTAT stopReg; omega)⟩

theorem completes_tickLost (n : Nat) (hhold : s.cdc.hold = true) :
    completes (.tickLost st n) s (fun t =>
      t.flag gCDC_GSTAT 0 = true ∧ st.val ∈ t.cdc.lost ∧ t.cdc.ticks = 15
      ∧ t.fld gCDC_GSTAT 16 16 = satAdd 16 (s.fld gCDC_GSTAT 16 16) n ∧ onlyParts [.regs, .recs, .cdc] s t) := by
  obtain ⟨t, lost, hexec, hmem, hreg⟩ := exec_tickLost (st := st) n hhold
  exact ⟨_, hexec, (State.flag_congr hreg 0).trans (s.flag_ticksNoted n), hmem, rfl,
    (State.fld_congr hreg 16 16).trans (s.fld_ticksNoted n), onlyParts_keepTicks s t lost⟩

end

/-- Settles O24: a timeout is noted first (`HsNoted`), and what it cuts short is then refused, given up or answered in
its agent's place; the mark of a beat that has been reported is log entry 9. -/
theorem portFiltersAndTimeouts : Obligations.PortFiltersAndTimeouts := by
  unfold Obligations.PortFiltersAndTimeouts
  refine ⟨completes_glitch, fun st k part s hgen hopen hearly =>
      completes_mono (completes_hsTimeoutIn part hgen hopen hearly) ?_,
    fun st k c s hgen hopen hoff hlate => completes_hsTimeoutOut hgen hopen hoff hlate,
    fun st n s hhold => completes_tickLost n hhold⟩
  rintro t ⟨⟨hflag, hcount⟩, hcut, hparts⟩
  refine ⟨hflag, hcount, fun q hq => ?_, fun q hq => ?_, fun m hm => ?_, fun hd => ?_, fun r x i hr => ?_,
    fun r hr => ?_, hparts⟩
  · subst hq; exact hcut.1
  · subst hq; exact hcut.2
  · subst hm; exact hcut
  · subst hd; exact hcut
  · subst hr; exact hcut.1 x i
  · subst hr; exact hcut.2

end Sys2Proof.Machine
end

section
/-! PROOFS. The resets of an agent port, its resynchronisation and its recovery (R153, R164, R168, R200, R201, R330,
R334 to R338). -/
namespace Sys2Proof.Machine
open Sys2Proof

/-! ### What the settling of a port's packets leaves -/

/-- A port's tag generation, its requests at the agent and every register that does not count packets are the same in
`s` and `t`. -/
structure AgentKept (st k : Nat) (s t : State) : Prop where
  tgen : (t.port st k).tgen = (s.port st k).tgen
  ttxns : t.ttxns st k = s.ttxns st k
  regs : ∀ a, ¬ tallyReg a → t.reg a = s.reg a

namespace AgentKept
variable {st k : Nat} {s t u : State}

theorem refl (s : State) : AgentKept st k s s := ⟨rfl, rfl, fun _ _ => rfl⟩

theorem trans (h : AgentKept st k s t) (h' : AgentKept st k t u) : AgentKept st k s u :=
  ⟨h'.tgen.trans h.tgen, h'.ttxns.trans h.ttxns, fun a ha => (h'.regs a ha).trans (h.regs a ha)⟩

theorem ite {c : Prop} [Decidable c] (ht : AgentKept st k s t) (hu : AgentKept st k s u) :
    AgentKept st k s (if c then t else u) := by
  split <;> assumption

theorem of_ports (hports : t.ni.ports = s.ni.ports) (httxns : t.ni.ttxns = s.ni.ttxns)
    (hregs : ∀ a, ¬ tallyReg a → t.reg a = s.reg a) : AgentKept st k s t := by
  refine ⟨?_, ?_, hregs⟩
  · unfold State.port
    rw [hports]
  · unfold State.ttxns
    rw [httxns]

theorem of_changes {ps : List Part} (h : Changes tallyReg ps s t) (hni : t.ni = s.ni) : AgentKept st k s t :=
  of_ports (by rw [hni]) (by rw [hni]) h.regs

theorem setPort {v : PortSt} (hgen : v.tgen = (s.port st k).tgen) : AgentKept st k s (s.setPort st k v) := by
  refine ⟨?_, rfl, fun _ _ => rfl⟩
  rw [State.port_setPort_same]
  exact hgen

theorem setTxns (s : State) (p : Nat) (v : List Txn) : AgentKept st k s (s.setTxns st p v) := .of_ports rfl rfl fun _ _ => rfl

theorem setOseq (s : State) (o : Tab Nat) : AgentKept st k s { s with ni := { s.ni with oseq := o } } :=
  .of_ports rfl rfl fun _ _ => rfl

theorem setPend (s : State) (r : Nat) (v : List Pend) : AgentKept st k s (s.setPend st r v) :=
  .of_ports rfl rfl fun _ _ => rfl

theorem setHeld (s : State) (p : Nat) (v : List Held) : AgentKept st k s (s.setHeld st p v) :=
  .of_ports rfl rfl fun _ _ => rfl

theorem setInjq (s : State) (q : Nat) (v : List QPkt) : AgentKept st k s (s.setInjq st q v) :=
  .of_ports rfl rfl fun _ _ => rfl

theorem setDir (s : State) (d : Nat) (v : DirSt) : AgentKept st k s (s.setDir st d v) := .of_ports rfl rfl fun _ _ => rfl

theorem raise (s : State) (hst : st < nStops) (r : RecIn) : AgentKept st k s (s.raise st r) :=
  .of_changes (changes_raise s hst r) (State.ni_raise s st r)

theorem txnCnt (s : State) (hst : st < nStops) {n : Nat} (hn : n < 11) : AgentKept st k s (s.txnCnt st n) :=
  .of_changes (ps := [.regs]) (Changes.setFld (tallyReg_stop hst
    (List.mem_append_right _ (List.mem_map.mpr ⟨n, List.mem_range.mpr hn, rfl⟩))) (by decide) 0 32 _) rfl

end AgentKept

/-- A packet given to a network interface changes the queues, the receive stages and the high-water marks alone,
whatever its mark. -/
theorem State.offerOn_ni_keeps {τ : Type} {g : NiSt → τ}
    (hg : ∀ n a b c, g { n with injq := a, held := b, hwm := c } = g n) (s : State) (st port : Nat) (p : Pkt)
    (ctx : Option Nat) (resend : Bool) (m : QMark) : g (s.offerOn st port p ctx resend m).ni = g s.ni := by
  unfold State.offerOn
  cases ctx with
  | some c =>
    simp only
    split
    · exact State.enterQueue_ni_keeps hg s _ _ _ _ _ _
    · exact hg s.ni s.ni.injq _ s.ni.hwm
  | none =>
    simp only
    split
    · exact (State.enterQueue_ni_keeps hg _ _ _ _ _ _ _).trans (congrArg g (State.ni_mapCtx s st _))
    · exact hg s.ni s.ni.injq _ s.ni.hwm

section
variable {st k : Nat} (hst : st < nStops)
include hst

theorem AgentKept.offerOn (s : State) (port : Nat) (p : Pkt) (ctx : Option Nat) (resend : Bool) (m : QMark) :
    AgentKept st k s (s.offerOn st port p ctx resend m) :=
  .of_ports (State.offerOn_ni_keeps (g := NiSt.ports) (fun _ _ _ _ => rfl) s st port p ctx resend m)
    (State.offerOn_ni_keeps (g := NiSt.ttxns) (fun _ _ _ _ => rfl) s st port p ctx resend m)
    (changes_offerOn s hst port p ctx resend m).regs

omit hst in
/-- The packets of a piece leave their queue and their port's receive stage (R200). -/
theorem AgentKept.withdraw (s : State) (p tag addr : Nat) (part : Bool) :
    AgentKept st k s (s.withdraw st p tag addr part) := by
  unfold State.withdraw
  refine .trans (foldl_keeps (AgentKept st k s) _ _ s (fun u q hu => ?_) (.refl s)) (.setHeld _ _ _)
  simp only
  refine hu.trans (.ite (.trans (.setInjq u _ _) (.ite ?_ (.refl _))) (.refl u))
  exact forUpTo_keeps (AgentKept st k _) 4 _ _
    (fun d v _ hv => hv.trans (.ite (.setDir v _ _) (.refl v))) (.refl _)

omit hst in
theorem AgentKept.voidPend (s : State) (p tag : Nat) : AgentKept st k s (s.voidPend st p tag) :=
  foldl_keeps (AgentKept st k s) _ _ s (fun u _ hu => hu.trans (.setPend u _ _)) (.refl s)

theorem AgentKept.addTxn (s : State) (x : Txn) : AgentKept st k s (s.addTxn st k x) := by
  have hcount : AgentKept st k s (if s.tagHeld st k x then s.txnCnt st 9 else s) :=
    .ite (.txnCnt s hst (by decide)) (.refl s)
  rw [State.addTxn_eq]
  exact (hcount.trans (.setTxns _ k _)).trans (.setPort rfl)

omit hst in
theorem AgentKept.noteLock (s : State) (x : Txn) (c : Piece) : AgentKept st k s (s.noteLock st k x c) :=
  .ite (.ite (.setPort rfl) (.ite (.setPort rfl) (.refl s))) (.refl s)

theorem AgentKept.sendPiece (s : State) (n : Nat) (x : Txn) (i : Nat) (c : Piece) :
    AgentKept st k s (s.sendPiece st k n x i c) := by
  unfold State.sendPiece
  refine .trans ?_ (.offerOn hst _ _ _ _ _ _)
  refine .trans ?_ (.noteLock _ _ _)
  refine .trans ?_ (.setTxns _ k _)
  exact .ite (.setOseq s _) (.refl s)

theorem AgentKept.sendUnlock (s : State) (h : Nat × Nat × Nat) : AgentKept st k s (s.sendUnlock st k h) := by
  have hadd := AgentKept.addTxn (k := k) hst s (unlockTxn s st k h)
  unfold State.sendUnlock
  simp only
  split
  · exact hadd
  · exact (hadd.trans (.sendPiece hst _ _ _ _ _)).trans (.setTxns _ k _)

/-- The initiator side of a reset (R200). -/
theorem AgentKept.settleInitiator (s : State) : AgentKept st k s (s.settleInitiator st k) := by
  have hpieces (u : State) (x : Txn) : AgentKept st k u
      (x.pieces.foldl (fun (u : State) c => u.withdraw st k x.tag c.addr true) u) :=
    foldl_keeps (AgentKept st k u) _ _ u (fun v _ hv => hv.trans (.withdraw v _ _ _ _)) (.refl u)
  have hgone (l : List Txn) : AgentKept st k s (l.foldl (fun (u : State) x =>
      (x.pieces.foldl (fun (u : State) c => u.withdraw st k x.tag c.addr true) u).txnCnt st 8) s) :=
    foldl_keeps (AgentKept st k s) _ _ s (fun u x hu => (hu.trans (hpieces u x)).trans (.txnCnt _ hst (by decide))) (.refl s)
  have hvoid (l : List Txn) (u : State) :
      AgentKept st k u (l.foldl (fun (u : State) x => u.voidPend st k x.tag) u) :=
    foldl_keeps (AgentKept st k u) _ _ u (fun v _ hv => hv.trans (.voidPend v _ _)) (.refl u)
  unfold State.settleInitiator
  simp only
  split
  · exact ((hgone _).trans (hvoid _ _)).trans (.setTxns _ k _)
  · exact (((hgone _).trans (hvoid _ _)).trans (.setTxns _ k _)).trans (.sendUnlock hst _ _)

theorem AgentKept.breakLock (s : State) : AgentKept st k s (s.breakLock st k) := by
  unfold State.breakLock
  simp only
  split
  · exact .refl s
  · refine .trans ?_ (.raise _ hst _)
    refine .trans ?_ (.txnCnt (n := 7) _ hst (by decide))
    exact .setPort rfl

/-- The target side of a reset: no request stands at the agent any more (R201). -/
theorem AgentKept.settleTarget (s : State) (gone : Bool) :
    AgentKept st k (s.setTtxns st k []) (s.settleTarget st k gone) := by
  have hanswers (l : List TTxn) (u : State) : AgentKept st k u (l.foldl (fun (t : State) x =>
      t.offer st k (mkRsp t.die st x.head opCMP stSLVERR false 0 x.stamp [0]) none false) u) :=
    foldl_keeps (AgentKept st k u) _ _ u (fun v _ hv => hv.trans (.offerOn hst v _ _ _ _ _)) (.refl u)
  have hnotices (l : List Slot) (u : State) :
      AgentKept st k u (l.foldl (fun (t : State) h => t.targetNotice st h stSLVERR) u) :=
    foldl_keeps (AgentKept st k u) _ _ u (fun v _ hv => hv.trans (.raise v hst _)) (.refl u)
  unfold State.settleTarget
  refine .trans ?_ (.breakLock hst _)
  refine .trans ?_ (.ite (.refl _) (.raise _ hst _))
  refine .trans ?_ (hnotices _ _)
  refine (hanswers (s.ttxns st k) _).trans ?_
  exact .setPort rfl

/-- A port of which the agent side is gone (R153, R338). -/
structure PortClosed (st k : Nat) (owed : List (Nat × Nat)) (s t : State) : Prop where
  tgen : (t.port st k).tgen = ((s.port st k).tgen + 1) % 4
  owed : (t.port st k).owed = owed
  ttxns : t.ttxns st k = []
  regs : ∀ a, ¬ tallyReg a → t.reg a = s.reg a

omit hst in
/-- What changes of the port afterwards leaves it closed, if neither its generation nor what it owes changes. -/
theorem PortClosed.setPort {owed : List (Nat × Nat)} {s t : State} (h : PortClosed st k owed s t) {v : PortSt}
    (hgen : v.tgen = (t.port st k).tgen) (howed : v.owed = (t.port st k).owed) :
    PortClosed st k owed s (t.setPort st k v) := by
  refine ⟨?_, ?_, h.ttxns, h.regs⟩ <;> rw [State.port_setPort_same]
  · rw [hgen, h.tgen]
  · rw [howed, h.owed]

omit hst in
theorem PortClosed.of_setPort {owed : List (Nat × Nat)} {s t : State} {v : PortSt}
    (hgen : v.tgen = ((s.port st k).tgen + 1) % 4) (howed : v.owed = owed) (httxns : t.ttxns st k = [])
    (hregs : ∀ a, ¬ tallyReg a → t.reg a = s.reg a) : PortClosed st k owed s (t.setPort st k v) := by
  refine ⟨?_, ?_, httxns, hregs⟩ <;> rw [State.port_setPort_same]
  exacts [hgen, howed]

theorem PortClosed.closePort (s : State) (owed : List (Nat × Nat)) : PortClosed st k owed s (s.closePort st k owed) := by
  have hini := AgentKept.settleInitiator (k := k) hst s
  have htgt := AgentKept.settleTarget (k := k) hst (s.settleInitiator st k) false
  have hgen : (((s.settleInitiator st k).settleTarget st k false).port st k).tgen = (s.port st k).tgen :=
    htgt.tgen.trans hini.tgen
  unfold State.closePort
  exact .of_setPort (congrArg (fun n => (n + 1) % 4) hgen) rfl
    (htgt.ttxns.trans (State.ttxns_setTtxns_same _ st k [])) fun a ha => (htgt.regs a ha).trans (hini.regs a ha)

omit hst in
theorem State.state_closePort (s : State) (owed : List (Nat × Nat)) : ((s.closePort st k owed).port st k).state = 0 := by
  unfold State.closePort
  rw [State.port_setPort_same]

omit hst in
theorem PortClosed.tryResync {owed : List (Nat × Nat)} {s t : State} (h : PortClosed st k owed s t) :
    PortClosed st k owed s (t.tryResync st k) := by
  unfold State.tryResync
  simp only
  split
  · exact h.setPort rfl rfl
  · exact h

/-- A port recovers (R336 to R338). -/
theorem PortClosed.recover (s : State) :
    PortClosed st k ((s.mapTags st k).map (fun x => (x, stSLVERR))) s (s.recover st k) :=
  (PortClosed.closePort hst s _).tryResync

end

/-! ### PORT_RESET_ASSERT and RECOVER -/

/-- What a reset or a recovery of a port keeps of the state that it reaches. -/
def State.keepReset (s t : State) : State := { s.keepTxn t with ring := t.ring }

section
variable (s t : State)

theorem onlyParts_keepReset : onlyParts [.regs, .ring, .ni, .recs, .pmu, .pw] s (s.keepReset t) := by
  intro p hp
  cases p with
  | regs | ring | ni | recs | pmu | pw => exact absurd hp (by decide)
  | _ => rfl

variable (a b : Nat)

theorem State.reg_keepReset : (s.keepReset t).reg a = t.reg a := rfl
theorem State.port_keepReset : (s.keepReset t).port a b = t.port a b := rfl
theorem State.ttxns_keepReset : (s.keepReset t).ttxns a b = t.ttxns a b := rfl

end

theorem PortClosed.keepReset {st k : Nat} {owed : List (Nat × Nat)} {s t : State} (h : PortClosed st k owed s t)
    (r : State) : PortClosed st k owed s (r.keepReset t) := by
  refine ⟨?_, ?_, ?_, fun a ha => ?_⟩
  · rw [State.port_keepReset, h.tgen]
  · rw [State.port_keepReset, h.owed]
  · rw [State.ttxns_keepReset, h.ttxns]
  · rw [State.reg_keepReset, h.regs a ha]

section
variable {x : Fin 16} {y : Fin 12} {k : PortNo} {st : StopNo} {s : State}

/-- A port whose reset level is low; its initiator-tag map is clear (R334). -/
def PortSt.inReset (v : PortSt) : PortSt := { v with rstLvl := false, tagMap := [] }

theorem PortSt.tgen_inReset (v : PortSt) : v.inReset.tgen = v.tgen := rfl
theorem PortSt.owed_inReset (v : PortSt) : v.inReset.owed = v.owed := rfl
theorem PortSt.state_inReset (v : PortSt) : v.inReset.state = v.state := rfl

theorem exec_portResetAssert (hst : st = stopXY x y) (hgen : portGen st.val k.val ≠ 0) :
    exec (.portResetAssert x y k) s = .next (s.keepReset ((s.closePort st.val k.val []).setPort st.val k.val
      ((s.closePort st.val k.val []).port st.val k.val).inReset)) := by
  subst hst
  exact if_neg hgen

theorem completes_portResetAssert (hst : st = stopXY x y) (hgen : portGen st.val k.val ≠ 0) :
    completes (.portResetAssert x y k) s (fun t =>
      (t.port st.val k.val).state = 0 ∧ (t.port st.val k.val).rstLvl = false
      ∧ (t.port st.val k.val).tgen = ((s.port st.val k.val).tgen + 1) % 4
      ∧ (t.port st.val k.val).owed = [] ∧ (t.port st.val k.val).tagMap = [] ∧ t.ttxns st.val k.val = []
      ∧ onlyParts [.regs, .ring, .ni, .recs, .pmu, .pw] s t) := by
  have hclosed := (PortClosed.closePort (k := k.val) st.isLt s []).setPort
    (v := ((s.closePort st.val k.val []).port st.val k.val).inReset) (PortSt.tgen_inReset _) (PortSt.owed_inReset _)
  obtain ⟨htgen, howed, httxns, _⟩ := hclosed.keepReset s
  refine ⟨_, exec_portResetAssert hst hgen, ?_, ?_, htgen, howed, ?_, httxns, onlyParts_keepReset s _⟩
  · rw [State.port_keepReset, State.port_setPort_same, PortSt.state_inReset]
    exact State.state_closePort s []
  · rw [State.port_keepReset, State.port_setPort_same]
    rfl
  · rw [State.port_keepReset, State.port_setPort_same]
    rfl

theorem exec_recover (hst : st = stopXY x y) (hgen : portGen st.val k.val ≠ 0) (hon : s.niOn st.val = true) :
    exec (.recover x y k) s = .next (s.keepReset (s.recover st.val k.val)) := by
  subst hst
  exact if_neg (by simp [hgen, hon])

theorem completes_recover (hst : st = stopXY x y) (hgen : portGen st.val k.val ≠ 0) (hon : s.niOn st.val = true) :
    completes (.recover x y k) s (fun t =>
      (t.port st.val k.val).tgen = ((s.port st.val k.val).tgen + 1) % 4 ∧ t.ttxns st.val k.val = []
      ∧ (t.port st.val k.val).owed = (s.mapTags st.val k.val).map (fun x => (x, stSLVERR))
      ∧ onlyParts [.regs, .ring, .ni, .recs, .pmu, .pw] s t) := by
  obtain ⟨htgen, howed, httxns, _⟩ := (PortClosed.recover (k := k.val) st.isLt s).keepReset s
  exact ⟨_, exec_recover hst hgen hon, htgen, httxns, howed, onlyParts_keepReset s _⟩

end

/-! ### CDC_PTR -/

section
variable {st : StopNo} {k : PortNo} {c : Chan} {ptr : Fin 32} {s : State}

/-- A pointer error has been flagged and recorded (R330). -/
def State.ptrNoted (s : State) (st k : Nat) (c : Chan) : State :=
  (s.raiseFlag (portReg st k pCDC_STAT) 5).raise st
    (recGen k sevCONTAINED caCDC_PTR (some (s.curPart st k)) (specGen 0 0 0 0 0 0 (chanCode c)))

theorem State.ni_ptrNoted (st k : Nat) : (s.ptrNoted st k c).ni = s.ni :=
  (State.ni_raise _ _ _).trans (State.raiseFlag_ni _ _ _)

theorem State.flag_ptrNoted (st : Nat) {k : Nat} (hk : k < 2) :
    (s.ptrNoted st k c).flag (portReg st k pCDC_STAT) 5 = true :=
  (State.flag_congr (State.reg_raise_other _ st _ (portReg_ne_stopErrStat st hk (by decide))) 5).trans
    (State.flag_raiseFlag s _ 5 (by decide))

theorem exec_cdcPtr_bad (hgen : portGen st.val k.val ≠ 0) (hc : c ≠ .ntf)
    (hbad : ((s.port st.val k.val).fifo c).ptrBad (BitVec.ofNat 5 ptr.val) = true) :
    exec (.cdcPtr st k c ptr) s = .next (s.keepReset ((s.ptrNoted st.val k.val c).recover st.val k.val)) := by
  change execCdcPtr st k c ptr s = _
  unfold execCdcPtr
  dsimp only
  rw [if_neg hgen, if_neg hc, if_neg (by rw [hbad]; decide)]
  rfl

/-- The port, with the write pointer of channel `c` noted. -/
def PortSt.ptrSeen (v : PortSt) (c : Chan) (w : BitVec 5) : PortSt := v.setFifo c { v.fifo c with seen := w }

theorem exec_cdcPtr_good (hgen : portGen st.val k.val ≠ 0) (hc : c ≠ .ntf)
    (hgood : ((s.port st.val k.val).fifo c).ptrBad (BitVec.ofNat 5 ptr.val) = false) :
    exec (.cdcPtr st k c ptr) s = .next (s.keepPort (s.setPort st.val k.val
      ((s.port st.val k.val).ptrSeen c (BitVec.ofNat 5 ptr.val)))) := by
  change execCdcPtr st k c ptr s = _
  unfold execCdcPtr
  dsimp only
  rw [if_neg hgen, if_neg hc, if_pos (by rw [hgood]; decide)]
  rfl

theorem completes_cdcPtr (hgen : portGen st.val k.val ≠ 0) (hc : c ≠ .ntf) :
    completes (.cdcPtr st k c ptr) s (fun t =>
      (((s.port st.val k.val).fifo c).ptrBad (BitVec.ofNat 5 ptr.val) = true →
        t.flag (portReg st.val k.val pCDC_STAT) 5 = true ∧ t.ttxns st.val k.val = []
        ∧ (t.port st.val k.val).tgen = ((s.port st.val k.val).tgen + 1) % 4
        ∧ (t.port st.val k.val).owed = (s.mapTags st.val k.val).map (fun x => (x, stSLVERR)))
      ∧ (((s.port st.val k.val).fifo c).ptrBad (BitVec.ofNat 5 ptr.val) = false →
        t.port st.val k.val = (s.port st.val k.val).ptrSeen c (BitVec.ofNat 5 ptr.val) ∧ onlyParts [.ni] s t)
      ∧ onlyParts [.regs, .ring, .ni, .recs, .pmu, .pw] s t) := by
  cases hbad : ((s.port st.val k.val).fifo c).ptrBad (BitVec.ofNat 5 ptr.val) with
  | true =>
    have hport : (s.ptrNoted st.val k.val c).port st.val k.val = s.port st.val k.val := by
      unfold State.port
      rw [State.ni_ptrNoted]
    have htags : (s.ptrNoted st.val k.val c).mapTags st.val k.val = s.mapTags st.val k.val := by
      unfold State.mapTags
      rw [hport]
    obtain ⟨htgen, howed, httxns, hregs⟩ :=
      (PortClosed.recover (k := k.val) st.isLt (s.ptrNoted st.val k.val c)).keepReset s
    rw [hport] at htgen
    rw [htags] at howed
    refine ⟨_, exec_cdcPtr_bad hgen hc hbad, fun _ => ⟨?_, httxns, htgen, howed⟩, nofun,
      onlyParts_keepReset s _⟩
    exact (State.flag_congr (hregs _ (not_tallyReg_port k.isLt (by decide))) 5).trans
      (State.flag_ptrNoted st.val k.isLt)
  | false =>
    have hset := State.onlyParts_setPort s st.val k.val ((s.port st.val k.val).ptrSeen c (BitVec.ofNat 5 ptr.val))
    refine ⟨_, exec_cdcPtr_good hgen hc hbad, nofun, fun _ => ⟨?_, onlyParts_keepPort_of hset⟩,
      onlyParts_keepPort_of (onlyParts_mono hset (by decide))⟩
    rw [State.port_keepPort, State.port_setPort_same]

end

/-! ### PORT_RESET_DEASSERT and RS_TIMEOUT -/

section
variable {st : StopNo} {k : PortNo} {s : State}

/-- A port in RESYNC whose handshake has begun (R335). -/
def PortSt.resyncing (v : PortSt) (hcs : Nat) : PortSt :=
  { v with state := 1, rsReq := true, rsAck := false, rsFrom := hcs, rsLate := false }

theorem State.tryResync_eq (s : State) (st k : Nat) : s.tryResync st k
    = (if (s.port st k).state = 0 && (s.port st k).rstLvl && !(s.port st k).stopLvl && s.flag (portReg st k pCFG) 0
          && !s.fillBusy st then s.setPort st k ((s.port st k).resyncing s.her.boot.hcs) else s) := rfl

/-- A port whose reset level is high. -/
def PortSt.outOfReset (v : PortSt) : PortSt := { v with rstLvl := true }

theorem exec_portResetDeassert (hgen : portGen st.val k.val ≠ 0) : exec (.portResetDeassert st k) s
    = .next (s.keepPort ((s.setPort st.val k.val (s.port st.val k.val).outOfReset).tryResync st.val k.val)) :=
  if_neg hgen

theorem completes_portResetDeassert (hgen : portGen st.val k.val ≠ 0) :
    completes (.portResetDeassert st k) s (fun t =>
      ((s.port st.val k.val).state = 0 → (s.port st.val k.val).stopLvl = false →
        s.flag (portReg st.val k.val pCFG) 0 = true → s.fillBusy st.val = false →
        t.port st.val k.val = (s.port st.val k.val).outOfReset.resyncing s.her.boot.hcs)
      ∧ ((s.port st.val k.val).state ≠ 0 ∨ (s.port st.val k.val).stopLvl = true
          ∨ s.flag (portReg st.val k.val pCFG) 0 = false ∨ s.fillBusy st.val = true →
        t.port st.val k.val = (s.port st.val k.val).outOfReset)
      ∧ onlyParts [.ni] s t) := by
  have hport := State.port_setPort_same s st.val k.val (s.port st.val k.val).outOfReset
  have hflag : (s.setPort st.val k.val (s.port st.val k.val).outOfReset).flag (portReg st.val k.val pCFG) 0
      = s.flag (portReg st.val k.val pCFG) 0 := rfl
  have hfill : (s.setPort st.val k.val (s.port st.val k.val).outOfReset).fillBusy st.val = s.fillBusy st.val := rfl
  refine ⟨_, exec_portResetDeassert hgen, fun hclosed hgo hen hfilled => ?_, fun hkeep => ?_,
    onlyParts_keepPort_of (onlyParts_trans (State.onlyParts_setPort s st.val k.val _) (onlyParts_tryResync _ _ _))⟩
  · rw [State.port_keepPort, State.tryResync_eq, if_pos, State.port_setPort_same, hport]
    · rfl
    · rw [hport, hflag, hfill]
      simp [PortSt.outOfReset, hclosed, hgo, hen, hfilled]
  · rw [State.port_keepPort, State.tryResync_eq, if_neg, hport]
    rw [hport, hflag, hfill]
    simp only [PortSt.outOfReset, Bool.and_eq_true, Bool.not_eq_true', and_true]
    rintro ⟨⟨⟨hclosed, hgo⟩, hen⟩, hfilled⟩
    rcases hkeep with h | h | h | h
    · exact h (of_decide_eq_true hclosed)
    · exact absurd (h.symm.trans hgo) (by decide)
    · exact absurd (h.symm.trans hen) (by decide)
    · exact absurd (h.symm.trans hfilled) (by decide)

/-- A port whose waiting step has been reported. -/
def PortSt.reportedLate (v : PortSt) : PortSt := { v with rsLate := true }

section
variable (hgen : portGen st.val k.val ≠ 0)
include hgen

theorem exec_rsTimeout (hstate : (s.port st.val k.val).state = 1) (hbusy : (s.port st.val k.val).rsBusy = true)
    (hlong : rsTo < s.her.boot.hcs - (s.port st.val k.val).rsFrom) (hlate : (s.port st.val k.val).rsLate = false) :
    exec (.rsTimeout st k) s = .next (s.keepPort (((s.setPort st.val k.val (s.port st.val k.val).reportedLate).raiseFlag
      (portReg st.val k.val pCDC_STAT) 6).raise st.val
        (recGen k.val sevCONTAINED caCDC_RS_TIMEOUT (some (s.curPart st.val k.val)) 0))) := by
  change execRsTimeout st k s = _
  unfold execRsTimeout
  dsimp only
  rw [if_neg hgen, if_pos ⟨hstate, hbusy, by simp [hlate], hlong⟩]
  rfl

theorem exec_rsTimeout_again (hlate : (s.port st.val k.val).rsLate = true) : exec (.rsTimeout st k) s = .next s := by
  change execRsTimeout st k s = _
  unfold execRsTimeout
  dsimp only
  rw [if_neg hgen, if_neg (by simp [hlate])]

theorem completes_rsTimeout (hstate : (s.port st.val k.val).state = 1) (hbusy : (s.port st.val k.val).rsBusy = true)
    (hlong : rsTo < s.her.boot.hcs - (s.port st.val k.val).rsFrom) (hlate : (s.port st.val k.val).rsLate = false) :
    completes (.rsTimeout st k) s (fun t => t.flag (portReg st.val k.val pCDC_STAT) 6 = true
      ∧ t.port st.val k.val = (s.port st.val k.val).reportedLate ∧ onlyParts [.regs, .ni, .recs] s t) := by
  have hset := State.onlyParts_setPort s st.val k.val (s.port st.val k.val).reportedLate
  refine ⟨_, exec_rsTimeout hgen hstate hbusy hlong hlate, ?_, ?_, onlyParts_keepPort_of (onlyParts_trans
    (onlyParts_mono hset (by decide)) (onlyParts_trans
      (onlyParts_mono (State.onlyParts_raiseFlag _ _ 6) (by decide)) (onlyParts_mono (State.onlyParts_raise _ _ _) (by decide))))⟩
  · rw [State.flag_keepPort,
      State.flag_congr (State.reg_raise_other _ _ _ (portReg_ne_stopErrStat st.val k.isLt (by decide)))]
    exact State.flag_raiseFlag _ _ 6 (by decide)
  · rw [State.port_keepPort]
    exact (congrArg (fun n => Tab.get defPort (NiSt.ports n) (st.val * 2 + k.val))
      ((State.ni_raise _ _ _).trans (State.raiseFlag_ni _ _ _))).trans (State.port_setPort_same s st.val k.val _)

end

end

/-! ### RESYNC_DONE -/

/-- The port after step 2 of the handshake (R335). -/
def PortSt.acStep (v : PortSt) : PortSt :=
  if !v.rsReq || v.rsAck then v
  else { v with rsAck := true, sendResv := 0, fifos := v.fifos.filter (fun e => e.1 < 4) }

/-- The port after step 3. -/
def PortSt.rcStep (v : PortSt) : PortSt :=
  if !(v.rsReq && v.rsAck) then v else { v with rsReq := false, inq := [], fifos := [] }

/-- The port after step 4. -/
def PortSt.endStep (v : PortSt) : PortSt := if v.rsReq then v else { v with rsAck := false }

/-- The port after the steps of the handshake that are still to come. -/
def PortSt.handshake (v : PortSt) : PortSt := v.acStep.rcStep.endStep

/-- The handshake is over: a port whose handshake was under way has empty FIFOs. -/
theorem PortSt.handshake_over (v : PortSt) : v.handshake.state = v.state ∧ v.handshake.tgen = v.tgen
    ∧ v.handshake.rsBusy = false ∧ (v.rsReq = true → v.handshake.inq = [] ∧ v.handshake.fifos = []) := by
  cases hreq : v.rsReq with
  | false => simp [PortSt.handshake, PortSt.acStep, PortSt.rcStep, PortSt.endStep, PortSt.rsBusy, hreq]
  | true =>
    cases hack : v.rsAck with
    | false => simp [PortSt.handshake, PortSt.acStep, PortSt.rcStep, PortSt.endStep, PortSt.rsBusy, hreq, hack]
    | true => simp [PortSt.handshake, PortSt.acStep, PortSt.rcStep, PortSt.endStep, PortSt.rsBusy, hreq, hack]

theorem PortSt.queued_of_no_fifos {v : PortSt} (h : v.fifos = []) (c : Chan) : v.queued c = [] := by
  unfold PortSt.queued PortSt.fifo
  rw [h]
  rfl

/-- The registers that count what a handshake discards (R336). -/
def discReg (st k a : Nat) : Prop := a = portReg st k pCDC_CNT ∨ a = stopReg st sSTOP_ERR_STAT

/-- A step of the handshake at a port, which leaves it as `v`. -/
structure ResyncStep (st k : Nat) (v : PortSt) (s t : State) : Prop where
  port : t.port st k = v
  txns : t.ni.txns = s.ni.txns
  changes : Changes (discReg st k) [.regs, .ni, .recs] s t

section
variable {st k : Nat} {s t u : State}

theorem ResyncStep.refl (s : State) : ResyncStep st k (s.port st k) s s := ⟨rfl, rfl, .refl s⟩

theorem ResyncStep.trans {v w : PortSt} (h : ResyncStep st k v s t) (h' : ResyncStep st k w t u) : ResyncStep st k w s u :=
  ⟨h'.port, h'.txns.trans h.txns, h.changes.trans h'.changes⟩

theorem ResyncStep.setPort (v : PortSt) (hni : t.ni = s.ni) (h : Changes (discReg st k) [.regs, .ni, .recs] s t) :
    ResyncStep st k v s (t.setPort st k v) :=
  ⟨State.port_setPort_same t st k v, by rw [← hni]; rfl,
    h.trans (.of_regs rfl (onlyParts_mono (State.onlyParts_setPort t st k v) (by decide)))⟩

theorem State.ni_discardPkts (s : State) (cs : List Chan) : (s.discardPkts st k cs).ni = s.ni := by
  refine foldl_keeps (fun t : State => t.ni = s.ni) _ _ _ (fun t c ht => ?_) (State.count_ni _ _ _ _ _)
  split
  · exact (State.ni_raise _ _ _).trans ht
  · exact ht

theorem changes_discardPkts (s : State) (cs : List Chan) :
    Changes (discReg st k) [.regs, .ni, .recs] s (s.discardPkts st k cs) := by
  refine foldl_keeps (Changes (discReg st k) [.regs, .ni, .recs] s) _ _ _ (fun t c ht => ht.trans ?_)
    (.setFld (.inl rfl) (by decide) 0 16 _)
  refine .ite ⟨fun a ha => State.reg_raise_other t st _ fun he => ha (.inr he), ?_⟩ (.refl t)
  exact onlyParts_mono (State.onlyParts_raise t st _) (by decide)

theorem ResyncStep.ac (s : State) : ResyncStep st k (s.port st k).acStep s (s.resyncAc st k) := by
  unfold State.resyncAc PortSt.acStep
  simp only
  split
  · exact .refl s
  · exact .setPort _ (State.ni_discardPkts s _) (changes_discardPkts s _)

theorem ResyncStep.rc (s : State) : ResyncStep st k (s.port st k).rcStep s (s.resyncRc st k) := by
  unfold State.resyncRc PortSt.rcStep
  simp only
  split
  · exact .refl s
  · exact .setPort _ (State.ni_discardPkts s _) (changes_discardPkts s _)

theorem ResyncStep.done (s : State) : ResyncStep st k (s.port st k).endStep s (s.resyncEnd st k) := by
  unfold State.resyncEnd PortSt.endStep
  simp only
  split
  · exact .refl s
  · exact .setPort _ rfl (.refl s)

/-- The state after the steps of the handshake that are still to come. -/
def State.shaken (s : State) (st k : Nat) : State := ((s.resyncAc st k).resyncRc st k).resyncEnd st k

theorem ResyncStep.shaken (s : State) : ResyncStep st k (s.port st k).handshake s (s.shaken st k) := by
  have hac := ResyncStep.ac (st := st) (k := k) s
  have hrc := ResyncStep.rc (st := st) (k := k) (s.resyncAc st k)
  have hend := ResyncStep.done (st := st) (k := k) ((s.resyncAc st k).resyncRc st k)
  rw [hac.port] at hrc
  rw [hrc.port] at hend
  exact (hac.trans hrc).trans hend

/-- An opening port, where EN and R153 allow it and the fabric has not failed. -/
def State.mayOpen (s : State) (st k : Nat) : Bool :=
  s.flag (portReg st k pCFG) 0 && s.genFree st k && s.fabState != fabFAILED

theorem not_discReg_cfg (hk : k < 2) : ¬ discReg st k (portReg st k pCFG) := by
  rintro (h | h)
  · exact portReg_ne st k (by decide) h
  · exact portReg_ne_stopErrStat st hk (by decide) h

theorem not_discReg_fab : ¬ discReg st k gFAB_STATE := by
  rintro (h | h)
  · unfold gFAB_STATE portReg stopReg at h
    omega
  · unfold gFAB_STATE stopReg at h
    omega

theorem ResyncStep.mayOpen {v : PortSt} (h : ResyncStep st k v s t) (hk : k < 2) (hgen : v.tgen = (s.port st k).tgen) :
    t.mayOpen st k = s.mayOpen st k := by
  have htxns : t.txns st k = s.txns st k := congrArg (fun n => Tab.get (fun _ => []) n (st * 4 + k)) h.txns
  unfold State.mayOpen State.genFree State.fabState
  rw [h.changes.flag (not_discReg_cfg hk), h.changes.fld not_discReg_fab, htxns, h.port, hgen]

/-- A port that opens, or waits in RESYNC. -/
def PortSt.opening (v : PortSt) (may : Bool) : PortSt := { v with state := if may then 2 else v.state }

theorem State.tryOpen_of_over (hstate : (s.port st k).state = 1) (hover : (s.port st k).rsBusy = false) :
    s.tryOpen st k = (if s.mayOpen st k then s.setPort st k { s.port st k with state := 2 } else s) := by
  unfold State.tryOpen State.mayOpen
  simp [hstate, hover, Bool.and_assoc]

theorem ResyncStep.tryOpen (hstate : (s.port st k).state = 1) (hover : (s.port st k).rsBusy = false) :
    ResyncStep st k ((s.port st k).opening (s.mayOpen st k)) s (s.tryOpen st k) := by
  rw [State.tryOpen_of_over hstate hover]
  cases s.mayOpen st k with
  | true => exact .setPort _ rfl (.refl s)
  | false => exact .refl s

end

section
variable {x : Fin 16} {y : Fin 12} {k : PortNo} {st : StopNo} {s : State}

theorem exec_resyncDone (hst : st = stopXY x y) (hgen : portGen st.val k.val ≠ 0)
    (hstate : (s.port st.val k.val).state = 1) (hgo : (s.port st.val k.val).stopLvl = false) :
    exec (.resyncDone x y k) s = .next (s.keepPort ((s.shaken st.val k.val).tryOpen st.val k.val)) := by
  subst hst
  change execResyncDone x y k s = _
  unfold execResyncDone
  dsimp only
  rw [if_neg hgen, if_neg (by simp [hstate, hgo])]
  rfl

theorem completes_resyncDone (hst : st = stopXY x y) (hgen : portGen st.val k.val ≠ 0)
    (hstate : (s.port st.val k.val).state = 1) (hgo : (s.port st.val k.val).stopLvl = false) :
    completes (.resyncDone x y k) s (fun t =>
      (t.port st.val k.val).state = (if s.mayOpen st.val k.val then 2 else 1)
      ∧ (t.port st.val k.val).rsBusy = false ∧ (t.port st.val k.val).tgen = (s.port st.val k.val).tgen
      ∧ ((s.port st.val k.val).rsReq = true →
        (t.port st.val k.val).inq = [] ∧ ∀ c, (t.port st.val k.val).queued c = [])
      ∧ t.ni.txns = s.ni.txns ∧ onlyParts [.regs, .ni, .recs] s t) := by
  obtain ⟨hsame, htgen, hover, hempty⟩ := (s.port st.val k.val).handshake_over
  have hshaken := ResyncStep.shaken (st := st.val) (k := k.val) s
  have hopen := hshaken.trans (ResyncStep.tryOpen (by rw [hshaken.port, hsame, hstate]) (by rw [hshaken.port, hover]))
  rw [hshaken.mayOpen k.isLt htgen, hshaken.port] at hopen
  refine ⟨_, exec_resyncDone hst hgen hstate hgo, ?_⟩
  beta_reduce
  rw [State.port_keepPort, hopen.port]
  refine ⟨?_, hover, htgen, fun hreq => ?_, hopen.txns, onlyParts_keepPort_of hopen.changes.parts⟩
  · rw [← hstate, ← hsame]
    rfl
  · obtain ⟨hinq, hfifos⟩ := hempty hreq
    exact ⟨hinq, PortSt.queued_of_no_fifos hfifos⟩

end

/-- Settles O25: a reset and a recovery both close the port, whose generation, registers and requests at the agent
`AgentKept` carries through the settling of its packets; RESYNC_DONE takes the steps of the handshake that are still
to come at once, and is the later opening itself (log entry 36). -/
theorem portResetsAndRecovery : Obligations.PortResetsAndRecovery := by
  unfold Obligations.PortResetsAndRecovery
  exact ⟨fun x y k st s hst hgen => completes_portResetAssert hst hgen,
    fun st k s hgen => completes_portResetDeassert hgen,
    fun x y k st s hst hgen hstate hgo => completes_resyncDone hst hgen hstate hgo,
    fun st k s hgen hstate hbusy hlong => ⟨completes_rsTimeout hgen hstate hbusy hlong,
      fun hlate => ⟨s, exec_rsTimeout_again hgen hlate, rfl⟩⟩,
    fun x y k st s hst hgen hon => completes_recover hst hgen hon,
    fun st k c ptr s hgen hc => completes_cdcPtr hgen hc⟩

end Sys2Proof.Machine
end

section
/-! PROOFS. What the operations of the transaction layer leave of the tag states and the response stores (R174 to
R177, R185, R192, R231): a transaction that is replaced or ends, and everything else that leaves them alone. -/
namespace Sys2Proof.Machine
open Sys2Proof

/-! ### Tag states and response stores that stay -/

/-- No tag state and no response store of `t` differs from those of `s`. -/
structure AnswersKept (s t : State) : Prop where
  txns : t.ni.txns = s.ni.txns
  rspIn : t.ni.rspIn = s.ni.rspIn

namespace AnswersKept
variable {s t u : State}

theorem of_ni (h : t.ni = s.ni) : AnswersKept s t := ⟨by rw [h], by rw [h]⟩

theorem refl (s : State) : AnswersKept s s := of_ni rfl

theorem trans (h : AnswersKept s t) (h' : AnswersKept t u) : AnswersKept s u :=
  ⟨h'.txns.trans h.txns, h'.rspIn.trans h.rspIn⟩

theorem ite {c : Prop} [Decidable c] (ht : AnswersKept s t) (hu : AnswersKept s u) :
    AnswersKept s (if c then t else u) := by
  split <;> assumption

theorem txnsAt (h : AnswersKept s t) (a b : Nat) : t.txns a b = s.txns a b := by
  unfold State.txns
  rw [h.txns]

theorem raise (s : State) (st : Nat) (r : RecIn) : AnswersKept s (s.raise st r) := of_ni (State.ni_raise s st r)

theorem txnCnt (s : State) (st n : Nat) : AnswersKept s (s.txnCnt st n) := of_ni (State.count_ni s _ _ _ _)

theorem setPort (s : State) (st k : Nat) (v : PortSt) : AnswersKept s (s.setPort st k v) := ⟨rfl, rfl⟩

theorem setPend (s : State) (st r : Nat) (v : List Pend) : AnswersKept s (s.setPend st r v) := ⟨rfl, rfl⟩

theorem setRetry (s : State) (st r : Nat) (v : Retry) : AnswersKept s (s.setRetry st r v) := ⟨rfl, rfl⟩

theorem setHeld (s : State) (st p : Nat) (v : List Held) : AnswersKept s (s.setHeld st p v) := ⟨rfl, rfl⟩

theorem setInjq (s : State) (st q : Nat) (v : List QPkt) : AnswersKept s (s.setInjq st q v) := ⟨rfl, rfl⟩

theorem setDir (s : State) (st d : Nat) (v : DirSt) : AnswersKept s (s.setDir st d v) := ⟨rfl, rfl⟩

theorem drive (s : State) (st k : Nat) (bs : List OutBeat) : AnswersKept s (s.drive st k bs) := by
  rw [State.drive_eq]
  exact (setPort s st k _).trans (setPort _ st k _)

theorem offerOn (s : State) (st port : Nat) (p : Pkt) (ctx : Option Nat) (resend : Bool) (m : QMark) :
    AnswersKept s (s.offerOn st port p ctx resend m) :=
  ⟨State.offerOn_ni_keeps (g := NiSt.txns) (fun _ _ _ _ => rfl) s st port p ctx resend m,
    State.offerOn_ni_keeps (g := NiSt.rspIn) (fun _ _ _ _ => rfl) s st port p ctx resend m⟩

theorem sendCtl (s : State) (st opc ddie dstop gnum gsz : Nat) :
    AnswersKept s (s.sendCtl st opc ddie dstop gnum gsz) := by
  unfold State.sendCtl State.offer
  exact offerOn s _ _ _ _ _ _

theorem noteLock (s : State) (st p : Nat) (x : Txn) (c : Piece) : AnswersKept s (s.noteLock st p x c) :=
  .ite (.ite (setPort s _ _ _) (.ite (setPort s _ _ _) (refl s))) (refl s)

/-- A grant that is given back is a packet for the network interface (R185). -/
theorem backGrant (s : State) (st : Nat) (c : Piece) : AnswersKept s (s.backGrant st c) := by
  unfold State.backGrant
  split
  · exact .ite (sendCtl s _ _ _ _ _ _) (refl s)
  · exact refl s

theorem withdraw (s : State) (st p tag addr : Nat) (part : Bool) : AnswersKept s (s.withdraw st p tag addr part) := by
  unfold State.withdraw
  refine .trans (foldl_keeps (AnswersKept s) _ _ s (fun u q hu => ?_) (.refl s)) (setHeld _ _ _ _)
  simp only
  refine hu.trans (.ite (.trans (setInjq u _ _ _) (.ite ?_ (.refl _))) (.refl u))
  exact forUpTo_keeps (AnswersKept _) 4 _ _ (fun d v _ hv => hv.trans (.ite (setDir v _ _ _) (.refl v))) (.refl _)

theorem wakeFor (s : State) (st die stop port : Nat) : AnswersKept s (s.wakeFor st die stop port) := of_ni rfl

theorem voidPend (s : State) (st p tag : Nat) : AnswersKept s (s.voidPend st p tag) :=
  foldl_keeps (AnswersKept s) _ _ s (fun u _ hu => hu.trans (setPend u _ _ _)) (.refl s)

end AnswersKept

/-- The notice of a posted write that failed is kept in registers and a record (R231). -/
theorem State.ni_postedNotice (s : State) (st p opc addr tag part attr set status peer : Nat) :
    (s.postedNotice st p opc addr tag part attr set status peer).ni = s.ni := by
  have hwords (u : State) (a v : Nat) : (u.setWords a v).ni = u.ni := (Changes.setQuad u a _).parts .ni (by decide)
  unfold State.postedNotice
  simp only
  split
  · rfl
  · split
    · exact State.ni_raise s _ _
    · split
      · rw [State.count_ni, State.ni_raise]
      · rw [State.raiseFlag_ni, hwords, State.count_ni, State.ni_raise]

/-! ### One place of a tag state -/

/-- Between `s` and `t` the transaction at place `n` of a port's tag state has become `o`, or is gone where that is
`none`; every other tag state and every response store stays. -/
structure TxnPut (st p n : Nat) (o : Option Txn) (s t : State) : Prop where
  here : t.txns st p = match o with
    | some u => (s.txns st p).set n u
    | none => (s.txns st p).eraseIdx n
  others : txnsBut st p s t
  rspIn : t.ni.rspIn = s.ni.rspIn

namespace TxnPut
variable {st p n : Nat} {o : Option Txn} {x : Txn} {s t u : State}

theorem putTxn (s : State) (st p n : Nat) (o : Option Txn) : TxnPut st p n o s (s.putTxn st p n o) where
  here := State.txns_setTxns_same s st p _
  others a b h := State.txns_setTxns_other s st p a b _ h
  rspIn := rfl

theorem after (h : TxnPut st p n o s t) (hk : AnswersKept t u) : TxnPut st p n o s u where
  here := (hk.txnsAt st p).trans h.here
  others a b hab := (hk.txnsAt a b).trans (h.others a b hab)
  rspIn := hk.rspIn.trans h.rspIn

theorem before (hk : AnswersKept s t) (h : TxnPut st p n o t u) : TxnPut st p n o s u where
  here := by rw [h.here, hk.txnsAt]
  others a b hab := (h.others a b hab).trans (hk.txnsAt a b)
  rspIn := h.rspIn.trans hk.rspIn

theorem keepTxn (h : TxnPut st p n o s t) : TxnPut st p n o s (s.keepTxn t) := ⟨h.here, h.others, h.rspIn⟩

theorem keepReset (h : TxnPut st p n o s t) : TxnPut st p n o s (s.keepReset t) := ⟨h.here, h.others, h.rspIn⟩

theorem ite {c : Prop} [Decidable c] (ht : TxnPut st p n o s t) (hu : TxnPut st p n o s u) :
    TxnPut st p n o s (if c then t else u) := by
  split <;> assumption

/-- The place holds what has been put there. -/
theorem there (h : TxnPut st p n (some x) s t) (hn : n < (s.txns st p).length) : (t.txns st p)[n]? = some x := by
  rw [h.here]
  exact List.getElem?_set_self hn

theorem length_eq (h : TxnPut st p n (some x) s t) : (t.txns st p).length = (s.txns st p).length := by
  rw [h.here]
  exact List.length_set

theorem length_lt (h : TxnPut st p n none s t) (hn : n < (s.txns st p).length) :
    (t.txns st p).length < (s.txns st p).length := by
  rw [h.here, List.length_eraseIdx_of_lt hn]
  omega

theorem gone (h : TxnPut st p n none s t) : t.txns st p = (s.txns st p).eraseIdx n := h.here

/-- What the place holds is as the new transaction is. -/
theorem stands {P : Txn → Prop} {y : Txn} (h : TxnPut st p n (some x) s t) (hy : (s.txns st p)[n]? = some y)
    (hP : P x) : txnAt st p n t P :=
  ⟨x, h.there (List.getElem?_eq_some_iff.mp hy).1, hP⟩

theorem rspInAt (h : TxnPut st p n o s t) (a : Nat) : t.rspIn a = s.rspIn a := by
  unfold State.rspIn
  rw [h.rspIn]

/-- Of two transactions put in one place the second stands there. -/
theorem again {y : Txn} (h : TxnPut st p n (some y) s t) (h' : TxnPut st p n o t u) : TxnPut st p n o s u where
  here := by
    rw [h'.here, h.here]
    cases o with
    | some v => exact List.set_set _
    | none => exact List.eraseIdx_set_eq
  others a b hab := (h'.others a b hab).trans (h.others a b hab)
  rspIn := h'.rspIn.trans h.rspIn

/-- A transaction whose outcome is known waits for delivery, or ends where its acknowledgement has been handed over. -/
theorem finish (s : State) (st p n : Nat) (x : Txn) :
    TxnPut st p n (if x.acked then none else some x) s (s.finish st p n x) := by
  unfold State.finish
  simp only
  split
  · exact .before (.of_ni (State.ni_postedNotice s _ _ _ _ _ _ _ _ _ _)) (putTxn _ st p n none)
  · exact putTxn s st p n (some x)

end TxnPut

theorem txnsBut_refl (st p : Nat) (s : State) : txnsBut st p s s := fun _ _ _ => rfl

theorem txnsBut_trans {st p : Nat} {s t u : State} (h : txnsBut st p s t) (h' : txnsBut st p t u) : txnsBut st p s u :=
  fun a b hab => (h' a b hab).trans (h a b hab)

/-- A transaction that a search of its tag state finds stands at the place found, and is as was searched for. -/
theorem find_zipIdx_some {α : Type} {l : List α} {f : α × Nat → Bool} {x : α} {n : Nat}
    (h : l.zipIdx.find? f = some (x, n)) : l[n]? = some x ∧ f (x, n) = true :=
  ⟨List.mk_mem_zipIdx_iff_getElem?.mp (List.mem_of_find?_eq_some h), List.find?_some h⟩

/-- The transaction that an answer belongs to has its tag, is in a phase asked for and awaits it. -/
theorem State.txnFor_some {s : State} {st p tag addr n : Nat} {ok : TxPhase → Bool} {x : Txn}
    (h : s.txnFor st p tag addr ok = some n) (hx : (s.txns st p)[n]? = some x) :
    x.tag = tag ∧ ok x.phase = true := by
  obtain ⟨⟨y, m⟩, hfind, rfl⟩ := Option.map_eq_some_iff.mp h
  obtain ⟨hy, hf⟩ := find_zipIdx_some hfind
  obtain rfl : y = x := Option.some.inj (hy.symm.trans hx)
  simp only [Bool.and_eq_true, beq_iff_eq] at hf
  exact hf.1

end Sys2Proof.Machine

end

section
/-! PROOFS. The release of a request (R174 to R176, R189, R191, R203, R215, R356): what its decoding leaves, and what
becomes of its pieces. -/
namespace Sys2Proof.Machine
open Sys2Proof

/-! ### The decoding of a request -/

/-- What step 2 of R175 has made of request `x`: it touches no network interface, and what goes on is the same request
with no piece released. -/
structure Decoded (s : State) (x : Txn) (r : Option Txn × State) : Prop where
  ni : r.2.ni = s.ni
  same : ∀ u, r.1 = some u →
    u.tag = x.tag ∧ u.opc = x.opc ∧ u.acked = x.acked ∧ ∀ c ∈ u.pieces, c.released = false

namespace Decoded
variable {s t : State} {x : Txn}

theorem dropped (h : t.ni = s.ni) : Decoded s x (none, t) := ⟨h, fun u hu => by simp at hu⟩

theorem goesOn (h : t.ni = s.ni) {u : Txn} (htag : u.tag = x.tag) (hopc : u.opc = x.opc) (hacked : u.acked = x.acked)
    (hpieces : ∀ c ∈ u.pieces, c.released = false) : Decoded s x (some u, t) := by
  refine ⟨h, fun v hv => ?_⟩
  obtain rfl := Option.some.inj hv
  exact ⟨htag, hopc, hacked, hpieces⟩

theorem dropped_or {c : Prop} [Decidable c] {o : Option Txn} (h : Decoded s x (o, t)) :
    Decoded s x (if c then none else o, t) := by
  split
  · exact dropped h.ni
  · exact h

end Decoded

theorem State.ni_decCnt (s : State) (st k : Nat) : (s.decCnt st k).ni = s.ni := by
  unfold State.decCnt
  split
  · exact State.count_ni s _ _ _ _
  · rfl

theorem State.ni_decRec (s : State) (st p : Nat) (x : Txn) (cause peer : Nat) :
    (s.decRec st p x cause peer).ni = s.ni := State.ni_raise s _ _

theorem State.ni_noFlow (s : State) (st p : Nat) (x : Txn) : (s.noFlow st p x).ni = s.ni :=
  (State.ni_raise _ _ _).trans (State.count_ni s _ _ _ _)

/-- A fault of an access check unit is kept in registers and a record (R224). -/
theorem State.ni_acuFault (s : State) (st a part bits : Nat) : (s.acuFault st a part bits).ni = s.ni := by
  have hwords (u : State) (b v : Nat) : (u.setWords b v).ni = u.ni := (Changes.setQuad u b _).parts .ni (by decide)
  unfold State.acuFault
  simp only
  split
  · rw [State.raiseFlag_ni, State.count_ni]
  · rw [State.ni_raise, State.raiseFlag_ni, hwords, State.count_ni]

theorem State.ni_acuCheck (s : State) (st a opc addr len tag part attr peer : Nat) (dev : Bool) :
    (s.acuCheck st a opc addr len tag part attr peer dev).2.2.ni = s.ni := by
  unfold State.acuCheck
  simp only
  split
  · rfl
  · split
    · rfl
    · split
      · exact State.ni_acuFault s _ _ _ _
      · exact State.ni_acuFault s _ _ _ _

theorem destPieces_released (x : Txn) (ds : List Dest) : ∀ c ∈ ds.map (destPiece x), c.released = false := by
  intro c hc
  obtain ⟨d, _, rfl⟩ := List.mem_map.mp hc
  rfl

theorem State.decodeTxn_decoded (s : State) (st p : Nat) (x : Txn) (hx : x.pieces = []) :
    Decoded s x (s.decodeTxn st p x) := by
  unfold State.decodeTxn
  extract_lets again s1 y
  have hs1 : s1.ni = s.ni := by
    unfold s1
    split
    · exact State.ni_decCnt s st 3
    · rfl
  have hy : y.tag = x.tag ∧ y.opc = x.opc ∧ y.acked = x.acked ∧ y.pieces = x.pieces := ⟨rfl, rfl, rfl, rfl⟩
  clear_value s1 y
  obtain ⟨htag, hopc, hacked, hpieces⟩ := hy
  have hrefused {t : State} (ht : t.ni = s.ni) (status : Nat) : Decoded s x (some (y.refuse status), t) :=
    .goesOn ht htag hopc hacked (by simp [Txn.refuse, Txn.fail, hpieces, hx])
  have hgoes {t : State} (ht : t.ni = s.ni) {cs : List Piece} (mask : List (BitVec 64))
      (hcs : ∀ c ∈ cs, c.released = false) : Decoded s x (some { y with pieces := cs, permit := mask }, t) :=
    .goesOn ht htag hopc hacked hcs
  have hnew (a b c d e f : Nat) : ∀ q ∈ [newPiece a b c d e f], q.released = false := fun q hq => by
    rw [List.mem_singleton.mp hq]
    rfl
  split
  · split
    · exact hrefused ((State.ni_raise s1 _ _).trans hs1) _
    · exact hgoes hs1 y.permit (hnew _ _ _ _ _ _)
  split
  · split
    · exact hrefused ((State.ni_decRec _ _ _ _ _ _).trans ((State.ni_decCnt s1 _ _).trans hs1)) _
    · exact hgoes hs1 y.permit (hnew _ _ _ _ _ _)
  split
  case h_1 status cause cnt _ =>
    refine .dropped_or (hrefused ?_ _)
    split
    · exact (State.ni_decCnt s1 _ _).trans hs1
    · exact (State.ni_decRec _ _ _ _ _ _).trans ((State.ni_decCnt s1 _ _).trans hs1)
  case h_2 dev ds _ =>
    split
    · exact hrefused hs1 _
    split
    · exact .dropped_or (hrefused ((State.ni_decRec _ _ _ _ _ _).trans ((State.ni_decCnt s1 _ _).trans hs1)) _)
    split
    · exact hrefused ((State.ni_raise s1 _ _).trans hs1) _
    split
    case h_1 d _ _ _ _ ok mask s2 hacu =>
      have hs2 : s2.ni = s.ni := by
        refine (congrArg (fun r => r.2.2.ni) hacu).symm.trans (Eq.trans ?_ hs1)
        split
        · rfl
        · split
          · rfl
          · exact State.ni_acuCheck s1 _ _ _ _ _ _ _ _ _ _
      split
      · exact .dropped_or (hrefused hs2 _)
      split
      · split
        · exact .dropped ((State.ni_noFlow s2 _ _ _).trans hs2)
        · split
          · exact .dropped ((State.ni_noFlow s2 _ _ _).trans hs2)
          · exact hgoes hs2 mask (destPieces_released y _)
      · exact hgoes hs2 mask (destPieces_released y _)

/-- The decoding leaves the tag states. -/
theorem State.decodeTxn_kept (s : State) (st p : Nat) {x : Txn} (hx : x.pieces = []) :
    AnswersKept s (s.decodeTxn st p x).2 :=
  .of_ni (s.decodeTxn_decoded st p x hx).ni

/-! ### The release of a piece -/

theorem State.timer_armed (s : State) (st : Nat) (x : Txn) : (s.armed st x).timer = true := by
  unfold State.armed
  split
  case isTrue h => exact h
  case isFalse => rfl

/-- The state once an ordered piece has taken its number in the sequence to its stop (R189). -/
def State.numberTaken (s : State) (st p : Nat) (x : Txn) (c : Piece) : State :=
  if x.ord && !opBE x.opc then
    { s with ni := { s.ni with oseq := Tab.set (fun _ => 0) s.ni.oseq (oseqKey st p c)
                                        ((Tab.get (fun _ => 0) s.ni.oseq (oseqKey st p c) + 1) % 64) } }
  else s

/-- A piece that goes into its injection queue (R189). -/
def State.sentPiece (s : State) (st p : Nat) (x : Txn) (c : Piece) : Piece :=
  { c with
    oseq := if x.ord && !opBE x.opc then Tab.get (fun _ => 0) s.ni.oseq (oseqKey st p c) else 0
    sstart := x.ord && startsSeq (s.txns st p) c, released := true }

/-- Its request, as step 4 of R175 leaves it. -/
def State.sentTxn (s : State) (st p : Nat) (x : Txn) (i : Nat) (c : Piece) : Txn :=
  let ps := x.pieces.set i (s.sentPiece st p x c)
  let all := ps.all (·.released)
  { (s.numberTaken st p x c).armed st x with
    pieces := ps
    phase := if all && opPosted x.opc then .posted else .released
    ack := x.ack || (all && opPosted x.opc && decide (p < 2) && !x.acked)
    status := if all && opPosted x.opc && !x.permit.isEmpty then stACCERR else x.status
    resv := if x.resv = 0 then x.rspNeed else x.resv
    stamps := if x.stamps.length = 1 then x.stamps ++ [(s.numberTaken st p x c).stamp st] else x.stamps
    data := if x.data.isEmpty && x.reads then List.replicate x.rspNeed 0 else x.data }

section
variable (s : State) (st p n : Nat) (x : Txn) (i : Nat) (c : Piece)

/-- A guaranteed write whose pieces have all gone leaves the tag state; any other request stands there released. -/
theorem TxnPut.sendPiece : TxnPut st p n
    (if x.opc = opGWR ∧ (x.pieces.set i (s.sentPiece st p x c)).all (·.released) then none
      else some (s.sentTxn st p x i c)) s (s.sendPiece st p n x i c) := by
  have hnumber : AnswersKept s (s.numberTaken st p x c) := .ite ⟨rfl, rfl⟩ (.refl s)
  exact ((TxnPut.putTxn _ st p n _).before hnumber).after
    ((AnswersKept.noteLock _ st p x _).trans (.offerOn _ _ _ _ _ _ _))

/-- A piece that a fence fails is answered, and its request is over where that was the last (Table 13.4). -/
theorem TxnPut.fenceFail : ∃ o, TxnPut st p n o s (s.fenceFail st p n x i c) := by
  unfold State.fenceFail
  extract_lets u isOpen s1
  have hnotice : AnswersKept s s1 := .of_ni (State.ni_postedNotice s _ _ _ _ _ _ _ _ _ _)
  split
  · exact ⟨none, .putTxn s st p n none⟩
  split
  · split
    · exact ⟨_, .putTxn s st p n _⟩
    · exact ⟨_, .before hnotice (.putTxn s1 st p n _)⟩
  split
  · exact ⟨_, .putTxn s st p n _⟩
  split
  · exact ⟨none, .putTxn s st p n none⟩
  · exact ⟨_, .finish s st p n _⟩

/-- The request of which the last piece is answered by a fence. -/
def Txn.fenced (x : Txn) (c : Piece) : Txn :=
  { x with pieces := [{ c with released := true, status := some stFENCED }], phase := .ready
           status := walkStatus x.attr stFENCED, ack := x.ack || opPosted x.opc }

variable {x c}

theorem Txn.settle_fenced (hphase : x.phase = .captured) (hpermit : x.permit = []) :
    ({ x with pieces := [{ c with released := true, status := some stFENCED }] } : Txn).settle = some (x.fenced c) := by
  have hmerge (d : Piece) (hd : d.status = some stFENCED) : mergeStatus [d] = stFENCED := by
    simp [mergeStatus, hd, stFENCED, stOK]
  unfold Txn.settle Txn.finalStatus Txn.fenced
  rw [hmerge _ rfl, hphase, hpermit]
  cases opPosted x.opc <;> simp

theorem State.finish_of_not_acked (h : x.acked = false) : s.finish st p n x = s.putTxn st p n (some x) := by
  unfold State.finish
  rw [h]
  rfl

/-- A request of one piece that waits, and is not acknowledged, is completed with FENCED. -/
theorem State.fenceFail_one (hphase : x.phase = .captured) (hpieces : x.pieces = [c]) (hgwr : x.opc ≠ opGWR)
    (hacked : x.acked = false) (hpermit : x.permit = []) :
    s.fenceFail st p n x 0 c = s.putTxn st p n (some (x.fenced c)) := by
  unfold State.fenceFail
  rw [hpieces, List.set_cons_zero]
  dsimp only
  rw [if_neg hgwr, if_neg (by rw [hphase]; decide), if_neg (by simp), Txn.settle_fenced hphase hpermit]
  exact State.finish_of_not_acked s st p n hacked

end

/-! ### The pieces of a request, one after the other -/

section
variable {s : State} {st p n : Nat} {x : Txn} {i : Nat} {c : Piece}

theorem releasePieces_none (fuel : Nat) (hx : (s.txns st p)[n]? = some x)
    (hall : ∀ d ∈ x.pieces, d.released = true) :
    releasePieces st p n fuel s = s := by
  cases fuel with
  | zero => rfl
  | succ fuel =>
    have hfind : x.pieces.zipIdx.find? (fun d => !d.1.released) = none := by
      rw [List.find?_eq_none]
      intro d hd
      rw [hall d.1 (List.fst_mem_of_mem_zipIdx hd)]
      decide
    unfold releasePieces
    simp only [hx, hfind]

section
variable (fuel : Nat) (hx : (s.txns st p)[n]? = some x)
  (hfind : x.pieces.zipIdx.find? (fun d => !d.1.released) = some (c, i))
include hx hfind

theorem releasePieces_wait (hcheck : s.relCheck st p x i c = .wait) : releasePieces st p n (fuel + 1) s = s := by
  unfold releasePieces
  simp only [hx, hfind, hcheck]

theorem releasePieces_held (hcheck : s.relCheck st p x i c = .held) : releasePieces st p n (fuel + 1) s
    = (s.putTxn st p n (some (if x.opc = opGWR then x else s.armed st x))).wakeFor st c.die c.stop c.port := by
  unfold releasePieces
  simp only [hx, hfind, hcheck]

theorem releasePieces_go (hcheck : s.relCheck st p x i c = .go) : releasePieces st p n (fuel + 1) s
    = if ((s.sendPiece st p n x i c).txns st p).length < (s.txns st p).length then s.sendPiece st p n x i c
      else releasePieces st p n fuel (s.sendPiece st p n x i c) := by
  rw [releasePieces]
  simp only [hx, hfind, hcheck]

theorem releasePieces_fenced (hcheck : s.relCheck st p x i c = .fenced) : releasePieces st p n (fuel + 1) s
    = if ((s.fenceFail st p n x i c).txns st p).length < (s.txns st p).length then s.fenceFail st p n x i c
      else releasePieces st p n fuel (s.fenceFail st p n x i c) := by
  rw [releasePieces]
  simp only [hx, hfind, hcheck]

end

/-- Whatever becomes of a request's pieces, the tag states of other ports stay. -/
theorem txnsBut_releasePieces (fuel : Nat) (s : State) : txnsBut st p s (releasePieces st p n fuel s) := by
  induction fuel generalizing s with
  | zero => exact txnsBut_refl st p s
  | succ fuel ih =>
    cases hx : (s.txns st p)[n]? with
    | none =>
      unfold releasePieces
      simp only [hx]
      exact txnsBut_refl st p s
    | some x =>
      cases hfind : x.pieces.zipIdx.find? (fun d => !d.1.released) with
      | none =>
        unfold releasePieces
        simp only [hx, hfind]
        exact txnsBut_refl st p s
      | some d =>
        obtain ⟨c, i⟩ := d
        cases hcheck : s.relCheck st p x i c with
        | wait =>
          rw [releasePieces_wait fuel hx hfind hcheck]
          exact txnsBut_refl st p s
        | held =>
          rw [releasePieces_held fuel hx hfind hcheck]
          exact ((TxnPut.putTxn s st p n _).after (.wakeFor _ _ _ _ _)).others
        | go =>
          rw [releasePieces_go fuel hx hfind hcheck]
          have hsent := (TxnPut.sendPiece s st p n x i c).others
          split
          · exact hsent
          · exact txnsBut_trans hsent (ih _)
        | fenced =>
          rw [releasePieces_fenced fuel hx hfind hcheck]
          obtain ⟨o, ho⟩ := TxnPut.fenceFail s st p n x i c
          split
          · exact ho.others
          · exact txnsBut_trans ho.others (ih _)

section
variable (hx : (s.txns st p)[n]? = some x) (hpieces : x.pieces = [c]) (hunsent : c.released = false)
include hpieces

theorem find_unsent_one (hunsent : c.released = false) :
    x.pieces.zipIdx.find? (fun d => !d.1.released) = some (c, 0) := by
  simp [hpieces, List.zipIdx_cons, hunsent]

/-- A request that goes as one piece waits for its completion, or for its PWACK where it is posted (R174, R176). -/
theorem State.sentTxn_one : ∃ u, s.sentTxn st p x 0 c = u
    ∧ u.phase = (if opPosted x.opc then .posted else .released)
    ∧ (∃ d, u.pieces = [d] ∧ d.released = true ∧ d.addr = c.addr ∧ d.stop = c.stop)
    ∧ u.timer = true ∧ u.tag = x.tag ∧ u.resv = (if x.resv = 0 then x.rspNeed else x.resv)
    ∧ u.ack = (x.ack || (opPosted x.opc && decide (p < 2) && !x.acked)) := by
  have hall : (x.pieces.set 0 (s.sentPiece st p x c)).all (·.released) = true := by
    rw [hpieces]
    rfl
  refine ⟨_, rfl, ?_, ⟨s.sentPiece st p x c, ?_, rfl, rfl, rfl⟩, State.timer_armed _ _ _,
    (Txn.Like.armed _ _).tag, rfl, ?_⟩
  · unfold State.sentTxn
    simp only [hall, Bool.true_and]
  · exact congrArg (fun l : List Piece => l.set 0 (s.sentPiece st p x c)) hpieces
  · unfold State.sentTxn
    simp only [hall, Bool.true_and]

include hx hunsent

theorem releasePieces_one_go (hgwr : x.opc ≠ opGWR) (hcheck : s.relCheck st p x 0 c = .go) :
    TxnPut st p n (some (s.sentTxn st p x 0 c)) s (releasePieces st p n 17 s) := by
  have hsent := TxnPut.sendPiece s st p n x 0 c
  rw [if_neg fun h => hgwr h.1] at hsent
  obtain ⟨hn, _⟩ := List.getElem?_eq_some_iff.mp hx
  obtain ⟨_, rfl, _, ⟨d, hd, hreleased, _⟩, _⟩ := State.sentTxn_one (s := s) (st := st) (p := p) hpieces
  rw [releasePieces_go 16 hx (find_unsent_one hpieces hunsent) hcheck, if_neg (by rw [hsent.length_eq]; omega),
    releasePieces_none 16 (hsent.there hn) (by rw [hd]; simpa using hreleased)]
  exact hsent

theorem releasePieces_one_guaranteed (hgwr : x.opc = opGWR) (hcheck : s.relCheck st p x 0 c = .go) :
    TxnPut st p n none s (releasePieces st p n 17 s) := by
  have hsent := TxnPut.sendPiece s st p n x 0 c
  rw [if_pos ⟨hgwr, by rw [hpieces]; rfl⟩] at hsent
  obtain ⟨hn, _⟩ := List.getElem?_eq_some_iff.mp hx
  rw [releasePieces_go 16 hx (find_unsent_one hpieces hunsent) hcheck, if_pos (hsent.length_lt hn)]
  exact hsent

theorem releasePieces_one_held (hgwr : x.opc ≠ opGWR) (hcheck : s.relCheck st p x 0 c = .held) :
    TxnPut st p n (some (s.armed st x)) s (releasePieces st p n 17 s) := by
  rw [releasePieces_held 16 hx (find_unsent_one hpieces hunsent) hcheck, if_neg hgwr]
  exact (TxnPut.putTxn s st p n _).after (.wakeFor _ _ _ _ _)

theorem releasePieces_one_fenced (hphase : x.phase = .captured) (hgwr : x.opc ≠ opGWR) (hacked : x.acked = false)
    (hpermit : x.permit = []) (hcheck : s.relCheck st p x 0 c = .fenced) :
    TxnPut st p n (some (x.fenced c)) s (releasePieces st p n 17 s) := by
  have hput := TxnPut.putTxn s st p n (some (x.fenced c))
  obtain ⟨hn, _⟩ := List.getElem?_eq_some_iff.mp hx
  rw [releasePieces_fenced 16 hx (find_unsent_one hpieces hunsent) hcheck,
    State.fenceFail_one s st p n hphase hpieces hgwr hacked hpermit, if_neg (by rw [hput.length_eq]; omega),
    releasePieces_none 16 (hput.there hn) (by simp [Txn.fenced])]
  exact hput

end

end

/-! ### REQUEST_RELEASE -/

/-- What becomes of a request once it is decoded: it is dropped, goes on to step 3 of R175, or is answered. -/
def decodedOn (st p n : Nat) : Option Txn × State → State
  | (none, t) => t.putTxn st p n none
  | (some u, t) =>
    if u.phase == .captured then releasePieces st p n 17 (t.putTxn st p n (some u))
    else t.finish st p n (if opPosted u.opc then { u with ack := true } else u)

theorem txnsBut_decodedOn (st p n : Nat) (r : Option Txn × State) : txnsBut st p r.2 (decodedOn st p n r) := by
  obtain ⟨_ | u, t⟩ := r
  · exact (TxnPut.putTxn t st p n none).others
  · unfold decodedOn
    simp only
    split
    · exact txnsBut_trans (TxnPut.putTxn t st p n _).others (txnsBut_releasePieces 17 _)
    · exact (TxnPut.finish t st p n _).others

/-- A captured request on its way to its release. -/
structure Starts (s : State) (st p tag n : Nat) (x : Txn) : Prop where
  index : s.relIndex st p tag = some n
  here : (s.txns st p)[n]? = some x
  phase : x.phase = .captured
  may : s.mayStart st p x = true

section
variable {s : State} {st p tag n : Nat} {x : Txn} (h : Starts s st p tag n x)
include h

theorem Starts.release_decoded (hpieces : x.pieces ≠ []) : s.release st p tag = releasePieces st p n 17 s := by
  have hne : x.pieces.isEmpty = false := by simpa using hpieces
  unfold State.release
  simp only [h.index, h.here, h.phase, h.may, hne]
  rfl

theorem Starts.release_raw (hpieces : x.pieces = []) :
    s.release st p tag = decodedOn st p n (s.decodeTxn st p x) := by
  unfold State.release
  simp only [h.index, h.here, h.phase, h.may, hpieces]
  rfl

theorem Starts.lt : n < (s.txns st p).length := (List.getElem?_eq_some_iff.mp h.here).1

/-- A request of one piece that has been decoded already. -/
theorem Starts.release_one {c : Piece} (hpieces : x.pieces = [c]) (hunsent : c.released = false) :
    (s.relCheck st p x 0 c = .go → x.opc ≠ opGWR →
        TxnPut st p n (some (s.sentTxn st p x 0 c)) s (s.release st p tag))
    ∧ (s.relCheck st p x 0 c = .go → x.opc = opGWR → TxnPut st p n none s (s.release st p tag))
    ∧ (s.relCheck st p x 0 c = .wait → s.release st p tag = s)
    ∧ (s.relCheck st p x 0 c = .held → x.opc ≠ opGWR →
        TxnPut st p n (some (s.armed st x)) s (s.release st p tag))
    ∧ (s.relCheck st p x 0 c = .fenced → x.opc ≠ opGWR → x.acked = false → x.permit = [] →
        TxnPut st p n (some (x.fenced c)) s (s.release st p tag)) := by
  rw [h.release_decoded (by rw [hpieces]; exact List.cons_ne_nil _ _)]
  exact ⟨fun hgo hgwr => releasePieces_one_go h.here hpieces hunsent hgwr hgo,
    fun hgo hgwr => releasePieces_one_guaranteed h.here hpieces hunsent hgwr hgo,
    fun hwait => releasePieces_wait 16 h.here (find_unsent_one hpieces hunsent) hwait,
    fun hheld hgwr => releasePieces_one_held h.here hpieces hunsent hgwr hheld,
    fun hfenced hgwr hacked hpermit =>
      releasePieces_one_fenced h.here hpieces hunsent h.phase hgwr hacked hpermit hfenced⟩

theorem Starts.txnsBut_release : txnsBut st p s (s.release st p tag) := by
  by_cases hpieces : x.pieces = []
  · have hkept := State.decodeTxn_kept s st p hpieces
    rw [h.release_raw hpieces]
    exact txnsBut_trans (fun a b _ => hkept.txnsAt a b) (txnsBut_decodedOn st p n _)
  · rw [h.release_decoded hpieces]
    exact txnsBut_releasePieces 17 s

section
variable (hpieces : x.pieces = [])
include hpieces

theorem Starts.release_dropped (hdrop : (s.decodeTxn st p x).1 = none) : TxnPut st p n none s (s.release st p tag) := by
  have heq : s.release st p tag = (s.decodeTxn st p x).2.putTxn st p n none := by
    rw [h.release_raw hpieces, ← Prod.eta (s.decodeTxn st p x), hdrop]
    rfl
  rw [heq]
  exact .before (State.decodeTxn_kept s st p hpieces) (.putTxn _ st p n none)

/-- A request that the decoding answers stands there with its answer (R174). -/
theorem Starts.release_answered (hacked : x.acked = false) {u : Txn} (hu : (s.decodeTxn st p x).1 = some u)
    (hphase : u.phase ≠ .captured) : TxnPut st p n (some (if opPosted u.opc then { u with ack := true } else u)) s
      (s.release st p tag) := by
  have hnot : (if opPosted u.opc then { u with ack := true } else u : Txn).acked = false := by
    obtain ⟨_, _, hkeep, _⟩ := (State.decodeTxn_decoded s st p x hpieces).same u hu
    rw [← hacked, ← hkeep]
    split <;> rfl
  have heq : s.release st p tag = (s.decodeTxn st p x).2.putTxn st p n
      (some (if opPosted u.opc then { u with ack := true } else u)) := by
    rw [h.release_raw hpieces, ← Prod.eta (s.decodeTxn st p x), hu]
    unfold decodedOn
    dsimp only
    rw [if_neg (by simpa using hphase), State.finish_of_not_acked _ _ _ _ hnot]
  rw [heq]
  exact .before (State.decodeTxn_kept s st p hpieces) (.putTxn _ st p n _)

/-- A request that the decoding gives one piece, which may go, is released. -/
theorem Starts.release_sent {u : Txn} {c : Piece} (hu : (s.decodeTxn st p x).1 = some u) (hphase : u.phase = .captured)
    (hone : u.pieces = [c]) (hgwr : u.opc ≠ opGWR)
    (hgo : ((s.decodeTxn st p x).2.putTxn st p n (some u)).relCheck st p u 0 c = .go) :
    TxnPut st p n (some (((s.decodeTxn st p x).2.putTxn st p n (some u)).sentTxn st p u 0 c)) s
      (s.release st p tag) := by
  have hkept := State.decodeTxn_kept s st p hpieces
  have hput := TxnPut.before hkept (TxnPut.putTxn _ st p n (some u))
  obtain ⟨_, _, _, hunsent⟩ := (State.decodeTxn_decoded s st p x hpieces).same u hu
  have heq : s.release st p tag = releasePieces st p n 17 ((s.decodeTxn st p x).2.putTxn st p n (some u)) := by
    rw [h.release_raw hpieces, ← Prod.eta (s.decodeTxn st p x), hu]
    unfold decodedOn
    dsimp only
    rw [if_pos (by rw [hphase]; rfl)]
  have hsent := releasePieces_one_go (hput.there h.lt) hone (hunsent c (by rw [hone]; exact List.mem_singleton_self c))
    hgwr hgo
  rw [heq]
  exact hput.again hsent

end

end

theorem exec_requestRelease {st : StopNo} {p : Fin 4} (tag : Fin 4096) {s : State}
    (hp : portThere st.val p.val = true) :
    exec (.requestRelease st p tag) s = .next (s.keepTxn (s.release st.val p.val tag.val)) :=
  if_pos hp

/-- Settles O16: a request of one piece has the outcome of its check, before its decoding or after it, and no outcome
reaches another port's tag state. -/
theorem releasedRequestWaitsForItsCompletion : Obligations.ReleasedRequestWaitsForItsCompletion := by
  unfold Obligations.ReleasedRequestWaitsForItsCompletion
  refine ⟨fun st p tag s n x c hp hindex hx hphase hpieces hunsent hmay => ?_,
    fun st p tag s n x hp hindex hx hphase hpieces hacked hmay => ?_⟩
  · have h : Starts s st.val p.val tag.val n x := ⟨hindex, hx, hphase, hmay⟩
    obtain ⟨hgo, hguar, hwait, hheld, hfenced⟩ := h.release_one hpieces hunsent
    refine ⟨_, exec_requestRelease tag hp, fun hc hgwr => ?_, fun hc hgwr => (hguar hc hgwr).gone, fun hc => ?_,
      fun hc hgwr => (hheld hc hgwr).keepTxn.stands hx rfl, fun hc hgwr hacked _ hpermit =>
      (hfenced hc hgwr hacked hpermit).keepTxn.stands hx ⟨rfl, rfl, rfl⟩, h.txnsBut_release, onlyParts_keepTxn s _⟩
    · obtain ⟨u, hu, hfacts⟩ := State.sentTxn_one (s := s) (st := st.val) (p := p.val) hpieces
      exact (hgo hc hgwr).keepTxn.stands hx (hu ▸ hfacts)
    · rw [hwait hc]
      rfl
  · have h : Starts s st.val p.val tag.val n x := ⟨hindex, hx, hphase, hmay⟩
    refine ⟨_, exec_requestRelease tag hp, fun hdrop => (h.release_dropped hpieces hdrop).gone,
      fun u hu hne => (h.release_answered hpieces hacked hu hne).keepTxn.stands hx rfl,
      fun u c hu hcap hone hgwr hc => ?_, h.txnsBut_release, onlyParts_keepTxn s _⟩
    obtain ⟨htag, hopc, _, _⟩ := (State.decodeTxn_decoded s st.val p.val x hpieces).same u hu
    obtain ⟨v, hv, hvphase, _, htimer, hvtag, _⟩ := State.sentTxn_one
      (s := (s.decodeTxn st.val p.val x).2.putTxn st.val p.val n (some u)) (st := st.val) (p := p.val) hone
    refine (h.release_sent hpieces hu hcap hone hgwr hc).keepTxn.stands hx ?_
    rw [hv, ← hopc, ← htag]
    exact ⟨hvphase, htimer, hvtag⟩

end Sys2Proof.Machine

end

section
/-! PROOFS. Answers (R174, R176, R194, R207): what a completion or a PWACK makes of its request, and what no request
awaits. -/
namespace Sys2Proof.Machine
open Sys2Proof

/-! ### A request that is answered -/

section
variable {x : Txn}

/-- A request that is not posted is ready once no piece is left (R207). -/
theorem Txn.settle_of_not_posted (hne : x.pieces ≠ []) (hposted : opPosted x.opc = false) : x.settle
    = some (if x.pieces.any (fun d => d.status.isNone) then x
        else { x with phase := .ready, status := x.finalStatus }) := by
  have hsome : x.pieces.isEmpty = false := by simpa using hne
  unfold Txn.settle
  rw [hsome, hposted]
  cases x.pieces.any (fun d => d.status.isNone) <;> rfl

/-- A posted request of which every piece is answered ends, or waits for its acknowledgement to be handed over
(R174). -/
theorem Txn.settle_of_posted (hne : x.pieces ≠ []) (hall : x.pieces.any (fun d => d.status.isNone) = false)
    (hposted : opPosted x.opc = true) (hphase : x.phase = .posted) :
    x.settle = if x.ack then some { x with phase := .ready } else none := by
  have hsome : x.pieces.isEmpty = false := by simpa using hne
  unfold Txn.settle
  rw [hsome, hall, hposted, hphase]
  rfl

end

/-- A request one piece of which has been answered by a packet. -/
def Txn.answered (x : Txn) (i : Nat) (c : Piece) (pkt : Pkt) (now : Nat) : Txn :=
  if (x.answer i c pkt now).pieces.any (fun d => d.status.isNone) then x.answer i c pkt now
  else { x.answer i c pkt now with phase := .ready, status := (x.answer i c pkt now).finalStatus }

theorem Txn.answered_facts (x : Txn) (i : Nat) (c : Piece) (pkt : Pkt) (now : Nat) :
    (x.answered i c pkt now).tag = x.tag
    ∧ (∃ v, (x.answered i c pkt now).pieces = x.pieces.set i { c with status := some v })
    ∧ (x.answered i c pkt now).phase
      = (if (x.answered i c pkt now).pieces.any (fun d => d.status.isNone) then x.phase else .ready) := by
  unfold Txn.answered
  split
  · exact ⟨rfl, ⟨_, rfl⟩, rfl⟩
  · exact ⟨rfl, ⟨_, rfl⟩, rfl⟩

section
variable {s : State} {st n i : Nat} {pkt : Pkt} {x : Txn} {c : Piece}

/-- A completion answers the piece that awaits it. -/
theorem TxnPut.complete
    (hfor : s.txnFor st (Pkt.head pkt).dport (Pkt.head pkt).tag (Pkt.head pkt).addr (fun ph => ph == .released)
      = some n)
    (hx : (s.txns st (Pkt.head pkt).dport)[n]? = some x) (hposted : opPosted x.opc = false)
    (hpiece : x.pieces.zipIdx.find? (fun c => c.1.awaits (Pkt.head pkt).addr) = some (c, i)) :
    TxnPut st (Pkt.head pkt).dport n (some (x.answered i c pkt (s.stamp st))) s (s.complete st pkt) := by
  obtain ⟨_, hphase⟩ := State.txnFor_some hfor hx
  obtain ⟨hc, _⟩ := find_zipIdx_some hpiece
  obtain ⟨hi, _⟩ := List.getElem?_eq_some_iff.mp hc
  have hne : (x.answer i c pkt (s.stamp st)).pieces ≠ [] := by
    refine List.ne_nil_of_length_pos ?_
    have : (x.answer i c pkt (s.stamp st)).pieces.length = x.pieces.length := List.length_set
    omega
  have hsettle : (x.answer i c pkt (s.stamp st)).settle = some (x.answered i c pkt (s.stamp st)) :=
    Txn.settle_of_not_posted hne hposted
  unfold State.complete
  simp only [hfor, hx, hpiece]
  rw [if_neg (by rw [beq_iff_eq.mp hphase]; decide), hsettle]
  exact .putTxn s st _ n _

/-- The pieces of a request that await an answer have got its status. -/
def Txn.marked (x : Txn) (h : Slot) : Txn :=
  { x with pieces := x.pieces.map (fun c => if c.awaits h.addr then { c with status := some h.status } else c) }

/-- A PWACK marks the pieces that await it; what it says beside OK becomes a notice (R231). -/
theorem TxnPut.pwackAt {h : Slot}
    (hfor : s.txnFor st h.dport h.tag h.addr (fun ph => ph == .posted || ph == .released) = some n)
    (hx : (s.txns st h.dport)[n]? = some x) :
    TxnPut st h.dport n (if x.phase == .posted then (x.marked h).settle else some (x.marked h)) s (s.pwackAt st h) := by
  have hput := TxnPut.putTxn s st h.dport n (if x.phase == .posted then (x.marked h).settle else some (x.marked h))
  unfold State.pwackAt
  simp only [hfor, hx]
  exact .ite hput (hput.after (.of_ni (State.ni_postedNotice _ _ _ _ _ _ _ _ _ _ _)))

/-- The PWACK of a posted request of one piece ends it, or leaves its acknowledgement to be handed over (R174). -/
theorem Txn.settle_marked {h : Slot} (hphase : x.phase = .posted) (hpieces : x.pieces = [c])
    (hawaits : c.awaits h.addr = true) (hposted : opPosted x.opc = true) :
    (x.marked h).settle = if x.ack then some { x.marked h with phase := .ready } else none := by
  have hmarked : (x.marked h).pieces = [{ c with status := some h.status }] := by
    simp [Txn.marked, hpieces, hawaits]
  exact Txn.settle_of_posted (by rw [hmarked]; exact List.cons_ne_nil _ _) (by rw [hmarked]; rfl) hposted hphase

end

/-! ### A completion that no request awaits -/

section
variable (s : State) (st p : Nat) (h : Slot)

/-- A late completion is counted, once, by TXN_CNT_6. -/
theorem State.fld_lateRsp : (s.lateRsp st p h).fld (stopReg st (sTXN_CNT + 24)) 0 32
    = satAdd 32 (s.fld (stopReg st (sTXN_CNT + 24)) 0 32) 1 := by
  have hreg := State.reg_raise_other (s.txnCnt st 6) st (recGen p sevCORRECTED caLATE_RSP (some h.part)
    (specGen h.addr h.opc h.tag (peerOf h.sdie h.sstop h.sport) 0 h.status 0))
    (stopReg_ne (st := st) (st' := st) (o := sTXN_CNT + 24) (by decide) (by decide) (by decide))
  exact (State.fld_congr hreg 0 32).trans (State.fld_count s _ 0 32 1 (by decide))

theorem State.ni_lateRsp : (s.lateRsp st p h).ni = s.ni :=
  (State.ni_raise _ _ _).trans (State.count_ni s _ _ _ _)

/-- A completion of an old tag generation touches its port's count and the tag state (R153). -/
theorem State.staleRsp_keeps :
    (s.staleRsp st p h).regs = (if p < 2 then s.count (portReg st p pCNT2) 16 8 1 else s).regs
    ∧ (s.staleRsp st p h).ni.rspIn = (if p < 2 then s.count (portReg st p pCNT2) 16 8 1 else s).ni.rspIn := by
  unfold State.staleRsp
  generalize (if p < 2 then s.count (portReg st p pCNT2) 16 8 1 else s) = u
  dsimp only
  split
  · exact ⟨rfl, rfl⟩
  · split
    · exact ⟨rfl, rfl⟩
    · exact ⟨rfl, rfl⟩

theorem State.fld_staleRsp (hp : p < 2) : (s.staleRsp st p h).fld (stopReg st (sTXN_CNT + 24)) 0 32
    = s.fld (stopReg st (sTXN_CNT + 24)) 0 32 := by
  have hne : stopReg st (sTXN_CNT + 24) ≠ portReg st p pCNT2 :=
    stopReg_ne (by decide) (by unfold pCNT2; omega) (by unfold sTXN_CNT pCNT2; omega)
  obtain ⟨hregs, _⟩ := State.staleRsp_keeps s st p h
  rw [if_pos hp] at hregs
  exact State.fld_congr ((State.reg_congr hregs _).trans (State.reg_count_other s _ _ _ _ _ hne)) 0 32

theorem State.rspIn_staleRsp : (s.staleRsp st p h).ni.rspIn = s.ni.rspIn := by
  obtain ⟨_, hrspIn⟩ := State.staleRsp_keeps s st p h
  rw [hrspIn]
  split
  · rw [State.count_ni]
  · rfl

end

section
variable {s : State} {st : Nat} {pkt : Pkt}
  (hrel : s.txnFor st (Pkt.head pkt).dport (Pkt.head pkt).tag (Pkt.head pkt).addr (fun ph => ph == .released) = none)
  (hpost : s.txnFor st (Pkt.head pkt).dport (Pkt.head pkt).tag (Pkt.head pkt).addr (fun ph => ph == .posted) = none)
include hrel hpost

theorem State.complete_late (hgen : (Pkt.head pkt).dport < 2 →
      (Pkt.head pkt).tag / 1024 = (s.port st (Pkt.head pkt).dport).tgen) : s.complete st pkt
    = (s.unhaunt st (Pkt.head pkt).dport (Pkt.head pkt).tag).lateRsp st (Pkt.head pkt).dport (Pkt.head pkt) := by
  unfold State.complete
  simp only [hrel, hpost]
  exact if_neg (by simpa using hgen)

theorem State.complete_stale (hp : (Pkt.head pkt).dport < 2)
    (hgen : (Pkt.head pkt).tag / 1024 ≠ (s.port st (Pkt.head pkt).dport).tgen) :
    s.complete st pkt = s.staleRsp st (Pkt.head pkt).dport (Pkt.head pkt) := by
  unfold State.complete
  simp only [hrel, hpost]
  exact if_pos (by simp [hp, hgen])

/-- What no request awaits leaves the response stores, and TXN_CNT_6 counts it where its tag is of this generation. -/
theorem State.complete_unawaited : (s.complete st pkt).ni.rspIn = s.ni.rspIn
    ∧ (((Pkt.head pkt).dport < 2 → (Pkt.head pkt).tag / 1024 = (s.port st (Pkt.head pkt).dport).tgen) →
        (s.complete st pkt).fld (stopReg st (sTXN_CNT + 24)) 0 32
          = satAdd 32 (s.fld (stopReg st (sTXN_CNT + 24)) 0 32) 1)
    ∧ ((Pkt.head pkt).dport < 2 → (Pkt.head pkt).tag / 1024 ≠ (s.port st (Pkt.head pkt).dport).tgen →
        (s.complete st pkt).fld (stopReg st (sTXN_CNT + 24)) 0 32 = s.fld (stopReg st (sTXN_CNT + 24)) 0 32) := by
  refine ⟨?_, fun hgen => ?_, fun hp hgen => ?_⟩
  · by_cases hgen : (Pkt.head pkt).dport < 2 → (Pkt.head pkt).tag / 1024 = (s.port st (Pkt.head pkt).dport).tgen
    · rw [State.complete_late hrel hpost hgen, State.ni_lateRsp]
      rfl
    · obtain ⟨hp, hne⟩ := Classical.not_imp.mp hgen
      rw [State.complete_stale hrel hpost hp hne, State.rspIn_staleRsp]
  · rw [State.complete_late hrel hpost hgen]
    exact State.fld_lateRsp _ st _ _
  · rw [State.complete_stale hrel hpost hp hgen]
    exact State.fld_staleRsp s st _ _ hp

end

/-! ### COMPLETION_RECEIVE and PWACK_RECEIVE -/

section
variable {s t : State} {st : StopNo} {pkt : Pkt} {n i q : Nat} {x : Txn} {c : Piece}

/-- A response packet that has been taken is no longer in its store. -/
theorem rspIn_of_takeRsp {a : Nat} (h : t.ni.rspIn = (s.takeRsp a pkt).ni.rspIn) :
    t.rspIn a = (s.rspIn a).erase pkt := by
  have htaken : (s.takeRsp a pkt).rspIn a = (s.rspIn a).erase pkt := State.rspIn_setRspIn_same s a _
  rw [← htaken]
  unfold State.rspIn
  rw [h]

variable (hin : (s.rspIn st.val).contains pkt = true)
include hin

theorem exec_completionReceive : exec (.completionReceive st pkt) s
    = .next (s.keepTxn ((s.takeRsp st.val pkt).complete st.val pkt)) := if_pos hin

theorem exec_pwackReceive : exec (.pwackReceive st pkt) s
    = .next (s.keepTxn ((s.takeRsp st.val pkt).pwackAt st.val (Pkt.head pkt))) := if_pos hin

theorem completes_completionReceive_answers
    (hfor : s.txnFor st.val (Pkt.head pkt).dport (Pkt.head pkt).tag (Pkt.head pkt).addr (fun ph => ph == .released)
      = some n)
    (hx : (s.txns st.val (Pkt.head pkt).dport)[n]? = some x) (hposted : opPosted x.opc = false)
    (hpiece : x.pieces.zipIdx.find? (fun c => c.1.awaits (Pkt.head pkt).addr) = some (c, i)) :
    completes (.completionReceive st pkt) s (fun t =>
      txnAt st.val (Pkt.head pkt).dport n t (fun u => u.tag = x.tag
        ∧ (∃ v, u.pieces = x.pieces.set i { c with status := some v })
        ∧ u.phase = (if u.pieces.any (fun d => d.status.isNone) then x.phase else .ready))
      ∧ t.rspIn st.val = (s.rspIn st.val).erase pkt
      ∧ txnsBut st.val (Pkt.head pkt).dport s t ∧ onlyParts [.regs, .ni, .recs, .pmu, .pw] s t) := by
  have hput := TxnPut.complete (s := s.takeRsp st.val pkt) hfor hx hposted hpiece
  exact ⟨_, exec_completionReceive hin, hput.keepTxn.stands hx (Txn.answered_facts x i c pkt _),
    rspIn_of_takeRsp hput.rspIn, hput.others, onlyParts_keepTxn s _⟩

theorem completes_completionReceive_unawaited
    (hrel : s.txnFor st.val (Pkt.head pkt).dport (Pkt.head pkt).tag (Pkt.head pkt).addr (fun ph => ph == .released)
      = none)
    (hpost : s.txnFor st.val (Pkt.head pkt).dport (Pkt.head pkt).tag (Pkt.head pkt).addr (fun ph => ph == .posted)
      = none) :
    completes (.completionReceive st pkt) s (fun t =>
      t.rspIn st.val = (s.rspIn st.val).erase pkt
      ∧ (((Pkt.head pkt).dport < 2 → (Pkt.head pkt).tag / 1024 = (s.port st.val (Pkt.head pkt).dport).tgen) →
          t.fld (stopReg st.val (sTXN_CNT + 24)) 0 32
            = satAdd 32 (s.fld (stopReg st.val (sTXN_CNT + 24)) 0 32) 1)
      ∧ ((Pkt.head pkt).dport < 2 → (Pkt.head pkt).tag / 1024 ≠ (s.port st.val (Pkt.head pkt).dport).tgen →
          t.fld (stopReg st.val (sTXN_CNT + 24)) 0 32 = s.fld (stopReg st.val (sTXN_CNT + 24)) 0 32)) := by
  obtain ⟨hrsp, hlate, hstale⟩ := State.complete_unawaited (s := s.takeRsp st.val pkt) hrel hpost
  exact ⟨_, exec_completionReceive hin, rspIn_of_takeRsp hrsp, hlate, hstale⟩

theorem completes_pwackReceive
    (hfor : s.txnFor st.val (Pkt.head pkt).dport (Pkt.head pkt).tag (Pkt.head pkt).addr
      (fun ph => ph == .posted || ph == .released) = some n)
    (hx : (s.txns st.val (Pkt.head pkt).dport)[n]? = some x) (hphase : x.phase = .posted) (hpieces : x.pieces = [c])
    (hawaits : c.awaits (Pkt.head pkt).addr = true) (hposted : opPosted x.opc = true) :
    completes (.pwackReceive st pkt) s (fun t =>
      (x.ack = false → t.txns st.val (Pkt.head pkt).dport = (s.txns st.val (Pkt.head pkt).dport).eraseIdx n)
      ∧ (x.ack = true → txnAt st.val (Pkt.head pkt).dport n t (fun u => u.phase = .ready ∧ u.tag = x.tag))
      ∧ t.rspIn st.val = (s.rspIn st.val).erase pkt
      ∧ txnsBut st.val (Pkt.head pkt).dport s t ∧ onlyParts [.regs, .ni, .recs, .pmu, .pw] s t) := by
  have hput := TxnPut.pwackAt (s := s.takeRsp st.val pkt) hfor hx
  rw [if_pos (by rw [hphase]; rfl), Txn.settle_marked hphase hpieces hawaits hposted] at hput
  refine ⟨_, exec_pwackReceive hin, fun hack => ?_, fun hack => ?_, rspIn_of_takeRsp hput.rspIn, hput.others,
    onlyParts_keepTxn s _⟩
  · rw [if_neg (by rw [hack]; decide)] at hput
    exact hput.gone
  · rw [if_pos hack] at hput
    exact hput.keepTxn.stands hx ⟨rfl, rfl⟩

end

end Sys2Proof.Machine

end

section
/-! PROOFS. Completions that are handed over and timers that expire (R174, R191 to R194, R231): what each leaves of a
transaction. -/
namespace Sys2Proof.Machine
open Sys2Proof

/-! ### A completion that is handed over -/

/-- What stays of a transaction whose completion or acknowledgement is handed over (R174, R194). -/
def Txn.handed (x : Txn) : Option Txn :=
  match x.phase with
  | .posted => some { x with ack := false, acked := true }
  | _ => if x.haunts then some { x with phase := .haunt, resv := 0, timer := false } else none

section
variable {x : Txn}

theorem Txn.handed_of_done (h : x.phase = .ready) (hh : x.haunts = false) : x.handed = none := by
  unfold Txn.handed
  rw [h, hh]
  rfl

theorem Txn.handed_of_haunts (h : x.phase = .ready) (hh : x.haunts = true) :
    x.handed = some { x with phase := .haunt, resv := 0, timer := false } := by
  unfold Txn.handed
  rw [h, hh]
  rfl

theorem Txn.handed_of_posted (h : x.phase = .posted) : x.handed = some { x with ack := false, acked := true } := by
  unfold Txn.handed
  rw [h]

end

/-- The state once a sampled transaction has left its record (R498). -/
def State.handSampled (s : State) (st p : Nat) (x : Txn) : State :=
  if bitOf (BitVec.ofNat 8 x.attr) attrSmpl then s.sampleOut st (s.sampleRec st p x x.status) else s

theorem State.ni_setPmu (s : State) (v : PmuSt) : ({ s with pmu := v } : State).ni = s.ni := rfl

theorem State.reg_setPmu (s : State) (v : PmuSt) (a : Nat) : ({ s with pmu := v } : State).reg a = s.reg a := rfl

theorem State.ni_sampleOut (s : State) (st : Nat) (r : BitVec 512) : (s.sampleOut st r).ni = s.ni := by
  unfold State.sampleOut
  split
  · exact State.ni_setPmu s _
  · exact (State.ni_setPmu _ _).trans (State.count_ni s _ _ _ _)

theorem State.reg_sampleOut_other (s : State) (st : Nat) (r : BitVec 512) {a : Nat} (h : a ≠ stopReg st sSMP_STAT) :
    (s.sampleOut st r).reg a = s.reg a := by
  unfold State.sampleOut
  split
  · exact State.reg_setPmu s _ a
  · exact (State.reg_setPmu _ _ a).trans (State.reg_count_other s _ _ _ _ _ h)

section
variable (s : State) (st p n : Nat) (x : Txn)

theorem State.ni_handSampled : (s.handSampled st p x).ni = s.ni := by
  unfold State.handSampled
  split
  · exact State.ni_sampleOut s _ _
  · rfl

/-- The tag state once the completion has left it, before its beats are driven. -/
def State.handPut : State := (s.handSampled st p x).putTxn st p n x.handed

theorem TxnPut.handPut : TxnPut st p n x.handed s (s.handPut st p n x) :=
  .before (.of_ni (s.ni_handSampled st p x)) (.putTxn _ st p n _)

theorem State.handOver_eq : s.handOver st p n x = if 2 ≤ p then s.handPut st p n x
    else ((s.handPut st p n x).setPort st p (((s.handPut st p n x).port st p).setSendResv x.resv)).drive st p
      ((s.handPut st p n x).rspOut st p x) := rfl

theorem TxnPut.handOver : TxnPut st p n x.handed s (s.handOver st p n x) := by
  rw [State.handOver_eq]
  exact .ite (.handPut s st p n x)
    ((TxnPut.handPut s st p n x).after ((AnswersKept.setPort _ _ _ _).trans (.drive _ _ _ _)))

variable {s st p}

/-- The beats of a completion depend on nothing but whether its port checks parity. -/
theorem State.rspOut_congr {t : State} (h : t.parityOn st p = s.parityOn st p) : t.rspOut st p x = s.rspOut st p x := by
  unfold State.rspOut State.outData
  rw [h]

theorem State.parityOn_handPut (hp : p < 2) : (s.handPut st p n x).parityOn st p = s.parityOn st p := by
  have hreg : (s.handSampled st p x).reg (portReg st p pCFG) = s.reg (portReg st p pCFG) := by
    unfold State.handSampled
    split
    · exact State.reg_sampleOut_other s _ _
        (stopReg_ne (by unfold pCFG; omega) (by decide) (by unfold pCFG sSMP_STAT; omega))
    · rfl
  unfold State.parityOn
  rw [show (s.handPut st p n x).flag (portReg st p pCFG) 1 = s.flag (portReg st p pCFG) 1 from State.flag_congr hreg 1]

theorem State.rspOut_orsp : (s.rspOut st p x).filter (fun b => b.chan == .orsp) = s.rspOut st p x := by
  refine List.filter_eq_self.mpr fun b hb => ?_
  obtain ⟨e, _, rfl⟩ := List.mem_map.mp hb
  rw [OutBeat.chan_seal]
  rfl

/-- The beats of a completion stand behind what orsp carried. -/
theorem driven_handOver (hp : p < 2) : driven st p .orsp (s.rspOut st p x) s (s.handOver st p n x) := by
  have hports := congrArg NiSt.ports (s.ni_handSampled st p x)
  have hport : (s.handPut st p n x).port st p = s.port st p :=
    congrArg (fun v => Tab.get defPort v (st * 2 + p)) hports
  unfold driven
  rw [State.handOver_eq, if_neg (by omega), State.queued_drive _ _ _ _ (by decide), State.port_setPort_same,
    PortSt.queued_setSendResv, hport, State.rspOut_congr x (State.parityOn_handPut n x hp), State.rspOut_orsp]

end

theorem exec_completionDeliver {s : State} {st : StopNo} {p : Fin 4} {tag : Fin 4096} {n : Nat} {x : Txn}
    (hp : portThere st.val p.val = true)
    (hfree : p.val < 2 → (s.port st.val p.val).state = 2 ∧ (s.port st.val p.val).stopLvl = false
      ∧ s.outFree st.val p.val .orsp = true)
    (hunit : (s.unitTags st.val p.val).contains tag.val = false)
    (hfind : (s.txns st.val p.val).zipIdx.find? (fun e => e.1.tag == tag.val && e.1.deliverable) = some (x, n))
    (hturn : s.inTurn st.val p.val x = true) :
    exec (.completionDeliver st p tag) s = .next (s.keepTxn (s.handOver st.val p.val n x)) := by
  have hgo : ¬ (p.val < 2 ∧ ((s.port st.val p.val).state ≠ 2 ∨ (s.port st.val p.val).stopLvl
      ∨ !s.outFree st.val p.val .orsp)) := by
    rintro ⟨hlt, hbar⟩
    obtain ⟨hstate, hstop, hout⟩ := hfree hlt
    simp [hstate, hstop, hout] at hbar
  change execCompletionDeliver st p tag s = _
  unfold execCompletionDeliver
  simp only [hp, hunit, hfind, hturn]
  rw [if_neg (by decide), if_neg hgo]
  rfl

/-! ### A timer that expires -/

/-- A request that its timer completes (R192, R194). -/
def Txn.timedOut (x : Txn) : Txn :=
  { x with
    phase := .ready, status := walkStatus x.attr stTIMEOUT
    haunts := !(x.phase == .captured) && x.pieces.any (fun d => d.injected != 0 || d.resent), timer := false
    data := if x.reads then List.replicate x.rspNeed 0 else [], pois := false, last := none
    ack := x.ack || opPosted x.opc }

/-- What stays of a transaction whose timer expires: of one that has been acknowledged nothing (R231). -/
def Txn.expired (x : Txn) : Option Txn :=
  match x.phase with
  | .posted => if x.ack then some { x with phase := .ready } else none
  | _ => if x.acked then none else some x.timedOut

/-- What stays of a transaction at its limit: of one of an old generation nothing (R153). -/
def Txn.overrun (x : Txn) : Option Txn := if x.phase == .stale then none else x.expired

section
variable {x : Txn}

theorem Txn.overrun_of_open (h : x.phase = .captured ∨ x.phase = .released) (hacked : x.acked = false) :
    x.overrun = some x.timedOut := by
  unfold Txn.overrun Txn.expired
  rcases h with h | h
  · rw [h, hacked]
    rfl
  · rw [h, hacked]
    rfl

theorem Txn.overrun_of_posted (h : x.phase = .posted) :
    x.overrun = if x.ack then some { x with phase := .ready } else none := by
  unfold Txn.overrun Txn.expired
  rw [h]
  rfl

theorem Txn.overrun_of_stale (h : x.phase = .stale) : x.overrun = none := if_pos (by rw [h]; rfl)

end

theorem TxnPut.expire (s : State) (st p n : Nat) (x : Txn) : TxnPut st p n x.expired s (s.expire st p n x) := by
  unfold State.expire
  extract_lets c waits fenceHeld s1 s2 s3 s4 went
  have hnoted : AnswersKept s s2 := (AnswersKept.raise s _ _).trans (.txnCnt s1 _ _)
  have hpieces : AnswersKept s2 s3 := foldl_keeps (AnswersKept s2) _ _ s2
    (fun u d hu => hu.trans ((AnswersKept.backGrant u _ _).trans (.withdraw _ _ _ _ _ _))) (.refl s2)
  have hkept : AnswersKept s s4 := (hnoted.trans hpieces).trans (.voidPend s3 _ _ _)
  have hfin := TxnPut.finish s4 st p n x.timedOut
  refine .before hkept ?_
  unfold Txn.expired
  cases hphase : x.phase with
  | posted => exact .before (.of_ni (State.ni_postedNotice s4 _ _ _ _ _ _ _ _ _ _)) (.putTxn _ st p n _)
  | captured | released | ready | haunt | stale => exact hfin

/-! ### COMPLETION_DELIVER and CTO -/

section
variable {s : State} {st : StopNo} {p : Fin 4} {tag : Fin 4096} {n : Nat} {x : Txn}

theorem completes_completionDeliver (hp : portThere st.val p.val = true)
    (hfree : p.val < 2 → (s.port st.val p.val).state = 2 ∧ (s.port st.val p.val).stopLvl = false
      ∧ s.outFree st.val p.val .orsp = true)
    (hunit : (s.unitTags st.val p.val).contains tag.val = false)
    (hfind : (s.txns st.val p.val).zipIdx.find? (fun e => e.1.tag == tag.val && e.1.deliverable) = some (x, n))
    (hturn : s.inTurn st.val p.val x = true) :
    completes (.completionDeliver st p tag) s (fun t =>
      (x.phase = .ready → x.haunts = false → t.txns st.val p.val = (s.txns st.val p.val).eraseIdx n)
      ∧ (x.phase = .ready → x.haunts = true → txnAt st.val p.val n t (fun u => u.phase = .haunt ∧ u.tag = x.tag))
      ∧ (x.phase = .posted → txnAt st.val p.val n t (fun u => u = { x with ack := false, acked := true }))
      ∧ (p.val < 2 → driven st.val p.val .orsp (s.rspOut st.val p.val x) s t)
      ∧ txnsBut st.val p.val s t ∧ onlyParts [.regs, .ni, .recs, .pmu, .pw] s t) := by
  obtain ⟨hx, _⟩ := find_zipIdx_some hfind
  have hput := (TxnPut.handOver s st.val p.val n x).keepTxn
  refine ⟨_, exec_completionDeliver hp hfree hunit hfind hturn, fun hphase hhaunts => ?_, fun hphase hhaunts => ?_,
    fun hphase => ?_, driven_handOver n x, hput.others, onlyParts_keepTxn s _⟩
  · rw [Txn.handed_of_done hphase hhaunts] at hput
    exact hput.gone
  · rw [Txn.handed_of_haunts hphase hhaunts] at hput
    exact hput.stands hx ⟨rfl, rfl⟩
  · rw [Txn.handed_of_posted hphase] at hput
    exact hput.stands hx rfl

variable {held : Bool}

theorem exec_cto (hp : portThere st.val p.val = true) (hretries : s.retriesFirst st.val p.val tag.val = s)
    (hfind : (s.txns st.val p.val).zipIdx.find?
      (fun e => e.1.tag == tag.val && s.overdue e.1 && e.1.phase.timed held) = some (x, n))
    (hanswer : s.answered st.val p.val x = false) : exec (.cto st p tag held) s
    = .next (s.keepReset (if x.phase == .stale then s.putTxn st.val p.val n none else s.expire st.val p.val n x)) := by
  change execCto st p tag held s = _
  unfold execCto
  simp only [hp, hretries, hfind, hanswer]
  rfl

theorem TxnPut.overrun (s : State) (st p n : Nat) (x : Txn) : TxnPut st p n x.overrun s
    (s.keepReset (if x.phase == .stale then s.putTxn st p n none else s.expire st p n x)) := by
  unfold Txn.overrun
  split
  · exact (TxnPut.putTxn s st p n none).keepReset
  · exact (TxnPut.expire s st p n x).keepReset

theorem completes_cto (hp : portThere st.val p.val = true) (hretries : s.retriesFirst st.val p.val tag.val = s)
    (hfind : (s.txns st.val p.val).zipIdx.find?
      (fun e => e.1.tag == tag.val && s.overdue e.1 && e.1.phase.timed held) = some (x, n))
    (hanswer : s.answered st.val p.val x = false) :
    completes (.cto st p tag held) s (fun t =>
      (x.phase = .captured ∨ x.phase = .released → x.acked = false →
        txnAt st.val p.val n t (fun u => u.phase = .ready ∧ u.status = walkStatus x.attr stTIMEOUT
          ∧ u.tag = x.tag ∧ u.timer = false))
      ∧ (x.phase = .posted → x.ack = true → txnAt st.val p.val n t (fun u => u = { x with phase := .ready }))
      ∧ (x.phase = .posted → x.ack = false → t.txns st.val p.val = (s.txns st.val p.val).eraseIdx n)
      ∧ (x.phase = .stale → t.txns st.val p.val = (s.txns st.val p.val).eraseIdx n)
      ∧ txnsBut st.val p.val s t ∧ onlyParts [.regs, .ring, .ni, .recs, .pmu, .pw] s t) := by
  obtain ⟨hx, _⟩ := find_zipIdx_some hfind
  have hput := TxnPut.overrun s st.val p.val n x
  refine ⟨_, exec_cto hp hretries hfind hanswer, fun hphase hacked => ?_, fun hphase hack => ?_,
    fun hphase hack => ?_, fun hphase => ?_, hput.others, onlyParts_keepReset s _⟩
  · rw [Txn.overrun_of_open hphase hacked] at hput
    exact hput.stands hx ⟨rfl, rfl, rfl, rfl⟩
  · rw [Txn.overrun_of_posted hphase, if_pos hack] at hput
    exact hput.stands hx rfl
  · rw [Txn.overrun_of_posted hphase, if_neg (by rw [hack]; decide)] at hput
    exact hput.gone
  · rw [Txn.overrun_of_stale hphase] at hput
    exact hput.gone

end

/-- Settles O18: each command replaces or ends one transaction (`TxnPut`), by what the answer, the delivery or the
expiry makes of it. -/
theorem completionsReachTheirRequests : Obligations.CompletionsReachTheirRequests := by
  unfold Obligations.CompletionsReachTheirRequests
  exact ⟨fun _ _ _ _ _ _ _ hin hfor hx hposted hpiece =>
      completes_completionReceive_answers hin hfor hx hposted hpiece,
    fun _ _ _ hin hrel hpost => completes_completionReceive_unawaited hin hrel hpost,
    fun _ _ _ _ _ _ hin hfor hx hphase hpieces hawaits hposted =>
      completes_pwackReceive hin hfor hx hphase hpieces hawaits hposted,
    fun _ _ _ _ _ _ hp hfree hunit hfind hturn => completes_completionDeliver hp hfree hunit hfind hturn,
    fun _ _ _ _ _ _ _ hp hretries hfind hanswer => completes_cto hp hretries hfind hanswer⟩

end Sys2Proof.Machine

end

section
/-! PROOFS. Two statements that fail in a state no machine is in: a request on its way to a die beyond the die map, and
a sample buffer larger than its index register counts. -/
namespace Sys2Proof.Machine
open Sys2Proof

/-! ### A RETRY whose count changes the way to its destination (R177, R183, R390) -/

theorem exec_retryReceive {s : State} {st : StopNo} {pkt : Pkt} (hin : (s.rspIn st.val).contains pkt = true) :
    exec (.retryReceive st pkt) s = .next (s.keepReset (s.retryTaken st.val pkt)) := if_pos hin

/-- The die whose route word, by its address alone, is the count of RETRYs of stop 17. -/
def strayDie : Nat := (stopReg 17 (sTXN_CNT + 16) - gDIE_ROUTE) / 4

/-- A RETRY of stop 16 to port 0 of stop 17. -/
def strayRetry : Pkt :=
  mkPkt { dstop := 17, sstop := 16, cls := clsRSP, opc := opCMP, tag := 5 } [(0, seqExt stRETRY 0 0)]

/-- The piece that the RETRY refuses, on its way to the stray die. -/
def strayPiece : Piece := { newPiece 0 0 strayDie 16 0 0 with released := true }

/-- The released read of one piece that the RETRY is for. -/
def strayTxn : Txn :=
  { newTxn State.reset 17 0 5 opRD 0 0 0 0 0 0 0 [] with phase := .released, pieces := [strayPiece] }

/-- Stop 17 has the RETRY in its store and the read outstanding; what goes by die-to-die port 2 is behind a fence. -/
def strayState : State :=
  let s := (State.reset.setTxns 17 0 [strayTxn]).setRspIn 17 [strayRetry]
  { s with pw := { s.pw with fences := [(17, [.dp 2])] } }

/-- The statement's hypotheses hold: before the RETRY is counted no route leads to the stray die, so no fence. -/
theorem strayState_waits : (strayState.rspIn 17).contains strayRetry = true
    ∧ strayState.txnFor 17 (Pkt.head strayRetry).dport (Pkt.head strayRetry).tag (Pkt.head strayRetry).addr
        (fun ph => match ph with | .released => true | .posted => true | _ => false) = some 0
    ∧ (strayState.txns 17 (Pkt.head strayRetry).dport)[0]? = some strayTxn
    ∧ strayTxn.pieces.zipIdx.find? (fun c => c.1.awaits (Pkt.head strayRetry).addr) = some (strayPiece, 0)
    ∧ strayState.fenced 17 strayPiece.die strayPiece.stop strayPiece.port = false := by decide +kernel

/-- The count makes the route word name die-to-die port 2: the fence holds the packet, and its entry is void. -/
theorem strayState_voids : ∀ e ∈ (strayState.keepReset (strayState.retryTaken (17 : StopNo).val strayRetry)).pend
    (17 : StopNo).val (recNo (Pkt.head strayRetry).sdie (Pkt.head strayRetry).sstop), e.void = true := by
  decide +kernel

/-- Refutes O19: RETRY_RECEIVE counts the RETRY before it asks for a fence. A piece whose die number is beyond the die
map has the register of that count as its route word; the count of 1 opens a route through a fenced die-to-die port,
and the packet's entry is void, not waiting. Die numbers below 16 have route words of their own. -/
theorem not_refusedPacketsAndGrants : ¬ Obligations.RefusedPacketsAndGrants := by
  unfold Obligations.RefusedPacketsAndGrants
  rintro ⟨hretry, -⟩
  obtain ⟨hin, hfor, htxn, hpiece, hfence⟩ := strayState_waits
  obtain ⟨t, hexec, -, hpend, -⟩ :=
    hretry 17 strayRetry strayState 0 0 strayTxn strayPiece hin hfor htxn hpiece hfence
  obtain rfl := Host.Outcome.next.inj (hexec.symm.trans (exec_retryReceive hin))
  have hvoids := strayState_voids
  rw [hpend] at hvoids
  exact Bool.false_ne_true (hvoids _ List.mem_concat_self)

/-! ### A sample buffer beyond SAMPLE_HEAD (R499, R502) -/

/-- SIZE 15, which no register write stores, and the last index that SAMPLE_HEAD holds; stop 1 has a record. -/
def wideBuffer : State :=
  let s := (State.reset.setReg gSAMPLE_BUF_SIZE 15).setReg gSAMPLE_HEAD 0xFFFFF
  { s with pmu := { s.pmu with recQ := [(1, [0])] } }

theorem wideBuffer_asks : ((List.range 192).map (fun i => (wideBuffer.pmu.rot + 1 + i) % 192)).find?
      (fun st => !(wideBuffer.sampleQ st).isEmpty) = some 1
    ∧ wideBuffer.sampleQ 1 = [0] := by decide +kernel

/-- The buffer has room, and the next index needs 21 bits. -/
theorem wideBuffer_next : (wideBuffer.fld gSAMPLE_HEAD 0 20 + wideBuffer.sampleSize
        - wideBuffer.fld gSAMPLE_TAIL 0 20 % wideBuffer.sampleSize) % wideBuffer.sampleSize
      ≠ wideBuffer.sampleSize - 1
    ∧ (wideBuffer.fld gSAMPLE_HEAD 0 20 + 1) % wideBuffer.sampleSize = 2 ^ 20 := by decide +kernel

/-- Refutes O21: with SIZE 15 the buffer has 2^21 places and SAMPLE_HEAD counts 2^20 of them, so past its last index
it does not advance modulo the buffer's size. Register writes store a SIZE above 14 as 14. -/
theorem not_brokenLocksAndSampleIndexes : ¬ Obligations.BrokenLocksAndSampleIndexes := by
  unfold Obligations.BrokenLocksAndSampleIndexes
  rintro ⟨-, halloc, -⟩
  obtain ⟨hasks, hqueue⟩ := wideBuffer_asks
  obtain ⟨hroom, hnext⟩ := wideBuffer_next
  obtain ⟨t, -, -, -, hadvance, -⟩ := halloc wideBuffer 1 0 [] hasks hqueue
  obtain ⟨hhead, -⟩ := hadvance hroom
  have hlt : t.fld gSAMPLE_HEAD 0 20 < 2 ^ 20 := fieldOf_lt _ 0 20
  rw [hhead, hnext] at hlt
  exact absurd hlt (by decide)

end Sys2Proof.Machine

end

section
/-! PROOFS. What the second decoding of waiting requests (R217 to R219) and the start of what waits for Hearth's
sequencer (R346, R354, R371, R439, R440) may change. -/
namespace Sys2Proof.Machine
open Sys2Proof

/-! ### Registers of the stops beside those of the tables -/

/-- Offsets at which a stop says which banks are active and what a commit has found there, and the offset that the
bank register of a ring has within the block it falls in (R87, R436). -/
def tableOffs : List Nat := [sSTOP_CMT_STAT, sSCHED_STAT, sGL_STAT, sFLOW_STAT, 0x3E00]

/-- A register of a stop at any other offset. -/
def sideReg (a : Nat) : Prop := ∃ st o, o < 0x4000 ∧ o ∉ tableOffs ∧ a = stopReg st o

theorem sideReg_stop (st : Nat) {o : Nat} (ho : o < 0x4000 := by decide) (h : o ∉ tableOffs := by decide) :
    sideReg (stopReg st o) := ⟨st, o, ho, h, rfl⟩

theorem sideReg_acu (st : Nat) {p o : Nat} (hp : p < 3) (ho : o < 0x80) : sideReg (acuReg st p o) := by
  refine sideReg_stop st (by omega) fun h => ?_
  simp only [tableOffs, sSTOP_CMT_STAT, sSCHED_STAT, sGL_STAT, sFLOW_STAT, List.mem_cons, List.not_mem_nil,
    or_false] at h
  omega

theorem not_sideReg_global {a : Nat} (ha : a < 0x100000 := by decide) : ¬ sideReg a := by
  rintro ⟨st, o, -, -, rfl⟩
  exact absurd (stopReg_global st o) (Nat.not_le.mpr ha)

namespace Changes
variable {A : Nat → Prop} {ps : List Part}

theorem setNi (s : State) (v : NiSt) (h : .ni ∈ ps) : Changes A ps s { s with ni := v } :=
  .of_regs rfl (onlyParts_mono (onlyParts_setNi s v) (List.singleton_sublist.mpr h).subset)

theorem setPw (s : State) (v : PwSt) (h : .pw ∈ ps) : Changes A ps s { s with pw := v } :=
  .of_regs rfl (onlyParts_mono (onlyParts_setPw s v) (List.singleton_sublist.mpr h).subset)

theorem setRing (s : State) (v : RingSt) (h : .ring ∈ ps) : Changes A ps s { s with ring := v } :=
  .of_regs rfl (onlyParts_mono (onlyParts_setRing s v) (List.singleton_sublist.mpr h).subset)

/-- A record of a stop changes its error state at most (R472). -/
theorem raise (s : State) (st : Nat) (r : RecIn) : Changes sideReg [.regs, .recs] s (s.raise st r) :=
  ⟨fun _ ha => State.reg_raise_other s st r fun h => ha (h ▸ sideReg_stop st), s.onlyParts_raise st r⟩

end Changes

/-! ### The second decoding -/

/-- What the second decoding of a request may change: it withdraws packets, counts and records. -/
def redecParts : List Part := [.regs, .ring, .ni, .recs]

/-- A step of the second decoding. -/
abbrev Redecodes (s t : State) : Prop := Changes sideReg redecParts s t

namespace Redecodes

theorem setTxns (s : State) (st p : Nat) (v : List Txn) : Redecodes s (s.setTxns st p v) := .setNi s _ (by decide)

theorem setInjq (s : State) (st q : Nat) (v : List QPkt) : Redecodes s (s.setInjq st q v) := .setNi s _ (by decide)

theorem setHeld (s : State) (st p : Nat) (v : List Held) : Redecodes s (s.setHeld st p v) := .setNi s _ (by decide)

theorem setDir (s : State) (st d : Nat) (v : DirSt) : Redecodes s (s.setDir st d v) := .setRing s _ (by decide)

theorem raise (s : State) (st : Nat) (r : RecIn) : Redecodes s (s.raise st r) :=
  (Changes.raise s st r).mono (fun _ h => h) (by decide)

theorem putTxn (s : State) (st p n : Nat) (o : Option Txn) : Redecodes s (s.putTxn st p n o) := setTxns s _ _ _

theorem decCnt (s : State) (st k : Nat) : Redecodes s (s.decCnt st k) :=
  .ite (.setFld (sideReg_stop st) (by decide) _ _ _) (.refl s)

theorem decRec (s : State) (st p : Nat) (t : Txn) (cause peer : Nat) : Redecodes s (s.decRec st p t cause peer) :=
  raise s _ _

theorem withdraw (s : State) (st p tag addr : Nat) (part : Bool) : Redecodes s (s.withdraw st p tag addr part) := by
  unfold State.withdraw
  refine .trans (foldl_keeps (Redecodes s) _ _ s (fun u q hu => hu.trans ?_) (.refl s)) (setHeld _ _ _ _)
  refine .ite (.trans (setInjq u _ _ _) (.ite ?_ (.refl _))) (.refl u)
  exact foldl_keeps (Redecodes _) _ _ _ (fun v d hv => hv.trans (.ite (setDir v _ _ _) (.refl v))) (.refl _)

/-- Four words of an access check unit. -/
theorem setWords_acu (s : State) (st v : Nat) {p o : Nat} (hp : p < 3) (ho : o + 16 ≤ 0x80) :
    Redecodes s (s.setWords (acuReg st p o) v) :=
  (Changes.setQuad s _ _).mono (fun b ⟨j, hj, hb⟩ => by
    subst hb
    exact (by unfold acuReg stopReg; omega : acuReg st p o + 4 * j = acuReg st p (o + 4 * j))
      ▸ sideReg_acu st hp (by omega)) (by decide)

/-- The notice of a posted write that failed is kept in registers and a record (R231). -/
theorem postedNotice (s : State) (st p opc addr tag part attr set status peer : Nat) :
    Redecodes s (s.postedNotice st p opc addr tag part attr set status peer) := by
  unfold State.postedNotice
  refine .ite (.refl s) ?_
  split
  · exact raise s _ _
  next hp =>
    have hacu {o : Nat} (ho : o < 0x80) : sideReg (acuReg st p o) := sideReg_acu st (by omega) ho
    refine ((raise s _ _).trans (.setFld (hacu (by decide)) (by decide) _ _ _)).trans (.ite (.refl _) ?_)
    exact (setWords_acu _ st _ (by omega) (by decide)).trans (.setFld (hacu (by decide)) (by decide) _ _ _)

theorem finish (s : State) (st p n : Nat) (t : Txn) : Redecodes s (s.finish st p n t) :=
  .ite ((postedNotice s _ _ _ _ _ _ _ _ _ _).trans (putTxn _ _ _ _ _)) (putTxn s _ _ _ _)

theorem takeBack (s : State) (st p n : Nat) (t : Txn) : Redecodes s (s.takeBack st p n t) := by
  unfold State.takeBack
  exact .trans (foldl_keeps (Redecodes s) _ _ s (fun u _ hu => hu.trans (withdraw u _ _ _ _ _)) (.refl s))
    (putTxn _ _ _ _ _)

theorem takeBackGwr (s : State) (st q : Nat) (e : QPkt) (cs : List Piece) (redec : Bool) :
    Redecodes s (s.takeBackGwr st q e cs redec) := (setTxns s _ _ _).trans (setInjq _ _ _ _)

theorem redecPiece (s : State) (st p : Nat) (t : Txn) (i : Nat) (c : Piece) :
    Redecodes s (s.redecPiece st p t i c).2 := by
  have hback (k : Nat) : Redecodes s ((s.withdraw st p t.tag c.addr false).decCnt st k) :=
    (withdraw s _ _ _ _ _).trans (decCnt _ _ _)
  unfold State.redecPiece
  split
  · exact .ite (hback _) ((hback _).trans (decRec _ _ _ _ _ _))
  · simp only
    split
    · exact .refl s
    · split
      · exact (hback 0).trans (decRec _ _ _ _ _ _)
      · exact withdraw s _ _ _ _ _

theorem redecPieces (st p : Nat) (t : Txn) (l : List (Piece × Nat)) (s : State) :
    Redecodes s (redecPieces st p t l s).2 := by
  induction l generalizing s with
  | nil => exact .refl s
  | cons e rest ih =>
    obtain ⟨c, i⟩ := e
    unfold Machine.redecPieces
    simp only
    split
    · exact (redecPiece s st p t i c).trans (ih _)
    · exact ih s

theorem redecodeTxn (s : State) (st p n : Nat) (t : Txn) : Redecodes s (s.redecodeTxn st p n t) := by
  unfold State.redecodeTxn
  split
  · exact .refl s
  split
  · split
    · exact .ite (decCnt s _ _) (takeBack s _ _ _ _)
    · exact takeBack s _ _ _ _
  · have hpieces := (decCnt s st 3).trans (redecPieces st p t t.pieces.zipIdx (s.decCnt st 3))
    simp only
    split
    · exact hpieces.trans (putTxn _ _ _ _ _)
    · split
      · exact hpieces.trans (putTxn _ _ _ _ _)
      · exact hpieces.trans (finish _ _ _ _ _)

theorem redecodeGwr (s : State) (st q : Nat) (e : QPkt) : Redecodes s (s.redecodeGwr st q e) := by
  unfold State.redecodeGwr
  simp only
  split
  · exact .ite (decCnt s _ _) (takeBackGwr s _ _ _ _ _)
  · exact takeBackGwr s _ _ _ _ _

/-- Everything that is decoded again changes registers of the stops, none of a table, and no register of Hearth's. -/
theorem redecode (s : State) : Redecodes s s.redecode := by
  unfold State.redecode
  refine .trans (foldl_keeps (Redecodes s) _ _ s (fun u e hu => ?_) (.refl s))
    (foldl_keeps (Redecodes _) _ _ _ (fun u q hu => ?_) (.refl _))
  · refine foldl_keeps (Redecodes s) _ _ u (fun v n hv => hv.trans ?_) hu
    split
    · exact .refl v
    · exact redecodeTxn v _ _ _ _
  · exact foldl_keeps (Redecodes _) _ _ u
      (fun v e hv => hv.trans (.ite (redecodeGwr v _ _ _) (.refl v))) hu

end Redecodes

/-! ### What the sequencer starts -/

/-- Registers that a fence, a power request or FENCE_CTRL changes as it starts: those of Table 13.9 and of Table 13.12,
and what a stop keeps of its injection store. -/
def fenceReg (a : Nat) : Prop := sideReg a ∨ (0x500 ≤ a ∧ a < 0x540)

/-- A start by the sequencer. -/
abbrev Begins (s t : State) : Prop := Changes fenceReg [.regs, .ni, .pw] s t

namespace Begins

theorem setPw (s : State) (v : PwSt) : Begins s { s with pw := v } := Changes.setPw s v (by decide)

theorem setFld (s : State) (a lo w x : Nat) (ha : 0x500 ≤ a ∧ a < 0x540 := by decide) : Begins s (s.setFld a lo w x) :=
  Changes.setFld (.inr ha) (by decide) lo w x

theorem offerOn (s : State) (st port c : Nat) (p : Pkt) (resend : Bool) (m : QMark) :
    Begins s (s.offerOn st port p (some c) resend m) :=
  ⟨fun _ ha => State.reg_offerOn_other s st port c p resend m fun h => ha (h ▸ .inl (sideReg_stop st)),
    onlyParts_mono (s.onlyParts_offerOn st port p (some c) resend m) (by decide)⟩

theorem broadcast (s : State) : Begins s s.broadcast :=
  ((offerOn s _ _ _ _ _ _).trans (Changes.setNi _ _ (by decide))).trans (offerOn _ _ _ _ _ _ _)

theorem setDomNum (s : State) (v : Nat) {d : Nat} (hd : d < 312) : Begins s (s.setDomNum d v) := by
  unfold State.setDomNum
  split
  · exact setPw s _
  · exact setFld s _ _ _ _ (by unfold gPWR_DOMAIN_STATE; omega)

theorem setOp (s : State) (o : Option PwOp) : Begins s (s.setOp o) :=
  ((setPw s _).trans (setFld _ _ _ _ _)).trans (setFld _ _ _ _ _)

theorem setResult (s : State) (dom status : Nat) : Begins s (s.setResult dom status) :=
  (setFld s _ _ _ _).trans (setFld _ _ _ _ _)

theorem pwRefuse (s : State) (dom status : Nat) : Begins s (s.pwRefuse dom status) :=
  ((setPw s _).trans (setResult _ _ _)).trans (setFld _ _ _ _ _)

theorem liftStart (s : State) (o : PwOp) : Begins s (s.liftStart o) := (setOp s _).trans (broadcast _)

theorem fenceStart (s : State) (kind : PwKind) (set : FSet) (change : Option KbChange) {dom : Nat} (hd : dom < 312) :
    Begins s (s.fenceStart kind dom set change) :=
  (((setFld s gFENCE_STATUS 16 16 _).trans (.ite (.refl _) ((setDomNum _ _ hd).trans (setFld _ _ _ _ _)))).trans
    (setOp _ _)).trans (broadcast _)

theorem wakeStart (s : State) {d : Nat} (hd : d < 312) (hfab : ¬ d < 256) : Begins s (s.wakeStart (d - 256)) := by
  have hdom := setDomNum s dmWAKING hd
  rw [State.setDomNum, if_neg hfab] at hdom
  exact (hdom.trans (setPw _ _)).trans (setPw _ _)

theorem pwStart (s : State) (d : Nat) (on : Bool) : Begins s (s.pwStart d on) := by
  unfold State.pwStart
  cases on with
  | false =>
    cases h : s.offRefusal d with
    | some r => simp only [Bool.false_eq_true, if_false]; exact pwRefuse s d r
    | none => simp only [Bool.false_eq_true, if_false]; exact fenceStart s _ _ _ (State.lt_of_offRefusal_none h)
  | true =>
    cases h : s.onRefusal d with
    | some r => simp only [if_true]; exact pwRefuse s d r
    | none =>
      have hdom := setFld s gFENCE_STATUS 4 9 d
      simp only [if_true, Bool.not_true, Bool.false_eq_true, if_false]
      split
      case isTrue => exact hdom.trans (liftStart _ _)
      case isFalse hoff =>
        exact (hdom.trans (wakeStart _ (State.lt_of_onRefusal_none h) (fun hd => hoff (Or.inl hd)))).trans (setOp _ _)

theorem fcStart (s : State) (d : Nat) (un : Bool) : Begins s (s.fcStart d un) := by
  have hrefused : Begins s ((s.setResult d pwINVALID).setFld gFENCE_CTRL 31 1 0) :=
    (setResult s _ _).trans (setFld _ _ _ _ _)
  unfold State.fcStart
  simp only
  split
  · exact hrefused
  next hd =>
    exact .ite (.ite (liftStart s _) hrefused) (.ite (fenceStart s _ _ _ (Nat.not_le.mp hd)) hrefused)

/-- Any Kind B change but that of the ring clock starts with its fence alone (R440). -/
theorem kbStart (s : State) {c : KbChange} (hc : c ≠ .rclk) : Begins s (s.kbStart c) := by
  unfold State.kbStart
  simp only [if_neg hc]
  exact fenceStart s _ _ _ (by decide)

end Begins

end Sys2Proof.Machine

end

section
/-! PROOFS. The address map, REMAP_CTRL and the detours (R211, R213, R217, R218, R236, R237, R390, R403, R440): what is
asked, what is applied at once, what starts as a Kind B change and what waits. -/
namespace Sys2Proof.Machine
open Sys2Proof

/-! ### A change that is asked -/

/-- Registers in which the apply of a map, a write of REMAP_CTRL and the apply of detours are asked and answered. -/
def askReg (a : Nat) : Prop := a ∈ [gREMAP_CTRL, gADDR_MAP_CTRL, gADDR_MAP_STAT, gDETOUR_CTRL]

/-- The command asks for change `x`, which state `u` takes up: `s` with the command's own flags. -/
structure KbAsked (c : Instr) (x : KbChange) (s u : State) : Prop where
  exec : exec c s = .next (s.keepPw (u.kbRequest x))
  asks : Changes askReg [.regs] s u
  remap : u.remap = s.remap
  fenced : x ≠ .rclk

/-- The state in which the apply of a map has been asked, and is busy. -/
def State.mapAsked (s : State) : State := (s.raiseFlag gADDR_MAP_CTRL 0).raiseFlag gADDR_MAP_STAT 11

section
variable {s u : State} {c : Instr} {x : KbChange}

theorem Changes.ask {s : State} {a : Nat} (ha : askReg a) (lo w v : Nat) :
    Changes askReg [.regs] s (s.setFld a lo w v) := .setFld ha (by decide) lo w v

theorem kbAsked_addrMapApply (hfab : s.fabState ≠ fabFAILED) (hctrl : s.flag gADDR_MAP_CTRL 0 = false)
    (hcheck : s.mapCheck = none) : KbAsked .addrMapApply (.map (s.regions gSTAGE_MAP)) s s.mapAsked where
  exec := by
    change execAddrMapApply s = _
    unfold execAddrMapApply
    rw [if_neg (by simp [hfab, hctrl]), hcheck]
    rfl
  asks := (Changes.ask (by unfold askReg; decide) 0 1 1).trans (Changes.ask (by unfold askReg; decide) 11 1 1)
  remap := (State.flag_congr (State.reg_raiseFlag_other _ _ _ _ (by decide)) 0).trans
    (State.flag_congr (State.reg_raiseFlag_other _ _ _ _ (by decide)) 0)
  fenced := nofun

theorem kbAsked_remapWrite (v : Word32) (hfab : s.fabState ≠ fabFAILED) (hctrl : s.flag gREMAP_CTRL 1 = false) :
    KbAsked (.remapWrite v) (.remap v) s (s.raiseFlag gREMAP_CTRL 1) where
  exec := by
    change execRemapWrite v s = _
    unfold execRemapWrite
    rw [if_neg (by simp [hfab, hctrl])]
  asks := Changes.ask (by unfold askReg; decide) 1 1 1
  remap := State.flag_setFld_below s gREMAP_CTRL 1 1 1 0 (by decide) (by decide)
  fenced := nofun

theorem kbAsked_detourApply (hfab : s.fabState ≠ fabFAILED) (hctrl : s.flag gDETOUR_CTRL 0 = false)
    (hgood : (List.range 8).any (fun i => s.detourBad (s.reg (gDETOUR_STG + 4 * i))) = false) :
    KbAsked (.detourApply true) .detour s (s.raiseFlag gDETOUR_CTRL 0) where
  exec := by
    change execDetourApply true s = _
    unfold execDetourApply
    rw [if_neg (by simp [hfab, hctrl]), if_neg (by simp only [hgood]; decide)]
  asks := Changes.ask (by unfold askReg; decide) 0 1 1
  remap := State.flag_congr (State.reg_raiseFlag_other _ _ _ _ (by decide)) 0
  fenced := nofun

namespace KbAsked

theorem fabState (h : KbAsked c x s u) : u.fabState = s.fabState := h.asks.fld (by unfold askReg; decide) 0 4

theorem pw (h : KbAsked c x s u) : u.pw = s.pw := h.asks.parts .pw (by decide)

theorem pwBlocked (h : KbAsked c x s u) : u.pwBlocked = s.pwBlocked := by
  unfold State.pwBlocked State.cmtOpen State.hsafe
  rw [h.pw, h.asks.fld (by unfold askReg; decide), h.asks.flag (by unfold askReg; decide)]

end KbAsked

end

/-! ### What becomes of it -/

section
variable {u : State} {x : KbChange}

theorem State.kbRequest_now (hopen : u.fabState ≠ fabOPEN) (hing : u.fabState ≠ fabQUIESCING)
    (hed : u.fabState ≠ fabQUIESCED) : u.kbRequest x = u.kbApply x := by
  unfold State.kbRequest
  rw [if_neg (by simp [hopen, hing, hed])]

/-- Outside OPEN, QUIESCING and QUIESCED what is asked is applied at once. -/
theorem KbAsked.now {s : State} {c : Instr} (h : KbAsked c x s u) (hopen : s.fabState ≠ fabOPEN)
    (hing : s.fabState ≠ fabQUIESCING) (hed : s.fabState ≠ fabQUIESCED) : u.kbRequest x = u.kbApply x :=
  State.kbRequest_now (h.fabState ▸ hopen) (h.fabState ▸ hing) (h.fabState ▸ hed)

/-- While anything keeps the sequencer from starting, what waits goes on waiting. -/
theorem pwNext_blocked (n : Nat) (h : u.pwBlocked = true) : pwNext n u = u := by
  cases n with
  | zero => rfl
  | succ n => unfold pwNext; rw [if_pos h]

/-- A change that waits. -/
def State.kbQueued (u : State) (x : KbChange) : State := { u with pw := { u.pw with kbs := u.pw.kbs ++ [x] } }

theorem State.kbRequest_waits (hfab : u.fabState = fabQUIESCING ∨ u.fabState = fabQUIESCED)
    (hblocked : u.pwBlocked = true) : u.kbRequest x = u.kbQueued x := by
  unfold State.kbRequest State.pwGo
  rw [if_pos (Or.inr hfab)]
  exact pwNext_blocked (u := u.kbQueued x) _ hblocked

/-- A broadcast is no operation of the sequencer's. -/
theorem State.onlyParts_broadcast (s : State) : onlyParts [.regs, .ni] s s.broadcast := by
  have hdown (u : State) (p : Pkt) : onlyParts [.regs, .ni] u (u.lapDown hearthStop p) := by
    have hmerged : onlyParts [.regs, .ni] u (u.setMerged hearthStop []) :=
      onlyParts_mono (onlyParts_setNi u _) (by decide)
    unfold State.lapDown
    exact onlyParts_trans hmerged (State.onlyParts_offerOn _ _ _ _ _ _ _)
  exact onlyParts_trans (State.onlyParts_offerOn s _ _ _ _ _ _) (hdown _ _)

theorem State.pw_broadcast (s : State) : s.broadcast.pw = s.pw := s.onlyParts_broadcast .pw (by decide)

/-- The operation of a change that starts (R440). -/
theorem State.op_kbStart (hx : x ≠ .rclk) : ∃ o, (u.kbStart x).pw.op = some o ∧ o.kind = .kindB ∧ o.phase = 1
    ∧ o.lift = false ∧ o.change = some x := by
  unfold State.kbStart
  simp only [if_neg hx]
  unfold State.fenceStart
  rw [State.pw_broadcast]
  exact ⟨_, rfl, rfl, rfl, rfl, rfl⟩

/-- In OPEN with nothing before it a change starts, and nothing else does. -/
theorem State.kbRequest_starts (hfab : u.fabState = fabOPEN) (hfree : u.pwBlocked = false) (hfcs : u.pw.fcs = [])
    (hkbs : u.pw.kbs = []) (hx : x ≠ .rclk) :
    u.kbRequest x = ({ u with pw := { u.pw with kbs := [] } } : State).kbStart x := by
  have hstarts (n : Nat) : pwNext (n + 1) (u.kbQueued x)
      = pwNext n (({ u with pw := { u.pw with kbs := [] } } : State).kbStart x) := by
    have hq : (u.kbQueued x).pw.fcs = [] ∧ (u.kbQueued x).pw.kbs = [x] := ⟨hfcs, by simp [State.kbQueued, hkbs]⟩
    rw [pwNext.eq_2, if_neg (by rw [show (u.kbQueued x).pwBlocked = false from hfree]; decide), hq.1, hq.2]
    exact if_pos hfab
  have hblocked : (({ u with pw := { u.pw with kbs := [] } } : State).kbStart x).pwBlocked = true := by
    obtain ⟨o, ho, -⟩ := State.op_kbStart (u := { u with pw := { u.pw with kbs := [] } }) hx
    unfold State.pwBlocked
    rw [ho]
    simp
  unfold State.kbRequest State.pwGo
  rw [if_pos (Or.inl hfab)]
  exact (hstarts _).trans (pwNext_blocked _ hblocked)

end

/-! ### A change that starts or waits leaves what it changes -/

section
variable {s u : State} {c : Instr} {x : KbChange}

/-- The fences of a change touch neither what is asked nor the map and the detours in force. -/
theorem not_fenceReg {a : Nat} (hlo : a < 0x100000) (h : a < 0x500 ∨ 0x540 ≤ a) : ¬ fenceReg a := by
  rintro (hside | hfence)
  · exact not_sideReg_global hlo hside
  · omega

theorem not_askReg {a : Nat} (h : 0x60C < a) : ¬ askReg a := by
  simp only [askReg, gREMAP_CTRL, gADDR_MAP_CTRL, gADDR_MAP_STAT, gDETOUR_CTRL, List.mem_cons, List.not_mem_nil,
    or_false]
  omega

theorem KbAsked.starts (h : KbAsked c x s u) (hfab : s.fabState = fabOPEN) (hfree : s.pwBlocked = false)
    (hfcs : s.pw.fcs = []) (hkbs : s.pw.kbs = []) : completes c s (fun t =>
      (∃ o, t.pw.op = some o ∧ o.kind = .kindB ∧ o.phase = 1 ∧ o.lift = false ∧ o.change = some x)
      ∧ (∀ i, i < 256 → t.reg (gACTIVE_MAP + 4 * i) = s.reg (gACTIVE_MAP + 4 * i)) ∧ t.remap = s.remap
      ∧ (∀ i, i < 8 → t.reg (gDETOUR + 4 * i) = s.reg (gDETOUR + 4 * i)) ∧ onlyParts [.regs, .ni, .pw] s t) := by
  have hreq := State.kbRequest_starts (h.fabState.trans hfab) (h.pwBlocked.trans hfree) (h.pw ▸ hfcs) (h.pw ▸ hkbs)
    h.fenced
  have hbegins : Begins u (u.kbRequest x) := hreq ▸ (Begins.setPw u _).trans (Begins.kbStart _ h.fenced)
  have hkept {a : Nat} (hlo : 0x60C < a) (hhi : a < 0x100000) : (u.kbRequest x).reg a = s.reg a :=
    (hbegins.regs a (not_fenceReg hhi (by omega))).trans (h.asks.regs a (not_askReg hlo))
  refine ⟨_, h.exec, ?_, fun i hi => hkept (by unfold gACTIVE_MAP; omega) (by unfold gACTIVE_MAP; omega), ?_,
    fun i hi => hkept (by unfold gDETOUR; omega) (by unfold gDETOUR; omega), ?_⟩
  · rw [hreq]
    exact State.op_kbStart h.fenced
  · exact (hbegins.flag (not_fenceReg (by decide) (by decide)) 0).trans h.remap
  · exact onlyParts_keepPw (onlyParts_trans (onlyParts_mono h.asks.parts (by decide)) hbegins.parts)

theorem KbAsked.waits (h : KbAsked c x s u) (hfab : s.fabState = fabQUIESCING ∨ s.fabState = fabQUIESCED)
    (hblocked : s.pwBlocked = true) : completes c s (fun t =>
      t.pw.kbs = s.pw.kbs ++ [x] ∧ t.pw.op = s.pw.op ∧ onlyParts [.regs, .pw] s t) := by
  refine ⟨_, h.exec, ?_⟩
  rw [State.kbRequest_waits (by rw [h.fabState]; exact hfab) (h.pwBlocked.trans hblocked)]
  refine ⟨?_, ?_, onlyParts_keepPw (onlyParts_trans (onlyParts_mono h.asks.parts (by decide))
    (onlyParts_mono (onlyParts_setPw u _) (by decide)))⟩
  · exact congrArg (fun p : PwSt => p.kbs ++ [x]) h.pw
  · change u.pw.op = s.pw.op
    rw [h.pw]

end

/-! ### The map -/

section
variable {s : State}

/-- The causes of Table 8.11. -/
theorem State.mapFault_le (s : State) (es : List Region) (i : Nat) : s.mapFault es i ≤ 6 := by
  unfold State.mapFault
  dsimp only
  repeat' split
  all_goals decide

theorem State.mapCheck_bounds {i c : Nat} (h : s.mapCheck = some (i, c)) : i < 64 ∧ c < 8 := by
  obtain ⟨j, hj, he⟩ := Option.map_eq_some_iff.mp h
  obtain ⟨rfl, rfl⟩ := Prod.mk.inj he
  exact ⟨List.mem_range.mp (List.mem_of_find?_eq_some hj), Nat.lt_of_le_of_lt (s.mapFault_le _ _) (by decide)⟩

theorem State.niRegions_congr {t : State} (hreg : ∀ a, mapReg a → t.reg a = s.reg a) (hni : t.ni = s.ni)
    (hframe : t.frame = s.frame) : t.niRegions = s.niRegions := by
  have hregions : t.regions gACTIVE_MAP = s.regions gACTIVE_MAP := by
    unfold State.regions
    refine List.map_congr_left fun i hi => ?_
    have hi := List.mem_range.mp hi
    have hword (k : Nat) (hk : k < 16) : t.reg (gACTIVE_MAP + 16 * i + k) = s.reg (gACTIVE_MAP + 16 * i + k) :=
      hreg _ (by unfold mapReg; omega)
    unfold State.quad
    rw [hword 4 (by decide), hword 8 (by decide), hword 12 (by decide)]
    exact congrArg _ (by rw [show t.reg (gACTIVE_MAP + 16 * i) = _ from hword 0 (by decide)]; rfl)
  unfold State.niRegions
  rw [hregions, hni, hframe]

/-- The state in which region `i` has failed the check with cause `c`. -/
def State.mapFailed (s : State) (i c : Nat) : State :=
  ((s.setFld gADDR_MAP_STAT 0 2 2).setFld gADDR_MAP_STAT 2 3 c).setFld gADDR_MAP_STAT 5 6 i

theorem Changes.mapFailed (s : State) (i c : Nat) : Changes (· = gADDR_MAP_STAT) [.regs] s (s.mapFailed i c) :=
  ((Changes.setFld_self _ _ _ _).trans (Changes.setFld_self _ _ _ _)).trans (Changes.setFld_self _ _ _ _)

theorem State.fld_mapFailed_result (s : State) (i c : Nat) : (s.mapFailed i c).fld gADDR_MAP_STAT 0 2 = 2 := by
  unfold State.mapFailed
  rw [State.fld_setFld_below _ _ _ _ _ _ _ (by decide) (by decide),
    State.fld_setFld_below _ _ _ _ _ _ _ (by decide) (by decide), State.fld_setFld_same s _ _ _ _ (by decide)]
  rfl

theorem State.fld_mapFailed_cause (s : State) (i c : Nat) : (s.mapFailed i c).fld gADDR_MAP_STAT 2 3 = c % 8 := by
  unfold State.mapFailed
  rw [State.fld_setFld_below _ _ _ _ _ _ _ (by decide) (by decide), State.fld_setFld_same _ _ _ _ _ (by decide)]
  rfl

theorem State.fld_mapFailed_region (s : State) (i c : Nat) : (s.mapFailed i c).fld gADDR_MAP_STAT 5 6 = i % 64 :=
  State.fld_setFld_same _ _ _ _ _ (by decide)

/-- A map that fails its check stays where it is, and the first region that fails is named (R217). -/
theorem completes_addrMapApply_fails {i c : Nat} (hfab : s.fabState ≠ fabFAILED)
    (hctrl : s.flag gADDR_MAP_CTRL 0 = false) (hcheck : s.mapCheck = some (i, c)) :
    completes .addrMapApply s (fun t => t.fld gADDR_MAP_STAT 0 2 = 2 ∧ t.fld gADDR_MAP_STAT 2 3 = c
      ∧ t.fld gADDR_MAP_STAT 5 6 = i ∧ regsBut [gADDR_MAP_STAT] s t ∧ onlyParts [.regs] s t) := by
  obtain ⟨hi, hc⟩ := State.mapCheck_bounds hcheck
  have hexec : exec .addrMapApply s = .next (s.keepPw (s.mapFailed i c)) := by
    change execAddrMapApply s = _
    unfold execAddrMapApply
    rw [if_neg (by simp [hfab, hctrl]), hcheck]
    rfl
  have hstat := Changes.mapFailed s i c
  refine ⟨_, hexec, ?_, ?_, ?_, fun a ha => ?_, onlyParts_keepPw hstat.parts⟩
  · rw [State.fld_keepPw, State.fld_mapFailed_result]
  · rw [State.fld_keepPw, State.fld_mapFailed_cause, Nat.mod_eq_of_lt hc]
  · rw [State.fld_keepPw, State.fld_mapFailed_region, Nat.mod_eq_of_lt hi]
  · rw [State.reg_keepPw]
    exact hstat.regs a (by simpa using ha)

/-- The restore image falls behind with no other part of the state. -/
theorem Changes.imgStale (A : Nat → Prop) (s : State) : Changes A [.pw] s s.imgStale :=
  .ite (.setPw s _ (by decide)) (.refl s)

/-- A change of the map is its copy, with the restore image behind it. -/
theorem State.kbApply_map (u : State) (es : List Region) : u.kbApply (.map es) = (u.mapCopy es).imgStale := rfl

theorem State.ni_mapCopy (u : State) (es : List Region) : (u.mapCopy es).ni = u.mapTurn.ni := by
  rw [State.mapCopy_eq]
  exact forUpTo_same (fun t : State => t.ni) 64 _ _ fun _ _ _ => rfl

theorem State.mapOld_mapCopy (u : State) (es : List Region) : (u.mapCopy es).ni.mapOld = u.niRegions := by
  rw [State.ni_mapCopy]
  rfl

theorem State.mapFrom_mapCopy (u : State) (es : List Region) : (u.mapCopy es).ni.mapFrom = u.frame.rcs := by
  rw [State.ni_mapCopy]
  rfl

theorem State.flag_mapAsked_busy (s : State) : s.mapAsked.flag gADDR_MAP_STAT 11 = true :=
  State.flag_raiseFlag _ _ 11 (by decide)

theorem State.flag_mapAsked_ctrl (s : State) : s.mapAsked.flag gADDR_MAP_CTRL 0 = true :=
  (State.flag_congr (State.reg_raiseFlag_other _ _ _ _ (by decide)) 0).trans (State.flag_raiseFlag s _ 0 (by decide))

/-- A map that passes is the active one at once, and every NI begins to replace its copy (R217, R218). -/
theorem completes_addrMapApply_now (hfab : s.fabState ≠ fabFAILED) (hctrl : s.flag gADDR_MAP_CTRL 0 = false)
    (hcheck : s.mapCheck = none) (hopen : s.fabState ≠ fabOPEN) (hing : s.fabState ≠ fabQUIESCING)
    (hed : s.fabState ≠ fabQUIESCED) : completes .addrMapApply s (fun t =>
      (∀ i, i < 256 → t.reg (gACTIVE_MAP + 4 * i) = s.reg (gSTAGE_MAP + 4 * i))
      ∧ (∀ i, i < 256 → t.reg (gSTAGE_MAP + 4 * i) = s.reg (gSTAGE_MAP + 4 * i))
      ∧ t.ni.mapOld = s.niRegions ∧ t.ni.mapFrom = s.frame.rcs
      ∧ t.flag gADDR_MAP_STAT 11 = true ∧ t.flag gADDR_MAP_CTRL 0 = true ∧ onlyParts [.regs, .ni, .pw] s t) := by
  have hask := kbAsked_addrMapApply hfab hctrl hcheck
  have hnow := (hask.now hopen hing hed).trans (State.kbApply_map _ _)
  have hcopy := Changes.mapCopy s.mapAsked (s.regions gSTAGE_MAP)
  have hstale := Changes.imgStale mapReg (s.mapAsked.mapCopy (s.regions gSTAGE_MAP))
  have hreg (a : Nat) : (s.mapAsked.mapCopy (s.regions gSTAGE_MAP)).imgStale.reg a
      = (s.mapAsked.mapCopy (s.regions gSTAGE_MAP)).reg a := State.reg_congr (hstale.parts .regs (by decide)) a
  have hni : (s.mapAsked.mapCopy (s.regions gSTAGE_MAP)).imgStale.ni
      = (s.mapAsked.mapCopy (s.regions gSTAGE_MAP)).ni := hstale.parts .ni (by decide)
  have hframe : s.mapAsked.frame = s.frame := hask.asks.parts .frame (by decide)
  have hold : s.mapAsked.niRegions = s.niRegions :=
    State.niRegions_congr (fun a ha => hask.asks.regs a (not_askReg (by unfold mapReg gACTIVE_MAP at ha; omega)))
      (hask.asks.parts .ni (by decide)) hframe
  refine ⟨_, hask.exec, ?_⟩
  rw [hnow]
  refine ⟨fun i hi => ?_, fun i hi => ?_, ?_, ?_, ?_, ?_, onlyParts_keepPw ?_⟩
  · rw [State.reg_keepPw, hreg, State.reg_mapCopy_regions _ s _ hi]
  · rw [State.reg_keepPw, hreg, hcopy.regs _ (by unfold mapReg gACTIVE_MAP gSTAGE_MAP; omega)]
    exact hask.asks.regs _ (not_askReg (by unfold gSTAGE_MAP; omega))
  · rw [State.keepPw_ni, hni, State.mapOld_mapCopy, hold]
  · rw [State.keepPw_ni, hni, State.mapFrom_mapCopy, hframe]
  · rw [State.flag_keepPw, State.flag_congr (hreg _), hcopy.flag (by unfold mapReg gACTIVE_MAP gADDR_MAP_STAT; omega),
      State.flag_mapAsked_busy]
  · rw [State.flag_keepPw, State.flag_congr (hreg _), hcopy.flag (by unfold mapReg gACTIVE_MAP gADDR_MAP_CTRL; omega),
      State.flag_mapAsked_ctrl]
  · exact onlyParts_step (onlyParts_step (onlyParts_mono hask.asks.parts (by decide)) hcopy.parts) hstale.parts

end

/-! ### REMAP_CTRL -/

section
variable {s : State}

/-- What a write of REMAP_CTRL stores: BUSY and the reserved bits read 0 (R211). -/
theorem remapWord_eq (v : Word32) : BitVec.ofNat 32 (v.toNat - fieldOf v 1 3 * 2) = withField v 1 3 0 := by
  unfold withField
  simp

theorem State.kbApply_remap (u : State) (v : Word32) :
    u.kbApply (.remap v) = ((u.setReg gREMAP_CTRL (withField v 1 3 0)).redecode).imgStale := by
  rw [← remapWord_eq]
  rfl

/-- A written REMAP_CTRL is in force at once, and what has not been injected is decoded again (R213). -/
theorem completes_remapWrite_now (v : Word32) (hfab : s.fabState ≠ fabFAILED)
    (hctrl : s.flag gREMAP_CTRL 1 = false) (hopen : s.fabState ≠ fabOPEN) (hing : s.fabState ≠ fabQUIESCING)
    (hed : s.fabState ≠ fabQUIESCED) : completes (.remapWrite v) s (fun t =>
      t.remap = bitOf v 0 ∧ t.flag gREMAP_CTRL 1 = false ∧ t.fld gREMAP_CTRL 4 28 = fieldOf v 4 28
      ∧ (∀ i, i < 256 → t.reg (gACTIVE_MAP + 4 * i) = s.reg (gACTIVE_MAP + 4 * i))
      ∧ onlyParts [.regs, .ring, .ni, .recs, .pmu, .pw] s t) := by
  have hask := kbAsked_remapWrite v hfab hctrl
  have hnow := (hask.now hopen hing hed).trans (State.kbApply_remap _ v)
  have hredec := Redecodes.redecode ((s.raiseFlag gREMAP_CTRL 1).setReg gREMAP_CTRL (withField v 1 3 0))
  have hstale := Changes.imgStale sideReg
    ((s.raiseFlag gREMAP_CTRL 1).setReg gREMAP_CTRL (withField v 1 3 0)).redecode
  have hglobal {a : Nat} (ha : a < 0x100000) : ((s.raiseFlag gREMAP_CTRL 1).kbRequest (.remap v)).reg a
      = ((s.raiseFlag gREMAP_CTRL 1).setReg gREMAP_CTRL (withField v 1 3 0)).reg a := by
    rw [hnow]
    exact (hstale.regs a (not_sideReg_global ha)).trans (hredec.regs a (not_sideReg_global ha))
  have hword : ((s.raiseFlag gREMAP_CTRL 1).kbRequest (.remap v)).reg gREMAP_CTRL = withField v 1 3 0 :=
    (hglobal (by decide)).trans (State.reg_setReg_same _ _ _)
  refine ⟨_, hask.exec, ?_, ?_, ?_, fun i hi => ?_, onlyParts_keepPw ?_⟩
  · show (fieldOf (State.reg _ _) 0 1 == 1) = (fieldOf v 0 1 == 1)
    rw [State.reg_keepPw, hword, fieldOf_withField_below v 1 3 0 0 1 (by decide) (by decide)]
  · have h0 : fieldOf (withField v 1 3 0) 1 3 = 0 := fieldOf_withField v 1 3 0 (by decide)
    show (fieldOf (State.reg _ _) 1 1 == 1) = false
    rw [State.reg_keepPw, hword]
    rw [fieldOf_eq] at h0 ⊢
    exact beq_eq_false_iff_ne.mpr (by omega)
  · show fieldOf (State.reg _ _) 4 28 = _
    rw [State.reg_keepPw, hword, fieldOf_withField_above v 1 3 0 4 28 (by decide) (by decide)]
  · exact (hglobal (by unfold gACTIVE_MAP; omega)).trans ((State.reg_setReg_other _ _ _ _
      (by unfold gACTIVE_MAP gREMAP_CTRL; omega)).trans (hask.asks.regs _ (not_askReg (by unfold gACTIVE_MAP; omega))))
  · rw [hnow]
    exact onlyParts_step (onlyParts_step (onlyParts_step (onlyParts_mono hask.asks.parts (by decide))
      (onlyParts_setReg _ _ _)) hredec.parts) hstale.parts

end

/-! ### Detours -/

section
variable {s t : State}

/-- A route is worked out from the dies, the detours in force and the states of the links (R388, R390). -/
theorem State.routeWord_congr (hd2d : t.d2d = s.d2d) (hmap : t.reg gDIE_MAP = s.reg gDIE_MAP)
    (hdet : ∀ i, i < 8 → t.reg (gDETOUR + 4 * i) = s.reg (gDETOUR + 4 * i))
    (hlink : ∀ p, t.reg (dpReg p dSTAT) = s.reg (dpReg p dSTAT)) (d : Nat) : t.routeWord d = s.routeWord d := by
  have hdie : t.die = s.die := congrArg D2dSt.dieId hd2d
  have hup (p : Nat) : t.dpUp p = s.dpUp p := congrArg (· == lsUP) (State.fld_congr (hlink p) 0 3)
  have hfor (rsp : Bool) : t.detourFor d rsp = s.detourFor d rsp := by
    unfold State.detourFor
    rw [List.map_congr_left fun i hi => hdet i (List.mem_range.mp hi)]
  have hhalf (rsp : Bool) : t.routeHalf d rsp = s.routeHalf d rsp := by
    unfold State.routeHalf
    simp only [hdie, State.flag_congr hmap, hfor, hup]
  unfold State.routeWord
  rw [hhalf, hhalf]

theorem State.routeWord_keepPw (d : Nat) : (s.keepPw t).routeWord d = t.routeWord d :=
  State.routeWord_congr rfl rfl (fun _ _ => rfl) (fun _ => rfl) d

theorem State.reg_setRoutes {d : Nat} (hd : d < 16) : s.setRoutes.reg (gDIE_ROUTE + 4 * d) = s.routeWord d := by
  refine foldl_reaches (f := fun (t : State) d => t.setReg (gDIE_ROUTE + 4 * d) (s.routeWord d)) (Q := fun _ => True)
    (P := fun t : State => t.reg (gDIE_ROUTE + 4 * d) = s.routeWord d) (List.mem_range.mpr hd)
    (fun t _ => State.reg_setReg_same t _ _) (fun _ _ _ _ => trivial) (fun e _ t ht => ?_) trivial
  by_cases he : e = d
  · rw [he]
    exact State.reg_setReg_same t _ _
  · exact (State.reg_setReg_other t _ _ _ (by omega)).trans ht

/-- Detours whose conditions fail stay staged (R390). -/
theorem completes_detourApply_fails {pass : Bool} (hfab : s.fabState ≠ fabFAILED)
    (hctrl : s.flag gDETOUR_CTRL 0 = false)
    (hbad : pass = false ∨ (List.range 8).any (fun i => s.detourBad (s.reg (gDETOUR_STG + 4 * i))) = true) :
    completes (.detourApply pass) s (fun t =>
      t.fld gDETOUR_CTRL 1 2 = 2 ∧ regsBut [gDETOUR_CTRL] s t ∧ onlyParts [.regs] s t) := by
  have hexec : exec (.detourApply pass) s = .next (s.keepPw (s.setFld gDETOUR_CTRL 1 2 2)) := by
    change execDetourApply pass s = _
    unfold execDetourApply
    rw [if_neg (by simp [hfab, hctrl]), if_pos]
    rcases hbad with rfl | hbad
    · rfl
    · rw [hbad, Bool.or_true]
  exact ⟨_, hexec, State.fld_setFld_same s _ 1 2 2 (by decide),
    regsBut_setReg s _ _, onlyParts_keepPw (onlyParts_setReg s _ _)⟩

/-- The state in which the staged detours are the active ones and the routes follow (R390, R403). -/
def State.detoured (s : State) : State :=
  (s.detourCopy.setRoutes.setFld gDETOUR_CTRL 0 1 0).setFld gDETOUR_CTRL 1 2 1

theorem State.kbApply_detour (u : State) : u.kbApply .detour = u.detoured.imgStale := rfl

theorem Changes.detourAnswer (u : State) : Changes (· = gDETOUR_CTRL) [.regs] u
    ((u.setFld gDETOUR_CTRL 0 1 0).setFld gDETOUR_CTRL 1 2 1) :=
  (Changes.setFld_self _ _ _ _).trans (Changes.setFld_self _ _ _ _)

theorem State.reg_detour_detoured {i : Nat} (hi : i < 8) :
    s.detoured.reg (gDETOUR + 4 * i) = s.reg (gDETOUR_STG + 4 * i) := by
  have hroutes := (Changes.setRoutes s.detourCopy).regs (gDETOUR + 4 * i) (by unfold gDETOUR gDIE_ROUTE; omega)
  exact ((Changes.detourAnswer _).regs _ (by unfold gDETOUR gDETOUR_CTRL; omega)).trans
    (hroutes.trans (State.reg_detourCopy s hi))

theorem State.reg_route_detoured {d : Nat} (hd : d < 16) :
    s.detoured.reg (gDIE_ROUTE + 4 * d) = s.detoured.routeWord d := by
  have hanswer := Changes.detourAnswer s.detourCopy.setRoutes
  have hroutes := Changes.setRoutes s.detourCopy
  have hkept {a : Nat} (ha : a ≠ gDETOUR_CTRL) (hr : a < gDIE_ROUTE ∨ gDIE_ROUTE + 0x40 ≤ a) :
      s.detoured.reg a = s.detourCopy.reg a := (hanswer.regs a ha).trans (hroutes.regs a (by omega))
  have hword : s.detoured.routeWord d = s.detourCopy.routeWord d :=
    State.routeWord_congr ((hanswer.parts .d2d (by decide)).trans (hroutes.parts .d2d (by decide)))
      (hkept (by decide) (by decide))
      (fun i hi => hkept (by unfold gDETOUR gDETOUR_CTRL; omega) (by unfold gDETOUR gDIE_ROUTE; omega))
      (fun p => hkept (by unfold dpReg gDETOUR_CTRL; omega) (by unfold dpReg gDIE_ROUTE; omega)) d
  rw [hword]
  exact (hanswer.regs _ (by unfold gDIE_ROUTE gDETOUR_CTRL; omega)).trans (State.reg_setRoutes hd)

theorem State.fld_detoured_result : s.detoured.fld gDETOUR_CTRL 1 2 = 1 :=
  State.fld_setFld_same _ _ 1 2 1 (by decide)

theorem State.flag_detoured_apply : s.detoured.flag gDETOUR_CTRL 0 = false := by
  unfold State.detoured
  rw [State.flag_setFld_below _ _ _ _ _ _ (by decide) (by decide)]
  exact State.flag_setFld_boolNat _ _ 0 false (by decide)

theorem State.onlyParts_detoured : onlyParts [.regs] s s.detoured :=
  onlyParts_trans (onlyParts_trans (Changes.detourCopy s).parts (State.onlyParts_setRoutes _))
    (Changes.detourAnswer _).parts

/-- Detours that pass are active at once (R390, R403). -/
theorem completes_detourApply_now (hfab : s.fabState ≠ fabFAILED) (hctrl : s.flag gDETOUR_CTRL 0 = false)
    (hgood : (List.range 8).any (fun i => s.detourBad (s.reg (gDETOUR_STG + 4 * i))) = false)
    (hopen : s.fabState ≠ fabOPEN) (hing : s.fabState ≠ fabQUIESCING) (hed : s.fabState ≠ fabQUIESCED) :
    completes (.detourApply true) s (fun t =>
      (∀ i, i < 8 → t.reg (gDETOUR + 4 * i) = s.reg (gDETOUR_STG + 4 * i))
      ∧ (∀ d, d < 16 → t.reg (gDIE_ROUTE + 4 * d) = t.routeWord d)
      ∧ t.fld gDETOUR_CTRL 1 2 = 1 ∧ t.flag gDETOUR_CTRL 0 = false ∧ onlyParts [.regs, .pw] s t) := by
  have hask := kbAsked_detourApply hfab hctrl hgood
  have hnow := (hask.now hopen hing hed).trans (State.kbApply_detour _)
  have hstale := Changes.imgStale askReg (s.raiseFlag gDETOUR_CTRL 0).detoured
  have hreg (a : Nat) : (s.raiseFlag gDETOUR_CTRL 0).detoured.imgStale.reg a
      = (s.raiseFlag gDETOUR_CTRL 0).detoured.reg a := State.reg_congr (hstale.parts .regs (by decide)) a
  have hroute (d : Nat) : (s.raiseFlag gDETOUR_CTRL 0).detoured.imgStale.routeWord d
      = (s.raiseFlag gDETOUR_CTRL 0).detoured.routeWord d :=
    State.routeWord_congr (hstale.parts .d2d (by decide)) (hreg _) (fun _ _ => hreg _) (fun _ => hreg _) d
  refine ⟨_, hask.exec, ?_⟩
  rw [hnow]
  refine ⟨fun i hi => ?_, fun d hd => ?_, ?_, ?_, onlyParts_keepPw ?_⟩
  · rw [State.reg_keepPw, hreg, State.reg_detour_detoured hi]
    exact hask.asks.regs _ (not_askReg (by unfold gDETOUR_STG; omega))
  · rw [State.reg_keepPw, State.routeWord_keepPw, hreg, hroute, State.reg_route_detoured hd]
  · rw [State.fld_keepPw, State.fld_congr (hreg _), State.fld_detoured_result]
  · rw [State.flag_keepPw, State.flag_congr (hreg _), State.flag_detoured_apply]
  · exact onlyParts_step (onlyParts_step (onlyParts_mono hask.asks.parts (by decide)) State.onlyParts_detoured)
      hstale.parts

end

/-! ### A change that is not taken -/

/-- In FAILED, or while the same is pending, nothing changes. -/
theorem completes_kb_ignored {s : State} {c : Instr} {v : Word32} {b : Bool}
    (h : (c = .addrMapApply ∧ (s.fabState = fabFAILED ∨ s.flag gADDR_MAP_CTRL 0 = true))
      ∨ (c = .remapWrite v ∧ (s.fabState = fabFAILED ∨ s.flag gREMAP_CTRL 1 = true))
      ∨ (c = .detourApply b ∧ (s.fabState = fabFAILED ∨ s.flag gDETOUR_CTRL 0 = true))) :
    completes c s (fun t => t = s) := by
  rcases h with ⟨rfl, hnot⟩ | ⟨rfl, hnot⟩ | ⟨rfl, hnot⟩
  · exact ⟨s, if_pos hnot, rfl⟩
  · exact ⟨s, if_pos hnot, rfl⟩
  · exact ⟨s, if_pos hnot, rfl⟩

/-- Settles O48: what is asked is applied at once outside OPEN, QUIESCING and QUIESCED, by what the copy of the map,
the second decoding and the copy of the detours change; in OPEN the sequencer starts it, by what a fence changes as
it starts; in QUIESCING and QUIESCED it is queued. -/
theorem mapAndDetoursAreApplied : Obligations.MapAndDetoursAreApplied := by
  unfold Obligations.MapAndDetoursAreApplied
  refine ⟨fun s hfab hctrl => ⟨fun i c hcheck => completes_addrMapApply_fails hfab hctrl hcheck,
      fun hcheck hopen hing hed => completes_addrMapApply_now hfab hctrl hcheck hopen hing hed⟩,
    fun v s hfab hctrl hopen hing hed => completes_remapWrite_now v hfab hctrl hopen hing hed,
    fun pass s hfab hctrl => ⟨fun hbad => completes_detourApply_fails hfab hctrl hbad, ?_⟩,
    fun s c x v hfab hcmd => ?_, fun s c v b h => completes_kb_ignored h⟩
  · rintro rfl hgood hopen hing hed
    exact completes_detourApply_now hfab hctrl hgood hopen hing hed
  · obtain ⟨u, hask⟩ : ∃ u, KbAsked c x s u := by
      rcases hcmd with ⟨rfl, rfl, hcheck, hctrl⟩ | ⟨rfl, rfl, hctrl⟩ | ⟨rfl, rfl, hctrl, hgood⟩
      · exact ⟨_, kbAsked_addrMapApply hfab hctrl hcheck⟩
      · exact ⟨_, kbAsked_remapWrite v hfab hctrl⟩
      · exact ⟨_, kbAsked_detourApply hfab hctrl hgood⟩
    exact ⟨hask.starts, hask.waits⟩

end Sys2Proof.Machine

end

section
/-! PROOFS. What goes on once a commit has settled (R439): a QCMD that waited, the next work of Hearth's sequencer, a
record of Hearth's. None of it touches the banks or what says how far the commit has come. -/
namespace Sys2Proof.Machine
open Sys2Proof

/-! ### Registers beside the banks and the commit's -/

/-- Registers that say how far a commit has come: COMMIT_STATUS, and at each stop STOP_CMT_STAT. -/
def cmtReg (a : Nat) : Prop := a = gCOMMIT_STATUS ∨ ∃ st, st < nStops ∧ a = stopReg st sSTOP_CMT_STAT

/-- Every other register but those whose bit 0 says which bank is active. -/
def freeReg (a : Nat) : Prop := ¬ (bankReg a ∨ cmtReg a)

theorem freeReg_side {a : Nat} (h : sideReg a) : freeReg a := by
  obtain ⟨st, o, ho, hoff, rfl⟩ := h
  rintro ((⟨st', -, o', ho', he⟩ | ⟨r, -, he⟩) | he | ⟨st', -, he⟩)
  · have hlt := (by decide : ∀ o ∈ [sFLOW_STAT, sSCHED_STAT, sGL_STAT], o < 0x4000 ∧ o ∈ tableOffs) o' ho'
    exact hoff ((stopReg_inj ho hlt.1 he).2 ▸ hlt.2)
  · have hbank : o = 0x3E00 := by
      unfold ringReg stopReg rSTAMP_STAT at he
      omega
    exact hoff (hbank ▸ by decide)
  · exact stopReg_ne_global (by decide) st o he
  · exact hoff ((stopReg_inj ho (by decide) he).2 ▸ by decide)

theorem not_bankReg_global {a : Nat} (ha : a < 0x100000) : ¬ bankReg a := by
  rintro (⟨st, -, o, -, he⟩ | ⟨r, -, he⟩)
  · exact stopReg_ne_global ha st o he.symm
  · unfold ringReg at he
    omega

theorem freeReg_global {a : Nat} (ha : a < 0x100000 := by decide) (hne : a ≠ gCOMMIT_STATUS := by decide) :
    freeReg a := by
  rintro (h | he | ⟨st, -, he⟩)
  · exact not_bankReg_global ha h
  · exact hne he
  · exact stopReg_ne_global ha st _ he.symm

/-- The parts of a state that a commit may change beside the frame counters and Hearth's own part. -/
def cmtParts : List Part := [.regs, .ring, .ni, .acu, .recs, .pmu, .tem, .qe, .cdc, .pw]

/-- A change that leaves the banks, what says how far a commit has come, the frame counters and Hearth's own part. -/
abbrev Spares (s t : State) : Prop := Changes freeReg cmtParts s t

namespace Spares

theorem of_redecodes {s t : State} (h : Redecodes s t) : Spares s t := h.mono (fun _ => freeReg_side) (by decide)

theorem of_begins {s t : State} (h : Begins s t) : Spares s t := by
  refine h.mono (fun a ha => ?_) (by decide)
  rcases ha with hside | ⟨_, hhi⟩
  · exact freeReg_side hside
  · exact freeReg_global (by omega) (by unfold gCOMMIT_STATUS; omega)

theorem setNi (s : State) (v : NiSt) : Spares s { s with ni := v } := Changes.setNi s v (by decide)

theorem setPw (s : State) (v : PwSt) : Spares s { s with pw := v } := Changes.setPw s v (by decide)

/-- Records, the queue engines and the clock crossings hold no register. -/
theorem setInner (s : State) (recs : RecSt) (qe : QeSt) (cdc : CdcSt) :
    Spares s { s with recs := recs, qe := qe, cdc := cdc } :=
  .of_regs rfl fun p hp => by
    cases p with
    | recs | qe | cdc => exact absurd (by decide) hp
    | _ => rfl

theorem setRecs (s : State) (v : RecSt) : Spares s { s with recs := v } := setInner s v s.qe s.cdc

theorem setQe (s : State) (v : QeSt) : Spares s { s with qe := v } := setInner s s.recs v s.cdc

theorem setCdc (s : State) (v : CdcSt) : Spares s { s with cdc := v } := setInner s s.recs s.qe v

theorem setStop (s : State) (st : Nat) {o : Nat} (lo w x : Nat) (ho : o < 0x4000 := by decide)
    (hoff : o ∉ tableOffs := by decide) : Spares s (s.setFld (stopReg st o) lo w x) :=
  Changes.setFld (freeReg_side (sideReg_stop st ho hoff)) (by decide) lo w x

theorem setGlobal (s : State) {a : Nat} (lo w x : Nat) (ha : a < 0x100000 := by decide)
    (hne : a ≠ gCOMMIT_STATUS := by decide) : Spares s (s.setFld a lo w x) :=
  Changes.setFld (freeReg_global ha hne) (by decide) lo w x

theorem raise (s : State) (st : Nat) (r : RecIn) : Spares s (s.raise st r) := of_redecodes (.raise s st r)

theorem setTxns (s : State) (st p : Nat) (v : List Txn) : Spares s (s.setTxns st p v) := setNi s _

/-! ### QCMDs that waited -/

theorem setQEntry (s : State) (st q : Nat) (v : BitVec 256) : Spares s (s.setQEntry st q v) := setQe s _

theorem qRefresh (s : State) (st q : Nat) : Spares s (s.qRefresh st q) := .ite (setQEntry s _ _ _) (.refl s)

theorem qcmdEnd (s : State) (st result reason : Nat) : Spares s (s.qcmdEnd st result reason) :=
  ((setStop s st _ _ _).trans (setStop _ st _ _ _)).trans (setStop _ st _ _ _)

theorem engineSend (s : State) (st : Nat) (t : Txn) : Spares s (s.engineSend st t).2 := setTxns s _ _ _

/-- A notification is counted and sent, or reported (R265). -/
theorem notifySend (s : State) (st q kind : Nat) (e : BitVec 256) : Spares s (s.notifySend st q kind e) := by
  have hsent (t : Txn) : Spares s ((s.qeCnt st 6).engineSend st t).2 := (setStop s st _ _ _).trans (engineSend _ _ _)
  exact .ite (hsent _) (.ite (raise s _ _) (hsent _))

theorem qArm (s : State) (st q : Nat) (e : BitVec 256) : Spares s (s.qArm st q e) := by
  unfold State.qArm
  refine .ite (setQEntry s _ _ _) ?_
  split
  · exact setQEntry s _ _ _
  · exact ((setQEntry s _ _ _).trans (setQEntry _ _ _ _)).trans (notifySend _ _ _ _ _)

theorem forceDiscard (s : State) (st : Nat) : Spares s (s.forceDiscard st) := by
  unfold State.forceDiscard
  refine .foldl (fun q _ u => .ite (.refl u) ?_) s
  have hgroup := Changes.foldl (A := freeReg) (ps := cmtParts) (l := u.groupOf st q)
    (f := fun (v : State) j =>
      v.setQEntry st j (withField (withField (v.qEntry st j) 50 15 0) 22 14 (qeTail (v.qEntry st j))))
    (fun j _ v => setQEntry v _ _ _) u
  exact ((hgroup.trans (setQe _ _)).trans (setStop _ st _ _ _)).trans (raise _ _ _)

theorem qDelete (s : State) (st q : Nat) (force : Bool) : Spares s (s.qDelete st q force) := by
  have hgroup := Changes.foldl (A := freeReg) (ps := cmtParts) (l := s.groupOf st q)
    (f := fun (v : State) j => v.setQEntry st j (withField (v.qEntry st j) 0 3 qDRAINING))
    (fun j _ v => setQEntry v _ _ _) s
  exact .ite (qcmdEnd s _ _ _) (.ite (qcmdEnd s _ _ _) (.ite (.refl s)
    (.ite ((hgroup.trans (setQe _ _)).trans (forceDiscard _ _)) hgroup)))

theorem qClear (s : State) (st q : Nat) : Spares s (s.qClear st q) :=
  .ite (qcmdEnd s _ _ _) (.ite (qcmdEnd s _ _ _) (.ite (qcmdEnd s _ _ _)
    ((((setQEntry s _ _ _).trans (qRefresh _ _ _)).trans (setQe _ _)).trans (qcmdEnd _ _ _ _))))

theorem qcmd (s : State) (st q op : Nat) : Spares s (s.qcmd st q op) :=
  .ite (qDelete s _ _ _) (.ite (qDelete s _ _ _) (.ite (qClear s _ _)
    (.ite (.ite (qcmdEnd s _ _ _) ((qArm s _ _ _).trans (qcmdEnd _ _ _ _))) (setStop s st _ _ _))))

theorem qcmdRelease (s : State) : Spares s s.qcmdRelease :=
  .foldl (fun _ _ u => (setQe u _).trans (qcmd _ _ _ _)) s

/-! ### What waits for the sequencer -/

theorem imgStale (s : State) : Spares s s.imgStale := (Changes.imgStale freeReg s).mono (fun _ h => h) (by decide)

theorem setRoutes (s : State) : Spares s s.setRoutes :=
  (Changes.setRoutes s).mono (fun a ha => freeReg_global (by unfold gDIE_ROUTE at ha; omega)
    (by unfold gDIE_ROUTE at ha; unfold gCOMMIT_STATUS; omega)) (by decide)

theorem kbApply (s : State) (c : KbChange) : Spares s (s.kbApply c) := by
  cases c with
  | map es =>
    have hcopy : Spares s (s.mapCopy es) := (Changes.mapCopy s es).mono (fun a ha =>
      freeReg_global (by unfold mapReg gACTIVE_MAP at ha; omega)
        (by unfold mapReg gACTIVE_MAP at ha; unfold gCOMMIT_STATUS; omega)) (by decide)
    exact hcopy.trans (imgStale _)
  | remap v =>
    rw [State.kbApply_remap]
    exact ((Changes.setReg (freeReg_global (by decide) (by decide)) (by decide) _).trans
      (of_redecodes (.redecode _))).trans (imgStale _)
  | detour =>
    have hcopy : Spares s s.detourCopy := (Changes.detourCopy s).mono (fun a ha =>
      freeReg_global (by unfold gDETOUR at ha; omega) (by unfold gDETOUR at ha; unfold gCOMMIT_STATUS; omega))
      (by decide)
    exact (((hcopy.trans (setRoutes _)).trans (setGlobal _ _ _ _)).trans (setGlobal _ _ _ _)).trans (imgStale _)
  | sibling d => exact (setRoutes s).trans (imgStale _)
  | rclk => exact .refl s

theorem kbStart (s : State) (c : KbChange) : Spares s (s.kbStart c) := by
  by_cases hc : c = .rclk
  · subst hc
    exact ((setGlobal s _ _ _).trans (setCdc _ _)).trans (of_begins (.fenceStart _ _ _ _ (by decide)))
  · exact of_begins (.kbStart s hc)

theorem pwNext (n : Nat) (s : State) : Spares s (pwNext n s) := by
  induction n generalizing s with
  | zero => exact .refl s
  | succ n ih =>
    unfold Machine.pwNext
    refine .ite (.refl s) ?_
    split
    · exact ((setPw s _).trans (of_begins (.fcStart _ _ _))).trans (ih _)
    · exact .ite (((setPw s _).trans (kbStart _ _)).trans (ih _))
        (.ite (.refl s) (((setPw s _).trans (kbApply _ _)).trans (ih _)))
    · exact .ite (.refl s) (((setPw s _).trans (of_begins (.pwStart _ _ _))).trans (ih _))
    · exact .refl s

theorem pwGo (s : State) : Spares s s.pwGo := pwNext _ s

/-! ### A record of Hearth's -/

theorem logIssue (s : State) : Spares s s.logIssue := by
  unfold State.logIssue
  split
  · exact .refl s
  · exact .ite (.refl s) (.ite (((setGlobal s _ _ _).trans (setGlobal _ _ _ _)).trans (setRecs _ _))
      ((setTxns s _ _ _).trans (setRecs _ _)))

theorem latchFatal (s : State) (b : BitVec 512) : Spares s (s.latchFatal b) := by
  have hlatch := Changes.forUpTo (A := freeReg) (ps := cmtParts) (n := 16)
    (f := fun j (u : State) => u.setReg (gERR_FATAL_REC + 4 * j) (BitVec.ofNat 32 (fieldOf b (32 * j) 32)))
    (fun j hj u => .setReg (freeReg_global (by unfold gERR_FATAL_REC; omega)
      (by unfold gERR_FATAL_REC gCOMMIT_STATUS; omega)) (by decide) _) s
  exact .ite (((Changes.ite (.refl s) hlatch).trans (setGlobal _ _ _ _)).trans (setRecs _ _)) (.refl s)

theorem logRecord (s : State) (b : BitVec 512) : Spares s (s.logRecord b) :=
  .ite ((setRecs s _).trans (logIssue _)) (.ite (setGlobal s _ _ _) (.refl s))

theorem ringRecord (s : State) (b : BitVec 512) : Spares s (s.ringRecord b) :=
  ((setRecs s _).trans (setGlobal _ _ _ _)).trans (setGlobal _ _ _ _)

theorem perrRoute (s : State) (b : BitVec 512) : Spares s (s.perrRoute b) :=
  .foldl (fun _ _ u => (setTxns u _ _ _).trans (setRecs _ _)) s

theorem raiseHearth (s : State) (sev cause : Nat) (spec : BitVec 256) : Spares s (s.raiseHearth sev cause spec) := by
  unfold State.raiseHearth
  rw [State.collect_eq]
  exact (((ringRecord s _).trans (latchFatal _ _)).trans (logRecord _ _)).trans (perrRoute _ _)

end Spares

end Sys2Proof.Machine

end

section
/-! PROOFS. A commit swaps every table of its scope (R229, R435, R436, R437): which banks turn over at the rings and
at the stops, what the register list may change, and what is left when the commit has settled. -/
namespace Sys2Proof.Machine
open Sys2Proof

/-! ### Banks that turn over -/

/-- The banks of the registers where `A` holds turn over, the others stay, and so do the frame counters and Hearth's
own part. -/
structure Turns (A : Nat → Prop) (s t : State) : Prop where
  turned : ∀ a, bankReg a → A a → t.fld a 0 1 = 1 - s.fld a 0 1
  kept : ∀ a, bankReg a → ¬ A a → t.fld a 0 1 = s.fld a 0 1
  parts : onlyParts cmtParts s t

/-- No bank turns over. -/
abbrev Holds (s t : State) : Prop := Turns (fun _ => False) s t

namespace Turns
variable {A B : Nat → Prop} {s t u : State}

theorem of_spares (h : Spares s t) : Holds s t :=
  ⟨fun _ _ ha => ha.elim, fun _ ha _ => h.fld (fun hfree => hfree (.inl ha)) 0 1, h.parts⟩

theorem refl (s : State) : Holds s s := of_spares (.refl s)

/-- Fields beside the bank's own bit. -/
theorem setFld_above {b lo w : Nat} (hlo : 1 ≤ lo) (hw : lo + w ≤ 32) (x : Nat) : Holds s (s.setFld b lo w x) where
  turned _ _ ha := ha.elim
  kept a _ _ := by
    by_cases hab : a = b
    · exact hab ▸ State.fld_setFld_below s a lo w x 0 1 hw hlo
    · exact State.fld_setFld_other s b a lo w x 0 1 hab
  parts := onlyParts_mono (onlyParts_setReg s _ _) (by decide)

/-- One bank turns over. -/
theorem flip (s : State) (b : Nat) : Turns (· = b) s (s.setFld b 0 1 (1 - s.fld b 0 1)) where
  turned a _ ha := by
    subst ha
    exact (State.fld_setFld_same s a 0 1 _ (by decide)).trans (Nat.mod_eq_of_lt (by omega))
  kept a _ ha := State.fld_setFld_other s b a 0 1 _ 0 1 ha
  parts := onlyParts_mono (onlyParts_setReg s _ _) (by decide)

theorem congr (h : Turns A s t) (hAB : ∀ a, A a ↔ B a) : Turns B s t :=
  ⟨fun a hb ha => h.turned a hb ((hAB a).mpr ha), fun a hb ha => h.kept a hb fun hA => ha ((hAB a).mp hA), h.parts⟩

/-- Two steps that turn different banks over. -/
theorem trans_disjoint (h : Turns A s t) (h' : Turns B t u) (hdisj : ∀ a, A a → ¬ B a) :
    Turns (fun a => A a ∨ B a) s u where
  turned a hb hab := by
    rcases hab with hA | hB
    · rw [h'.kept a hb (hdisj a hA), h.turned a hb hA]
    · rw [h'.turned a hb hB, h.kept a hb fun hA => hdisj a hA hB]
  kept a hb hab := by
    rw [h'.kept a hb fun hB => hab (.inr hB), h.kept a hb fun hA => hab (.inl hA)]
  parts := onlyParts_trans h.parts h'.parts

theorem trans_holds (h : Turns A s t) (h' : Holds t u) : Turns A s u :=
  (h.trans_disjoint h' fun _ _ => id).congr fun _ => iff_of_eq (or_false _)

/-- Where the condition fails no bank turns over. -/
theorem branch {c P : Prop} [Decidable c] (hc : c ↔ P) (h : Turns A s t) (h' : Holds s u) :
    Turns (fun a => P ∧ A a) s (if c then t else u) := by
  split
  case isTrue hif => exact h.congr fun a => (and_iff_right (hc.mp hif)).symm
  case isFalse hif => exact h'.congr fun a => ⟨False.elim, fun hP => hif (hc.mpr hP.1)⟩

/-- A loop each of whose turns is over banks of its own. -/
theorem forUpTo {A : Nat → Nat → Prop} {f : Nat → State → State} (n : Nat) (s : State)
    (h : ∀ i, i < n → ∀ t, t.her = s.her → Turns (A i) t (f i t)) (hdisj : ∀ i j a, i < j → A i a → ¬ A j a) :
    Turns (fun a => ∃ i, i < n ∧ A i a) s (forUpTo n f s) := by
  induction n with
  | zero => exact (refl s).congr fun a => by simp
  | succ n ih =>
    have hbefore := ih fun i hi => h i (Nat.lt_succ_of_lt hi)
    rw [forUpTo_succ]
    refine (hbefore.trans_disjoint (h n (Nat.lt_succ_self n) _ (hbefore.parts .her (by decide)))
      fun a ⟨i, hi, ha⟩ => hdisj i n a hi ha).congr fun a => ?_
    simp only [Nat.lt_succ_iff_lt_or_eq, or_and_right, exists_or, exists_eq_left]

end Turns

/-! ### The stamping tables -/

theorem freeReg_ring {r o : Nat} (ho : o < 0x10000) (hne : o ≠ rSTAMP_STAT) : freeReg (ringReg r o) := by
  rintro ((⟨st, hst, o', ho', he⟩ | ⟨r', -, he⟩) | he | ⟨st, hst, he⟩)
  · have hlt := (by decide : ∀ o ∈ [sFLOW_STAT, sSCHED_STAT, sGL_STAT], o < 0x4000) o' ho'
    exact ringReg_ne_stopReg hst hlt he
  · refine hne ?_
    unfold ringReg rSTAMP_STAT at *
    omega
  · unfold ringReg gCOMMIT_STATUS at he
    omega
  · exact ringReg_ne_stopReg hst (by decide) he

theorem Spares.setRingFld (s : State) (r : Nat) {o : Nat} (lo w x : Nat) (ho : o < 0x10000 := by decide)
    (hne : o ≠ rSTAMP_STAT := by decide) : Spares s (s.setFld (ringReg r o) lo w x) :=
  Changes.setFld (freeReg_ring ho hne) (by decide) lo w x

theorem Spares.setTem (s : State) (v : TemSt) : Spares s { s with tem := v } :=
  .of_regs rfl (onlyParts_mono (onlyParts_setTem s v) (by decide))

theorem Spares.sweepDrop (s : State) (r : Nat) : Spares s (s.sweepDrop r) := by
  unfold State.sweepDrop
  exact .forUpTo (fun p _ u => .trans (.foldl (fun e _ v => setTem v _) u) (setTem _ _)) s

/-- The bank of a ring turns over, with its GUAR counts. -/
def State.flipRing (r : Nat) (s : State) : State :=
  ((s.setFld (ringReg r rSTAMP_STAT) 0 1 (1 - s.fld (ringReg r rSTAMP_STAT) 0 1)).setFld (ringReg r rSTAMP_GUAR) 0 13
    (s.fld (ringReg r rSTAMP_GUAR) 16 13)).setFld (ringReg r rSTAMP_GUAR) 16 13 (s.fld (ringReg r rSTAMP_GUAR) 0 13)

/-- The stamping table of one ring swaps (R436, R452). -/
def State.swapRing (f f' r : Nat) (s : State) : State :=
  let t := s.flipRing r
  if t.ringClosed r f' && !s.ringClosed r f then t.sweepDrop r
  else if s.ringClosed r f && !t.ringClosed r f' then t.setFld (ringReg r rTRK_STAT) 7 1 0
  else t

theorem State.swapStamp_eq (f f' : Nat) (s : State) :
    s.swapStamp f f' = forUpTo nRings (State.swapRing f f') s := rfl

theorem Turns.flipRing (r : Nat) (s : State) : Turns (· = ringReg r rSTAMP_STAT) s (s.flipRing r) := by
  have hguar (u : State) (n n' : Nat) : Spares u
      ((u.setFld (ringReg r rSTAMP_GUAR) 0 13 n).setFld (ringReg r rSTAMP_GUAR) 16 13 n') :=
    (Spares.setRingFld u r _ _ _).trans (Spares.setRingFld _ r _ _ _)
  exact (flip s _).trans_holds (of_spares (hguar _ _ _))

theorem Turns.swapRing (f f' r : Nat) (s : State) : Turns (· = ringReg r rSTAMP_STAT) s (s.swapRing f f' r) :=
  (flipRing r s).trans_holds (of_spares
    (.ite (Spares.sweepDrop _ r) (.ite (Spares.setRingFld _ r _ _ _) (.refl _))))

theorem Turns.swapStamp (f f' : Nat) (s : State) :
    Turns (fun a => ∃ r, r < nRings ∧ a = ringReg r rSTAMP_STAT) s (s.swapStamp f f') := by
  rw [State.swapStamp_eq]
  refine .forUpTo nRings s (fun r _ t _ => .swapRing f f' r t) fun r r' a hr ha ha' => ?_
  rw [ha] at ha'
  unfold ringReg at ha'
  omega

/-! ### The tables of one stop -/

section
variable (s : State) (st : Nat)

theorem Redecodes.flowDrop (port resid : Nat) (h : Slot) : Redecodes s (s.flowDrop st port resid h) :=
  (Changes.setFld (sideReg_stop st) (by decide) _ _ _).trans (raise _ _ _)

/-- What waits of a flow that is gone is dropped (R438). -/
theorem Redecodes.flowSweep : Redecodes s (s.flowSweep st) := by
  unfold State.flowSweep
  refine .trans (.foldl (fun q _ u => .trans (setInjq u _ _ _) (.foldl (fun e _ v => flowDrop v _ _ _ _) _)) s)
    (.foldl (fun p _ u => .trans (setHeld u _ _ _) (.foldl (fun h _ v => ?_) _)) _)
  split
  · exact flowDrop v _ _ _ _
  · exact .refl v

theorem Turns.swapFlow : Turns (· = stopReg st sFLOW_STAT) s (s.swapFlow st) := by
  have halloc (u : State) : Holds u (u.ejAlloc st) := setFld_above (by decide) (by decide) _
  have hsweep (u : State) : Holds u (u.flowSweep st) := of_spares (.of_redecodes (.flowSweep u st))
  unfold State.swapFlow
  exact ((flip s _).trans_holds (halloc _)).trans_holds (hsweep _)

theorem Turns.swapSched : Turns (· = stopReg st sSCHED_STAT) s (s.swapSched st) := by
  have hcredit (u : State) (n : Nat) (v : Int) : Spares u (u.setCredit st n v) := Spares.setNi u _
  unfold State.swapSched
  exact (flip s _).trans_holds (of_spares (.forUpTo (fun _ _ u => .ite (hcredit u _ _) (.refl u)) _))

theorem Spares.maxWins (len : Nat) (l : List (Nat × Nat)) : Spares s (s.maxWins st len l) := by
  unfold State.maxWins
  refine .foldl (fun c hc u => ?_) s
  have hoff := (by decide : ∀ c < 4, sGL_MAXWIN + 4 * c < 0x4000 ∧ sGL_MAXWIN + 4 * c ∉ tableOffs) c
    (List.mem_range.mp hc)
  exact setStop u st _ _ _ hoff.1 hoff.2

theorem Turns.gateRefresh (f : Nat) : Holds s (s.gateRefresh st f) := by
  have hwins := of_spares (.maxWins s st (s.gcycle st * f) (s.gateList st))
  rw [State.gateRefresh_eq]
  split
  · exact hwins
  · exact hwins.trans_holds (setFld_above (by decide) (by decide) _)

/-- The gate list starts at the frame of its cycle that it is due in (R129). -/
def State.gateDue : State :=
  { s with ni := { s.ni with
      gframe := Tab.set (fun _ => 0) s.ni.gframe st
        ((s.frame.frameCnt - s.reg (stopReg st (sGL_START + 8 * s.glBank st))).toInt.emod (s.gcycle st : Nat)).toNat
      gstale := Tab.set (fun _ => 0) s.ni.gstale st 0 } }

theorem State.swapGate_eq (f : Nat) : s.swapGate st f =
    ((s.setFld (stopReg st sGL_STAT) 0 1 (1 - s.fld (stopReg st sGL_STAT) 0 1)).gateDue st).gateRefresh st f := rfl

theorem Spares.gateDue : Spares s (s.gateDue st) := setNi s _

theorem Turns.swapGate (f : Nat) : Turns (· = stopReg st sGL_STAT) s (s.swapGate st f) := by
  rw [State.swapGate_eq]
  exact ((flip s _).trans_holds (of_spares (.gateDue _ st))).trans_holds (gateRefresh _ _ _)

end

/-- The ACU sets of a scope at a stop (R227, R229). -/
def State.swapUnits (k st : Nat) (s : State) : State :=
  (List.range 3).foldl (fun (s : State) a =>
    if k / 2 ^ (4 + a) % 2 == 1 && acuThere st a then s.acuSwap st a else s) s

/-- The queue definitions of a scope at a stop (R266). -/
def State.swapDefs (k st : Nat) (s : State) : State :=
  if k / 2 ^ 7 % 2 == 1 && s.flag (stopReg st sSTOP_CMT_STAT) 9 then s.applyDefs st else s

def State.swapFlows (k st : Nat) (s : State) : State := if k / 2 ^ 1 % 2 == 1 then s.swapFlow st else s

def State.swapScheds (k st : Nat) (s : State) : State := if k / 2 ^ 2 % 2 == 1 then s.swapSched st else s

def State.swapGates (k st f : Nat) (fNew : Bool) (s : State) : State :=
  if k / 2 ^ 3 % 2 == 1 then s.swapGate st f else if fNew then s.gateRefresh st f else s

theorem State.swapStop_eq (st f : Nat) (fNew : Bool) (s : State) : s.swapStop st f fNew =
    ((((s.swapFlows s.her.scope st).swapScheds s.her.scope st).swapGates s.her.scope st f fNew).swapUnits
      s.her.scope st).swapDefs s.her.scope st := rfl

/-- The bank registers of a stop that turn over under scope `k`. -/
def stopTurns (k st a : Nat) : Prop :=
  ((k / 2 % 2 = 1 ∧ a = stopReg st sFLOW_STAT) ∨ (k / 4 % 2 = 1 ∧ a = stopReg st sSCHED_STAT))
    ∨ (k / 8 % 2 = 1 ∧ a = stopReg st sGL_STAT)

theorem tableReg_ne {st o o' : Nat} (hne : o ≠ o' := by decide) (ho : o < 0x4000 := by decide)
    (ho' : o' < 0x4000 := by decide) : stopReg st o ≠ stopReg st o' := stopReg_ne ho ho' hne

section
variable (k st : Nat) (s : State)

theorem Spares.swapUnits : Spares s (s.swapUnits k st) := by
  unfold State.swapUnits
  refine .foldl (fun a ha u => .ite ?_ (.refl u)) s
  have hctl : freeReg (acuReg st a 8) := freeReg_side (sideReg_acu st (List.mem_range.mp ha) (by decide))
  exact (Changes.setFld hctl (by decide) _ _ _).trans (Changes.setFld hctl (by decide) _ _ _)

theorem Spares.swapDefs : Spares s (s.swapDefs k st) :=
  .ite (.of_regs (State.regs_applyDefs s st) (onlyParts_mono (s.onlyParts_applyDefs st) (by decide))) (.refl s)

theorem Turns.swapGates (f : Nat) (fNew : Bool) :
    Turns (fun a => k / 8 % 2 = 1 ∧ a = stopReg st sGL_STAT) s (s.swapGates k st f fNew) := by
  have hrefresh : Holds s (if fNew then s.gateRefresh st f else s) := by
    split
    · exact gateRefresh s st f
    · exact refl s
  exact branch beq_iff_eq (swapGate s st f) hrefresh

theorem Turns.swapStop (f : Nat) (fNew : Bool) : Turns (stopTurns s.her.scope st) s (s.swapStop st f fNew) := by
  rw [State.swapStop_eq]
  have hflow : Turns _ s (s.swapFlows s.her.scope st) := branch beq_iff_eq (swapFlow s st) (refl s)
  have hsched (u : State) : Turns _ u (u.swapScheds s.her.scope st) := branch beq_iff_eq (swapSched u st) (refl u)
  have hrest (u : State) : Holds u ((u.swapUnits s.her.scope st).swapDefs s.her.scope st) :=
    of_spares ((Spares.swapUnits _ _ u).trans (Spares.swapDefs _ _ _))
  refine ((hflow.trans_disjoint (hsched _) ?_).trans_disjoint (swapGates _ _ _ f fNew) ?_).trans_holds (hrest _)
  · rintro a ⟨-, rfl⟩ ⟨-, he⟩
    exact absurd he tableReg_ne
  · rintro a (⟨-, rfl⟩ | ⟨-, rfl⟩) ⟨-, he⟩
    · exact absurd he tableReg_ne
    · exact absurd he tableReg_ne

theorem Spares.mgmtTake (opc : Nat) : Spares s (s.mgmtTake st opc) := by
  unfold State.mgmtTake
  split
  · exact setNi s _
  · exact .refl s

end

/-! ### All tables of the die -/

/-- The tables of every ring swap, if the scope has stamping tables. -/
def State.swapRings (s : State) : State := if s.her.scope % 2 = 1 then s.swapStamp s.frameLen s.newFlen else s

/-- The tables of every stop swap, and the stop's port 3 buffer gives up the broadcast. -/
def State.swapStops (f : Nat) (fNew : Bool) (s : State) : State :=
  forUpTo nStops (fun st s => (s.swapStop st f fNew).mgmtTake st opMG_LAP) s

/-- The bank registers that turn over under scope `k`. -/
def swapTurns (k a : Nat) : Prop :=
  (k % 2 = 1 ∧ ∃ r, r < nRings ∧ a = ringReg r rSTAMP_STAT) ∨ ∃ st, st < nStops ∧ stopTurns k st a

theorem stopTurns_offset {k st a : Nat} (h : stopTurns k st a) :
    ∃ o, o < 0x4000 ∧ a = stopReg st o := by
  rcases h with (⟨-, rfl⟩ | ⟨-, rfl⟩) | ⟨-, rfl⟩
  · exact ⟨sFLOW_STAT, by decide, rfl⟩
  · exact ⟨sSCHED_STAT, by decide, rfl⟩
  · exact ⟨sGL_STAT, by decide, rfl⟩

theorem Turns.swapStops (f : Nat) (fNew : Bool) (s : State) :
    Turns (fun a => ∃ st, st < nStops ∧ stopTurns s.her.scope st a) s (s.swapStops f fNew) := by
  refine .forUpTo nStops s (fun st _ t ht => ?_) fun st st' a hlt ha ha' => ?_
  · exact ht ▸ (swapStop st t f fNew).trans_holds (of_spares (.mgmtTake st _ _))
  · obtain ⟨o, ho, rfl⟩ := stopTurns_offset ha
    obtain ⟨o', ho', he⟩ := stopTurns_offset ha'
    exact Nat.ne_of_lt hlt (stopReg_inj ho ho' he).1

theorem Turns.swapTables (s : State) :
    Turns (swapTurns s.her.scope) s (s.swapRings.swapStops s.newFlen (s.newFlen != s.frameLen)) := by
  have hrings : Turns _ s s.swapRings := branch Iff.rfl (swapStamp s.frameLen s.newFlen s) (refl s)
  have hscope : s.swapRings.her = s.her := hrings.parts .her (by decide)
  have hstops := swapStops s.newFlen (s.newFlen != s.frameLen) s.swapRings
  rw [hscope] at hstops
  refine hrings.trans_disjoint hstops ?_
  rintro a ⟨-, r, -, rfl⟩ ⟨st, hst, hturn⟩
  obtain ⟨o, ho, he⟩ := stopTurns_offset hturn
  exact ringReg_ne_stopReg hst ho he

/-! ### The register list -/

/-- What the register list may change: nothing of the banks or the commit, and of the frame counters what ESC_EPOCH will
be (R430, R71). -/
structure Lists (s t : State) : Prop where
  changes : Changes freeReg (.frame :: cmtParts) s t
  rcs : t.frame.rcs = s.frame.rcs

namespace Lists
variable {s t u : State}

theorem of_spares (h : Spares s t) : Lists s t :=
  ⟨h.mono (fun _ ha => ha) (by decide), congrArg Frame.rcs (h.parts .frame (by decide))⟩

theorem trans (h : Lists s t) (h' : Lists t u) : Lists s u := ⟨h.changes.trans h'.changes, h'.rcs.trans h.rcs⟩

theorem foldl {α : Type} {l : List α} {f : State → α → State} (h : ∀ x ∈ l, ∀ t, Lists t (f t x)) (s : State) :
    Lists s (l.foldl f s) :=
  List.foldlRecOn l f (motive := fun t => Lists s t) (of_spares (.refl s)) fun t ht x hx => ht.trans (h x hx t)

/-- ESC_EPOCH waits for the boundary of its epoch (R71). -/
theorem setEpochNxt (s : State) (v : Option Nat) : Lists s { s with frame := { s.frame with epochNxt := v } } :=
  ⟨.of_regs rfl fun p hp => by
    cases p with
    | frame => exact absurd List.mem_cons_self hp
    | _ => rfl, rfl⟩

end Lists

/-- An entry of a sound list is for a word of a default-map entry, or for one of six registers (R430). -/
theorem State.itemOk_kind {s : State} {es : List (BitVec 64)} {e : BitVec 64} (h : s.itemOk es e = true) :
    (itKind e = 1 ∧ itOffset e / 16 < 3) ∨ (itKind e ≠ 1 ∧ itOffset e ∈ listRegs) := by
  unfold State.itemOk at h
  rw [Bool.and_eq_true] at h
  have hkind := h.2
  split at hkind
  case isTrue h0 => exact .inr ⟨by omega, List.contains_iff_mem.mp hkind⟩
  case isFalse =>
    split at hkind
    case isTrue h1 =>
      simp only [Bool.and_eq_true, decide_eq_true_eq] at hkind
      exact .inl ⟨h1, hkind.1.2⟩
    case isFalse => exact absurd hkind (by decide)

theorem sideReg_listed (st : Nat) {o : Nat} (h : o ∈ listRegs) : sideReg (stopReg st o) := by
  have hoff := (by decide : ∀ o ∈ listRegs, o < 0x4000 ∧ o ∉ tableOffs) o h
  exact sideReg_stop st hoff.1 hoff.2

theorem Spares.setPmu (s : State) (v : PmuSt) : Spares s { s with pmu := v } :=
  .of_regs rfl (onlyParts_mono (onlyParts_setPmu s v) (by decide))

theorem Spares.setAcu (s : State) (v : AcuSt) : Spares s { s with acu := v } :=
  .of_regs rfl (onlyParts_mono (onlyParts_setAcu s v) (by decide))

/-- A plain write of a register beside the banks and the commit's. -/
theorem Spares.regPut (s : State) {a : Nat} (ha : freeReg a) (v : Word32) : Spares s (s.regPut none a v) := by
  have hraw (u : State) (st : Nat) : Spares u (u.endRaw st) := (setStop u st _ _ _).trans (setStop _ st _ _ _)
  have hfail (u : State) : Spares u (u.rangeFail none a) := (setGlobal u _ _ _).trans (raiseHearth _ _ _ _)
  unfold State.regPut
  exact (((Changes.setReg ha (by decide) _).trans (.ite (hraw _ _) (.refl _))).trans
    (.ite (setPmu _ _) (.refl _))).trans (.ite (hfail _) (.refl _))

theorem Lists.itemWrite (old s : State) {e : BitVec 64}
    (he : (itKind e = 1 ∧ itOffset e / 16 < 3) ∨ (itKind e ≠ 1 ∧ itOffset e ∈ listRegs)) :
    Lists s (State.itemWrite old s e) := by
  unfold State.itemWrite
  refine .foldl (fun st _ u => ?_) s
  rcases he with ⟨hkind, hunit⟩ | ⟨hkind, hoff⟩
  · have hctl : freeReg (acuReg st (itOffset e / 16) 8) := freeReg_side (sideReg_acu st hunit (by decide))
    simp only [if_pos hkind]
    exact of_spares (.ite (.refl u) (.ite (.setFld hctl (by decide) _ _ _) (Spares.setAcu u _)))
  · have hfree := freeReg_side (sideReg_listed st hoff)
    simp only [if_neg hkind]
    split
    · exact (of_spares (.setReg hfree (by decide) _)).trans (setEpochNxt _ _)
    · exact of_spares (.ite (.refl u) (Spares.regPut u hfree _))

/-- The register list is written (R430, R436). -/
def State.writeList (s : State) : State := s.her.cmt.items.foldl (fun (t : State) e => State.itemWrite s t e) s

theorem Lists.writeList {s₀ s : State} (hok : s₀.listOk s.her.cmt.items = true) : Lists s s.writeList :=
  .foldl (fun e he t => .itemWrite s t (State.itemOk_kind (List.all_eq_true.mp hok e he))) s

/-! ### The commit settles -/

/-- No stop is frozen by the commit any longer. -/
def State.unfreeze (s : State) : State := forUpTo nStops (fun st s => s.setFld (stopReg st sSTOP_CMT_STAT) 9 1 0) s

def State.noPrep (s : State) : State := { s with her := { s.her with prep := [] } }

theorem State.reg_noPrep (s : State) (a : Nat) : s.noPrep.reg a = s.reg a := rfl

theorem State.flag_noPrep (s : State) (a i : Nat) : s.noPrep.flag a i = s.flag a i := rfl

theorem State.frame_noPrep (s : State) : s.noPrep.frame = s.frame := rfl

theorem State.her_noPrep (s : State) : s.noPrep.her = { s.her with prep := [] } := rfl

theorem State.cmtSettle_eq (s : State) :
    s.cmtSettle = ((s.unfreeze.noPrep.setFld gCOMMIT_CTRL 0 1 0).qcmdRelease).pwGo := rfl

/-- What is left of a state when its commit has settled (R439). -/
structure Settles (s t : State) : Prop where
  status : t.reg gCOMMIT_STATUS = s.reg gCOMMIT_STATUS
  banks : ∀ a, bankReg a → t.reg a = s.reg a
  thawed : ∀ st, st < nStops → t.flag (stopReg st sSTOP_CMT_STAT) 9 = false
  frame : t.frame = s.frame
  her : t.her = { s.her with prep := [] }

section
variable (s : State)

theorem Changes.unfreeze : Changes (fun a => ∃ st, st < nStops ∧ a = stopReg st sSTOP_CMT_STAT) [.regs] s s.unfreeze :=
  .forUpTo (fun st hst u => .setFld ⟨st, hst, rfl⟩ (by decide) _ _ _) s

theorem State.flag_unfreeze {st : Nat} (hst : st < nStops) :
    s.unfreeze.flag (stopReg st sSTOP_CMT_STAT) 9 = false := by
  have hclear (t : State) : (t.setFld (stopReg st sSTOP_CMT_STAT) 9 1 0).flag (stopReg st sSTOP_CMT_STAT) 9 = false :=
    State.flag_setFld_boolNat t _ 9 false (by decide)
  unfold State.unfreeze
  refine forUpTo_reaches (f := fun st (s : State) => s.setFld (stopReg st sSTOP_CMT_STAT) 9 1 0) (Q := fun _ => True)
    (P := fun t : State => t.flag (stopReg st sSTOP_CMT_STAT) 9 = false) hst
    (fun t _ => hclear t) (fun _ _ _ _ => trivial) (fun i _ t ht => ?_) trivial
  by_cases hi : i = st
  · subst hi
    exact hclear t
  · exact (State.flag_congr (State.reg_setFld_other t _ _ _ _ _ fun he =>
      hi (stopReg_inj (by decide) (by decide) he).1.symm) 9).trans ht

theorem settles_cmtSettle : Settles s s.cmtSettle := by
  have hthaw := Changes.unfreeze s
  have hgo : Spares s.unfreeze.noPrep s.cmtSettle := by
    rw [State.cmtSettle_eq]
    exact ((Spares.setGlobal s.unfreeze.noPrep (a := gCOMMIT_CTRL) 0 1 0).trans (Spares.qcmdRelease _)).trans
      (Spares.pwGo _)
  have hkept {a : Nat} (hreg : bankReg a ∨ a = gCOMMIT_STATUS) : s.cmtSettle.reg a = s.reg a := by
    have hcmt : ¬ freeReg a := fun h => h (hreg.imp id .inl)
    have hstop : ¬ ∃ st, st < nStops ∧ a = stopReg st sSTOP_CMT_STAT := by
      rintro ⟨st, hst, rfl⟩
      rcases hreg with hbank | he
      · exact not_bankReg_stop hst (by decide) (by decide) hbank
      · exact stopReg_ne_global (by decide) st _ he
    rw [hgo.regs a hcmt, State.reg_noPrep, hthaw.regs a hstop]
  refine ⟨hkept (.inr rfl), fun a ha => hkept (.inl ha), fun st hst => ?_, ?_, ?_⟩
  · rw [hgo.flag (fun h => h (.inr (.inr ⟨st, hst, rfl⟩))), State.flag_noPrep, State.flag_unfreeze s hst]
  · rw [hgo.parts .frame (by decide), State.frame_noPrep, hthaw.parts .frame (by decide)]
  · rw [hgo.parts .her (by decide), State.her_noPrep, hthaw.parts .her (by decide)]

end

/-! ### The swap -/

/-- The frame length of the commit is in force (R435). -/
def State.putFlen (f : Nat) (fNew : Bool) (s : State) : State :=
  { s with frame := { s.frame with flen48 := f / 48, fNew := fNew } }

/-- Hearth notes the rc of the swap. -/
def State.noteSwap (s : State) : State := s.setCmt { s.her.cmt with last := some s.frame.rcs }

theorem State.swapAll_eq (s : State) : s.swapAll =
    ((((((s.swapRings.swapStops s.newFlen (s.newFlen != s.frameLen)).writeList).putFlen s.newFlen
      (s.newFlen != s.frameLen)).noteSwap).setCmtState cmCOMMITTED).imgStale).cmtSettle := rfl

/-- The commit of `s` is swapped in `t`. -/
structure Swapped (s t : State) : Prop where
  state : t.cmtState = cmCOMMITTED
  turned : ∀ a, bankReg a → swapTurns s.her.scope a → t.fld a 0 1 = 1 - s.fld a 0 1
  kept : ∀ a, bankReg a → ¬ swapTurns s.her.scope a → t.fld a 0 1 = s.fld a 0 1
  thawed : ∀ st, st < nStops → t.flag (stopReg st sSTOP_CMT_STAT) 9 = false
  flen : t.frame.flen48 = s.newFlen / 48
  last : t.her.cmt.last = some s.frame.rcs
  prep : t.her.prep = []

theorem bankReg_ne_status {a : Nat} (ha : bankReg a) : a ≠ gCOMMIT_STATUS :=
  fun he => not_bankReg_global (by decide) (he ▸ ha)

/-- A state whose tables have swapped is committed, and settles (R436). -/
theorem Swapped.of_committed {s u t : State} (hturned : ∀ a, bankReg a → swapTurns s.her.scope a →
      u.fld a 0 1 = 1 - s.fld a 0 1) (hkept : ∀ a, bankReg a → ¬ swapTurns s.her.scope a → u.fld a 0 1 = s.fld a 0 1)
    (hflen : u.frame.flen48 = s.newFlen / 48) (hlast : u.her.cmt.last = some s.frame.rcs)
    (ht : Settles (u.setCmtState cmCOMMITTED).imgStale t) : Swapped s t := by
  have hstale := Changes.imgStale freeReg (u.setCmtState cmCOMMITTED)
  have hreg (a : Nat) : (u.setCmtState cmCOMMITTED).imgStale.reg a = (u.setCmtState cmCOMMITTED).reg a :=
    State.reg_congr (hstale.parts .regs (by decide)) a
  have hframe : (u.setCmtState cmCOMMITTED).imgStale.frame = u.frame := hstale.parts .frame (by decide)
  have hher : (u.setCmtState cmCOMMITTED).imgStale.her = u.her := hstale.parts .her (by decide)
  have hstate : (u.setCmtState cmCOMMITTED).fld gCOMMIT_STATUS 0 3 = cmCOMMITTED :=
    State.fld_setFld_same u _ 0 3 _ (by decide)
  have hbank {a : Nat} (ha : bankReg a) : t.fld a 0 1 = u.fld a 0 1 :=
    State.fld_congr ((ht.banks a ha).trans ((hreg a).trans
      (State.reg_setFld_other u _ _ _ _ _ (bankReg_ne_status ha)))) 0 1
  exact {
    state := (State.fld_congr (ht.status.trans (hreg _)) 0 3).trans hstate
    turned := fun a ha hturn => (hbank ha).trans (hturned a ha hturn)
    kept := fun a ha hturn => (hbank ha).trans (hkept a ha hturn)
    thawed := ht.thawed
    flen := by rw [ht.frame, hframe, hflen]
    last := by rw [ht.her, hher, hlast]
    prep := by rw [ht.her] }

theorem swapped_swapAll {s : State} (hok : s.listOk s.her.cmt.items = true) : Swapped s s.swapAll := by
  have htables := Turns.swapTables s
  have hher := htables.parts .her (by decide)
  have hframe := htables.parts .frame (by decide)
  rw [State.swapAll_eq]
  generalize s.swapRings.swapStops s.newFlen (s.newFlen != s.frameLen) = u at htables hher hframe ⊢
  have hlist : Lists u u.writeList := .writeList (s₀ := s) (by rw [hher]; exact hok)
  have hbank {a : Nat} (ha : bankReg a) : u.writeList.fld a 0 1 = u.fld a 0 1 :=
    hlist.changes.fld (fun hfree => hfree (.inl ha)) 0 1
  refine .of_committed (fun a ha hturn => ?_) (fun a ha hturn => ?_) rfl ?_ (settles_cmtSettle _)
  · exact (hbank ha).trans (htables.turned a ha hturn)
  · exact (hbank ha).trans (htables.kept a ha hturn)
  · exact congrArg some (hlist.rcs.trans (congrArg Frame.rcs hframe))

section
variable {s t u : State}

theorem Swapped.spares (h : Swapped s t) (hu : Spares t u) : Swapped s u := by
  have hframe := hu.parts .frame (by decide)
  have hher := hu.parts .her (by decide)
  exact {
    state := (hu.fld (fun hfree => hfree (.inr (.inl rfl))) 0 3).trans h.state
    turned := fun a ha hturn => (hu.fld (fun hfree => hfree (.inl ha)) 0 1).trans (h.turned a ha hturn)
    kept := fun a ha hturn => (hu.fld (fun hfree => hfree (.inl ha)) 0 1).trans (h.kept a ha hturn)
    thawed := fun st hst => (hu.flag (fun hfree => hfree (.inr (.inr ⟨st, hst, rfl⟩))) 9).trans (h.thawed st hst)
    flen := (congrArg Frame.flen48 hframe).trans h.flen
    last := (congrArg (fun v : HerSt => v.cmt.last) hher).trans h.last
    prep := (congrArg HerSt.prep hher).trans h.prep }

/-- CAUSE is a field of COMMIT_STATUS beside STATE. -/
theorem Swapped.setCmtCause (h : Swapped s t) (v : Nat) : Swapped s (t.setCmtCause v) where
  state := (State.fld_setFld_below t gCOMMIT_STATUS 3 4 v 0 3 (by decide) (by decide)).trans h.state
  turned a ha hturn := (State.fld_setFld_other t _ a 3 4 v 0 1 (bankReg_ne_status ha)).trans (h.turned a ha hturn)
  kept a ha hturn := (State.fld_setFld_other t _ a 3 4 v 0 1 (bankReg_ne_status ha)).trans (h.kept a ha hturn)
  thawed st hst := (State.flag_congr (State.reg_setFld_other t _ _ 3 4 v
    (stopReg_ne_global (by decide) st _)) 9).trans (h.thawed st hst)
  flen := h.flen
  last := h.last
  prep := h.prep

/-- Which bank is active after the swap. -/
theorem Swapped.fld (h : Swapped s t) {a : Nat} (ha : bankReg a) {P : Prop} [Decidable P]
    (hturn : swapTurns s.her.scope a ↔ P) : t.fld a 0 1 = if P then 1 - s.fld a 0 1 else s.fld a 0 1 := by
  split
  case isTrue hP => exact h.turned a ha (hturn.mpr hP)
  case isFalse hP => exact h.kept a ha fun hA => hP (hturn.mp hA)

end

/-! ### What turns over -/

section
variable {k : Nat}

theorem swapTurns_ring {r : Nat} (hr : r < nRings) : swapTurns k (ringReg r rSTAMP_STAT) ↔ k % 2 = 1 := by
  refine ⟨?_, fun hk => .inl ⟨hk, r, hr, rfl⟩⟩
  rintro (⟨hk, -⟩ | ⟨st, hst, hturn⟩)
  · exact hk
  · obtain ⟨o, ho, he⟩ := stopTurns_offset hturn
    exact absurd he (ringReg_ne_stopReg hst ho)

theorem swapTurns_stop {st o : Nat} (hst : st < nStops) (ho : o < 0x4000) :
    swapTurns k (stopReg st o) ↔ stopTurns k st (stopReg st o) := by
  refine ⟨?_, fun hturn => .inr ⟨st, hst, hturn⟩⟩
  rintro (⟨-, r, -, he⟩ | ⟨st', -, hturn⟩)
  · exact absurd he.symm (ringReg_ne_stopReg hst ho)
  · obtain ⟨o', ho', he⟩ := stopTurns_offset hturn
    obtain ⟨rfl, -⟩ := stopReg_inj ho ho' he
    exact hturn

theorem swapTurns_flow {st : Nat} (hst : st < nStops) : swapTurns k (stopReg st sFLOW_STAT) ↔ k / 2 % 2 = 1 := by
  rw [swapTurns_stop hst (by decide)]
  refine ⟨?_, fun hk => .inl (.inl ⟨hk, rfl⟩)⟩
  rintro ((⟨hk, -⟩ | ⟨-, he⟩) | ⟨-, he⟩)
  · exact hk
  · exact absurd he tableReg_ne
  · exact absurd he tableReg_ne

theorem swapTurns_sched {st : Nat} (hst : st < nStops) : swapTurns k (stopReg st sSCHED_STAT) ↔ k / 4 % 2 = 1 := by
  rw [swapTurns_stop hst (by decide)]
  refine ⟨?_, fun hk => .inl (.inr ⟨hk, rfl⟩)⟩
  rintro ((⟨-, he⟩ | ⟨hk, -⟩) | ⟨-, he⟩)
  · exact absurd he tableReg_ne
  · exact hk
  · exact absurd he tableReg_ne

theorem swapTurns_gate {st : Nat} (hst : st < nStops) : swapTurns k (stopReg st sGL_STAT) ↔ k / 8 % 2 = 1 := by
  rw [swapTurns_stop hst (by decide)]
  refine ⟨?_, fun hk => .inr ⟨hk, rfl⟩⟩
  rintro ((⟨-, he⟩ | ⟨-, he⟩) | ⟨hk, -⟩)
  · exact absurd he tableReg_ne
  · exact absurd he tableReg_ne
  · exact hk

end

section
variable {s t : State}

theorem State.newFlen_kept (h : s.her.cmt.frame = false) : s.newFlen / 48 = s.frame.flen48 := by
  simp [State.newFlen, h]

theorem State.newFlen_commit (h : s.her.cmt.frame = true) : s.newFlen / 48 = s.her.cmt.flen := by
  simp [State.newFlen, h]

/-- The frame length after a swap: out of its range it stays as it was (R435). -/
theorem State.flen48_keepSwap (s t : State) : (s.keepSwap t).frame.flen48 =
    if 10 ≤ t.frame.flen48 ∧ t.frame.flen48 ≤ 168 then t.frame.flen48 else s.frame.flen48 := rfl

/-- What a swap of the commit of `s` is seen to do. -/
def SwapSeen (c : Instr) (s t : State) : Prop :=
  t.cmtState = cmCOMMITTED ∧ (c = .commitLate → t.fld gCOMMIT_STATUS 3 4 = 7)
  ∧ (∀ r, r < nRings → t.fld (ringReg r rSTAMP_STAT) 0 1 =
      if s.her.scope % 2 = 1 then 1 - s.fld (ringReg r rSTAMP_STAT) 0 1 else s.fld (ringReg r rSTAMP_STAT) 0 1)
  ∧ (∀ st, st < nStops →
      t.fld (stopReg st sFLOW_STAT) 0 1 = (if s.her.scope / 2 % 2 = 1 then 1 - s.fld (stopReg st sFLOW_STAT) 0 1
        else s.fld (stopReg st sFLOW_STAT) 0 1)
      ∧ t.fld (stopReg st sSCHED_STAT) 0 1 = (if s.her.scope / 4 % 2 = 1 then
        1 - s.fld (stopReg st sSCHED_STAT) 0 1 else s.fld (stopReg st sSCHED_STAT) 0 1)
      ∧ t.fld (stopReg st sGL_STAT) 0 1 = (if s.her.scope / 8 % 2 = 1 then
        1 - s.fld (stopReg st sGL_STAT) 0 1 else s.fld (stopReg st sGL_STAT) 0 1)
      ∧ t.flag (stopReg st sSTOP_CMT_STAT) 9 = false)
  ∧ (s.her.cmt.frame = false → t.frame.flen48 = s.frame.flen48)
  ∧ (s.her.cmt.frame = true → 10 ≤ s.her.cmt.flen → s.her.cmt.flen ≤ 168 → t.frame.flen48 = s.her.cmt.flen)
  ∧ t.frame.fpos = s.frame.fpos ∧ t.frame.frameCnt = s.frame.frameCnt
  ∧ t.her.cmt.last = some s.frame.rcs ∧ t.her.prep = [] ∧ t.pending = s.pending

theorem Swapped.seen {c : Instr} (h : Swapped s t) (hcause : c = .commitLate → t.fld gCOMMIT_STATUS 3 4 = 7) :
    SwapSeen c s (s.keepSwap t) := by
  refine ⟨h.state, hcause, fun r hr => h.fld (.inr ⟨r, hr, rfl⟩) (swapTurns_ring hr), fun st hst =>
    ⟨h.fld (bankReg_stop hst (by decide)) (swapTurns_flow hst),
      h.fld (bankReg_stop hst (by decide)) (swapTurns_sched hst),
      h.fld (bankReg_stop hst (by decide)) (swapTurns_gate hst), h.thawed st hst⟩,
    fun hframe => ?_, fun hframe hlo hhi => ?_, rfl, rfl, h.last, h.prep, rfl⟩
  · rw [State.flen48_keepSwap, h.flen, State.newFlen_kept hframe]
    exact ite_self _
  · rw [State.flen48_keepSwap, h.flen, State.newFlen_commit hframe, if_pos ⟨hlo, hhi⟩]

/-- A commit that is decided swaps when its frame begins (R436). -/
theorem exec_commitSwap (hdue : s.swapDue = true) (hstate : s.cmtState = cmDECIDED) :
    exec .commitSwap s = .next (s.keepSwap s.swapAll) := if_pos ⟨hdue, hstate⟩

/-- The state of a die that has swapped late and says so (R437). -/
def State.swappedLate (s : State) : State :=
  (s.swapAll.setCmtCause 7).raiseHearth sevFATAL caCOMMIT_LATE (specGen 0 0 0 0 0 0 s.frame.frameCnt.toNat)

theorem exec_commitLate (hdue : s.swapDue = true) (hstate : s.cmtState = cmIN_DOUBT) :
    exec .commitLate s = .next (s.keepSwap s.swappedLate) := if_pos ⟨hdue, hstate⟩

theorem swapped_swappedLate (hok : s.listOk s.her.cmt.items = true) : Swapped s s.swappedLate :=
  ((swapped_swapAll hok).setCmtCause 7).spares (.raiseHearth _ _ _ _)

theorem State.cause_swappedLate (s : State) : s.swappedLate.fld gCOMMIT_STATUS 3 4 = 7 := by
  unfold State.swappedLate
  rw [(Spares.raiseHearth _ _ _ _).fld (fun hfree => hfree (.inr (.inl rfl)))]
  exact State.fld_setFld_same _ _ 3 4 7 (by decide)

/-- A decided commit swaps (R436). -/
theorem completes_commitSwap (hdue : s.swapDue = true) (hok : s.listOk s.her.cmt.items = true)
    (hstate : s.cmtState = cmDECIDED) : completes .commitSwap s (SwapSeen .commitSwap s) :=
  ⟨_, exec_commitSwap hdue hstate, (swapped_swapAll hok).seen nofun⟩

/-- A die in doubt that has its COMMIT swaps late (R437). -/
theorem completes_commitLate (hdue : s.swapDue = true) (hok : s.listOk s.her.cmt.items = true)
    (hstate : s.cmtState = cmIN_DOUBT) : completes .commitLate s (SwapSeen .commitLate s) :=
  ⟨_, exec_commitLate hdue hstate, (swapped_swappedLate hok).seen fun _ => s.cause_swappedLate⟩

end

/-- Settles O59: each table of the scope turns its bank over and what follows the swap in its first rc, the register
list, QCMDs and sequencer work that waited, and the record of a late swap, turns none. -/
theorem commitsSwapAtTheFrameBoundary : Obligations.CommitsSwapAtTheFrameBoundary := by
  unfold Obligations.CommitsSwapAtTheFrameBoundary
  have hnotDue {s : State} {n : Nat} (hnot : s.swapDue = false ∨ s.cmtState ≠ n) :
      ¬ (s.swapDue = true ∧ s.cmtState = n) := by
    rintro ⟨hdue, hstate⟩
    rcases hnot with h | h
    · exact absurd (hdue.symm.trans h) (by decide)
    · exact h hstate
  refine ⟨fun s c hdue hok hcmd => ?_, fun s hdue hok => ⟨fun hstate => ?_, fun hstate => ?_⟩,
    fun s => ⟨fun hnot => ⟨s, if_neg (hnotDue hnot), rfl⟩, fun hnot => ⟨s, if_neg (hnotDue hnot), rfl⟩⟩⟩
  · rcases hcmd with ⟨rfl, hstate⟩ | ⟨rfl, hstate⟩
    · exact completes_commitSwap hdue hok hstate
    · exact completes_commitLate hdue hok hstate
  · exact completes_mono (completes_commitSwap hdue hok hstate) fun _ h => h.1
  · exact completes_mono (completes_commitLate hdue hok hstate) fun _ h => h.1

end Sys2Proof.Machine

end
